-- ==== Sys2Proof/Word.lean ====
section
/-! DEFINITION. The word and byte types of the Z-1024 and their plainest arithmetic (R18, R19). -/

namespace Sys2Proof

/-- A register word: registers are 32 bits wide (R19). -/
abbrev Word := BitVec 32

/-- A byte of a structure in host memory, device memory or on media. -/
abbrev Byte := BitVec 8

end Sys2Proof
end

