-- ==== Sys2Proof/Types.lean ====
section
/-! DEFINITION. The data types of the Z-1024's objects: what commands carry and what the state holds.
All are plain data. -/

namespace Sys2Proof

/-- A table keyed by a number, in rising order of the key; an unlisted key holds the default the reader names. -/
abbrev Tab (α : Type) := List (Nat × α)

/-- What the host memory returned for a command: the descriptor or source list (LIST of R353) and the
buffer the command reads. `none`: the access ended in an error response (R355). -/
structure HostRead where
  list : Option (List Byte) := some []
  data : Option (List Byte) := some []
  deriving DecidableEq, Repr

/-- A consumed submission entry (R324): the function index x = port × 65 + entry, the local submission queue,
the 64-byte slots, and what its host memory reads return. -/
structure HostCmd where
  x : Nat
  sq : Nat
  slots : List (List Byte)
  read : HostRead := {}
  deriving DecidableEq, Repr

/-- The space a register write names: BAR0 of the management function of a port, or the queue capability of a
function (R313) at an offset within the capability. -/
inductive RegTarget where
  | bar0 (port off : Nat)
  | cap (x off : Nat)
  deriving DecidableEq, Repr

/-- What begins a FUNCTION reset (R345). -/
inductive FnResetCause where
  | flr
  | vfEnableClear
  deriving DecidableEq, Repr

/-- The outcome of reading one COPY_FORWARD source by the READ path (R149). -/
inductive SourceRead where
  | ok (bytes : List Byte)
  | failed (status : Nat)
  deriving DecidableEq, Repr

/-- What a drive's sense data reports beside a command's outcome (R205): a hardware error, or a failure prediction. -/
inductive DriveSense where
  | hardware
  | prediction
  deriving DecidableEq, Repr

/-- The outcome of one chunk read: the bytes of the requested range, an unreadable sector, or a failed header or
payload hash (R199, R222). -/
inductive ChunkOutcome where
  | data (bytes : List Byte)
  | unreadable
  | hashBad
  deriving DecidableEq, Repr

/-- What the tide finds in one stripe (R233): positions that fail step 2, positions with an unreadable sector, whether VERIFY
reports a mismatch, and the directory slots whose extent hash fails. -/
structure TideFinding where
  lost : List Nat
  unreadable : List Nat
  mismatch : Bool
  badExtents : List Nat
  deriving DecidableEq, Repr

/-- The result of the in-line ECC check of one block read (R551). -/
inductive EccResult where
  | clean | corrected | uncorrectable
  deriving DecidableEq, Repr

/-- An error the cache's arrays show on a fill or lookup (R578), in a way. -/
inductive CacheError where
  | none | corrected (way : Nat) | refilled (way : Nat)
  deriving DecidableEq, Repr

/-- One access of the metadata cache: device address, requester class, port, and whether a write (R570). -/
structure CacheAccess where
  addr : Nat
  cls : Nat
  port : Nat
  isWrite : Bool
  deriving DecidableEq, Repr

/-- An event as a unit raises it (R603, R606): code, severity, INSTANCE, DETAIL bytes, and the device time of the raise. -/
structure RaisedEvent where
  code : Nat
  sev : Nat
  inst : Nat
  detail : List Byte
  time : Nat
  deriving DecidableEq, Repr

/-- One event record (R603). -/
structure EvRecord where
  code : Nat
  sev : Nat
  timeUnset : Bool
  standby : Bool
  suppressed : Nat
  seq : Nat
  time : Nat
  lost : Nat
  inst : Nat
  detail : List Byte
  snapshot : List (Nat × Word)
  deriving DecidableEq, Repr

/-- The kind of a drive label (R281). -/
inductive LabelKind where
  | void | spare | member
  deriving DecidableEq, Repr

/-- Member states (chapter 02). -/
inductive MemberState where
  | candidate | spare | active | suspect | failed | retiring | retired | foreign
  deriving DecidableEq, Repr

/-- One member entry of a pool descriptor (R282): slot, world-wide name and state. -/
structure MemberEntry where
  slot : Nat
  wwn : Nat
  state : MemberState
  deriving DecidableEq, Repr

/-- What a pool descriptor says of the pool's place and members (R282). -/
structure DescInfo where
  pool : Nat
  side : Nat
  seq : Nat
  uuid : Nat
  sill : List Nat
  journal : List Nat
  members : List MemberEntry
  deriving DecidableEq, Repr

/-- What the device reads from a drive when its link comes up (R385, R393, R394): identity, capacity and the newest
valid label. -/
structure DriveInfo where
  wwn : Nat
  serial : List Byte
  capacity : Nat
  block : Nat
  zoned : Bool
  zoneMiB : Nat
  openZones : Nat
  flash : Bool
  sata : Bool
  ports : Nat
  reserveOk : Bool
  expander : Bool
  spinning : Bool
  rate : Nat
  label : Option LabelKind
  labelSeq : Nat
  labelFront : Nat
  labelRear : Nat
  labelPair : Nat
  desc : Option DescInfo
  foreignLevel : Bool
  deriving DecidableEq, Repr

/-- The line fit of a pulse-load test (R443): V1 in mV, S in mV per s, I in mA, the residual in mV rms. -/
structure PulseFit where
  v1Mv : Nat
  sMvPerS : Nat
  iMa : Nat
  residualMv : Nat
  deriving DecidableEq, Repr

/-- The fields of a HELLO frame (R460). -/
structure HelloFrame where
  protoMin : Nat
  protoMax : Nat
  side : Nat
  ownsPools : Bool
  pairUuid : Nat
  flushCap : Nat
  deriving DecidableEq, Repr

/-- Pool states (chapter 02). -/
inductive PoolState where
  | none | assembling | online | degraded | offline | partner | retiring
  deriving DecidableEq, Repr

/-- Set states (chapter 02). -/
inductive SetState where
  | unused | active | degraded | rebuilding | retiring | retired
  deriving DecidableEq, Repr

/-- Stripe states (chapter 02). -/
inductive StripeState where
  | free | opened | sealed | written | released | broken
  deriving DecidableEq, Repr

/-- Band states (R63). -/
inductive BandState where
  | free | opened | full | drained | sill | label | substitute | bad
  deriving DecidableEq, Repr

/-- Scarf states (SE_POOL_n_SCARF). -/
inductive ScarfState where
  | none | copying | copied | committing | aborting | stalled
  deriving DecidableEq, Repr

/-- Peer states (PL_STATUS.PEER). -/
inductive PeerState where
  | unpaired | training | hello | copying | paired | silent | lost | fenced | conflict
  deriving DecidableEq, Repr

/-- Code parameters of one layout generation (R43, R282): chunk is 0: 256 KiB, 1: 1 MiB, 2: 4 MiB, 3: 16 MiB. -/
structure Params where
  k : Nat
  m : Nat
  chunk : Nat
  bandMiB : Nat
  d : Nat
  single : Bool
  gen : Nat
  deriving DecidableEq, Repr

/-- Policies of a pool that are not media content (R374). -/
structure Policy where
  openLimit : Nat
  sealMs : Nat
  wake : Nat
  adoptSlot : Bool
  readWaitS : Nat
  deferS : Nat
  tidePeriodD : Nat
  tideWake : Nat
  tidePaused : Bool
  deriving DecidableEq, Repr

/-- One record of the loss report (R228). -/
structure LossRec where
  kind : Nat
  cause : Nat
  tagKnown : Bool
  timeUnset : Bool
  time : Nat
  stripe : Nat
  off : Nat
  len : Nat
  tag : BitVec 256
  deriving DecidableEq, Repr

/-- One entry of an extent directory (R124) with its ledger bit (R147) and the append that placed it. -/
structure DirEnt where
  off : Nat
  len : Nat
  void : Bool
  releasedAtSeal : Bool
  copied : Bool
  timeUnset : Bool
  seq : Nat
  tag : BitVec 256
  hash : Option (BitVec 256)
  ackTime : Nat
  released : Bool
  cmd : Option Nat
  arrived : Nat
  deriving DecidableEq, Repr

/-- One stripe: its table entry (R67), its directory, its payload while in the window, and the progress of its seal,
writes and checks. -/
structure Stripe where
  state : StripeState
  codeId : Nat
  degraded : Bool
  relocating : Bool
  scarfCopied : Bool
  padded : Bool
  timeUnset : Bool
  repaired : Bool
  imported : Bool
  gen : Nat
  set : Nat
  chunkOffset : Nat
  sealSeq : Nat
  sealTime : Nat
  placement : Nat
  dir : List DirEnt
  nextUnit : Nat
  openSeq : Nat
  sealing : Bool
  data : List (Nat × BitVec 8)
  coded : Bool
  acked : List Nat
  lost : List Nat
  dirLost : Bool
  tideRound : Nat
  newPlace : Option (Nat × Nat)
  newSeal : Nat
  moves : Nat
  oldSet : Nat
  oldOffset : Nat
  oldGen : Nat
  oldSeal : Nat
  returning : Bool
  fromScarf : Bool
  deriving DecidableEq, Repr

/-- One rebuild record of a set (R53, R54). -/
structure RbRec where
  pos : Nat
  cursor : Nat
  failedSlot : Nat
  deriving DecidableEq, Repr

/-- One member set (R53). `failedPos` lists positions whose member is FAILED and has no substitute. -/
structure SetRec where
  state : SetState
  pool : Nat
  k : Nat
  m : Nat
  gen : Nat
  members : List Nat
  failedPos : List Nat
  openBand : Option Nat
  openFill : Nat
  single : Bool
  imported : Bool
  rebuild : List RbRec
  enteredRb : Nat
  passRunning : Bool
  passSubs : List Nat
  held : Bool
  tideDone : Nat
  tideCursor : Nat
  bandOpenLogged : Bool
  fill : Nat
  oddState : Bool
  deriving DecidableEq, Repr

/-- The scarf of a pool (R253 to R272). -/
structure Scarf where
  state : ScarfState
  old : Params
  oldEntries : Nat
  oldSill : List Nat
  oldJournal : List Nat
  oldSillBands : Nat
  oldMembers : List Nat
  newMembers : List Nat
  taken : List (Nat × MemberState)
  returnList : List Nat
  recopy : List Nat
  opened : List Nat
  commitMark : Bool
  deriving DecidableEq, Repr

/-- Recovery progress of a pool being assembled (R185, R186). -/
inductive Recovery where
  | none | waitPartner | resync
  deriving DecidableEq, Repr

/-- A checkpoint being written (R295, R296): what it covers when it began. -/
structure Ckpt where
  gen : Nat
  deltaSeq : Nat
  released : List Nat
  reason : Nat
  deriving DecidableEq, Repr

/-- A journal record waiting in the gather block (R180, R294). -/
inductive JRec where
  | bandOpen (set band : Nat)
  | fill (set band commit : Nat)
  | reserve (first count : Nat)
  | checkpoint (gen jseq : Nat)
  | clean (sealSeq appendSeq : Nat)
  | members (slots : List Nat)
  deriving DecidableEq, Repr

/-- A sill log of one member (R290 to R292): the LOG_SEQ of its last record, the blocks written since it began, and the blocks after
which the END record of the checkpoint written last, of the latest complete one, and of the one before it (`keep`) stand. -/
structure SillLog where
  seq : Nat
  pos : Nat
  last : Nat
  done : Nat
  keep : Nat
  deriving DecidableEq, Repr

/-- One pool. -/
structure Pool where
  state : PoolState
  side : Nat
  uuid : Nat
  name : List Byte
  params : Params
  policy : Policy
  members : List Nat
  sill : List Nat
  journal : List Nat
  sillBands : Nat
  genTop : Nat
  tableEntries : Nat
  created : Nat
  imported : Bool
  nextFresh : Nat
  freed : List Nat
  reserved : Nat
  reserveQueued : Nat
  sealSeq : Nat
  appendSeq : Nat
  jseq : Nat
  descSeq : Nat
  deltaCount : Nat
  deltaSeq : Nat
  ckptGen : Nat
  logs : Tab SillLog
  ckpt : Option Ckpt
  ckptWanted : Bool
  gather : List JRec
  jBlock : List JRec
  jWritten : List Nat
  jBandsSince : Nat
  openSeq : Nat
  lossFirst : Nat
  loss : List LossRec
  lossOverflow : Bool
  lossDropped : Nat
  scarf : Option Scarf
  round : Nat
  roundStart : Nat
  lastDays : Nat
  roundOver : Bool
  verified : Nat
  tideLate : Bool
  tideWaking : Bool
  tideWake : Option Nat
  tideMark : Nat
  tideLog : List (Nat × Nat)
  recovery : Recovery
  resynced : Nat
  lostStripes : Nat
  startLayer : Nat
  writesStopped : Bool
  giving : Option Nat
  labelWaits : Nat
  protWaits : List Nat
  failedWwn : List Nat
  deriving DecidableEq, Repr

/-- One drive of a slot: what the device read from it, its member state, its error counts and the
times of its unrecovered reads and BAD bands of the last 24 h (R205, R664), whether the device's key is registered (R395) and
its member's reservation made, or cleared by an unpaired device (R396, R453). -/
structure Drive where
  info : DriveInfo
  state : MemberState
  pool : Nat
  linkDown : Bool
  classified : Bool
  ures : List Nat
  bads : List Nat
  timeouts : Nat
  hwErrors : Nat
  spinFails : Nat
  repairs : Nat
  cause : Nat
  substFor : Option Nat
  labelSeq : Nat
  labelFront : Nat
  labelRear : Nat
  labelBack : Bool
  labelWant : Option LabelKind
  descSeq : Nat
  prRegistered : Bool
  prHeld : Bool
  deriving DecidableEq, Repr

/-- One entry of the protection table (R304). -/
structure ProtEntry where
  quota : Nat
  admin : Nat
  rights : BitVec 256
  deriving DecidableEq, Repr

/-- One slot's entry of the SLOTS section (chapter 15). -/
structure SlotCfg where
  enclosure : Nat
  failureGroup : Nat
  wakeGroup : Nat
  profile : Nat
  maxRate : Nat
  deriving DecidableEq, Repr

/-- One enclosure's entry of the ENCLOSURES section; the mode is that of the chain of the same number. -/
structure EncCfg where
  iMaxDa : Nat
  iFixedDa : Nat
  extended : Bool
  deriving DecidableEq, Repr

/-- One spin profile (R415). -/
structure Profile where
  iPeakDa : Nat
  tPeakDs : Nat
  iRunDa : Nat
  deriving DecidableEq, Repr

/-- One analog input of CLIMATE_IO (R419). -/
structure AinCfg where
  role : Nat
  enc : Nat
  gain : Int
  offset : Int
  min : Int
  max : Int
  deriving DecidableEq, Repr

/-- One sensor of CLIMATE_IO (R421): profile 0 is none. -/
structure SnsCfg where
  profile : Nat
  enc : Nat
  deriving DecidableEq, Repr

/-- One fan of CLIMATE_IO. -/
structure FanCfg where
  engine : Option Nat
  enc : Nat
  tachMin : Nat
  deriving DecidableEq, Repr

/-- One heater of CLIMATE_IO. -/
structure HtrCfg where
  engine : Option Nat
  testLoad : Bool
  deriving DecidableEq, Repr

/-- A setting-out image as its sections give it (R479 to R485). Tables list what the image sets; an absent
entry takes the default of chapter 15. -/
structure Image where
  imgSeq : Nat
  keySlot : Nat
  headerHash : BitVec 256
  pairMode : Bool
  side : Nat
  partnerWaitS : Nat
  sasBase : Nat
  fixedEu : Nat
  registers : List (Nat × Nat × Nat)
  failure : List Nat
  vectors : Tab Nat
  protect : Option (Tab ProtEntry)
  slots : Tab SlotCfg
  enclosures : Tab EncCfg
  profiles : Tab Profile
  ains : Tab AinCfg
  sensors : Tab SnsCfg
  fans : Tab FanCfg
  heaters : Tab HtrCfg
  failsafeDuty : Nat
  chgTargetDv : Nat
  chgFullDv : Nat
  stream1 : Nat
  loops : Tab (List Nat)
  pools : Tab Policy
  deriving DecidableEq, Repr

/-- What a start reads from the configuration flash, the straps and the security unit (R473 to R478, R516, R639):
the directory's lengths of FW0, FW1, IMG0 and IMG1,
each slot's refusal reason (0 passes) and, for a passing image, its content. -/
structure BootInfo where
  dirValid : Bool
  fwPref : Nat
  imgPref : Nat
  lens : List Nat
  fwReason0 : Nat
  fwReason1 : Nat
  fwSvn : Nat
  fwVersion : Nat
  vendorKey : Nat
  measRom : BitVec 256
  measFw : BitVec 256
  imgReason0 : Nat
  imgReason1 : Nat
  image0 : Option Image
  image1 : Option Image
  imgFaultType : Nat
  imgFaultByte : Nat
  identityOk : Bool
  sideSel : Nat
  haSplit : Bool
  hbSplit : Bool
  testMode : Bool
  trained : Nat
  slotGib : Nat
  targets : Nat
  readyMs : Nat
  deriving DecidableEq, Repr

/-- The tables of one pool as its latest complete checkpoint, the deltas or a standby copy hold them. -/
structure PoolTables where
  pool : Pool
  sets : Tab SetRec
  stripes : Tab Stripe
  bands : Tab (BandState × Nat)
  deriving DecidableEq, Repr

/-- One delta record (R152, R463): a change of a stripe table entry, given by its 16 bytes (R67), or of a member's band. -/
inductive DeltaRec where
  | stripe (pool stripe : Nat) (entry : List Byte)
  | band (slot band : Nat) (state : BandState) (set : Nat)
  deriving DecidableEq, Repr

/-- What a pool's journal shows at start (R185). -/
inductive JournalTail where
  | clean | open | unreadable
  deriving DecidableEq, Repr

/-- A chunk header the resynchronisation reads (R187): the member's slot, the chunk offset in units of 256 KiB, the first 4 KiB of the
chunk, and whether the payload passes the header's hash. -/
structure FoundChunk where
  slot : Nat
  off : Nat
  header : List (BitVec 8)
  hashOk : Bool
  deriving DecidableEq, Repr

/-- What the device reads when it recovers a pool (R185 to R191, R625 to R629): the 4 KiB blocks of each readable sill log of the
layout generations the descriptor names, under its slot and generation, from band 1 on; the newest descriptor; the window's stripes in the partner's mirror; for SEALED stripes the
positions whose chunk already matches and those past a zoned write pointer; and for a resynchronisation the chunk headers it reads, the
directories of the stripes it keeps, and the extents that fail their HASH. -/
structure RecoveryInfo where
  sill : List (Nat × Nat × List (List (BitVec 8)))
  desc : Option DescInfo
  mirror : Tab Stripe
  matching : Tab (List Nat)
  past : List Nat
  chunks : List FoundChunk
  dirs : Tab (List (BitVec 8))
  badExtents : List (Nat × Nat)
  otherFamily : Bool
  partnerHoldsReservation : Bool
  deriving DecidableEq, Repr

end Sys2Proof
end

