-- ==== Sys2Proof/Syntax.lean ====
section
/-! DEFINITION. The commands of the Z-1024: one constructor for each row of spec/opcode_table.json. -/

namespace Sys2Proof

/-- One command. Rows of the host command set carry the consumed submission entry; rows that are events carry what the
outside delivers with them. -/
inductive Instr where
  /-- REGISTER_WRITE (R19). An aligned 32-bit write to a register that has no row of its own sets its RW, RW1C, RW1S or RWO fields as the access types give. -/
  | registerWrite (t : RegTarget) (v : Word)
  /-- REG_ACCESS (R20). An unaligned, non-32-bit or unmapped register access is completed without effect, reads 0 and records an event. -/
  | regAccess (port off size : Nat) (isWrite : Bool)
  /-- LATCHED_LOW_HALF_READ (R23). A read of the low half of a 64-bit counter returns it and latches the high half for the next read. -/
  | latchedLowHalfRead (off : Nat)
  /-- ERROR_COUNTER_READ (R41). A read of QM_FN_x_ERR returns and clears the count and re-arms the single stray-doorbell event. -/
  | errorCounterRead (x : Nat)
  /-- DB_SQ_TAIL_WRITE (R323). A write to a submission doorbell is accepted when within the ring and advances the announced tail. -/
  | dbSqTailWrite (x n size : Nat) (v : Word)
  /-- DB_CQ_HEAD_WRITE (R338). A write to a completion doorbell advances the head, moves spill entries into freed slots, reopens the breakwater and may send an MSI-X message. -/
  | dbCqHeadWrite (x n size : Nat) (v : Word)
  /-- DOORBELL_PAIR_WRITE (R39). A 64-bit aligned doorbell write is accepted as a tail write followed by a head write. -/
  | doorbellPairWrite (x n : Nat) (aligned : Bool) (tail head : Word)
  /-- CTLQ_ENABLE (R313). A write of KQ_CTLQ.EN = 1 creates local queue 0, or leaves EN at 0 and counts an error when its fields, quota or spill reservation fail. -/
  | ctlqEnable (x : Nat) (v : Word)
  /-- CTLQ_DISABLE (R321). A write of KQ_CTLQ.EN = 0 deletes local queue 0, or is ignored and counted while other local numbers are held. -/
  | ctlqDisable (x : Nat)
  /-- QC_ARB_WRITE (R335). A write to QC_N_SQ_ARB sets WEIGHT and BURST, clamped, effective from the next arbitration round. -/
  | qcArbWrite (port q : Nat) (v : Word)
  /-- SQ_FETCH (R333). The arbiter visits an eligible submission queue and consumes up to its burst of entries, reserving a completion place for each. -/
  | sqFetch (port : Nat) (reads : List HostRead)
  /-- SQ_SLOT_READ (R327). A 64-byte slot read returns and the entry is executed once all its slots carry valid lap marks. -/
  | sqSlotRead (q : Nat) (idx : Word) (slot : Option (List Byte)) (reads : List HostRead)
  /-- SLOT_RECHECK (R328). Every 2 us the device reads again an announced slot whose lap mark was invalid. -/
  | slotRecheck (q : Nat)
  /-- SLOT_LAP_TIMEOUT (R328). After 1 ms of an invalid lap mark the entry is consumed and completed with MALFORMED_LENGTH or MALFORMED. -/
  | slotLapTimeout (q : Nat)
  /-- SQ_POLL (R330). Every POLL_US the device reads slots from the consumer index and consumes any entry with valid lap marks. -/
  | sqPoll (q : Nat)
  /-- CQ_COAL_TIMER (R340). COAL_US after the first unsignalled completion, the completion queue sends its MSI-X message. -/
  | cqCoalTimer (q : Nat)
  /-- MSIX_UNMASK (R341). Unmasking a vector with its pending bit set sends the held message. -/
  | msixUnmask (x vector : Nat)
  /-- QUEUE_CREATE (R319). QUEUE_CREATE checks its fields, binds a device queue number and creates a submission or completion queue. -/
  | queueCreate (c : HostCmd)
  /-- QUEUE_DELETE (R320). QUEUE_DELETE stops and removes a queue, discarding unconsumed entries, or refuses a completion queue still fed. -/
  | queueDelete (c : HostCmd)
  /-- FUNCTION_RESET (R345). An FLR or VF Enable clear stops the function, settles each consumed command, lists orphans, deletes queues and ends its session. -/
  | functionReset (x : Nat) (cause : FnResetCause)
  /-- PORT_RESET (R346). A PCIe hot reset, link down or PERST_N of a port or split link acts as a FUNCTION reset of each of its functions. -/
  | portReset (port link : Nat)
  /-- ORPHAN_LIST (R378). ORPHAN_LIST writes a function's orphan records from a given pool and sequence. -/
  | orphanList (c : HostCmd)
  /-- ORPHAN_SETTLE (R348). ORPHAN_SETTLE adopts or releases orphan records by append sequence. -/
  | orphanSettle (c : HostCmd)
  /-- APPEND (R116). APPEND is checked and then held for admission, or completed with an error. -/
  | append (c : HostCmd)
  /-- APPEND_ADMIT (R117). When window space or a completion slot frees, held APPENDs that now fit are admitted and placed. -/
  | appendAdmit
  /-- PAYLOAD_ARRIVAL (R129). A host memory read of APPEND payload returns, and its bytes go to the window, the assembly buffer, the hash engine and the mirror. -/
  | payloadArrival (id off : Nat) (bytes : List Byte)
  /-- HOST_ACCESS_ERROR (R355). A host memory access ending in an error response ends the command, and a placed APPEND is voided. -/
  | hostAccessError (id : Nat)
  /-- APPEND_TRANSFER_DONE (R129). When the payload is whole in the window and its hash is final, a window-durable APPEND completes unless it waits for the mirror. -/
  | appendTransferDone (id : Nat)
  /-- SEAL_TIMER_EXPIRY (R134). The pool's seal timer expires for an open stripe and its seal starts. -/
  | sealTimerExpiry (pool stripe : Nat)
  /-- STRIPE_SEAL (R137). Once every placed payload has arrived or failed, the stripe is zero-filled, given a seal sequence and chunk offset, and becomes SEALED. -/
  | stripeSeal (pool stripe : Nat)
  /-- HASH_JOB_COMPLETE (R236). A hash engine job ends and its digest is delivered to its user. -/
  | hashJobComplete (job : Nat)
  /-- CHUNK_WRITE_ACK (R154). A member reports a chunk on stable media; when all have, the stripe is WRITTEN, window pages freed and drive-durable APPENDs complete. -/
  | chunkWriteAck (pool stripe pos : Nat)
  /-- DRIVE_WRITE_FAILED (R66). A drive write fails after retries; its band becomes BAD and unwritten sealed stripes are relocated. -/
  | driveWriteFailed (pool stripe pos : Nat) (conflict : Bool) (sense : Option DriveSense)
  /-- SEAL (R140). SEAL seals every open stripe of the named pool that holds a placement. -/
  | sealCommand (c : HostCmd)
  /-- FLUSH (R141). FLUSH seals the stripes of earlier APPENDs and completes when they are WRITTEN. -/
  | flush (c : HostCmd)
  /-- RELEASE (R367). RELEASE resolves each item at once or adds a pending release record. -/
  | release (c : HostCmd)
  /-- PENDING_RELEASE_RESOLVE (R145). When a stripe's directory becomes readable, its pending records are resolved together. -/
  | pendingReleaseResolve (pool stripe : Nat)
  /-- COPY_FORWARD (R149). COPY_FORWARD reads each source extent and appends it to the target pool. -/
  | copyForward (c : HostCmd) (sources : List SourceRead)
  /-- QUERY_LOCATOR (R366). QUERY_LOCATOR reports the state of an extent without waking a drive. -/
  | queryLocator (c : HostCmd)
  /-- READ (R193). READ checks the locator, finds the extent and reads or reconstructs its chunks. -/
  | read (c : HostCmd)
  /-- CHUNK_READ_DONE (R199). A drive read completes; data is hashed and verified, and errors make chunks lost. -/
  | chunkReadDone (id pos : Nat) (r : ChunkOutcome) (sense : Option DriveSense)
  /-- WAKE_TIMEOUT (R204). A READ that has waited beyond the read wait limit completes with WAKE_TIMEOUT. -/
  | wakeTimeout (id : Nat)
  /-- DEFER_LIMIT_EXPIRY (R204). Under DEFER, the defer limit passes and the held wake is requested. -/
  | deferLimitExpiry (id : Nat)
  /-- DRIVE_COMMAND_TIMEOUT (R205). A drive command times out after 30 s and counts toward SUSPECT or FAILED. -/
  | driveCommandTimeout (slot : Nat)
  /-- DRIVE_LINK_DOWN (R206). A member's link drops and the link-loss grace starts with LINK_DOWN set. -/
  | driveLinkDown (slot : Nat)
  /-- LINK_LOSS_GRACE_EXPIRY (R207). The grace ends; the member fails, or is held when that would exceed m. -/
  | linkLossGraceExpiry (slot : Nat)
  /-- REBUILD_PASS_START (R214). A queued set with enough awake members starts a rebuild pass in margin order. -/
  | rebuildPassStart
  /-- REBUILD_CHUNK_WRITTEN (R214). A substitute reports a rebuilt chunk on stable media and the behind cursors advance. -/
  | rebuildChunkWritten (set : Nat)
  /-- LOSS_CLEAR (R376). LOSS_CLEAR removes loss records below UP_TO and releases cleared STRIPE_LOST stripes. -/
  | lossClear (c : HostCmd)
  /-- RECLAIM_ACTION_DONE (R660). A zone reset or UNMAP completes or fails on a member; the band becomes FREE or BAD there. -/
  | reclaimActionDone (slot band : Nat) (ok : Bool)
  /-- RECLAIM_RETRY (R660). One second after a failed reclaim action it is tried again. -/
  | reclaimRetry (slot band : Nat)
  /-- ZONE_OFFLINE (R389). A zone reporting OFFLINE or READ ONLY makes its band BAD. -/
  | zoneOffline (slot band : Nat) (readOnly : Bool)
  /-- CHECKPOINT_TIMER (R155). The checkpoint period of a pool expires and a checkpoint starts. -/
  | checkpointTimer (pool : Nat)
  /-- CHECKPOINT_COMPLETE (R155). A checkpoint completes on the sill bands, covered deltas are dropped and a CHECKPOINT record journalled. -/
  | checkpointComplete (pool : Nat)
  /-- JOURNAL_GATHER_EXPIRY (R182). After 1 ms of gathering, a journal block is written to the journal members. -/
  | journalGatherExpiry (pool : Nat)
  /-- JOURNAL_FILL_TIMER (R180). The 100 ms FILL interval of a band passes and a FILL record is journalled. -/
  | journalFillTimer (set : Nat)
  /-- WINDOW_RECOMPUTE (R161). The window limit W is recomputed from E_u, B_ebb and F_partner. -/
  | windowRecompute
  /-- WINDOW_STEP_UP (R161). Every 10 s a higher W rises by at most 1 GiB. -/
  | windowStepUp
  /-- ADMIT_CREDIT_TICK (R162). On each 10 ms tick the admission credit grows by a tenth of recently freed bytes. -/
  | admitCreditTick
  /-- EB_RATE_MEASURED (R662). The program-rate measurement on a ready slot completes and B_ebb is updated. -/
  | ebRateMeasured (rateMBs : Nat)
  /-- EBB_ENTRY (R169). PWRFAIL_N low for 2 us starts the ebb of the window to a ready image slot. -/
  | ebbEntry
  /-- EBB_LAST_UPDATE (R661). Every 1 ms during an ebb the elapsed time in the EB_LAST record is updated. -/
  | ebbLastUpdate
  /-- EBB_END (R170). The ebb header is programmed and read back and every domain except PD_AON is gated. -/
  | ebbEnd (headerRead : Bool)
  /-- EBB_RESTART (R170). PWRFAIL_N high for 2 s after an ebb starts the device as after COLD reset. -/
  | ebbRestart (b : BootInfo)
  /-- SLOT_ERASE_DONE (R176). An image slot erase ends and the slot is ready. -/
  | slotEraseDone (slot : Nat) (ok : Bool)
  /-- POOL_RECOVERY (R185). A pool's sill members are readable and it is recovered by the first applicable layer. -/
  | poolRecovery (pool : Nat) (r : RecoveryInfo)
  /-- PARTNER_WAIT_EXPIRY (R186). The layer-2 wait for the partner ends and recovery goes to the next layer. -/
  | partnerWaitExpiry (pool : Nat)
  /-- POOL_RECOVER (R375). POOL_RECOVER ends the partner wait and recovery goes on. -/
  | poolRecover (c : HostCmd)
  /-- TIDE_ROUND_START (R229). A pool's tide round starts at the later of period expiry and the end of the previous round. -/
  | tideRoundStart (pool : Nat)
  /-- TIDE_MARK_TICK (R231). Once a minute the tide mark is recomputed. -/
  | tideMarkTick
  /-- TIDE_STRIPE_VERIFY (R233). The tide reads and checks all chunks of one WRITTEN stripe and acts on its findings. -/
  | tideStripeVerify (pool stripe : Nat) (f : TideFinding)
  /-- TIDE_LATE (R241). A round not ended by E enters LATE and records an event. -/
  | tideLate (pool : Nat)
  /-- TIDE_LATE_REMINDER (R241). Every 7 days while LATE the event is recorded again. -/
  | tideLateReminder (pool : Nat)
  /-- TIDE_WAKE_EXPIRY (R241). After 4 h the tide's held wake is released. -/
  | tideWakeExpiry (pool : Nat)
  /-- POOL_CREATE (R83). POOL_CREATE checks parameters, chooses sill members, builds sets, writes labels and brings the pool ONLINE. -/
  | poolCreate (c : HostCmd)
  /-- POOL_GROW (R86). POOL_GROW adds drives and builds sets for them. -/
  | poolGrow (c : HostCmd)
  /-- POOL_SET (R373). POOL_SET changes the selected pool policies. -/
  | poolSet (c : HostCmd)
  /-- POOL_DELETE (R91). POOL_DELETE retires the pool, reclaims its bands and voids its members' labels. -/
  | poolDelete (c : HostCmd)
  /-- POOL_GIVE (R469). POOL_GIVE seals the pool and hands it to the partner. -/
  | poolGive (c : HostCmd)
  /-- SCARF_START (R253). SCARF_START builds the new layout generation and starts copying. -/
  | scarfStart (c : HostCmd)
  /-- SCARF_COPY_STRIPE (R258). The copier reads one old stripe, rebuilds its data area and seals it in the new generation. -/
  | scarfCopyStripe (pool stripe : Nat) (lost : List Nat)
  /-- SCARF_COMMIT (R268). SCARF_COMMIT writes the commit checkpoint and switches the pool to the new table. -/
  | scarfCommit (c : HostCmd)
  /-- SCARF_OLD_RECLAIM (R268). Once no READ has reads to an old placement, old bands are drained and reclaimed. -/
  | scarfOldReclaim (pool : Nat)
  /-- SCARF_ABORT (R271). SCARF_ABORT returns new stripes to the old generation and reclaims the new layout. -/
  | scarfAbort (c : HostCmd)
  /-- DRIVE_SET (R377). DRIVE_SET spares, unspares, voids, fails, retires or locates a slot's drive. -/
  | driveSet (c : HostCmd)
  /-- RETIRE_COPY_COMPLETE (R89). A band copy of a retiring member completes; when all are done the member is RETIRED. -/
  | retireCopyComplete (slot band : Nat)
  /-- TIME_SET (R15). TIME_SET sets device time and marks it set. -/
  | timeSet (c : HostCmd)
  /-- TELEMETRY_GET (R380). TELEMETRY_GET forms a telemetry page and copies bytes from OFFSET. -/
  | telemetryGet (c : HostCmd)
  /-- EV_READ (R615). EV_READ writes held event records from FROM_SEQ. -/
  | evRead (c : HostCmd)
  /-- EV_CLEAR (R616). EV_CLEAR assigns a CLEARED record, discards the ring and erases the log region. -/
  | evClear (c : HostCmd)
  /-- DEVICE_MODE (R532). DEVICE_MODE requests RUN, HARBOUR or a WARM reset. -/
  | deviceMode (c : HostCmd)
  /-- HARBOUR_PHY_DOWN (R532). 10 ms after the HARBOUR completion the PHYs go down, the DRAM enters self-refresh and domains are gated. -/
  | harbourPhyDown
  /-- STAGE_WRITE (R489). STAGE_WRITE copies a buffer into the staging buffer. -/
  | stageWrite (c : HostCmd)
  /-- STAGE_COMMIT (R490). STAGE_COMMIT verifies staged content and programs it into the flash, or with LENGTH 0 reverts the preference. -/
  | stageCommit (c : HostCmd) (verdict : Nat)
  /-- FLASH_PROGRAM_DONE (R490). Erasing, programming and read-back of a flash slot end and the new directory is written. -/
  | flashProgramDone (ok : Bool)
  /-- SESSION_OPEN (R500). SESSION_OPEN writes a challenge bound to the function and key slot. -/
  | sessionOpen (c : HostCmd)
  /-- SESSION_PROVE (R501). SESSION_PROVE verifies the signature and grants the owner session. -/
  | sessionProve (c : HostCmd)
  /-- SESSION_CLOSE (R503). SESSION_CLOSE ends the issuing function's owner session. -/
  | sessionClose (c : HostCmd)
  /-- CHALLENGE_EXPIRY (R500). A session challenge expires 60 s after issue. -/
  | challengeExpiry (x : Nat)
  /-- SESSION_IDLE_EXPIRY (R503). 60 minutes without an OWNER command end the session. -/
  | sessionIdleExpiry
  /-- PROTECT_SET (R505). PROTECT_SET replaces a function's protection entry under a new epoch. -/
  | protectSet (c : HostCmd)
  /-- PROTECT_COMMIT (R507). PROTECT_COMMIT writes the protection record to the sill members. -/
  | protectCommit (c : HostCmd)
  /-- ATTEST (R521). ATTEST writes a signed attestation report. -/
  | attest (c : HostCmd)
  /-- ENROLL (R513). GO with OP ENROLL programs an owner public key into an empty slot. -/
  | enroll (port : Nat) (v : Word)
  /-- REVOKE_OWNER (R514). GO with OP REVOKE_OWNER blows a slot's revocation fuse unless refused. -/
  | revokeOwner (port : Nat) (v : Word)
  /-- RAISE_SVN (R514). GO with OP RAISE_SVN raises the firmware security version minimum. -/
  | raiseSvn (port : Nat) (v : Word)
  /-- REVOKE_VENDOR (R514). GO with OP REVOKE_VENDOR revokes a vendor key unless in use. -/
  | revokeVendor (port : Nat) (v : Word)
  /-- FUSE_OP (R512). An enrolment operation finishes, clears BUSY and sets RESULT. -/
  | fuseOp (ok : Bool)
  /-- COLD_RESET (R522). PWRGD rises; the device verifies firmware and image and starts from blank state. -/
  | coldReset (b : BootInfo)
  /-- WARM_RESET (R523). RESET_N low for 10 us starts WARM preparation and reset with DRAM retained. -/
  | warmReset (b : BootInfo)
  /-- WARM_PREP_TIMEOUT (R524). Preparation unfinished after 200 ms; channels enter self-refresh and the reset proceeds without a record. -/
  | warmPrepTimeout (b : BootInfo)
  /-- RETENTION_CHECK_DONE (R527). The retention check of the retained window ends and the window is reused or discarded. -/
  | retentionCheckDone (srHeld eccOk recordOk : Bool)
  /-- PWRGD_FALL (R641). PWRGD falls outside EBB and the device stops at once without an ebb. -/
  | pwrgdFall
  /-- HARBOUR_EXIT (R533). HBR_WAKE_N low for 1 ms, or PERST_N rising, brings the device out of HARBOUR. -/
  | harbourExit (byPerst : Bool)
  /-- HARBOUR_TIMER (R533). The PW_HARBOUR_CTL timer expires and the device leaves HARBOUR. -/
  | harbourTimer
  /-- UNIT_RESET_EV (R617). A UNIT reset of the event recorder. -/
  | unitResetEv
  /-- UNIT_RESET_CE (R113). A UNIT reset of the coding engine ends jobs and invalidates its caches. -/
  | unitResetCe
  /-- UNIT_RESET_HE (R530). A UNIT reset of the hash engine ends jobs for resubmission. -/
  | unitResetHe
  /-- UNIT_RESET_MDC (R586). A UNIT reset of the metadata cache invalidates it and clears STALE. -/
  | unitResetMdc
  /-- UNIT_RESET_XM (R602). A UNIT reset of the mover halts every channel. -/
  | unitResetXm
  /-- UNIT_RESET_CL (R449). A UNIT reset of the climate unit with failsafe outputs. -/
  | unitResetCl
  /-- UNIT_RESET_EB (R530). A UNIT reset of the ebb store interface ends operations and restarts an erase. -/
  | unitResetEb
  /-- UNIT_RESET_PL (R530). A UNIT reset of the peer link retrains it with replay kept. -/
  | unitResetPl
  /-- UNIT_RESET_DL (R530). A UNIT reset of a link die drops and brings up all its links. -/
  | unitResetDl (die : Nat)
  /-- UNIT_RESET_COMPLETE (R530). A UNIT reset ends, its busy bit clears and waiting requests are served. -/
  | unitResetComplete (unit : Nat)
  /-- SLACK_IDLE_GATE (R531). A domain idle for its set time is gated in SLACK. -/
  | slackIdleGate (dom : Nat)
  /-- DOMAIN_UNGATE_DONE (R531). An idle-gated domain finishes ungating and the waiting request proceeds. -/
  | domainUngateDone (dom : Nat)
  /-- PW_SLACK_CTL_WRITE (R531). A write to PW_SLACK_CTL enables idle gating or ungates every idle-gated domain. -/
  | pwSlackCtlWrite (port : Nat) (v : Word)
  /-- PD_REQUEST (R539). A write to PW_PD_REQ requests owner gating or ungating of listed domains. -/
  | pdRequest (port : Nat) (v : Word)
  /-- DOMAIN_DRAIN_EXPIRY (R537). A draining domain's 10 ms end; unfinished transfers end with DOMAIN_OFF and it gates. -/
  | domainDrainExpiry (dom : Nat)
  /-- MODE_EPOCH_ACK (R544). A unit answers ACK to PREPARE; when all have, COMMIT is sent. -/
  | modeEpochAck (unit : Nat)
  /-- MODE_ROLLBACK (R546). A unit refuses PREPARE and the epoch is aborted. -/
  | modeRollback (unit : Nat)
  /-- MODE_EPOCH_TIMEOUT (R546). 100 ms after PREPARE without every answer, the epoch is aborted. -/
  | modeEpochTimeout
  /-- MODE_SWITCH_DONE (R544). Every unit has switched and DEV_MODE_EPOCH becomes E. -/
  | modeSwitchDone (unit : Nat)
  /-- MODE_STUCK (R545). A unit fails to switch within 1 ms and a WARM reset without preparation follows. -/
  | modeStuck (b : BootInfo)
  /-- AON_FALLBACK (R543). No AON edge for 1 ms; AON is driven from the MGT divider. -/
  | aonFallback
  /-- PLL_LOCK_LOSS (R543). A PLL loses lock, acting as a link down, die reset or WARM reset. -/
  | pllLockLoss (clock : Nat) (b : BootInfo)
  /-- DIE_TEMP_READ (R654). Every 10 ms die sensors are read, driving THERM_TRIP_N or shutdown. -/
  | dieTempRead (temps : List (Option Int))
  /-- DRAM_READ_COMPLETE (R551). A DRAM block read returns and its in-line ECC is checked. -/
  | dramReadComplete (ch laddr port : Nat) (e : EccResult)
  /-- ROW_LIMIT (R558). A row reaches ROW_LIMIT activations; refresh management and throttle follow. -/
  | rowLimit (ch bank row port : Nat)
  /-- THROTTLE_EXPIRY (R559). A port's activation throttle on a bank ends. -/
  | throttleExpiry (ch bank port : Nat)
  /-- DRAM_TEMP_POLL (R560). Every 32 ms channel temperatures are read and refresh rate adjusted. -/
  | dramTempPoll (ch : Nat) (temp : Int)
  /-- CHANNEL_POWER_DOWN (R561). A channel idle for 128 MEM cycles enters power-down. -/
  | channelPowerDown (ch : Nat)
  /-- MC_RETRAIN_GO (R563). A write of MC_RETRAIN.GO queues retraining of a channel. -/
  | mcRetrainGo (port : Nat) (v : Word)
  /-- RETRAIN_STEP_DONE (R563). One retraining step of a channel ends and the channel serves its queue. -/
  | retrainStepDone (ch : Nat) (pass : Bool)
  /-- MC_FREQ_TARGET_WRITE (R566). A write to MC_FREQ.TARGET starts a mode epoch to change frequency. -/
  | mcFreqTargetWrite (port : Nat) (v : Word)
  /-- MC_DIAG_GO (R565). A write of DIAG_CTL.GO starts the pattern helper in the training area. -/
  | mcDiagGo (port ch : Nat) (v : Word)
  /-- MC_DIAG_DONE (R565). The pattern helper finishes and reports its results. -/
  | mcDiagDone (ch dqFail errors : Nat)
  /-- MDC_FILL_RETURN (R575). A block of a cache fill returns and is delivered and installed. -/
  | mdcFillReturn (a : CacheAccess) (block : Nat) (e : CacheError)
  /-- RANGE (R581). MAINT GO with OP RANGE invalidates lines of an address range. -/
  | mdcRange (port : Nat) (v : Word)
  /-- ALL (R581). MAINT GO with OP ALL invalidates every line. -/
  | mdcAll (port : Nat) (v : Word)
  /-- CLASS (R581). MAINT GO with OP CLASS invalidates lines of one requester class. -/
  | mdcClass (port : Nat) (v : Word)
  /-- MAINT_DONE (R583). A maintenance walk and its covered fills end and MAINT_BUSY clears. -/
  | maintDone
  /-- MDC_CTL_WRITE (R584). A write to MDC_CTL disables or enables the cache and selects heritage mode. -/
  | mdcCtlWrite (port : Nat) (v : Word)
  /-- START (R590). A write of XM_CH_n_CTL.START starts a channel program at PC. -/
  | xmStart (port n : Nat) (v : Word)
  /-- PAUSE (R599). A write of CTL.PAUSE stops new reads; clearing it resumes. -/
  | xmPause (port n : Nat) (v : Word)
  /-- STOP (R599). A write of CTL.STOP pauses the channel and sets STOPPED. -/
  | xmStop (port n : Nat) (v : Word)
  /-- XM_EVENT_SET (R594). A write to XM_EVENT_SET sets mover event flags. -/
  | xmEventSet (port : Nat) (v : Word)
  /-- XM_INSTRUCTION (R590). A channel fetches and executes its next program instruction. -/
  | xmInstruction (n : Nat) (failed : Bool) (placed : Option (List Byte))
  /-- XM_REQUEST_LINE (R593). A request line rises and a waiting paced channel takes a request. -/
  | xmRequestLine (line : Nat) (level : Bool)
  /-- XM_BURST_DONE (R593). A burst's writes are acknowledged and HALF, FULL or a pause may follow. -/
  | xmBurstDone (n bytes : Nat)
  /-- BUS_ERROR (R600). A mover read or write ends in an error response and the burst is scheduled for retry or the channel halts. -/
  | busError (n : Nat) (isWrite : Bool)
  /-- XM_RETRY_EXPIRY (R600). 1 us after an error the burst is retried. -/
  | xmRetryExpiry (n : Nat)
  /-- EVENT_RAISE (R606). A unit raises an event, which is rate-limited and enters the intake FIFO. -/
  | eventRaise (e : RaisedEvent)
  /-- EV_RECORD_FORM (R603). The recorder forms a record from the FIFO with SEQ and snapshot and places it in the ring. -/
  | evRecordForm
  /-- EV_LOG_WRITE_DONE (R610). A log-region page program completes and its records count as in the log. -/
  | evLogWriteDone
  /-- EV_TOKEN_REFILL (R606). A code's token bucket gains one token. -/
  | evTokenRefill (code : Nat)
  /-- EV_NOTIFY_TICK (R618). At most once per ms an MSI-X notification covers records formed since the last. -/
  | evNotifyTick (port : Nat)
  /-- EV_SCAN_DONE (R614). The log-region scan at start ends and SCANNING clears. -/
  | evScanDone
  /-- EV_CLEAR_ERASE_DONE (R616). The log-region erase ends and the CLEARED record is written first. -/
  | evClearEraseDone
  /-- STORE_FAULT (R611). The store faults and records are held in the standby ring. -/
  | storeFault
  /-- STORE_BACK (R611). The store returns, the ring is copied in and STORE_FAULT clears. -/
  | storeBack
  /-- PRESENCE_CHANGE (R409). A PRESENT change stable for 100 ms inserts or removes a drive. -/
  | presenceChange (slot : Nat) (present : Bool)
  /-- SGPIO_FRAME (R405). An input frame of a slot chain is received and checked for parity and faults. -/
  | sgpioFrame (chain : Nat) (inputs : List (BitVec 6))
  /-- PWR_GOOD_TIMEOUT (R408). PWR_GOOD not seen within 500 ms of PWR_EN sets POWER_FAULT. -/
  | pwrGoodTimeout (slot : Nat)
  /-- LINK_BRINGUP_ATTEMPT (R392). An OOB and speed negotiation attempt on a lane ends in success or failure. -/
  | linkBringupAttempt (slot rate : Nat) (ok : Bool)
  /-- LINK_BRINGUP_RETRY (R392). The 500 ms or 2 s wait between bring-up attempts ends. -/
  | linkBringupRetry (slot : Nat)
  /-- LINK_UP (R393). A link comes up; identity, capacity and labels are read and the drive classified. -/
  | linkUp (slot : Nat) (d : DriveInfo)
  /-- LANE_RESET (R393). A write of DL_SLOT_n_CTL.LANE_RESET drops and brings up the link and clears faults. -/
  | laneReset (port slot : Nat)
  /-- SPIN_ADMISSION_TICK (R416). Every 100 ms queued drives are admitted to spin under the enclosure budget. -/
  | spinAdmissionTick
  /-- SPIN_PEAK_EXPIRY (R415). A drive leaves S(e) after T_peak and admission is evaluated. -/
  | spinPeakExpiry (slot : Nat)
  /-- SPINUP_COMPLETE (R401). A drive reports ready and waiting I/O proceeds. -/
  | spinupComplete (slot durationDs : Nat)
  /-- SPINUP_TIMEOUT (R205). A spin-up incomplete after 60 s moves the member toward SUSPECT or FAILED. -/
  | spinupTimeout (slot : Nat)
  /-- WAKE_GROUP_IDLE_EXPIRY (R413). A wake group idle for IDLE_MIN with no pinned drive is put into STANDBY. -/
  | wakeGroupIdleExpiry (group : Nat)
  /-- STANDBY_COMPLETE (R414). Standby commands complete and any queued wake is requested. -/
  | standbyComplete (group : Nat)
  /-- SLOT_POWER_OFF (R403). A slot in STANDBY for OFF_MIN has its power removed. -/
  | slotPowerOff (slot : Nat)
  /-- LOOP_PERIOD (R424). Each PERIOD a loop engine computes and applies a new output duty. -/
  | loopPeriod (n : Nat)
  /-- SENSOR_READ_DONE (R422). An SMBus sensor read completes or fails, updating validity. -/
  | sensorReadDone (k : Nat) (r : Option (Int × Nat))
  /-- FAN_FAIL (R423). A fan below TACH_MIN for 5 s is marked failed. -/
  | fanFail (f rpm : Nat)
  /-- HEADROOM_TICK (R431). Once a second the thermal headroom of each enclosure is recomputed. -/
  | headroomTick
  /-- ENC_CRIT (R432). Headroom below -CRIT_MARGIN for 60 s puts the enclosure in CRIT. -/
  | encCrit (e : Nat)
  /-- ENC_HOT_EXIT (R432). Headroom at least 1 C for 60 s leaves HOT. -/
  | encHotExit (e : Nat)
  /-- HOLD_EVALUATION (R436). Once a second the condensation hold of each enclosure is evaluated. -/
  | holdEvaluation
  /-- HOLD_DWELL_EXPIRY (R434). T_min above Td + 5 C for HOLD_DWELL ends the hold. -/
  | holdDwellExpiry (e : Nat)
  /-- HOLD_LONG (R435). After 30 minutes of hold HOLD_LONG is set. -/
  | holdLong (e : Nat)
  /-- HUMID_HIGH (R447). Humidity above 80 % for 10 minutes sets HUMID_HIGH. -/
  | humidHigh (e : Nat)
  /-- CHARGER_FAULT (R438). 600 s in CHARGE or 30 s of low current puts the charger in FAULT. -/
  | chargerFault
  /-- EU_COMPUTE (R440). Every 100 ms usable energy is computed from the bank measurements. -/
  | euCompute (vMv : Nat) (iMa : Int)
  /-- EU_REPORT (R441). Once a second E_u is reported to the stripe engine. -/
  | euReport
  /-- VBANK_TRIP (R439). The armed comparator sees the bank below V_TRIP for 20 us and ebb starts. -/
  | vbankTrip
  /-- PULSE_TEST_START (R442). Conditions met; the pulse-load test turns the charger off. -/
  | pulseTestStart
  /-- PULSE_TEST_ONSET (R443). 100 ms after charger off, V0 is taken and the test load switched on. -/
  | pulseTestOnset (v0Mv : Nat)
  /-- PULSE_TEST_END (R444). The pulse ends, the fit is computed and the test accepted or rejected. -/
  | pulseTestEnd (fit : PulseFit)
  /-- TEST_POSTPONED (R442). A test waiting 24 h for its conditions sets TEST_POSTPONED. -/
  | testPostponed
  /-- CE_JOB_DISPATCH (R103). A queued coding job is dispatched to an idle enabled cluster. -/
  | ceJobDispatch
  /-- CE_JOB_COMPLETE (R101). A coding job ends and its outputs become visible to the stripe engine. -/
  | ceJobComplete (cluster : Nat) (mismatch : List (Nat × Nat))
  /-- CLUSTER_FAULT (R110). An uncorrectable cluster error ends a job, which reruns elsewhere, and disables the cluster. -/
  | clusterFault (cluster : Nat)
  /-- MATRIX_INVERSION_DONE (R106). The matrix unit finishes an inversion and installs it in both cache levels. -/
  | matrixInversionDone
  /-- INVALIDATE (R108). A write of CE_CTL.INVALIDATE starts invalidation of both cache levels. -/
  | invalidate (port : Nat) (v : Word)
  /-- CE_INVALIDATE_DONE (R108). The decode-matrix invalidation ends and INV_BUSY clears. -/
  | ceInvalidateDone
  /-- CE_CLUSTER_EN_WRITE (R112). A write to CE_CLUSTER_EN enables or disables clusters between jobs. -/
  | ceClusterEnWrite (port : Nat) (v : Word)
  /-- PEER_LINK_TRAINED (R462). The peer link trains and HELLO is sent. -/
  | peerLinkTrained (rate width : Nat)
  /-- HELLO (R462). A received HELLO forms the pair or causes CONFLICT. -/
  | peerHello (h : HelloFrame)
  /-- HEARTBEAT (R466). A received HEARTBEAT renews the partner's liveness and F. -/
  | heartbeat (f : Nat) (owned : BitVec 64) (lastMseq : Nat)
  /-- HEARTBEAT_SEND (R466). Every 1 ms a paired device sends HEARTBEAT. -/
  | heartbeatSend
  /-- PEER_SILENT (R466). No HEARTBEAT for LOSS_MS puts the device in SILENT. -/
  | peerSilent
  /-- RESOLUTION_START (R467). Side A at once, or side B after TAKE_DELAY, starts resolution by reading keys. -/
  | resolutionStart
  /-- RESERVATION_KEYS_READ (R467). READ KEYS completes; the device enters FENCED or issues PREEMPT. -/
  | reservationKeysRead (ownKeyOnAll : Bool)
  /-- PREEMPT_COMPLETE (R467). PREEMPTs complete; the device is LOST-state owner and takes over the partner's pools. -/
  | preemptComplete
  /-- CLAIM (R464). A received CLAIM is granted or refused. -/
  | claim (pool claimId : Nat) (slots : List Nat)
  /-- CLAIM_REPLY (R464). A received CLAIM_REPLY lets the waiting step proceed or fail. -/
  | claimReply (pool claimId : Nat) (refused : Bool)
  /-- MIR_PAYLOAD (R164). A mirrored payload frame is applied to the mirror region. -/
  | mirPayload (mseq pool stripe unit off : Nat) (bytes : List Byte)
  /-- MIR_DIRENT (R164). A mirrored directory entry is applied. -/
  | mirDirent (mseq pool stripe slot : Nat) (entry : List Byte)
  /-- MIR_SEAL (R164). A mirrored seal is applied. -/
  | mirSeal (mseq pool stripe sealSeq chunkOffset set : Nat)
  /-- MIR_DELTA (R463). Mirrored deltas are applied to the mirror and standby tables. -/
  | mirDelta (mseq : Nat) (records : List DeltaRec)
  /-- MIR_RELEASE (R164). Mirrored release records or ledger entries are applied. -/
  | mirRelease (mseq pool kind : Nat) (records : List (List Byte))
  /-- MIR_RETIRE (R166). A retire notice frees the stripe's mirror pages. -/
  | mirRetire (mseq pool stripe : Nat)
  /-- MIR_CONFIRM (R465). A confirmation completes APPENDs whose mirror it covers. -/
  | mirConfirm (mseq : Nat)
  /-- STANDBY_COPY (R463). A received standby copy section replaces the standby tables. -/
  | standbyCopy (pool sect off : Nat) (bytes : List Byte)
  /-- WINDOW_COPY (R168). A received window copy frame is written into the mirror region; `held`
lists, once the copied control structures are whole, the window stripes they show for each pool. -/
  | windowCopy (mseq off : Nat) (bytes : List Byte) (held : Tab (Tab Stripe))
  /-- MIR_RESYNC (R461). A received MIR_RESYNC makes the sender re-form the mirror. -/
  | mirResync (mseq : Nat)
  /-- PEER_FRAME_BAD (R460). A frame with bad CRC or type is discarded and mirror resync requested. -/
  | peerFrameBad (isM : Bool)
  /-- GIVE_REQ (R469). A received GIVE_REQ is answered when its MSEQ is applied. -/
  | giveReq (pool lastMseq : Nat)
  /-- GIVE_READY (R469). A received GIVE_READY lets the owner write the descriptor and send GIVE_DONE. -/
  | giveReady (pool : Nat) (refused : Bool)
  /-- GIVE_DONE (R469). A received GIVE_DONE makes the partner take the pool. -/
  | giveDone (pool descSeq : Nat)
  /-- PULL_REQ (R528). A received PULL_REQ is answered with the mirror or RESULT 1. -/
  | pullReq (pool : Nat)
  /-- PULL_DATA (R185). Received mirror data is restored into the window for layer 2. -/
  | pullData (off : Nat) (bytes : List Byte)
  /-- PULL_END (R185). A received PULL_END ends the pull and recovery continues. -/
  | pullEnd (pool : Nat) (noMirror : Bool)
  /-- FLIT_NAK (R457). A received NAK makes the sender replay from ACK + 1. -/
  | flitNak (ack : Nat)
  /-- REPLAY_TIMEOUT (R457). No ACK advance for 20 us triggers replay. -/
  | replayTimeout
  /-- PEER_RETRAIN (R458). 16 replays in 1 ms or loss of symbol lock retrains the link. -/
  | peerRetrain
  /-- PEER_RETRAIN_DONE (R458). The retrain ends and unacknowledged flits are replayed. -/
  | peerRetrainDone (rate width : Nat)
  /-- RESET_N_RISE (R523). RESET_N rises after a WARM reset, and the device leaves reset at the later of this moment and the end of preparation. -/
  | resetNRise
  /-- SUPPLIES_REMOVED (R640). The rails are removed or the bank's energy runs out, and the device enters OFF, losing VAON-held state when VAON goes. -/
  | suppliesRemoved (vaon : Bool)
  /-- HOST_LINK_UP (R310). A host port or split link finishes PCIe training, and its functions become present again. -/
  | hostLinkUp (port link rate width : Nat) (flit : Bool)
  /-- BUS_MASTER_ENABLE_CHANGE (R334). The host sets or clears Bus Master Enable of a function, changing whether its queues are eligible for fetch. -/
  | busMasterEnableChange (x : Nat) (on : Bool)
  /-- LABEL_WRITE_DONE (R280). A drive reports a label write on stable media, so the back copy may be written or the label step completes. -/
  | labelWriteDone (slot : Nat) (ok : Bool)
  /-- SILL_RECORD_WRITTEN (R181). A journal block or PROTECT record reaches stable media on a sill member, releasing held chunk writes, stripe opens or PROTECT_COMMIT. -/
  | sillRecordWritten (pool slot : Nat)
  /-- DRAIN_COMPLETE (R537). A domain in DRAIN finishes its transfers in flight before 10 ms and gates. -/
  | drainComplete (dom : Nat)
  /-- FAN_FAIL_CLEAR (R423). A failed fan that has stayed above TACH_MIN for 5 s has its FAIL bit cleared. -/
  | fanFailClear (f rpm : Nat)
  /-- ANALOG_INPUT_UPDATE (R419). Every 16 ms an analog input's mean value is updated and its validity decided, setting SENSOR_LOST when it becomes invalid. -/
  | analogInputUpdate (k code : Nat)
  /-- CAPTURE_SAMPLE (R429). A sample arrives for a capture stream and enters its FIFO, or is dropped and counted in OVERRUN when the FIFO is full. -/
  | captureSample (stream : Nat) (sample : List Byte)
  /-- PEER_FLIT_CRC_FAIL (R457). A received peer flit still fails its CRC after FEC correction, is discarded, and the receiver sends NAK. -/
  | peerFlitCrcFail
  deriving DecidableEq, Repr

end Sys2Proof
end

