-- ==== Sys2Proof/Decode.lean ====
section
/-! DEFINITION. The commands that a word of the table spells. -/

namespace Sys2Proof

/-- The command a word spells by the table's bits: every row of the table is an event or a register command with no bits
of its own, so no word spells one. -/
def decodeTableWord (_nbits _w : Nat) : Option Instr := none

end Sys2Proof
end

