-- ==== Sys2Proof/Machine/Operands.lean ====
section
/-! DEFINITION. Operand forms: little-endian integers in structures (R18), the bytes of a submission entry (R324,
R349), the layout test of R351, and CRC-32C. -/

namespace Sys2Proof.Machine

open Sys2Proof

/-- The unsigned integer of bytes in little-endian order (R18). -/
def leVal : List Byte → Nat
  | [] => 0
  | b :: bs => b.toNat + 256 * leVal bs

/-- `n` bytes of an unsigned integer in little-endian order (R18), reduced modulo 256^n. -/
def leBytes : Nat → Nat → List Byte
  | 0, _ => []
  | n + 1, v => BitVec.ofNat 8 v :: leBytes n (v / 256)

/-- `n` zero bytes. -/
def zeros (n : Nat) : List Byte := List.replicate n 0

/-- A byte string cut or zero-filled to `n` bytes. -/
def padTo (n : Nat) (bs : List Byte) : List Byte := (bs ++ zeros (n - bs.length)).take n

/-- The bytes at `off`, `n` of them; bytes beyond the end read 0. -/
def slice (bs : List Byte) (off n : Nat) : List Byte := padTo n (bs.drop off)

/-- The little-endian integer of `n` bytes at `off`. -/
def leAt (bs : List Byte) (off n : Nat) : Nat := leVal (slice bs off n)

/-- Bit `i` of an integer. -/
def bit (v i : Nat) : Bool := (v >>> i) % 2 = 1

/-- The bits `lo .. lo + len - 1` of an integer. -/
def bits (v lo len : Nat) : Nat := (v >>> lo) % 2 ^ len

/-- 1 for true, 0 for false. -/
def b2n (b : Bool) : Nat := if b then 1 else 0

/-- Ceiling division. -/
def ceilDiv (a b : Nat) : Nat := (a + b - 1) / b

/-- `a` rounded up to a multiple of `b`. -/
def roundUp (a b : Nat) : Nat := ceilDiv a b * b

/-- Difference of two 32-bit free-running indices (R322). -/
def idxSub (a b : Word) : Nat := (a - b).toNat

/-- One bit step of CRC-32C: reflected polynomial 0x82F6_3B78. -/
def crcStep (c : BitVec 32) : BitVec 32 :=
  if c.getLsbD 0 then (c >>> 1) ^^^ 0x82F63B78#32 else c >>> 1

/-- CRC-32C state after one byte. -/
def crcByte (c : BitVec 32) (b : Byte) : BitVec 32 :=
  crcStep (crcStep (crcStep (crcStep (crcStep (crcStep (crcStep (crcStep (c ^^^ b.zeroExtend 32))))))))

/-- CRC-32C over bytes (reflected, initial value and final inversion all ones). -/
def crc32c (bs : List Byte) : BitVec 32 := (bs.foldl crcByte 0xFFFFFFFF#32) ^^^ 0xFFFFFFFF#32

/-- Slot `i` of an entry; a slot the entry does not carry reads as zeros. -/
def entrySlot (c : HostCmd) (i : Nat) : List Byte := (c.slots[i]?).getD []

/-- Byte `b` of slot `i` (R349). -/
def entryByte (c : HostCmd) (i b : Nat) : Nat := leAt (entrySlot c i) b 1

/-- The little-endian field of `n` bytes at byte `b` of slot `i`. -/
def entryLe (c : HostCmd) (i b n : Nat) : Nat := leAt (entrySlot c i) b n

/-- The bytes of a field. -/
def entryBytes (c : HostCmd) (i b n : Nat) : List Byte := slice (entrySlot c i) b n

/-- OPCODE of an entry (R324). -/
def entryOpcode (c : HostCmd) : Nat := entryByte c 0 0

/-- SLOTS of an entry (R324). -/
def entrySlots (c : HostCmd) : Nat := entryByte c 0 1

/-- FLAGS of an entry (R350). -/
def entryFlags (c : HostCmd) : Nat := entryLe c 0 2 2

/-- CID of an entry (R324). -/
def entryCid (c : HostCmd) : Nat := entryLe c 0 4 4

/-- LIST of FLAGS (R350). -/
def entryList (c : HostCmd) : Bool := bit (entryFlags c) 0

/-- One field of an entry's layout: position counted as 64 × slot + byte, length, and whether its value is in range. -/
structure FieldCheck where
  pos : Nat
  len : Nat
  ok : Bool
  deriving DecidableEq, Repr

/-- Whether byte `p` of an entry breaks its layout (R351): the SLOTS byte, a FLAGS byte with a bit outside `flags`, the
first byte of a field out of range, or a reserved byte that is not 0. Byte 63 of a slot is its lap mark (R349). -/
def badByte (c : HostCmd) (flags req : Nat) (fs : List FieldCheck) (p : Nat) : Bool :=
  if p = 1 then entrySlots c ≠ req
  else if p = 2 then entryByte c 0 2 &&& flags ≠ entryByte c 0 2
  else if p = 3 then entryByte c 0 3 &&& (flags / 256) ≠ entryByte c 0 3
  else if p < 8 ∨ p % 64 = 63 then false
  else
    match fs.find? (fun f => f.pos ≤ p ∧ p < f.pos + f.len) with
    | some f => f.pos = p && !f.ok
    | none => entryByte c (p / 64) (p % 64) ≠ 0

/-- The number of the first invalid byte of an entry under its layout (R351), if any. -/
def firstBad (c : HostCmd) (flags req : Nat) (fs : List FieldCheck) : Option Nat :=
  (List.range (64 * req)).find? (badByte c flags req fs)

/-- A data descriptor (R352): host address and length. -/
structure Desc where
  addr : Nat
  len : Nat
  rsv : Nat
  deriving DecidableEq, Repr

/-- The descriptor held in 16 bytes. -/
def descOf (bs : List Byte) : Desc := ⟨leAt bs 0 8, leAt bs 8 4, leAt bs 12 4⟩

/-- The descriptor at byte `b` of slot `i`. -/
def entryDesc (c : HostCmd) (i b : Nat) : Desc := descOf (entryBytes c i b 16)

/-- The in-line descriptors of an entry (R353): three to a slot from slot 1 onward. -/
def inlineDescs (c : HostCmd) (n : Nat) : List Desc :=
  (List.range n).map (fun j => entryDesc c (1 + j / 3) (16 * (j % 3)))

/-- The descriptors of a list read from host memory. -/
def listDescs : Nat → List Byte → List Desc
  | 0, _ => []
  | n + 1, bs => descOf (slice bs 0 16) :: listDescs n (bs.drop 16)

/-- Whether a descriptor's range crosses 2^64 (R354). -/
def Desc.crosses (d : Desc) : Bool := d.addr + d.len > 2 ^ 64

/-- The sum of descriptor lengths. -/
def descSum (ds : List Desc) : Nat := (ds.map Desc.len).sum

end Sys2Proof.Machine
end

