-- ==== Sys2Proof/Machine/Objects.lean ====
section
/-! DEFINITION. Sizes and plain properties of the stripe engine's objects: code parameters, drives, sets, stripes and
pools (chapters 02, 04 and 06). -/

namespace Sys2Proof

/-- Bytes of a chunk by its code (R43). -/
def chunkBytes (code : Nat) : Nat := 262144 * 4 ^ code

/-- 256 KiB units of a chunk. -/
def chunkUnits (code : Nat) : Nat := 4 ^ code

/-- Payload bytes of a chunk (R46). -/
def chunkPayload (code : Nat) : Nat := chunkBytes code - 4096

/-- Stripe data capacity (R47). -/
def Params.capacity (p : Params) : Nat := p.k * chunkPayload p.chunk

/-- Directory start unit (R118). -/
def Params.dirUnit (p : Params) : Nat := p.capacity / 4096 - 16

/-- Width of a set. -/
def Params.w (p : Params) : Nat := p.k + p.m

/-- 256 KiB units of a band. -/
def Params.bandUnits (p : Params) : Nat := p.bandMiB * 4

/-- Whole stripes that fit in a band. -/
def Params.perBand (p : Params) : Nat := p.bandUnits / chunkUnits p.chunk

/-- Stripe-table entries for members of total capacity `r` bytes (R76). -/
def Params.entries (p : Params) (r : Nat) : Nat := Machine.ceilDiv r (chunkBytes p.chunk * p.w)

/-- The parameters under which a set's stripes lie: the pool's, or the old generation's during a scarf. -/
def Pool.paramsOf (x : Pool) (gen : Nat) : Params :=
  match x.scarf with
  | some c => if gen = c.old.gen then c.old else x.params
  | none => x.params

/-- The parameters of the generation beside the current one are the old ones: a scarf has started and is not being aborted. -/
def Scarf.forward (c : Scarf) : Bool := c.state != .none && c.state != .aborting

/-- The parameters of a pool's old generation during a scarf, its only ones otherwise. -/
def Pool.oldParams (x : Pool) : Params :=
  match x.scarf with
  | some c => if c.forward then c.old else x.params
  | none => x.params

/-- The parameters of a scarf's new generation, the pool's only ones without one. -/
def Pool.newParams (x : Pool) : Params :=
  match x.scarf with
  | some c => if c.forward then x.params else c.old
  | none => x.params

/-- The parameters that bound locators and APPENDs: the old generation's during a scarf, the new ones after a commit (R255). -/
def Pool.limits (x : Pool) : Params :=
  match x.scarf with
  | some c => if c.forward && c.commitMark then x.params else x.oldParams
  | none => x.params

/-- Logical stripe numbers lie below the entries of the old table while a scarf runs (R254, R255). -/
def Pool.numberLimit (x : Pool) : Nat :=
  match x.scarf with
  | some c => if c.forward && c.commitMark then x.tableEntries else c.oldEntries
  | none => x.tableEntries

/-- Whether stripes are opened in a scarf's new generation. -/
def Pool.opensNew (x : Pool) : Bool :=
  match x.scarf with
  | some c => c.forward && !c.commitMark
  | none => false

/-- The band size of a drive in bytes for a pool's band size: its zone size on a host-managed drive (R57, R59). -/
def DriveInfo.bandBytes (d : DriveInfo) (bandMiB : Nat) : Nat :=
  if d.zoned then d.zoneMiB * 2 ^ 20 else bandMiB * 2 ^ 20

/-- Whole bands of a drive (R57). -/
def DriveInfo.bands (d : DriveInfo) (bandMiB : Nat) : Nat := d.capacity / d.bandBytes bandMiB

/-- Whether a drive serves a pool as a member (ACTIVE, SUSPECT or RETIRING). -/
def Drive.serves (d : Drive) (pool : Nat) : Bool :=
  d.pool = pool && (d.state = .active || d.state = .suspect || d.state = .retiring)

/-- The open rebuild record of a position. -/
def SetRec.record (x : SetRec) (p : Nat) : Option RbRec := x.rebuild.find? (fun r => r.pos = p)

/-- Whether a position is behind its rebuild cursor at chunk offset `o` (R54, R214). -/
def SetRec.behind (x : SetRec) (p o : Nat) : Bool :=
  match x.record p with
  | some r => r.cursor ≤ o
  | none => false

/-- Chunks of room left in a set's open band. -/
def SetRec.openRoom (x : SetRec) (p : Params) : Nat :=
  match x.openBand with
  | some _ => p.perBand - x.openFill
  | none => 0

/-- The chunk offset of the set's next seal in its open band (R137). -/
def SetRec.nextOffset (x : SetRec) (p : Params) : Nat :=
  match x.openBand with
  | some b => b * p.bandUnits + x.openFill * chunkUnits p.chunk
  | none => 0

/-- The directory slot of an extent with a locator's OFFSET and LENGTH. -/
def Stripe.find (t : Stripe) (off len : Nat) : Option (Nat × DirEnt) :=
  (t.dir.zipIdx.find? (fun e => e.1.off = off && e.1.len = len)).map (fun e => (e.2, e.1))

/-- Live extents of a stripe (R148). -/
def Stripe.live (t : Stripe) : Nat := t.dir.countP (fun e => !e.void && !e.released && !e.releasedAtSeal)

/-- Whether a stripe is partly released: it has a ledger entry (R147). -/
def Stripe.inLedger (t : Stripe) : Bool :=
  (t.state = .sealed || t.state = .written || t.state = .broken) && t.dir.any (·.released) && t.live > 0

/-- Bytes of the payload pages of a stripe in the window. -/
def Stripe.pages (t : Stripe) : Nat :=
  if t.state = .opened ∨ t.state = .sealed then t.nextUnit * 4096 else 0

/-- A blank entry for a stripe opened in a set. -/
def Stripe.fresh (gen set time openSeq : Nat) (fromScarf imported : Bool) : Stripe :=
  { state := .opened, codeId := 1, degraded := false, relocating := false, scarfCopied := fromScarf, padded := false,
    timeUnset := false, repaired := false, imported := imported, gen := gen, set := set, chunkOffset := 0, sealSeq := 0,
    sealTime := 0, placement := time, dir := [], nextUnit := 0, openSeq := openSeq, sealing := false, data := [],
    coded := false, acked := [], lost := [], dirLost := false, tideRound := 0, newPlace := none, newSeal := 0, moves := 0,
    oldSet := 0, oldOffset := 0, oldGen := 0, oldSeal := 0, returning := false, fromScarf := fromScarf }

/-- The next FREE logical stripe number: numbers never used are FREE longest, then in the order they became FREE (R69). -/
def Pool.nextNumber (x : Pool) : Option Nat :=
  if x.nextFresh < x.numberLimit then some x.nextFresh else x.freed.head?

/-- A pool with its next FREE number taken. -/
def Pool.takeNumber (x : Pool) : Pool :=
  if x.nextFresh < x.numberLimit then { x with nextFresh := x.nextFresh + 1 } else { x with freed := x.freed.drop 1 }

/-- Placement limit of a stripe: its directory start unit, and the old generation's during a scarf (R118, R255). -/
def Pool.limitUnit (x : Pool) (t : Stripe) : Nat := min x.limits.dirUnit (x.paramsOf t.gen).dirUnit

/-- The directory entry of a payload placed now. -/
def DirEnt.placed (off len seq : Nat) (tag : BitVec 256) (copied : Bool) (cmd : Nat) : DirEnt :=
  { off := off, len := len, void := false, releasedAtSeal := false, copied := copied, timeUnset := false, seq := seq,
    tag := tag, hash := none, ackTime := 0, released := false, cmd := some cmd, arrived := 0 }

/-- The substitutes of a set's open records. -/
def SetRec.substitutes (x : SetRec) : List Nat := x.rebuild.map (fun r => x.members.getD r.pos 1024)

/-- Whether a stripe has a placement of a set at a chunk offset: its serving one, or the old one of a copied stripe (R262). -/
def Stripe.standsAt (t : Stripe) (i o : Nat) : Bool :=
  t.state != .opened && t.state != .free &&
  ((t.set = i && t.chunkOffset = o) || (t.scarfCopied && !t.fromScarf && t.oldSet = i && t.oldOffset = o))

/-- A stripe as a pass sees it at a placement. -/
def Stripe.placedAt (t : Stripe) (i o : Nat) : Stripe :=
  { t with set := i, chunkOffset := o, lost := if t.set = i && t.chunkOffset = o then t.lost else [] }

/-- Positions of a set behind at a chunk offset (R214). -/
def SetRec.behindAt (x : SetRec) (o : Nat) : List Nat := (x.rebuild.filter (fun r => r.cursor ≤ o)).map (·.pos)

/-! ### Directories as bytes (R123, R124) -/

/-- A directory entry from its 96 bytes (R124). -/
def parseDirEnt (bs : List Byte) : DirEnt :=
  let f := Machine.leAt bs 8 2
  { off := Machine.leAt bs 0 4, len := Machine.leAt bs 4 4, void := Machine.bit f 0, releasedAtSeal := Machine.bit f 1, copied := Machine.bit f 2,
    timeUnset := Machine.bit f 3, seq := Machine.leAt bs 12 8, tag := BitVec.ofNat 256 (Machine.leAt bs 20 32),
    hash := if Machine.bit f 0 then none else some (BitVec.ofNat 256 (Machine.leAt bs 52 32)), ackTime := Machine.leAt bs 84 8, released := false,
    cmd := none, arrived := Machine.leAt bs 4 4 }

/-- A directory place that holds no entry yet; its APPEND counts as placed and not completed (R177). -/
def DirEnt.placeholder : DirEnt :=
  { off := 0, len := 0, void := false, releasedAtSeal := false, copied := false, timeUnset := false, seq := 0, tag := 0,
    hash := none, ackTime := 0, released := false, cmd := some 0, arrived := 0 }

/-- The entries of a directory (R123). -/
def parseDir (bs : List Byte) : List DirEnt :=
  (List.range (min (Machine.leAt bs 4 2) 682)).map (fun i => parseDirEnt (Machine.slice bs (64 + 96 * i) 96))

/-- A stripe's directory with the releases of a ledger entry applied (R300). -/
def Stripe.applyLedger (t : Stripe) (bs : List Byte) : Stripe :=
  let bitsV := Machine.leAt bs 12 86
  let top := (List.range 682).foldl (fun m i => if Machine.bit bitsV i then i + 1 else m) 0
  let dir := t.dir ++ List.replicate (top - t.dir.length) { DirEnt.placeholder with cmd := none }
  { t with dir := dir.zipIdx.map (fun e => if Machine.bit bitsV e.2 then { e.1 with released := true } else e.1) }

/-- Whether what a stripe's directory holds is not known yet: no entry, or only marks of released places. -/
def Stripe.dirUnread (t : Stripe) : Bool := t.dir.all (fun e => e.len = 0)

/-- A stripe whose directory has just been read; releases already known stand. -/
def Stripe.learnDir (t : Stripe) (bs : List Byte) : Stripe :=
  if t.dirUnread then
    { t with dir := (parseDir bs).zipIdx.map (fun e =>
        { e.1 with released := match t.dir[e.2]? with
            | some o => o.released
            | none => false }) }
  else t

end Sys2Proof
end

