-- ==== Sys2Proof/Config.lean ====
section
/-! DEFINITION. What one part or one run fixes and the spec leaves open: free values without a body.
No proof can see a value of them. -/

namespace Sys2Proof.Config

/-- The digest of SHA3-256 (R278, FIPS 202), stored as the 32 bytes in the order FIPS 202 gives.
The manual names the standard and gives no arithmetic; log entry 3. -/
opaque sha3 : List Byte → BitVec 256

/-- The verdict of an ML-DSA-44 verification (R511, FIPS 204) of a signature under a public key, given as its
SHA3-256, over a message with a context string; log entry 3. -/
opaque mldsaVerify : BitVec 256 → List Byte → List Byte → List Byte → Bool

/-- The ML-DSA-44 signature the identity key makes with hedged randomness (R511); the first argument is
the model's draw counter; log entry 3. -/
opaque mldsaSign : Nat → List Byte → List Byte → List Byte

/-- Fresh random bytes as a number: UUIDs (R277) and challenges (R500); the argument is the model's draw
counter; log entry 4. -/
opaque random : Nat → Nat

/-- The dew point in 0.01 °C of an air temperature in 0.01 °C and a humidity in 0.1 % where the Magnus form of R433 has no value, as at
0 %; log entry 5. -/
opaque dewPoint : Int → Nat → Int

/-- A byte the mover reads from host memory, which no command carries (and which R589 leaves undefined where host ranges
alias); log entry 6. -/
opaque hostByte : Nat → Byte

/-- The snapshot registers of an event code (R605), fixed by the firmware and not given by the manual; log entry 12. -/
opaque snapshotRegs : Nat → List Nat

/-- A value the spec states no result for, indexed by the model's draw counter; log entry 6. -/
opaque freeNat : Nat → Nat

end Sys2Proof.Config
end

