-- ==== Sys2Proof/Machine/Regs.lean ====
section
/-! DEFINITION. The register catalogue of the management BAR0 map (R35): one `Reg` for each register
table of the chapters, one `Fld` for each field, with offset, access type and reset value as the
tables give them. Index resets that differ from the first stand in `Reg.except`. -/

namespace Sys2Proof.Machine

/-- Register access types (chapter 00, "Register access types"). -/
inductive Acc where
  | ro | rw | rw1c | rw1s | wo | rwo | rc
  deriving DecidableEq, Repr

/-- One field of a register: lowest bit, length and access type. -/
structure Fld where
  lo : Nat
  len : Nat
  acc : Acc
  deriving DecidableEq, Repr

/-- One register table: BAR0 offset of its first instance, the counts and strides of up to two
indices, its reset value (with the instances that differ), and its fields other than reserved bits. -/
structure Reg where
  base : Nat
  count1 : Nat
  stride1 : Nat
  count2 : Nat
  stride2 : Nat
  reset : Nat
  except : List (Nat × Nat)
  fields : List Fld
  deriving DecidableEq, Repr

/-- BAR0 offset of instance `i` of a register with one index. -/
def Reg.at (r : Reg) (i : Nat) : Nat := r.base + i * r.stride1

/-- BAR0 offset of instance `(i, j)` of a register with two indices. -/
def Reg.at2 (r : Reg) (i j : Nat) : Nat := r.base + i * r.stride1 + j * r.stride2

/-- The two indices of BAR0 offset `a` in the register table `r`, when `a` belongs to it. -/
def Reg.index? (r : Reg) (a : Nat) : Option (Nat × Nat) :=
  if a < r.base then none
  else
    let d := a - r.base
    let i := if r.stride1 = 0 then 0 else d / r.stride1
    let e := if r.stride1 = 0 then d else d % r.stride1
    let j := if r.stride2 = 0 then 0 else e / r.stride2
    let rest := if r.stride2 = 0 then e else e % r.stride2
    if rest = 0 ∧ i < r.count1 ∧ j < r.count2 then some (i, j) else none

/-- Reset value of instance `i` of the register table (R529's reset state for registers). -/
def Reg.resetAt (r : Reg) (i : Nat) : Word :=
  BitVec.ofNat 32 (((r.except.find? (fun p => p.1 = i)).map (·.2)).getD r.reset)

def SE_TABLE_BUDGET_LO_BYTES_LO : Fld := ⟨0, 32, .ro⟩
/-- SE_TABLE_BUDGET_LO (02_pools_and_layout.md). -/
def SE_TABLE_BUDGET_LO : Reg :=
  ⟨0x200000, 1, 0x0, 1, 0x0, 0x0, [],
    [SE_TABLE_BUDGET_LO_BYTES_LO]⟩

def SE_TABLE_BUDGET_HI_BYTES_HI : Fld := ⟨0, 32, .ro⟩
/-- SE_TABLE_BUDGET_HI (02_pools_and_layout.md). -/
def SE_TABLE_BUDGET_HI : Reg :=
  ⟨0x200004, 1, 0x0, 1, 0x0, 0x4c, [],
    [SE_TABLE_BUDGET_HI_BYTES_HI]⟩

def SE_TABLE_USED_LO_BYTES_LO : Fld := ⟨0, 32, .ro⟩
/-- SE_TABLE_USED_LO (02_pools_and_layout.md). -/
def SE_TABLE_USED_LO : Reg :=
  ⟨0x200008, 1, 0x0, 1, 0x0, 0x0, [],
    [SE_TABLE_USED_LO_BYTES_LO]⟩

def SE_TABLE_USED_HI_BYTES_HI : Fld := ⟨0, 32, .ro⟩
/-- SE_TABLE_USED_HI (02_pools_and_layout.md). -/
def SE_TABLE_USED_HI : Reg :=
  ⟨0x20000c, 1, 0x0, 1, 0x0, 0x0, [],
    [SE_TABLE_USED_HI_BYTES_HI]⟩

def SE_SETS_USED_COUNT : Fld := ⟨0, 17, .ro⟩
/-- SE_SETS_USED (02_pools_and_layout.md). -/
def SE_SETS_USED : Reg :=
  ⟨0x200010, 1, 0x0, 1, 0x0, 0x0, [],
    [SE_SETS_USED_COUNT]⟩

def SE_POOL_STATE_STATE : Fld := ⟨0, 4, .ro⟩
def SE_POOL_STATE_SIDE : Fld := ⟨4, 1, .ro⟩
def SE_POOL_STATE_SCARF : Fld := ⟨5, 1, .ro⟩
def SE_POOL_STATE_SINGLE : Fld := ⟨6, 1, .ro⟩
def SE_POOL_STATE_GROUP_TOL : Fld := ⟨8, 3, .ro⟩
/-- SE_POOL_n_STATE (02_pools_and_layout.md). -/
def SE_POOL_STATE : Reg :=
  ⟨0x201000, 64, 0x40, 1, 0x0, 0x0, [],
    [SE_POOL_STATE_STATE, SE_POOL_STATE_SIDE, SE_POOL_STATE_SCARF, SE_POOL_STATE_SINGLE, SE_POOL_STATE_GROUP_TOL]⟩

def SE_POOL_CODE_K : Fld := ⟨0, 6, .ro⟩
def SE_POOL_CODE_M : Fld := ⟨8, 3, .ro⟩
def SE_POOL_CODE_CHUNK : Fld := ⟨12, 2, .ro⟩
def SE_POOL_CODE_LAYOUT_GEN : Fld := ⟨16, 16, .ro⟩
/-- SE_POOL_n_CODE (02_pools_and_layout.md). -/
def SE_POOL_CODE : Reg :=
  ⟨0x201004, 64, 0x40, 1, 0x0, 0x0, [],
    [SE_POOL_CODE_K, SE_POOL_CODE_M, SE_POOL_CODE_CHUNK, SE_POOL_CODE_LAYOUT_GEN]⟩

def SE_POOL_BAND_BAND_MIB : Fld := ⟨0, 13, .ro⟩
def SE_POOL_BAND_ZONED : Fld := ⟨16, 1, .ro⟩
def SE_POOL_BAND_D : Fld := ⟨24, 7, .ro⟩
/-- SE_POOL_n_BAND (02_pools_and_layout.md). -/
def SE_POOL_BAND : Reg :=
  ⟨0x201008, 64, 0x40, 1, 0x0, 0x0, [],
    [SE_POOL_BAND_BAND_MIB, SE_POOL_BAND_ZONED, SE_POOL_BAND_D]⟩

def SE_POOL_MEMBERS_MEMBERS : Fld := ⟨0, 11, .ro⟩
def SE_POOL_MEMBERS_FAILED : Fld := ⟨16, 11, .ro⟩
/-- SE_POOL_n_MEMBERS (02_pools_and_layout.md). -/
def SE_POOL_MEMBERS : Reg :=
  ⟨0x20100c, 64, 0x40, 1, 0x0, 0x0, [],
    [SE_POOL_MEMBERS_MEMBERS, SE_POOL_MEMBERS_FAILED]⟩

def CE_CAP_CLUSTERS : Fld := ⟨0, 4, .ro⟩
def CE_CAP_MAX_M : Fld := ⟨4, 3, .ro⟩
def CE_CAP_CODE_IDS : Fld := ⟨8, 3, .ro⟩
def CE_CAP_L1_ENTRIES_LOG2_MINUS_4 : Fld := ⟨28, 4, .ro⟩
/-- CE_CAP (03_erasure_code.md). -/
def CE_CAP : Reg :=
  ⟨0x300000, 1, 0x0, 1, 0x0, 0x40000448, [],
    [CE_CAP_CLUSTERS, CE_CAP_MAX_M, CE_CAP_CODE_IDS, CE_CAP_L1_ENTRIES_LOG2_MINUS_4]⟩

def CE_CTL_CACHE_EN : Fld := ⟨0, 1, .rw⟩
def CE_CTL_INVALIDATE : Fld := ⟨1, 1, .wo⟩
/-- CE_CTL (03_erasure_code.md). -/
def CE_CTL : Reg :=
  ⟨0x300004, 1, 0x0, 1, 0x0, 0x1, [],
    [CE_CTL_CACHE_EN, CE_CTL_INVALIDATE]⟩

def CE_STATUS_BUSY : Fld := ⟨0, 8, .ro⟩
def CE_STATUS_INV_BUSY : Fld := ⟨8, 1, .ro⟩
def CE_STATUS_MATRIX_BUSY : Fld := ⟨9, 1, .ro⟩
def CE_STATUS_QUEUED : Fld := ⟨16, 16, .ro⟩
/-- CE_STATUS (03_erasure_code.md). -/
def CE_STATUS : Reg :=
  ⟨0x300008, 1, 0x0, 1, 0x0, 0x0, [],
    [CE_STATUS_BUSY, CE_STATUS_INV_BUSY, CE_STATUS_MATRIX_BUSY, CE_STATUS_QUEUED]⟩

def CE_CLUSTER_EN_EN : Fld := ⟨0, 8, .rw⟩
/-- CE_CLUSTER_EN (03_erasure_code.md). -/
def CE_CLUSTER_EN : Reg :=
  ⟨0x30000c, 1, 0x0, 1, 0x0, 0xff, [],
    [CE_CLUSTER_EN_EN]⟩

def CE_CLUSTER_FAULT_FAULT : Fld := ⟨0, 8, .rw1c⟩
/-- CE_CLUSTER_FAULT (03_erasure_code.md). -/
def CE_CLUSTER_FAULT : Reg :=
  ⟨0x300010, 1, 0x0, 1, 0x0, 0x0, [],
    [CE_CLUSTER_FAULT_FAULT]⟩

def CE_WEIGHT_ENCODE : Fld := ⟨0, 8, .rw⟩
def CE_WEIGHT_READ : Fld := ⟨8, 8, .rw⟩
def CE_WEIGHT_REBUILD : Fld := ⟨16, 8, .rw⟩
def CE_WEIGHT_BACKGROUND : Fld := ⟨24, 8, .rw⟩
/-- CE_WEIGHT (03_erasure_code.md). -/
def CE_WEIGHT : Reg :=
  ⟨0x300014, 1, 0x0, 1, 0x0, 0x8102040, [],
    [CE_WEIGHT_ENCODE, CE_WEIGHT_READ, CE_WEIGHT_REBUILD, CE_WEIGHT_BACKGROUND]⟩

def CE_CACHE_HIT_COUNT : Fld := ⟨0, 32, .rc⟩
/-- CE_CACHE_HIT (03_erasure_code.md). -/
def CE_CACHE_HIT : Reg :=
  ⟨0x300020, 1, 0x0, 1, 0x0, 0x0, [],
    [CE_CACHE_HIT_COUNT]⟩

def CE_CACHE_MISS_COUNT : Fld := ⟨0, 32, .rc⟩
/-- CE_CACHE_MISS (03_erasure_code.md). -/
def CE_CACHE_MISS : Reg :=
  ⟨0x300024, 1, 0x0, 1, 0x0, 0x0, [],
    [CE_CACHE_MISS_COUNT]⟩

def CE_VERIFY_MISMATCH_COUNT : Fld := ⟨0, 32, .rc⟩
/-- CE_VERIFY_MISMATCH (03_erasure_code.md). -/
def CE_VERIFY_MISMATCH : Reg :=
  ⟨0x300028, 1, 0x0, 1, 0x0, 0x0, [],
    [CE_VERIFY_MISMATCH_COUNT]⟩

def CE_CL_BYTES_LO_BYTES_LO : Fld := ⟨0, 32, .ro⟩
/-- CE_CLn_BYTES_LO (03_erasure_code.md). -/
def CE_CL_BYTES_LO : Reg :=
  ⟨0x300100, 8, 0x10, 1, 0x0, 0x0, [],
    [CE_CL_BYTES_LO_BYTES_LO]⟩

def CE_CL_BYTES_HI_BYTES_HI : Fld := ⟨0, 32, .ro⟩
/-- CE_CLn_BYTES_HI (03_erasure_code.md). -/
def CE_CL_BYTES_HI : Reg :=
  ⟨0x300104, 8, 0x10, 1, 0x0, 0x0, [],
    [CE_CL_BYTES_HI_BYTES_HI]⟩

def CE_CL_JOBS_COUNT : Fld := ⟨0, 32, .ro⟩
/-- CE_CLn_JOBS (03_erasure_code.md). -/
def CE_CL_JOBS : Reg :=
  ⟨0x300108, 8, 0x10, 1, 0x0, 0x0, [],
    [CE_CL_JOBS_COUNT]⟩

def SE_OPEN_STRIPES_COUNT : Fld := ⟨0, 11, .ro⟩
def SE_OPEN_STRIPES_LIMIT : Fld := ⟨16, 11, .ro⟩
/-- SE_OPEN_STRIPES (04_append_path.md). -/
def SE_OPEN_STRIPES : Reg :=
  ⟨0x200040, 1, 0x0, 1, 0x0, 0x4000000, [],
    [SE_OPEN_STRIPES_COUNT, SE_OPEN_STRIPES_LIMIT]⟩

def SE_RELEASE_PENDING_COUNT : Fld := ⟨0, 23, .ro⟩
/-- SE_RELEASE_PENDING (04_append_path.md). -/
def SE_RELEASE_PENDING : Reg :=
  ⟨0x200044, 1, 0x0, 1, 0x0, 0x0, [],
    [SE_RELEASE_PENDING_COUNT]⟩

def SE_LEDGER_USED_COUNT : Fld := ⟨0, 23, .ro⟩
/-- SE_LEDGER_USED (04_append_path.md). -/
def SE_LEDGER_USED : Reg :=
  ⟨0x200048, 1, 0x0, 1, 0x0, 0x0, [],
    [SE_LEDGER_USED_COUNT]⟩

def SE_RELEASE_REJECT_COUNT : Fld := ⟨0, 32, .rc⟩
/-- SE_RELEASE_REJECT (04_append_path.md). -/
def SE_RELEASE_REJECT : Reg :=
  ⟨0x20004c, 1, 0x0, 1, 0x0, 0x0, [],
    [SE_RELEASE_REJECT_COUNT]⟩

def SE_POOL_APPEND_OPEN_LIMIT : Fld := ⟨0, 7, .ro⟩
def SE_POOL_APPEND_SEAL_MS : Fld := ⟨8, 16, .ro⟩
/-- SE_POOL_n_APPEND (04_append_path.md). -/
def SE_POOL_APPEND : Reg :=
  ⟨0x202000, 64, 0x40, 1, 0x0, 0x0, [],
    [SE_POOL_APPEND_OPEN_LIMIT, SE_POOL_APPEND_SEAL_MS]⟩

def SE_POOL_OPEN_OPEN : Fld := ⟨0, 7, .ro⟩
def SE_POOL_OPEN_SEALED : Fld := ⟨16, 16, .ro⟩
/-- SE_POOL_n_OPEN (04_append_path.md). -/
def SE_POOL_OPEN : Reg :=
  ⟨0x202004, 64, 0x40, 1, 0x0, 0x0, [],
    [SE_POOL_OPEN_OPEN, SE_POOL_OPEN_SEALED]⟩

def SE_POOL_SEAL_SEQ_LO_SEQ_LO : Fld := ⟨0, 32, .ro⟩
/-- SE_POOL_n_SEAL_SEQ_LO (04_append_path.md). -/
def SE_POOL_SEAL_SEQ_LO : Reg :=
  ⟨0x202008, 64, 0x40, 1, 0x0, 0x0, [],
    [SE_POOL_SEAL_SEQ_LO_SEQ_LO]⟩

def SE_POOL_SEAL_SEQ_HI_SEQ_HI : Fld := ⟨0, 32, .ro⟩
/-- SE_POOL_n_SEAL_SEQ_HI (04_append_path.md). -/
def SE_POOL_SEAL_SEQ_HI : Reg :=
  ⟨0x20200c, 64, 0x40, 1, 0x0, 0x0, [],
    [SE_POOL_SEAL_SEQ_HI_SEQ_HI]⟩

def SE_POOL_APPEND_SEQ_LO_SEQ_LO : Fld := ⟨0, 32, .ro⟩
/-- SE_POOL_n_APPEND_SEQ_LO (04_append_path.md). -/
def SE_POOL_APPEND_SEQ_LO : Reg :=
  ⟨0x202010, 64, 0x40, 1, 0x0, 0x0, [],
    [SE_POOL_APPEND_SEQ_LO_SEQ_LO]⟩

def SE_POOL_APPEND_SEQ_HI_SEQ_HI : Fld := ⟨0, 32, .ro⟩
/-- SE_POOL_n_APPEND_SEQ_HI (04_append_path.md). -/
def SE_POOL_APPEND_SEQ_HI : Reg :=
  ⟨0x202014, 64, 0x40, 1, 0x0, 0x0, [],
    [SE_POOL_APPEND_SEQ_HI_SEQ_HI]⟩

def SE_POOL_PENDING_RELEASES : Fld := ⟨0, 23, .ro⟩
/-- SE_POOL_n_PENDING (04_append_path.md). -/
def SE_POOL_PENDING : Reg :=
  ⟨0x202018, 64, 0x40, 1, 0x0, 0x0, [],
    [SE_POOL_PENDING_RELEASES]⟩

def SE_POOL_DRAINED_BANDS : Fld := ⟨0, 24, .ro⟩
/-- SE_POOL_n_DRAINED (04_append_path.md). -/
def SE_POOL_DRAINED : Reg :=
  ⟨0x20201c, 64, 0x40, 1, 0x0, 0x0, [],
    [SE_POOL_DRAINED_BANDS]⟩

def SE_WIN_LIMIT_LIMIT : Fld := ⟨0, 10, .ro⟩
def SE_WIN_LIMIT_FLUSH_CAP : Fld := ⟨16, 10, .ro⟩
/-- SE_WIN_LIMIT (05_protected_window.md). -/
def SE_WIN_LIMIT : Reg :=
  ⟨0x200080, 1, 0x0, 1, 0x0, 0x0, [],
    [SE_WIN_LIMIT_LIMIT, SE_WIN_LIMIT_FLUSH_CAP]⟩

def SE_WIN_USED_U_MIB : Fld := ⟨0, 18, .ro⟩
/-- SE_WIN_USED (05_protected_window.md). -/
def SE_WIN_USED : Reg :=
  ⟨0x200084, 1, 0x0, 1, 0x0, 0x0, [],
    [SE_WIN_USED_U_MIB]⟩

def SE_WIN_MIRROR_MIRROR_MIB : Fld := ⟨0, 18, .ro⟩
/-- SE_WIN_MIRROR (05_protected_window.md). -/
def SE_WIN_MIRROR : Reg :=
  ⟨0x200088, 1, 0x0, 1, 0x0, 0x0, [],
    [SE_WIN_MIRROR_MIRROR_MIB]⟩

def SE_WIN_STATUS_EBB_COVER : Fld := ⟨0, 1, .ro⟩
def SE_WIN_STATUS_MIRROR_ACTIVE : Fld := ⟨1, 1, .ro⟩
def SE_WIN_STATUS_ADMIT : Fld := ⟨2, 2, .ro⟩
def SE_WIN_STATUS_DELTA_FULL : Fld := ⟨4, 1, .ro⟩
def SE_WIN_STATUS_MIRROR_COPY : Fld := ⟨5, 1, .ro⟩
def SE_WIN_STATUS_START_LAYER : Fld := ⟨8, 3, .ro⟩
/-- SE_WIN_STATUS (05_protected_window.md). -/
def SE_WIN_STATUS : Reg :=
  ⟨0x20008c, 1, 0x0, 1, 0x0, 0x0, [],
    [SE_WIN_STATUS_EBB_COVER, SE_WIN_STATUS_MIRROR_ACTIVE, SE_WIN_STATUS_ADMIT, SE_WIN_STATUS_DELTA_FULL, SE_WIN_STATUS_MIRROR_COPY, SE_WIN_STATUS_START_LAYER]⟩

def SE_WIN_ENERGY_E_USABLE : Fld := ⟨0, 16, .ro⟩
def SE_WIN_ENERGY_E_REQUIRED : Fld := ⟨16, 16, .ro⟩
/-- SE_WIN_ENERGY (05_protected_window.md). -/
def SE_WIN_ENERGY : Reg :=
  ⟨0x200090, 1, 0x0, 1, 0x0, 0x0, [],
    [SE_WIN_ENERGY_E_USABLE, SE_WIN_ENERGY_E_REQUIRED]⟩

def SE_WIN_PARAM_P_EBB_W : Fld := ⟨0, 8, .ro⟩
def SE_WIN_PARAM_MARGIN : Fld := ⟨8, 8, .ro⟩
def SE_WIN_PARAM_T_FIXED_MS : Fld := ⟨16, 8, .ro⟩
def SE_WIN_PARAM_CHECKPOINT_MIN : Fld := ⟨24, 8, .ro⟩
/-- SE_WIN_PARAM (05_protected_window.md). -/
def SE_WIN_PARAM : Reg :=
  ⟨0x200094, 1, 0x0, 1, 0x0, 0xf4b183c, [],
    [SE_WIN_PARAM_P_EBB_W, SE_WIN_PARAM_MARGIN, SE_WIN_PARAM_T_FIXED_MS, SE_WIN_PARAM_CHECKPOINT_MIN]⟩

def SE_POOL_JOURNAL_MEMBER_0 : Fld := ⟨0, 10, .ro⟩
def SE_POOL_JOURNAL_MEMBER_1 : Fld := ⟨10, 10, .ro⟩
def SE_POOL_JOURNAL_MEMBER_2 : Fld := ⟨20, 10, .ro⟩
/-- SE_POOL_n_JOURNAL (05_protected_window.md). -/
def SE_POOL_JOURNAL : Reg :=
  ⟨0x203000, 64, 0x40, 1, 0x0, 0x0, [],
    [SE_POOL_JOURNAL_MEMBER_0, SE_POOL_JOURNAL_MEMBER_1, SE_POOL_JOURNAL_MEMBER_2]⟩

def SE_POOL_JSTAT_READY : Fld := ⟨0, 3, .ro⟩
def SE_POOL_JSTAT_OPEN_BANDS : Fld := ⟨8, 24, .ro⟩
/-- SE_POOL_n_JSTAT (05_protected_window.md). -/
def SE_POOL_JSTAT : Reg :=
  ⟨0x203004, 64, 0x40, 1, 0x0, 0x0, [],
    [SE_POOL_JSTAT_READY, SE_POOL_JSTAT_OPEN_BANDS]⟩

def SE_POOL_CKPT_GEN : Fld := ⟨0, 32, .ro⟩
/-- SE_POOL_n_CKPT (05_protected_window.md). -/
def SE_POOL_CKPT : Reg :=
  ⟨0x203008, 64, 0x40, 1, 0x0, 0x0, [],
    [SE_POOL_CKPT_GEN]⟩

def SE_POOL_RESYNC_RESYNCED : Fld := ⟨0, 16, .ro⟩
def SE_POOL_RESYNC_LOST : Fld := ⟨16, 16, .ro⟩
/-- SE_POOL_n_RESYNC (05_protected_window.md). -/
def SE_POOL_RESYNC : Reg :=
  ⟨0x20300c, 64, 0x40, 1, 0x0, 0x0, [],
    [SE_POOL_RESYNC_RESYNCED, SE_POOL_RESYNC_LOST]⟩

def EB_CAP_CHANNELS : Fld := ⟨0, 4, .ro⟩
def EB_CAP_MAX_TARGETS : Fld := ⟨4, 4, .ro⟩
/-- EB_CAP (05_protected_window.md). -/
def EB_CAP : Reg :=
  ⟨0x780000, 1, 0x0, 1, 0x0, 0x44, [],
    [EB_CAP_CHANNELS, EB_CAP_MAX_TARGETS]⟩

def EB_GEOM_SLOT_GIB : Fld := ⟨0, 16, .ro⟩
def EB_GEOM_TARGETS : Fld := ⟨16, 5, .ro⟩
/-- EB_GEOM (05_protected_window.md). -/
def EB_GEOM : Reg :=
  ⟨0x780004, 1, 0x0, 1, 0x0, 0x0, [],
    [EB_GEOM_SLOT_GIB, EB_GEOM_TARGETS]⟩

def EB_STATUS_SLOT0_IMAGE : Fld := ⟨0, 1, .ro⟩
def EB_STATUS_SLOT1_IMAGE : Fld := ⟨1, 1, .ro⟩
def EB_STATUS_SLOT0_READY : Fld := ⟨2, 1, .ro⟩
def EB_STATUS_SLOT1_READY : Fld := ⟨3, 1, .ro⟩
def EB_STATUS_ERASING : Fld := ⟨4, 1, .ro⟩
def EB_STATUS_STORE_FAULT : Fld := ⟨5, 1, .ro⟩
/-- EB_STATUS (05_protected_window.md). -/
def EB_STATUS : Reg :=
  ⟨0x780008, 1, 0x0, 1, 0x0, 0x0, [],
    [EB_STATUS_SLOT0_IMAGE, EB_STATUS_SLOT1_IMAGE, EB_STATUS_SLOT0_READY, EB_STATUS_SLOT1_READY, EB_STATUS_ERASING, EB_STATUS_STORE_FAULT]⟩

def EB_SEQ_LO_SEQ_LO : Fld := ⟨0, 32, .ro⟩
/-- EB_SEQ_LO (05_protected_window.md). -/
def EB_SEQ_LO : Reg :=
  ⟨0x78000c, 1, 0x0, 1, 0x0, 0x0, [],
    [EB_SEQ_LO_SEQ_LO]⟩

def EB_SEQ_HI_SEQ_HI : Fld := ⟨0, 32, .ro⟩
/-- EB_SEQ_HI (05_protected_window.md). -/
def EB_SEQ_HI : Reg :=
  ⟨0x780010, 1, 0x0, 1, 0x0, 0x0, [],
    [EB_SEQ_HI_SEQ_HI]⟩

def EB_LAST_DURATION_MS : Fld := ⟨0, 16, .ro⟩
def EB_LAST_TRIGGER : Fld := ⟨16, 2, .ro⟩
def EB_LAST_COMPLETE : Fld := ⟨18, 1, .ro⟩
/-- EB_LAST (05_protected_window.md). -/
def EB_LAST : Reg :=
  ⟨0x780014, 1, 0x0, 1, 0x0, 0x0, [],
    [EB_LAST_DURATION_MS, EB_LAST_TRIGGER, EB_LAST_COMPLETE]⟩

def EB_RATE_RATE_MBS : Fld := ⟨0, 16, .ro⟩
/-- EB_RATE (05_protected_window.md). -/
def EB_RATE : Reg :=
  ⟨0x780018, 1, 0x0, 1, 0x0, 0x0, [],
    [EB_RATE_RATE_MBS]⟩

def SE_RB_STATUS_PASSES : Fld := ⟨0, 9, .ro⟩
def SE_RB_STATUS_MIN_MARGIN : Fld := ⟨16, 3, .ro⟩
/-- SE_RB_STATUS (06_reads_and_rebuild.md). -/
def SE_RB_STATUS : Reg :=
  ⟨0x2000c0, 1, 0x0, 1, 0x0, 0x70000, [],
    [SE_RB_STATUS_PASSES, SE_RB_STATUS_MIN_MARGIN]⟩

def SE_RB_QUEUED_SETS : Fld := ⟨0, 17, .ro⟩
/-- SE_RB_QUEUED (06_reads_and_rebuild.md). -/
def SE_RB_QUEUED : Reg :=
  ⟨0x2000c4, 1, 0x0, 1, 0x0, 0x0, [],
    [SE_RB_QUEUED_SETS]⟩

def SE_RB_PARAM_MAX_PASSES : Fld := ⟨0, 9, .ro⟩
def SE_RB_PARAM_READS_PER_MEMBER : Fld := ⟨12, 4, .ro⟩
def SE_RB_PARAM_GRACE_S : Fld := ⟨16, 8, .ro⟩
def SE_RB_PARAM_HOT_HALF_C : Fld := ⟨24, 4, .ro⟩
def SE_RB_PARAM_HOT_STOP_C : Fld := ⟨28, 4, .ro⟩
/-- SE_RB_PARAM (06_reads_and_rebuild.md). -/
def SE_RB_PARAM : Reg :=
  ⟨0x2000c8, 1, 0x0, 1, 0x0, 0x250a2100, [],
    [SE_RB_PARAM_MAX_PASSES, SE_RB_PARAM_READS_PER_MEMBER, SE_RB_PARAM_GRACE_S, SE_RB_PARAM_HOT_HALF_C, SE_RB_PARAM_HOT_STOP_C]⟩

def SE_DEGRADED_READS_COUNT : Fld := ⟨0, 32, .rc⟩
/-- SE_DEGRADED_READS (06_reads_and_rebuild.md). -/
def SE_DEGRADED_READS : Reg :=
  ⟨0x2000cc, 1, 0x0, 1, 0x0, 0x0, [],
    [SE_DEGRADED_READS_COUNT]⟩

def SE_WAKES_AVOIDED_COUNT : Fld := ⟨0, 32, .rc⟩
/-- SE_WAKES_AVOIDED (06_reads_and_rebuild.md). -/
def SE_WAKES_AVOIDED : Reg :=
  ⟨0x2000d0, 1, 0x0, 1, 0x0, 0x0, [],
    [SE_WAKES_AVOIDED_COUNT]⟩

def SE_READ_HASH_FAIL_COUNT : Fld := ⟨0, 32, .rc⟩
/-- SE_READ_HASH_FAIL (06_reads_and_rebuild.md). -/
def SE_READ_HASH_FAIL : Reg :=
  ⟨0x2000d4, 1, 0x0, 1, 0x0, 0x0, [],
    [SE_READ_HASH_FAIL_COUNT]⟩

def SE_REPAIRS_COUNT : Fld := ⟨0, 32, .rc⟩
/-- SE_REPAIRS (06_reads_and_rebuild.md). -/
def SE_REPAIRS : Reg :=
  ⟨0x2000d8, 1, 0x0, 1, 0x0, 0x0, [],
    [SE_REPAIRS_COUNT]⟩

def SE_POOL_READPOL_WAKE : Fld := ⟨0, 2, .ro⟩
def SE_POOL_READPOL_ADOPT_SLOT : Fld := ⟨2, 1, .ro⟩
def SE_POOL_READPOL_READ_WAIT_S : Fld := ⟨4, 12, .ro⟩
def SE_POOL_READPOL_DEFER_S : Fld := ⟨16, 16, .ro⟩
/-- SE_POOL_n_READPOL (06_reads_and_rebuild.md). -/
def SE_POOL_READPOL : Reg :=
  ⟨0x201010, 64, 0x40, 1, 0x0, 0x0, [],
    [SE_POOL_READPOL_WAKE, SE_POOL_READPOL_ADOPT_SLOT, SE_POOL_READPOL_READ_WAIT_S, SE_POOL_READPOL_DEFER_S]⟩

def SE_POOL_RBSETS_DEGRADED : Fld := ⟨0, 16, .ro⟩
def SE_POOL_RBSETS_REBUILDING : Fld := ⟨16, 16, .ro⟩
/-- SE_POOL_n_RBSETS (06_reads_and_rebuild.md). -/
def SE_POOL_RBSETS : Reg :=
  ⟨0x201014, 64, 0x40, 1, 0x0, 0x0, [],
    [SE_POOL_RBSETS_DEGRADED, SE_POOL_RBSETS_REBUILDING]⟩

def SE_POOL_RBLEFT_GIB : Fld := ⟨0, 32, .ro⟩
/-- SE_POOL_n_RBLEFT (06_reads_and_rebuild.md). -/
def SE_POOL_RBLEFT : Reg :=
  ⟨0x201018, 64, 0x40, 1, 0x0, 0x0, [],
    [SE_POOL_RBLEFT_GIB]⟩

def SE_POOL_LOSS_RECORDS : Fld := ⟨0, 21, .ro⟩
def SE_POOL_LOSS_OVERFLOW : Fld := ⟨31, 1, .ro⟩
/-- SE_POOL_n_LOSS (06_reads_and_rebuild.md). -/
def SE_POOL_LOSS : Reg :=
  ⟨0x20101c, 64, 0x40, 1, 0x0, 0x0, [],
    [SE_POOL_LOSS_RECORDS, SE_POOL_LOSS_OVERFLOW]⟩

def SE_MEMBER_STATE : Fld := ⟨0, 4, .ro⟩
def SE_MEMBER_LINK_DOWN : Fld := ⟨4, 1, .ro⟩
def SE_MEMBER_ASLEEP : Fld := ⟨5, 1, .ro⟩
def SE_MEMBER_SUBSTITUTE : Fld := ⟨6, 1, .ro⟩
def SE_MEMBER_POOL : Fld := ⟨8, 6, .ro⟩
def SE_MEMBER_FAILURE_GROUP : Fld := ⟨16, 8, .ro⟩
def SE_MEMBER_WAKE_GROUP : Fld := ⟨24, 8, .ro⟩
/-- SE_MEMBER_n (06_reads_and_rebuild.md). -/
def SE_MEMBER : Reg :=
  ⟨0x210000, 1024, 0x10, 1, 0x0, 0x0, [],
    [SE_MEMBER_STATE, SE_MEMBER_LINK_DOWN, SE_MEMBER_ASLEEP, SE_MEMBER_SUBSTITUTE, SE_MEMBER_POOL, SE_MEMBER_FAILURE_GROUP, SE_MEMBER_WAKE_GROUP]⟩

def SE_MEMBER_ERR_URE_24H : Fld := ⟨0, 8, .ro⟩
def SE_MEMBER_ERR_WFAIL_24H : Fld := ⟨8, 4, .ro⟩
def SE_MEMBER_ERR_TIMEOUTS : Fld := ⟨12, 4, .ro⟩
def SE_MEMBER_ERR_REPAIRS : Fld := ⟨16, 8, .ro⟩
/-- SE_MEMBER_n_ERR (06_reads_and_rebuild.md). -/
def SE_MEMBER_ERR : Reg :=
  ⟨0x210004, 1024, 0x10, 1, 0x0, 0x0, [],
    [SE_MEMBER_ERR_URE_24H, SE_MEMBER_ERR_WFAIL_24H, SE_MEMBER_ERR_TIMEOUTS, SE_MEMBER_ERR_REPAIRS]⟩

def SE_MEMBER_CAUSE_CAUSE : Fld := ⟨0, 4, .ro⟩
/-- SE_MEMBER_n_CAUSE (06_reads_and_rebuild.md). -/
def SE_MEMBER_CAUSE : Reg :=
  ⟨0x210008, 1024, 0x10, 1, 0x0, 0x0, [],
    [SE_MEMBER_CAUSE_CAUSE]⟩

def SE_TIDE_PARAM_HASH_GBS : Fld := ⟨0, 8, .ro⟩
def SE_TIDE_PARAM_READS_PER_MEMBER : Fld := ⟨8, 4, .ro⟩
def SE_TIDE_PARAM_LEAD_PCT : Fld := ⟨16, 8, .ro⟩
/-- SE_TIDE_PARAM (07_tide_scrub.md). -/
def SE_TIDE_PARAM : Reg :=
  ⟨0x200100, 1, 0x0, 1, 0x0, 0x7d0140, [],
    [SE_TIDE_PARAM_HASH_GBS, SE_TIDE_PARAM_READS_PER_MEMBER, SE_TIDE_PARAM_LEAD_PCT]⟩

def SE_TIDE_STRIPES_COUNT : Fld := ⟨0, 32, .rc⟩
/-- SE_TIDE_STRIPES (07_tide_scrub.md). -/
def SE_TIDE_STRIPES : Reg :=
  ⟨0x200104, 1, 0x0, 1, 0x0, 0x0, [],
    [SE_TIDE_STRIPES_COUNT]⟩

def SE_TIDE_REPAIRS_COUNT : Fld := ⟨0, 32, .rc⟩
/-- SE_TIDE_REPAIRS (07_tide_scrub.md). -/
def SE_TIDE_REPAIRS : Reg :=
  ⟨0x200108, 1, 0x0, 1, 0x0, 0x0, [],
    [SE_TIDE_REPAIRS_COUNT]⟩

def SE_TIDE_PARITY_COUNT : Fld := ⟨0, 32, .rc⟩
/-- SE_TIDE_PARITY (07_tide_scrub.md). -/
def SE_TIDE_PARITY : Reg :=
  ⟨0x20010c, 1, 0x0, 1, 0x0, 0x0, [],
    [SE_TIDE_PARITY_COUNT]⟩

def SE_TIDE_LOST_COUNT : Fld := ⟨0, 32, .rc⟩
/-- SE_TIDE_LOST (07_tide_scrub.md). -/
def SE_TIDE_LOST : Reg :=
  ⟨0x200110, 1, 0x0, 1, 0x0, 0x0, [],
    [SE_TIDE_LOST_COUNT]⟩

def SE_TIDE_PARTIAL_COUNT : Fld := ⟨0, 32, .rc⟩
/-- SE_TIDE_PARTIAL (07_tide_scrub.md). -/
def SE_TIDE_PARTIAL : Reg :=
  ⟨0x200114, 1, 0x0, 1, 0x0, 0x0, [],
    [SE_TIDE_PARTIAL_COUNT]⟩

def SE_POOL_TIDECFG_PERIOD_D : Fld := ⟨0, 12, .ro⟩
def SE_POOL_TIDECFG_WAKE : Fld := ⟨12, 2, .ro⟩
def SE_POOL_TIDECFG_PAUSED : Fld := ⟨14, 1, .ro⟩
/-- SE_POOL_n_TIDECFG (07_tide_scrub.md). -/
def SE_POOL_TIDECFG : Reg :=
  ⟨0x201020, 64, 0x40, 1, 0x0, 0x0, [],
    [SE_POOL_TIDECFG_PERIOD_D, SE_POOL_TIDECFG_WAKE, SE_POOL_TIDECFG_PAUSED]⟩

def SE_POOL_TIDESTAT_STATE : Fld := ⟨0, 3, .ro⟩
def SE_POOL_TIDESTAT_MARK : Fld := ⟨16, 10, .ro⟩
/-- SE_POOL_n_TIDESTAT (07_tide_scrub.md). -/
def SE_POOL_TIDESTAT : Reg :=
  ⟨0x201024, 64, 0x40, 1, 0x0, 0x0, [],
    [SE_POOL_TIDESTAT_STATE, SE_POOL_TIDESTAT_MARK]⟩

def SE_POOL_TIDEROUND_ROUND : Fld := ⟨0, 32, .ro⟩
/-- SE_POOL_n_TIDEROUND (07_tide_scrub.md). -/
def SE_POOL_TIDEROUND : Reg :=
  ⟨0x201028, 64, 0x40, 1, 0x0, 0x0, [],
    [SE_POOL_TIDEROUND_ROUND]⟩

def SE_POOL_TIDEDAYS_ELAPSED_D : Fld := ⟨0, 16, .ro⟩
def SE_POOL_TIDEDAYS_LAST_D : Fld := ⟨16, 16, .ro⟩
/-- SE_POOL_n_TIDEDAYS (07_tide_scrub.md). -/
def SE_POOL_TIDEDAYS : Reg :=
  ⟨0x20102c, 64, 0x40, 1, 0x0, 0x0, [],
    [SE_POOL_TIDEDAYS_ELAPSED_D, SE_POOL_TIDEDAYS_LAST_D]⟩

def SE_SCARF_PARAM_COPY_GBS : Fld := ⟨0, 8, .ro⟩
def SE_SCARF_PARAM_READS_PER_MEMBER : Fld := ⟨8, 4, .ro⟩
/-- SE_SCARF_PARAM (08_scarf_migration.md). -/
def SE_SCARF_PARAM : Reg :=
  ⟨0x200140, 1, 0x0, 1, 0x0, 0x108, [],
    [SE_SCARF_PARAM_COPY_GBS, SE_SCARF_PARAM_READS_PER_MEMBER]⟩

def SE_SCARF_COPIED_COUNT : Fld := ⟨0, 32, .rc⟩
/-- SE_SCARF_COPIED (08_scarf_migration.md). -/
def SE_SCARF_COPIED : Reg :=
  ⟨0x200144, 1, 0x0, 1, 0x0, 0x0, [],
    [SE_SCARF_COPIED_COUNT]⟩

def SE_SCARF_RECOPY_COUNT : Fld := ⟨0, 32, .rc⟩
/-- SE_SCARF_RECOPY (08_scarf_migration.md). -/
def SE_SCARF_RECOPY : Reg :=
  ⟨0x200148, 1, 0x0, 1, 0x0, 0x0, [],
    [SE_SCARF_RECOPY_COUNT]⟩

def SE_SCARF_LOSTCHUNK_COUNT : Fld := ⟨0, 32, .rc⟩
/-- SE_SCARF_LOSTCHUNK (08_scarf_migration.md). -/
def SE_SCARF_LOSTCHUNK : Reg :=
  ⟨0x20014c, 1, 0x0, 1, 0x0, 0x0, [],
    [SE_SCARF_LOSTCHUNK_COUNT]⟩

def SE_POOL_SCARF_STATE : Fld := ⟨0, 3, .ro⟩
def SE_POOL_SCARF_BROKEN_HOLD : Fld := ⟨3, 1, .ro⟩
/-- SE_POOL_n_SCARF (08_scarf_migration.md). -/
def SE_POOL_SCARF : Reg :=
  ⟨0x201030, 64, 0x40, 1, 0x0, 0x0, [],
    [SE_POOL_SCARF_STATE, SE_POOL_SCARF_BROKEN_HOLD]⟩

def SE_POOL_SCARFOLD_K : Fld := ⟨0, 6, .ro⟩
def SE_POOL_SCARFOLD_M : Fld := ⟨8, 3, .ro⟩
def SE_POOL_SCARFOLD_CHUNK : Fld := ⟨12, 2, .ro⟩
def SE_POOL_SCARFOLD_LAYOUT_GEN : Fld := ⟨16, 16, .ro⟩
/-- SE_POOL_n_SCARFOLD (08_scarf_migration.md). -/
def SE_POOL_SCARFOLD : Reg :=
  ⟨0x201034, 64, 0x40, 1, 0x0, 0x0, [],
    [SE_POOL_SCARFOLD_K, SE_POOL_SCARFOLD_M, SE_POOL_SCARFOLD_CHUNK, SE_POOL_SCARFOLD_LAYOUT_GEN]⟩

def SE_POOL_SCARFLEFT_STRIPES : Fld := ⟨0, 32, .ro⟩
/-- SE_POOL_n_SCARFLEFT (08_scarf_migration.md). -/
def SE_POOL_SCARFLEFT : Reg :=
  ⟨0x201038, 64, 0x40, 1, 0x0, 0x0, [],
    [SE_POOL_SCARFLEFT_STRIPES]⟩

def SE_POOL_SCARFNEW_STRIPES : Fld := ⟨0, 32, .ro⟩
/-- SE_POOL_n_SCARFNEW (08_scarf_migration.md). -/
def SE_POOL_SCARFNEW : Reg :=
  ⟨0x20103c, 64, 0x40, 1, 0x0, 0x0, [],
    [SE_POOL_SCARFNEW_STRIPES]⟩

def QM_CAP_QUEUES_LOG2 : Fld := ⟨0, 5, .ro⟩
def QM_CAP_VECTORS_LOG2 : Fld := ⟨8, 5, .ro⟩
def QM_CAP_VFS : Fld := ⟨16, 6, .ro⟩
def QM_CAP_SPILL_MIB : Fld := ⟨24, 8, .ro⟩
/-- QM_CAP (10_host_queues.md). -/
def QM_CAP : Reg :=
  ⟨0x100000, 1, 0x0, 1, 0x0, 0x403f0b10, [],
    [QM_CAP_QUEUES_LOG2, QM_CAP_VECTORS_LOG2, QM_CAP_VFS, QM_CAP_SPILL_MIB]⟩

def QM_PORT_SPLIT : Fld := ⟨0, 1, .ro⟩
def QM_PORT_UP0 : Fld := ⟨1, 1, .ro⟩
def QM_PORT_UP1 : Fld := ⟨2, 1, .ro⟩
def QM_PORT_FLIT0 : Fld := ⟨3, 1, .ro⟩
def QM_PORT_FLIT1 : Fld := ⟨4, 1, .ro⟩
def QM_PORT_RATE0 : Fld := ⟨8, 4, .ro⟩
def QM_PORT_RATE1 : Fld := ⟨12, 4, .ro⟩
def QM_PORT_WIDTH0 : Fld := ⟨16, 5, .ro⟩
def QM_PORT_WIDTH1 : Fld := ⟨21, 5, .ro⟩
/-- QM_PORT_n (10_host_queues.md). -/
def QM_PORT : Reg :=
  ⟨0x100010, 2, 0x4, 1, 0x0, 0x0, [],
    [QM_PORT_SPLIT, QM_PORT_UP0, QM_PORT_UP1, QM_PORT_FLIT0, QM_PORT_FLIT1, QM_PORT_RATE0, QM_PORT_RATE1, QM_PORT_WIDTH0, QM_PORT_WIDTH1]⟩

def QM_SPILL_RESERVED_ENTRIES : Fld := ⟨0, 22, .ro⟩
/-- QM_SPILL_RESERVED (10_host_queues.md). -/
def QM_SPILL_RESERVED : Reg :=
  ⟨0x100020, 1, 0x0, 1, 0x0, 0x0, [],
    [QM_SPILL_RESERVED_ENTRIES]⟩

def QM_SPILL_USED_ENTRIES : Fld := ⟨0, 22, .ro⟩
/-- QM_SPILL_USED (10_host_queues.md). -/
def QM_SPILL_USED : Reg :=
  ⟨0x100024, 1, 0x0, 1, 0x0, 0x0, [],
    [QM_SPILL_USED_ENTRIES]⟩

def QM_INFLIGHT_COUNT : Fld := ⟨0, 21, .ro⟩
/-- QM_INFLIGHT (10_host_queues.md). -/
def QM_INFLIGHT : Reg :=
  ⟨0x100028, 1, 0x0, 1, 0x0, 0x0, [],
    [QM_INFLIGHT_COUNT]⟩

def QM_ORPHANS_COUNT : Fld := ⟨0, 19, .ro⟩
/-- QM_ORPHANS (10_host_queues.md). -/
def QM_ORPHANS : Reg :=
  ⟨0x10002c, 1, 0x0, 1, 0x0, 0x0, [],
    [QM_ORPHANS_COUNT]⟩

def QM_ORPHAN_DROP_COUNT : Fld := ⟨0, 32, .rc⟩
/-- QM_ORPHAN_DROP (10_host_queues.md). -/
def QM_ORPHAN_DROP : Reg :=
  ⟨0x100030, 1, 0x0, 1, 0x0, 0x0, [],
    [QM_ORPHAN_DROP_COUNT]⟩

def QM_FN_STATE_QUEUES : Fld := ⟨0, 17, .ro⟩
def QM_FN_STATE_CTLQ : Fld := ⟨17, 1, .ro⟩
def QM_FN_STATE_IN_RESET : Fld := ⟨18, 1, .ro⟩
def QM_FN_STATE_BME : Fld := ⟨19, 1, .ro⟩
def QM_FN_STATE_PRESENT : Fld := ⟨20, 1, .ro⟩
/-- QM_FN_x_STATE (10_host_queues.md). -/
def QM_FN_STATE : Reg :=
  ⟨0x110000, 130, 0x40, 1, 0x0, 0x0, [],
    [QM_FN_STATE_QUEUES, QM_FN_STATE_CTLQ, QM_FN_STATE_IN_RESET, QM_FN_STATE_BME, QM_FN_STATE_PRESENT]⟩

def QM_FN_ERR_COUNT : Fld := ⟨0, 32, .rc⟩
/-- QM_FN_x_ERR (10_host_queues.md). -/
def QM_FN_ERR : Reg :=
  ⟨0x110004, 130, 0x40, 1, 0x0, 0x0, [],
    [QM_FN_ERR_COUNT]⟩

def QM_FN_ORPHANS_COUNT : Fld := ⟨0, 19, .ro⟩
/-- QM_FN_x_ORPHANS (10_host_queues.md). -/
def QM_FN_ORPHANS : Reg :=
  ⟨0x110008, 130, 0x40, 1, 0x0, 0x0, [],
    [QM_FN_ORPHANS_COUNT]⟩

def QC_OWNER_SQ_VALID : Fld := ⟨0, 1, .ro⟩
def QC_OWNER_CQ_VALID : Fld := ⟨1, 1, .ro⟩
def QC_OWNER_PORT : Fld := ⟨2, 1, .ro⟩
def QC_OWNER_ENTRY : Fld := ⟨4, 7, .ro⟩
def QC_OWNER_LOCAL : Fld := ⟨16, 16, .ro⟩
/-- QC_N_OWNER (10_host_queues.md). -/
def QC_OWNER : Reg :=
  ⟨0x2000000, 65536, 0x40, 1, 0x0, 0x0, [],
    [QC_OWNER_SQ_VALID, QC_OWNER_CQ_VALID, QC_OWNER_PORT, QC_OWNER_ENTRY, QC_OWNER_LOCAL]⟩

def QC_SQ_CFG_SIZE_LOG2 : Fld := ⟨0, 5, .ro⟩
def QC_SQ_CFG_CQ : Fld := ⟨8, 16, .ro⟩
/-- QC_N_SQ_CFG (10_host_queues.md). -/
def QC_SQ_CFG : Reg :=
  ⟨0x2000004, 65536, 0x40, 1, 0x0, 0x0, [],
    [QC_SQ_CFG_SIZE_LOG2, QC_SQ_CFG_CQ]⟩

def QC_SQ_ARB_WEIGHT : Fld := ⟨0, 8, .rw⟩
def QC_SQ_ARB_BURST : Fld := ⟨8, 7, .rw⟩
def QC_SQ_ARB_PREFETCH : Fld := ⟨16, 7, .ro⟩
def QC_SQ_ARB_POLL_US : Fld := ⟨23, 9, .ro⟩
/-- QC_N_SQ_ARB (10_host_queues.md). -/
def QC_SQ_ARB : Reg :=
  ⟨0x2000008, 65536, 0x40, 1, 0x0, 0x0, [],
    [QC_SQ_ARB_WEIGHT, QC_SQ_ARB_BURST, QC_SQ_ARB_PREFETCH, QC_SQ_ARB_POLL_US]⟩

def QC_SQ_TAIL_A : Fld := ⟨0, 32, .ro⟩
/-- QC_N_SQ_TAIL (10_host_queues.md). -/
def QC_SQ_TAIL : Reg :=
  ⟨0x200000c, 65536, 0x40, 1, 0x0, 0x0, [],
    [QC_SQ_TAIL_A]⟩

def QC_SQ_HEAD_C : Fld := ⟨0, 32, .ro⟩
/-- QC_N_SQ_HEAD (10_host_queues.md). -/
def QC_SQ_HEAD : Reg :=
  ⟨0x2000010, 65536, 0x40, 1, 0x0, 0x0, [],
    [QC_SQ_HEAD_C]⟩

def QC_CQ_CFG_SIZE_LOG2 : Fld := ⟨0, 5, .ro⟩
def QC_CQ_CFG_VECTOR : Fld := ⟨5, 11, .ro⟩
def QC_CQ_CFG_NO_VECTOR : Fld := ⟨16, 1, .ro⟩
/-- QC_N_CQ_CFG (10_host_queues.md). -/
def QC_CQ_CFG : Reg :=
  ⟨0x2000014, 65536, 0x40, 1, 0x0, 0x0, [],
    [QC_CQ_CFG_SIZE_LOG2, QC_CQ_CFG_VECTOR, QC_CQ_CFG_NO_VECTOR]⟩

def QC_CQ_COAL_COUNT : Fld := ⟨0, 8, .rw⟩
def QC_CQ_COAL_US : Fld := ⟨8, 10, .rw⟩
/-- QC_N_CQ_COAL (10_host_queues.md). -/
def QC_CQ_COAL : Reg :=
  ⟨0x2000018, 65536, 0x40, 1, 0x0, 0x0, [],
    [QC_CQ_COAL_COUNT, QC_CQ_COAL_US]⟩

def QC_CQ_TAIL_PC : Fld := ⟨0, 32, .ro⟩
/-- QC_N_CQ_TAIL (10_host_queues.md). -/
def QC_CQ_TAIL : Reg :=
  ⟨0x200001c, 65536, 0x40, 1, 0x0, 0x0, [],
    [QC_CQ_TAIL_PC]⟩

def QC_CQ_HEAD_H : Fld := ⟨0, 32, .ro⟩
/-- QC_N_CQ_HEAD (10_host_queues.md). -/
def QC_CQ_HEAD : Reg :=
  ⟨0x2000020, 65536, 0x40, 1, 0x0, 0x0, [],
    [QC_CQ_HEAD_H]⟩

def QC_CQ_SPILL_LIMIT_L : Fld := ⟨0, 17, .ro⟩
/-- QC_N_CQ_SPILL_LIMIT (10_host_queues.md). -/
def QC_CQ_SPILL_LIMIT : Reg :=
  ⟨0x2000024, 65536, 0x40, 1, 0x0, 0x0, [],
    [QC_CQ_SPILL_LIMIT_L]⟩

def QC_CQ_SPILL_USED_S : Fld := ⟨0, 17, .ro⟩
def QC_CQ_SPILL_USED_CLOSED : Fld := ⟨31, 1, .ro⟩
/-- QC_N_CQ_SPILL_USED (10_host_queues.md). -/
def QC_CQ_SPILL_USED : Reg :=
  ⟨0x2000028, 65536, 0x40, 1, 0x0, 0x0, [],
    [QC_CQ_SPILL_USED_S, QC_CQ_SPILL_USED_CLOSED]⟩

def QC_CQ_OUTSTANDING_O : Fld := ⟨0, 21, .ro⟩
/-- QC_N_CQ_OUTSTANDING (10_host_queues.md). -/
def QC_CQ_OUTSTANDING : Reg :=
  ⟨0x200002c, 65536, 0x40, 1, 0x0, 0x0, [],
    [QC_CQ_OUTSTANDING_O]⟩

def DL_DIE_CAP_LANES : Fld := ⟨0, 9, .ro⟩
def DL_DIE_CAP_CHAINS : Fld := ⟨16, 8, .ro⟩
/-- DL_DIE_d_CAP (12_drive_links_and_spin.md). -/
def DL_DIE_CAP : Reg :=
  ⟨0x1400000, 4, 0x10000, 1, 0x0, 0x80100, [],
    [DL_DIE_CAP_LANES, DL_DIE_CAP_CHAINS]⟩

def DL_DIE_STATUS_LINKS_UP : Fld := ⟨0, 9, .ro⟩
def DL_DIE_STATUS_POWERED : Fld := ⟨16, 9, .ro⟩
/-- DL_DIE_d_STATUS (12_drive_links_and_spin.md). -/
def DL_DIE_STATUS : Reg :=
  ⟨0x1400004, 4, 0x10000, 1, 0x0, 0x0, [],
    [DL_DIE_STATUS_LINKS_UP, DL_DIE_STATUS_POWERED]⟩

def DL_CHAIN_STATUS_EXTENDED : Fld := ⟨0, 1, .ro⟩
def DL_CHAIN_STATUS_FAULT : Fld := ⟨1, 1, .ro⟩
def DL_CHAIN_STATUS_PARITY_ERRORS : Fld := ⟨8, 8, .rc⟩
/-- DL_CHAIN_c_STATUS (12_drive_links_and_spin.md). -/
def DL_CHAIN_STATUS : Reg :=
  ⟨0x1400100, 4, 0x10000, 8, 0x10, 0x0, [],
    [DL_CHAIN_STATUS_EXTENDED, DL_CHAIN_STATUS_FAULT, DL_CHAIN_STATUS_PARITY_ERRORS]⟩

def DL_ENC_SPIN_I_MAX_DA : Fld := ⟨0, 10, .ro⟩
def DL_ENC_SPIN_I_BASE_DA : Fld := ⟨10, 10, .ro⟩
def DL_ENC_SPIN_RESERVED_DA : Fld := ⟨20, 10, .ro⟩
def DL_ENC_SPIN_MODELLED : Fld := ⟨30, 1, .ro⟩
def DL_ENC_SPIN_BLOCKED : Fld := ⟨31, 1, .ro⟩
/-- DL_ENC_e_SPIN (12_drive_links_and_spin.md). -/
def DL_ENC_SPIN : Reg :=
  ⟨0x1408000, 32, 0x10, 1, 0x0, 0x0, [],
    [DL_ENC_SPIN_I_MAX_DA, DL_ENC_SPIN_I_BASE_DA, DL_ENC_SPIN_RESERVED_DA, DL_ENC_SPIN_MODELLED, DL_ENC_SPIN_BLOCKED]⟩

def DL_ENC_QUEUE_SPINNING : Fld := ⟨0, 11, .ro⟩
def DL_ENC_QUEUE_WAITING : Fld := ⟨16, 11, .ro⟩
/-- DL_ENC_e_QUEUE (12_drive_links_and_spin.md). -/
def DL_ENC_QUEUE : Reg :=
  ⟨0x1408004, 32, 0x10, 1, 0x0, 0x0, [],
    [DL_ENC_QUEUE_SPINNING, DL_ENC_QUEUE_WAITING]⟩

def DL_SPIN_PARAM_I_GUARD_DA : Fld := ⟨0, 8, .ro⟩
def DL_SPIN_PARAM_IDLE_MIN : Fld := ⟨8, 8, .ro⟩
def DL_SPIN_PARAM_OFF_MIN : Fld := ⟨16, 16, .ro⟩
/-- DL_SPIN_PARAM (12_drive_links_and_spin.md). -/
def DL_SPIN_PARAM : Reg :=
  ⟨0x1408400, 1, 0x0, 1, 0x0, 0x1e0a, [],
    [DL_SPIN_PARAM_I_GUARD_DA, DL_SPIN_PARAM_IDLE_MIN, DL_SPIN_PARAM_OFF_MIN]⟩

def DL_SLOT_STATUS_PRESENT : Fld := ⟨0, 1, .ro⟩
def DL_SLOT_STATUS_PWR_EN : Fld := ⟨1, 1, .ro⟩
def DL_SLOT_STATUS_PWR_GOOD : Fld := ⟨2, 1, .ro⟩
def DL_SLOT_STATUS_POWER_FAULT : Fld := ⟨3, 1, .ro⟩
def DL_SLOT_STATUS_PROTO : Fld := ⟨4, 2, .ro⟩
def DL_SLOT_STATUS_RATE : Fld := ⟨6, 2, .ro⟩
def DL_SLOT_STATUS_COND : Fld := ⟨8, 3, .ro⟩
def DL_SLOT_STATUS_ZONED : Fld := ⟨11, 1, .ro⟩
def DL_SLOT_STATUS_FLASH : Fld := ⟨12, 1, .ro⟩
def DL_SLOT_STATUS_SINGLE : Fld := ⟨13, 1, .ro⟩
def DL_SLOT_STATUS_NO_PR : Fld := ⟨14, 1, .ro⟩
def DL_SLOT_STATUS_UNSUPPORTED : Fld := ⟨15, 1, .ro⟩
def DL_SLOT_STATUS_LINK_FAIL : Fld := ⟨16, 1, .ro⟩
def DL_SLOT_STATUS_QUEUED : Fld := ⟨17, 1, .ro⟩
def DL_SLOT_STATUS_LOCATE : Fld := ⟨18, 1, .ro⟩
def DL_SLOT_STATUS_ENCLOSURE : Fld := ⟨19, 5, .ro⟩
/-- DL_SLOT_n_STATUS (12_drive_links_and_spin.md). -/
def DL_SLOT_STATUS : Reg :=
  ⟨0x1000000, 1024, 0x1000, 1, 0x0, 0x0, [],
    [DL_SLOT_STATUS_PRESENT, DL_SLOT_STATUS_PWR_EN, DL_SLOT_STATUS_PWR_GOOD, DL_SLOT_STATUS_POWER_FAULT, DL_SLOT_STATUS_PROTO, DL_SLOT_STATUS_RATE, DL_SLOT_STATUS_COND, DL_SLOT_STATUS_ZONED, DL_SLOT_STATUS_FLASH, DL_SLOT_STATUS_SINGLE, DL_SLOT_STATUS_NO_PR, DL_SLOT_STATUS_UNSUPPORTED, DL_SLOT_STATUS_LINK_FAIL, DL_SLOT_STATUS_QUEUED, DL_SLOT_STATUS_LOCATE, DL_SLOT_STATUS_ENCLOSURE]⟩

def DL_SLOT_CTL_LANE_RESET : Fld := ⟨0, 1, .wo⟩
def DL_SLOT_CTL_MAX_RATE : Fld := ⟨2, 2, .ro⟩
def DL_SLOT_CTL_PROFILE : Fld := ⟨4, 4, .ro⟩
/-- DL_SLOT_n_CTL (12_drive_links_and_spin.md). -/
def DL_SLOT_CTL : Reg :=
  ⟨0x1000004, 1024, 0x1000, 1, 0x0, 0xc, [],
    [DL_SLOT_CTL_LANE_RESET, DL_SLOT_CTL_MAX_RATE, DL_SLOT_CTL_PROFILE]⟩

def DL_SLOT_PHYERR_INVALID_DWORD : Fld := ⟨0, 8, .rc⟩
def DL_SLOT_PHYERR_DISPARITY : Fld := ⟨8, 8, .rc⟩
def DL_SLOT_PHYERR_SYNC_LOSS : Fld := ⟨16, 8, .rc⟩
def DL_SLOT_PHYERR_RESET_PROBLEM : Fld := ⟨24, 8, .rc⟩
/-- DL_SLOT_n_PHYERR (12_drive_links_and_spin.md). -/
def DL_SLOT_PHYERR : Reg :=
  ⟨0x1000008, 1024, 0x1000, 1, 0x0, 0x0, [],
    [DL_SLOT_PHYERR_INVALID_DWORD, DL_SLOT_PHYERR_DISPARITY, DL_SLOT_PHYERR_SYNC_LOSS, DL_SLOT_PHYERR_RESET_PROBLEM]⟩

def DL_SLOT_CMDERR_TIMEOUTS : Fld := ⟨0, 16, .rc⟩
def DL_SLOT_CMDERR_RETRIES : Fld := ⟨16, 16, .rc⟩
/-- DL_SLOT_n_CMDERR (12_drive_links_and_spin.md). -/
def DL_SLOT_CMDERR : Reg :=
  ⟨0x100000c, 1024, 0x1000, 1, 0x0, 0x0, [],
    [DL_SLOT_CMDERR_TIMEOUTS, DL_SLOT_CMDERR_RETRIES]⟩

def DL_SLOT_SPINS_SPINUPS : Fld := ⟨0, 16, .ro⟩
def DL_SLOT_SPINS_LAST_READY_DS : Fld := ⟨16, 16, .ro⟩
/-- DL_SLOT_n_SPINS (12_drive_links_and_spin.md). -/
def DL_SLOT_SPINS : Reg :=
  ⟨0x1000010, 1024, 0x1000, 1, 0x0, 0x0, [],
    [DL_SLOT_SPINS_SPINUPS, DL_SLOT_SPINS_LAST_READY_DS]⟩

def CL_CAP_AIN : Fld := ⟨0, 7, .ro⟩
def CL_CAP_FANS : Fld := ⟨8, 6, .ro⟩
def CL_CAP_HEATERS : Fld := ⟨16, 5, .ro⟩
def CL_CAP_SMBUS : Fld := ⟨24, 4, .ro⟩
def CL_CAP_ENGINES_LOG2 : Fld := ⟨28, 4, .ro⟩
/-- CL_CAP (13_climate_and_energy.md). -/
def CL_CAP : Reg :=
  ⟨0x700000, 1, 0x0, 1, 0x0, 0x48102040, [],
    [CL_CAP_AIN, CL_CAP_FANS, CL_CAP_HEATERS, CL_CAP_SMBUS, CL_CAP_ENGINES_LOG2]⟩

def CL_STATUS_BANK_MEASURED : Fld := ⟨0, 1, .ro⟩
def CL_STATUS_TRIP_ARMED : Fld := ⟨1, 1, .ro⟩
def CL_STATUS_TEST_RUN : Fld := ⟨2, 1, .ro⟩
def CL_STATUS_SMBUS_FAULT : Fld := ⟨8, 8, .ro⟩
/-- CL_STATUS (13_climate_and_energy.md). -/
def CL_STATUS : Reg :=
  ⟨0x700004, 1, 0x0, 1, 0x0, 0x0, [],
    [CL_STATUS_BANK_MEASURED, CL_STATUS_TRIP_ARMED, CL_STATUS_TEST_RUN, CL_STATUS_SMBUS_FAULT]⟩

def CL_TRIP_VBANK_TRIP : Fld := ⟨0, 1, .rw1c⟩
def CL_TRIP_CHARGER_FAULT : Fld := ⟨1, 1, .rw1c⟩
def CL_TRIP_BANK_AGED : Fld := ⟨2, 1, .rw1c⟩
def CL_TRIP_TEST_POSTPONED : Fld := ⟨3, 1, .rw1c⟩
def CL_TRIP_FAN_FAIL : Fld := ⟨4, 1, .rw1c⟩
def CL_TRIP_SENSOR_LOST : Fld := ⟨5, 1, .rw1c⟩
def CL_TRIP_ENC_HOT : Fld := ⟨6, 1, .rw1c⟩
def CL_TRIP_ENC_CRIT : Fld := ⟨7, 1, .rw1c⟩
def CL_TRIP_HUMID_HIGH : Fld := ⟨8, 1, .rw1c⟩
def CL_TRIP_HOLD_LONG : Fld := ⟨9, 1, .rw1c⟩
/-- CL_TRIP (13_climate_and_energy.md). -/
def CL_TRIP : Reg :=
  ⟨0x700008, 1, 0x0, 1, 0x0, 0x0, [],
    [CL_TRIP_VBANK_TRIP, CL_TRIP_CHARGER_FAULT, CL_TRIP_BANK_AGED, CL_TRIP_TEST_POSTPONED, CL_TRIP_FAN_FAIL, CL_TRIP_SENSOR_LOST, CL_TRIP_ENC_HOT, CL_TRIP_ENC_CRIT, CL_TRIP_HUMID_HIGH, CL_TRIP_HOLD_LONG]⟩

def CL_HOLD_HELD : Fld := ⟨0, 32, .ro⟩
/-- CL_HOLD (13_climate_and_energy.md). -/
def CL_HOLD : Reg :=
  ⟨0x70000c, 1, 0x0, 1, 0x0, 0xffffffff, [],
    [CL_HOLD_HELD]⟩

def CL_BANK_VI_V_MV : Fld := ⟨0, 16, .ro⟩
def CL_BANK_VI_I_MA : Fld := ⟨16, 16, .ro⟩
/-- CL_BANK_VI (13_climate_and_energy.md). -/
def CL_BANK_VI : Reg :=
  ⟨0x700010, 1, 0x0, 1, 0x0, 0x0, [],
    [CL_BANK_VI_V_MV, CL_BANK_VI_I_MA]⟩

def CL_BANK_CE_C_MF : Fld := ⟨0, 16, .ro⟩
def CL_BANK_CE_ESR : Fld := ⟨16, 16, .ro⟩
/-- CL_BANK_CE (13_climate_and_energy.md). -/
def CL_BANK_CE : Reg :=
  ⟨0x700014, 1, 0x0, 1, 0x0, 0x0, [],
    [CL_BANK_CE_C_MF, CL_BANK_CE_ESR]⟩

def CL_BANK_EU_E_U : Fld := ⟨0, 16, .ro⟩
def CL_BANK_EU_TEST_AGE_H : Fld := ⟨16, 16, .ro⟩
/-- CL_BANK_EU (13_climate_and_energy.md). -/
def CL_BANK_EU : Reg :=
  ⟨0x700018, 1, 0x0, 1, 0x0, 0xffff0000, [],
    [CL_BANK_EU_E_U, CL_BANK_EU_TEST_AGE_H]⟩

def CL_CHG_STATE : Fld := ⟨0, 2, .ro⟩
def CL_CHG_EN : Fld := ⟨2, 1, .ro⟩
def CL_CHG_TEST : Fld := ⟨3, 1, .ro⟩
def CL_CHG_TARGET_DV : Fld := ⟨4, 12, .ro⟩
/-- CL_CHG (13_climate_and_energy.md). -/
def CL_CHG : Reg :=
  ⟨0x70001c, 1, 0x0, 1, 0x0, 0x0, [],
    [CL_CHG_STATE, CL_CHG_EN, CL_CHG_TEST, CL_CHG_TARGET_DV]⟩

def CL_BANK_PARAM_V_CUT_DV : Fld := ⟨0, 10, .ro⟩
def CL_BANK_PARAM_V_TRIP_DV : Fld := ⟨10, 10, .ro⟩
def CL_BANK_PARAM_ETA_PCT : Fld := ⟨20, 7, .ro⟩
/-- CL_BANK_PARAM (13_climate_and_energy.md). -/
def CL_BANK_PARAM : Reg :=
  ⟨0x700020, 1, 0x0, 1, 0x0, 0x5c5f096, [],
    [CL_BANK_PARAM_V_CUT_DV, CL_BANK_PARAM_V_TRIP_DV, CL_BANK_PARAM_ETA_PCT]⟩

def CL_TEST_PARAM_R_LOAD_DO : Fld := ⟨0, 8, .ro⟩
def CL_TEST_PARAM_PULSE_10MS : Fld := ⟨8, 8, .ro⟩
def CL_TEST_PARAM_INTERVAL_H : Fld := ⟨16, 8, .ro⟩
def CL_TEST_PARAM_RETEST_C : Fld := ⟨24, 8, .ro⟩
/-- CL_TEST_PARAM (13_climate_and_energy.md). -/
def CL_TEST_PARAM : Reg :=
  ⟨0x700024, 1, 0x0, 1, 0x0, 0xa181428, [],
    [CL_TEST_PARAM_R_LOAD_DO, CL_TEST_PARAM_PULSE_10MS, CL_TEST_PARAM_INTERVAL_H, CL_TEST_PARAM_RETEST_C]⟩

def CL_BANK_NAMEPLATE_C_MF : Fld := ⟨0, 16, .ro⟩
def CL_BANK_NAMEPLATE_ESR : Fld := ⟨16, 16, .ro⟩
/-- CL_BANK_NAMEPLATE (13_climate_and_energy.md). -/
def CL_BANK_NAMEPLATE : Reg :=
  ⟨0x700028, 1, 0x0, 1, 0x0, 0x0, [],
    [CL_BANK_NAMEPLATE_C_MF, CL_BANK_NAMEPLATE_ESR]⟩

def CL_CLIM_PARAM_T_LIMIT_C : Fld := ⟨0, 8, .ro⟩
def CL_CLIM_PARAM_CRIT_MARGIN_C : Fld := ⟨8, 8, .ro⟩
def CL_CLIM_PARAM_HOLD_DWELL_MIN : Fld := ⟨16, 8, .ro⟩
def CL_CLIM_PARAM_DEW_FALLBACK_C : Fld := ⟨24, 8, .ro⟩
/-- CL_CLIM_PARAM (13_climate_and_energy.md). -/
def CL_CLIM_PARAM : Reg :=
  ⟨0x70002c, 1, 0x0, 1, 0x0, 0xf0a082d, [],
    [CL_CLIM_PARAM_T_LIMIT_C, CL_CLIM_PARAM_CRIT_MARGIN_C, CL_CLIM_PARAM_HOLD_DWELL_MIN, CL_CLIM_PARAM_DEW_FALLBACK_C]⟩

def CL_CAPTURE_OVERRUN_0 : Fld := ⟨0, 16, .rc⟩
def CL_CAPTURE_OVERRUN_1 : Fld := ⟨16, 16, .rc⟩
/-- CL_CAPTURE (13_climate_and_energy.md). -/
def CL_CAPTURE : Reg :=
  ⟨0x700030, 1, 0x0, 1, 0x0, 0x0, [],
    [CL_CAPTURE_OVERRUN_0, CL_CAPTURE_OVERRUN_1]⟩

def CL_AIN_VALUE : Fld := ⟨0, 16, .ro⟩
def CL_AIN_ROLE : Fld := ⟨16, 3, .ro⟩
def CL_AIN_VALID : Fld := ⟨19, 1, .ro⟩
def CL_AIN_ENC : Fld := ⟨20, 5, .ro⟩
/-- CL_AIN_k (13_climate_and_energy.md). -/
def CL_AIN : Reg :=
  ⟨0x700100, 64, 0x4, 1, 0x0, 0x0, [],
    [CL_AIN_VALUE, CL_AIN_ROLE, CL_AIN_VALID, CL_AIN_ENC]⟩

def CL_FAN_DUTY : Fld := ⟨0, 14, .ro⟩
def CL_FAN_FAIL : Fld := ⟨14, 1, .ro⟩
def CL_FAN_RPM : Fld := ⟨16, 15, .ro⟩
/-- CL_FAN_f (13_climate_and_energy.md). -/
def CL_FAN : Reg :=
  ⟨0x700200, 32, 0x4, 1, 0x0, 0x0, [],
    [CL_FAN_DUTY, CL_FAN_FAIL, CL_FAN_RPM]⟩

def CL_HTR_DUTY : Fld := ⟨0, 14, .ro⟩
def CL_HTR_TEST_LOAD : Fld := ⟨14, 1, .ro⟩
/-- CL_HTR_h (13_climate_and_energy.md). -/
def CL_HTR : Reg :=
  ⟨0x700280, 16, 0x4, 1, 0x0, 0x0, [],
    [CL_HTR_DUTY, CL_HTR_TEST_LOAD]⟩

def CL_ENC_STATE_HEADROOM_DC : Fld := ⟨0, 12, .ro⟩
def CL_ENC_STATE_HOLD : Fld := ⟨12, 1, .ro⟩
def CL_ENC_STATE_HOT : Fld := ⟨13, 1, .ro⟩
def CL_ENC_STATE_CRIT : Fld := ⟨14, 1, .ro⟩
def CL_ENC_STATE_T_VALID : Fld := ⟨15, 1, .ro⟩
def CL_ENC_STATE_DEW_DC : Fld := ⟨16, 12, .ro⟩
def CL_ENC_STATE_RH_VALID : Fld := ⟨28, 1, .ro⟩
def CL_ENC_STATE_I_VALID : Fld := ⟨29, 1, .ro⟩
/-- CL_ENC_e_STATE (13_climate_and_energy.md). -/
def CL_ENC_STATE : Reg :=
  ⟨0x700300, 32, 0x8, 1, 0x0, 0x0, [],
    [CL_ENC_STATE_HEADROOM_DC, CL_ENC_STATE_HOLD, CL_ENC_STATE_HOT, CL_ENC_STATE_CRIT, CL_ENC_STATE_T_VALID, CL_ENC_STATE_DEW_DC, CL_ENC_STATE_RH_VALID, CL_ENC_STATE_I_VALID]⟩

def CL_ENC_AIR_T_MAX : Fld := ⟨0, 16, .ro⟩
def CL_ENC_AIR_T_MIN : Fld := ⟨16, 16, .ro⟩
/-- CL_ENC_e_AIR (13_climate_and_energy.md). -/
def CL_ENC_AIR : Reg :=
  ⟨0x700304, 32, 0x8, 1, 0x0, 0x0, [],
    [CL_ENC_AIR_T_MAX, CL_ENC_AIR_T_MIN]⟩

def CL_SNS_T : Fld := ⟨0, 16, .ro⟩
def CL_SNS_RH : Fld := ⟨16, 10, .ro⟩
def CL_SNS_VALID : Fld := ⟨26, 1, .ro⟩
def CL_SNS_ENC : Fld := ⟨27, 5, .ro⟩
/-- CL_SNS_s (13_climate_and_energy.md). -/
def CL_SNS : Reg :=
  ⟨0x700400, 128, 0x4, 1, 0x0, 0x0, [],
    [CL_SNS_T, CL_SNS_RH, CL_SNS_VALID, CL_SNS_ENC]⟩

def CL_LE_CFG_EN : Fld := ⟨0, 1, .ro⟩
def CL_LE_CFG_DIR : Fld := ⟨1, 1, .ro⟩
def CL_LE_CFG_AGG : Fld := ⟨2, 2, .ro⟩
def CL_LE_CFG_ROLE : Fld := ⟨4, 3, .ro⟩
def CL_LE_CFG_FF_SRC : Fld := ⟨7, 2, .ro⟩
def CL_LE_CFG_ENC : Fld := ⟨9, 5, .ro⟩
def CL_LE_CFG_PERIOD : Fld := ⟨14, 10, .ro⟩
/-- CL_LE_n_CFG (13_climate_and_energy.md). -/
def CL_LE_CFG : Reg :=
  ⟨0x701000, 16, 0x20, 1, 0x0, 0x0, [],
    [CL_LE_CFG_EN, CL_LE_CFG_DIR, CL_LE_CFG_AGG, CL_LE_CFG_ROLE, CL_LE_CFG_FF_SRC, CL_LE_CFG_ENC, CL_LE_CFG_PERIOD]⟩

def CL_LE_SET_SETPOINT : Fld := ⟨0, 16, .ro⟩
def CL_LE_SET_RATE : Fld := ⟨16, 14, .ro⟩
/-- CL_LE_n_SET (13_climate_and_energy.md). -/
def CL_LE_SET : Reg :=
  ⟨0x701004, 16, 0x20, 1, 0x0, 0x0, [],
    [CL_LE_SET_SETPOINT, CL_LE_SET_RATE]⟩

def CL_LE_GAIN_KP : Fld := ⟨0, 16, .ro⟩
def CL_LE_GAIN_KI : Fld := ⟨16, 16, .ro⟩
/-- CL_LE_n_GAIN (13_climate_and_energy.md). -/
def CL_LE_GAIN : Reg :=
  ⟨0x701008, 16, 0x20, 1, 0x0, 0x0, [],
    [CL_LE_GAIN_KP, CL_LE_GAIN_KI]⟩

def CL_LE_FF_KFF : Fld := ⟨0, 16, .ro⟩
def CL_LE_FF_FF_INPUT : Fld := ⟨16, 6, .ro⟩
/-- CL_LE_n_FF (13_climate_and_energy.md). -/
def CL_LE_FF : Reg :=
  ⟨0x70100c, 16, 0x20, 1, 0x0, 0x0, [],
    [CL_LE_FF_KFF, CL_LE_FF_FF_INPUT]⟩

def CL_LE_LIMIT_OUT_MIN : Fld := ⟨0, 14, .ro⟩
def CL_LE_LIMIT_OUT_MAX : Fld := ⟨16, 14, .ro⟩
/-- CL_LE_n_LIMIT (13_climate_and_energy.md). -/
def CL_LE_LIMIT : Reg :=
  ⟨0x701010, 16, 0x20, 1, 0x0, 0x0, [],
    [CL_LE_LIMIT_OUT_MIN, CL_LE_LIMIT_OUT_MAX]⟩

def CL_LE_STATE_OUT : Fld := ⟨0, 14, .ro⟩
def CL_LE_STATE_SAT_HI : Fld := ⟨14, 1, .ro⟩
def CL_LE_STATE_SAT_LO : Fld := ⟨15, 1, .ro⟩
def CL_LE_STATE_INTEG : Fld := ⟨16, 15, .ro⟩
def CL_LE_STATE_FAILSAFE : Fld := ⟨31, 1, .ro⟩
/-- CL_LE_n_STATE (13_climate_and_energy.md). -/
def CL_LE_STATE : Reg :=
  ⟨0x701014, 16, 0x20, 1, 0x0, 0x0, [],
    [CL_LE_STATE_OUT, CL_LE_STATE_SAT_HI, CL_LE_STATE_SAT_LO, CL_LE_STATE_INTEG, CL_LE_STATE_FAILSAFE]⟩

def PL_CAP_LANES : Fld := ⟨0, 8, .ro⟩
def PL_CAP_PROTO_MAX : Fld := ⟨8, 8, .ro⟩
/-- PL_CAP (14_pairing_and_peer_link.md). -/
def PL_CAP : Reg :=
  ⟨0x800000, 1, 0x0, 1, 0x0, 0x110, [],
    [PL_CAP_LANES, PL_CAP_PROTO_MAX]⟩

def PL_STATUS_PEER : Fld := ⟨0, 4, .ro⟩
def PL_STATUS_SIDE : Fld := ⟨4, 1, .ro⟩
def PL_STATUS_PAIR_MODE : Fld := ⟨5, 1, .ro⟩
def PL_STATUS_LINK_UP : Fld := ⟨6, 1, .ro⟩
def PL_STATUS_RATE : Fld := ⟨8, 4, .ro⟩
def PL_STATUS_WIDTH : Fld := ⟨12, 5, .ro⟩
/-- PL_STATUS (14_pairing_and_peer_link.md). -/
def PL_STATUS : Reg :=
  ⟨0x800004, 1, 0x0, 1, 0x0, 0x0, [],
    [PL_STATUS_PEER, PL_STATUS_SIDE, PL_STATUS_PAIR_MODE, PL_STATUS_LINK_UP, PL_STATUS_RATE, PL_STATUS_WIDTH]⟩

def PL_PARAM_LOSS_MS : Fld := ⟨0, 16, .ro⟩
def PL_PARAM_TAKE_DELAY_MS : Fld := ⟨16, 16, .ro⟩
/-- PL_PARAM (14_pairing_and_peer_link.md). -/
def PL_PARAM : Reg :=
  ⟨0x800008, 1, 0x0, 1, 0x0, 0x1f40014, [],
    [PL_PARAM_LOSS_MS, PL_PARAM_TAKE_DELAY_MS]⟩

def PL_PEER_OWNED_LO_POOLS : Fld := ⟨0, 32, .ro⟩
/-- PL_PEER_OWNED_LO (14_pairing_and_peer_link.md). -/
def PL_PEER_OWNED_LO : Reg :=
  ⟨0x80000c, 1, 0x0, 1, 0x0, 0x0, [],
    [PL_PEER_OWNED_LO_POOLS]⟩

def PL_PEER_OWNED_HI_POOLS : Fld := ⟨0, 32, .ro⟩
/-- PL_PEER_OWNED_HI (14_pairing_and_peer_link.md). -/
def PL_PEER_OWNED_HI : Reg :=
  ⟨0x800010, 1, 0x0, 1, 0x0, 0x0, [],
    [PL_PEER_OWNED_HI_POOLS]⟩

def PL_MIRROR_LAG_KIB : Fld := ⟨0, 32, .ro⟩
/-- PL_MIRROR_LAG (14_pairing_and_peer_link.md). -/
def PL_MIRROR_LAG : Reg :=
  ⟨0x800014, 1, 0x0, 1, 0x0, 0x0, [],
    [PL_MIRROR_LAG_KIB]⟩

def PL_REPLAY_COUNT : Fld := ⟨0, 32, .rc⟩
/-- PL_REPLAY (14_pairing_and_peer_link.md). -/
def PL_REPLAY : Reg :=
  ⟨0x800018, 1, 0x0, 1, 0x0, 0x0, [],
    [PL_REPLAY_COUNT]⟩

def PL_FEC_COUNT : Fld := ⟨0, 32, .rc⟩
/-- PL_FEC (14_pairing_and_peer_link.md). -/
def PL_FEC : Reg :=
  ⟨0x80001c, 1, 0x0, 1, 0x0, 0x0, [],
    [PL_FEC_COUNT]⟩

def PL_BAD_FRAME_COUNT : Fld := ⟨0, 32, .rc⟩
/-- PL_BAD_FRAME (14_pairing_and_peer_link.md). -/
def PL_BAD_FRAME : Reg :=
  ⟨0x800020, 1, 0x0, 1, 0x0, 0x0, [],
    [PL_BAD_FRAME_COUNT]⟩

def PL_HANDOVERS_TAKEOVERS : Fld := ⟨0, 16, .ro⟩
def PL_HANDOVERS_GIVEBACKS : Fld := ⟨16, 16, .ro⟩
/-- PL_HANDOVERS (14_pairing_and_peer_link.md). -/
def PL_HANDOVERS : Reg :=
  ⟨0x800024, 1, 0x0, 1, 0x0, 0x0, [],
    [PL_HANDOVERS_TAKEOVERS, PL_HANDOVERS_GIVEBACKS]⟩

def DEV_BOOT_FW_SLOT : Fld := ⟨0, 1, .ro⟩
def DEV_BOOT_FW_FALLBACK : Fld := ⟨1, 1, .ro⟩
def DEV_BOOT_IMG_SLOT : Fld := ⟨2, 2, .ro⟩
def DEV_BOOT_IMG_FALLBACK : Fld := ⟨4, 1, .ro⟩
def DEV_BOOT_DIR_VALID : Fld := ⟨5, 1, .ro⟩
/-- DEV_BOOT (15_setting_out_and_startup.md). -/
def DEV_BOOT : Reg :=
  ⟨0x100, 1, 0x0, 1, 0x0, 0x0, [],
    [DEV_BOOT_FW_SLOT, DEV_BOOT_FW_FALLBACK, DEV_BOOT_IMG_SLOT, DEV_BOOT_IMG_FALLBACK, DEV_BOOT_DIR_VALID]⟩

def DEV_BOOT_REASON_FW0 : Fld := ⟨0, 8, .ro⟩
def DEV_BOOT_REASON_FW1 : Fld := ⟨8, 8, .ro⟩
def DEV_BOOT_REASON_IMG0 : Fld := ⟨16, 8, .ro⟩
def DEV_BOOT_REASON_IMG1 : Fld := ⟨24, 8, .ro⟩
/-- DEV_BOOT_REASON (15_setting_out_and_startup.md). -/
def DEV_BOOT_REASON : Reg :=
  ⟨0x104, 1, 0x0, 1, 0x0, 0xffffffff, [],
    [DEV_BOOT_REASON_FW0, DEV_BOOT_REASON_FW1, DEV_BOOT_REASON_IMG0, DEV_BOOT_REASON_IMG1]⟩

def DEV_IMG_FAULT_TYPE : Fld := ⟨0, 16, .ro⟩
def DEV_IMG_FAULT_BYTE : Fld := ⟨16, 16, .ro⟩
/-- DEV_IMG_FAULT (15_setting_out_and_startup.md). -/
def DEV_IMG_FAULT : Reg :=
  ⟨0x108, 1, 0x0, 1, 0x0, 0x0, [],
    [DEV_IMG_FAULT_TYPE, DEV_IMG_FAULT_BYTE]⟩

def DEV_IMG_SEQ_LO_SEQ_LO : Fld := ⟨0, 32, .ro⟩
/-- DEV_IMG_SEQ_LO (15_setting_out_and_startup.md). -/
def DEV_IMG_SEQ_LO : Reg :=
  ⟨0x10c, 1, 0x0, 1, 0x0, 0x0, [],
    [DEV_IMG_SEQ_LO_SEQ_LO]⟩

def DEV_IMG_SEQ_HI_SEQ_HI : Fld := ⟨0, 32, .ro⟩
/-- DEV_IMG_SEQ_HI (15_setting_out_and_startup.md). -/
def DEV_IMG_SEQ_HI : Reg :=
  ⟨0x110, 1, 0x0, 1, 0x0, 0x0, [],
    [DEV_IMG_SEQ_HI_SEQ_HI]⟩

def DEV_STAGE_FW_BUF : Fld := ⟨0, 1, .ro⟩
def DEV_STAGE_IMG_BUF : Fld := ⟨1, 1, .ro⟩
def DEV_STAGE_BUSY : Fld := ⟨2, 1, .ro⟩
def DEV_STAGE_PROGRESS : Fld := ⟨16, 7, .ro⟩
/-- DEV_STAGE (15_setting_out_and_startup.md). -/
def DEV_STAGE : Reg :=
  ⟨0x114, 1, 0x0, 1, 0x0, 0x0, [],
    [DEV_STAGE_FW_BUF, DEV_STAGE_IMG_BUF, DEV_STAGE_BUSY, DEV_STAGE_PROGRESS]⟩

def DEV_START_PHASE : Fld := ⟨0, 4, .ro⟩
def DEV_START_READY_MS : Fld := ⟨16, 16, .ro⟩
/-- DEV_START (15_setting_out_and_startup.md). -/
def DEV_START : Reg :=
  ⟨0x118, 1, 0x0, 1, 0x0, 0x0, [],
    [DEV_START_PHASE, DEV_START_READY_MS]⟩

def SEC_STATE_ENROLLED : Fld := ⟨0, 4, .ro⟩
def SEC_STATE_REVOKED : Fld := ⟨4, 4, .ro⟩
def SEC_STATE_VENDOR_REVOKED : Fld := ⟨8, 2, .ro⟩
def SEC_STATE_SVN_MIN : Fld := ⟨10, 4, .ro⟩
def SEC_STATE_UNCLAIMED : Fld := ⟨14, 1, .ro⟩
def SEC_STATE_IDENTITY : Fld := ⟨15, 1, .ro⟩
def SEC_STATE_FW_SVN : Fld := ⟨16, 4, .ro⟩
/-- SEC_STATE (16_protection_and_security.md). -/
def SEC_STATE : Reg :=
  ⟨0x20000, 1, 0x0, 1, 0x0, 0x0, [],
    [SEC_STATE_ENROLLED, SEC_STATE_REVOKED, SEC_STATE_VENDOR_REVOKED, SEC_STATE_SVN_MIN, SEC_STATE_UNCLAIMED, SEC_STATE_IDENTITY, SEC_STATE_FW_SVN]⟩

def SEC_SESSION_ACTIVE : Fld := ⟨0, 1, .ro⟩
def SEC_SESSION_PORT : Fld := ⟨1, 1, .ro⟩
def SEC_SESSION_KEY_SLOT : Fld := ⟨2, 2, .ro⟩
def SEC_SESSION_IDLE_MIN : Fld := ⟨16, 16, .ro⟩
/-- SEC_SESSION (16_protection_and_security.md). -/
def SEC_SESSION : Reg :=
  ⟨0x20004, 1, 0x0, 1, 0x0, 0x0, [],
    [SEC_SESSION_ACTIVE, SEC_SESSION_PORT, SEC_SESSION_KEY_SLOT, SEC_SESSION_IDLE_MIN]⟩

def SEC_SESSION_FAIL_COUNT : Fld := ⟨0, 32, .rc⟩
/-- SEC_SESSION_FAIL (16_protection_and_security.md). -/
def SEC_SESSION_FAIL : Reg :=
  ⟨0x20008, 1, 0x0, 1, 0x0, 0x0, [],
    [SEC_SESSION_FAIL_COUNT]⟩

def SEC_PROT_EPOCH_LO_EPOCH_LO : Fld := ⟨0, 32, .ro⟩
/-- SEC_PROT_EPOCH_LO (16_protection_and_security.md). -/
def SEC_PROT_EPOCH_LO : Reg :=
  ⟨0x20010, 1, 0x0, 1, 0x0, 0x1, [],
    [SEC_PROT_EPOCH_LO_EPOCH_LO]⟩

def SEC_PROT_EPOCH_HI_EPOCH_HI : Fld := ⟨0, 32, .ro⟩
/-- SEC_PROT_EPOCH_HI (16_protection_and_security.md). -/
def SEC_PROT_EPOCH_HI : Reg :=
  ⟨0x20014, 1, 0x0, 1, 0x0, 0x0, [],
    [SEC_PROT_EPOCH_HI_EPOCH_HI]⟩

def SEC_PROT_GEN_LO_GEN_LO : Fld := ⟨0, 32, .ro⟩
/-- SEC_PROT_GEN_LO (16_protection_and_security.md). -/
def SEC_PROT_GEN_LO : Reg :=
  ⟨0x20018, 1, 0x0, 1, 0x0, 0x0, [],
    [SEC_PROT_GEN_LO_GEN_LO]⟩

def SEC_PROT_GEN_HI_GEN_HI : Fld := ⟨0, 32, .ro⟩
/-- SEC_PROT_GEN_HI (16_protection_and_security.md). -/
def SEC_PROT_GEN_HI : Reg :=
  ⟨0x2001c, 1, 0x0, 1, 0x0, 0x0, [],
    [SEC_PROT_GEN_HI_GEN_HI]⟩

def SEC_PROT_SRC_SOURCE : Fld := ⟨0, 2, .ro⟩
def SEC_PROT_SRC_DIRTY : Fld := ⟨2, 1, .ro⟩
/-- SEC_PROT_SRC (16_protection_and_security.md). -/
def SEC_PROT_SRC : Reg :=
  ⟨0x20020, 1, 0x0, 1, 0x0, 0x0, [],
    [SEC_PROT_SRC_SOURCE, SEC_PROT_SRC_DIRTY]⟩

def SEC_ENROLL_CTL_INDEX : Fld := ⟨0, 2, .rw⟩
def SEC_ENROLL_CTL_SVN : Fld := ⟨2, 4, .rw⟩
def SEC_ENROLL_CTL_OP : Fld := ⟨6, 3, .rw⟩
def SEC_ENROLL_CTL_GO : Fld := ⟨9, 1, .wo⟩
def SEC_ENROLL_CTL_BUSY : Fld := ⟨10, 1, .ro⟩
def SEC_ENROLL_CTL_RESULT : Fld := ⟨16, 4, .ro⟩
/-- SEC_ENROLL_CTL (16_protection_and_security.md). -/
def SEC_ENROLL_CTL : Reg :=
  ⟨0x20040, 1, 0x0, 1, 0x0, 0x0, [],
    [SEC_ENROLL_CTL_INDEX, SEC_ENROLL_CTL_SVN, SEC_ENROLL_CTL_OP, SEC_ENROLL_CTL_GO, SEC_ENROLL_CTL_BUSY, SEC_ENROLL_CTL_RESULT]⟩

def SEC_OWNER_HASH_HASH : Fld := ⟨0, 32, .ro⟩
/-- SEC_OWNER_s_HASH_w (16_protection_and_security.md). -/
def SEC_OWNER_HASH : Reg :=
  ⟨0x20100, 4, 0x20, 8, 0x4, 0x0, [],
    [SEC_OWNER_HASH_HASH]⟩

def SEC_MEAS_HASH : Fld := ⟨0, 32, .ro⟩
/-- SEC_MEAS_m_w (16_protection_and_security.md). -/
def SEC_MEAS : Reg :=
  ⟨0x20200, 4, 0x20, 8, 0x4, 0x0, [],
    [SEC_MEAS_HASH]⟩

def SEC_CERT_LEN_BYTES : Fld := ⟨0, 14, .ro⟩
/-- SEC_CERT_LEN (16_protection_and_security.md). -/
def SEC_CERT_LEN : Reg :=
  ⟨0x20300, 1, 0x0, 1, 0x0, 0x0, [],
    [SEC_CERT_LEN_BYTES]⟩

def SEC_ENROLL_KEY_KEY : Fld := ⟨0, 32, .rw⟩
/-- SEC_ENROLL_KEY_w (16_protection_and_security.md). -/
def SEC_ENROLL_KEY : Reg :=
  ⟨0x21000, 328, 0x4, 1, 0x0, 0x0, [],
    [SEC_ENROLL_KEY_KEY]⟩

def SEC_CERT_DATA : Fld := ⟨0, 32, .ro⟩
/-- SEC_CERT_w (16_protection_and_security.md). -/
def SEC_CERT : Reg :=
  ⟨0x24000, 2048, 0x4, 1, 0x0, 0x0, [],
    [SEC_CERT_DATA]⟩

def DEV_MODE_EPOCH_LO_EPOCH_LO : Fld := ⟨0, 32, .ro⟩
/-- DEV_MODE_EPOCH_LO (17_reset_power_clocks.md). -/
def DEV_MODE_EPOCH_LO : Reg :=
  ⟨0x200, 1, 0x0, 1, 0x0, 0x0, [],
    [DEV_MODE_EPOCH_LO_EPOCH_LO]⟩

def DEV_MODE_EPOCH_HI_EPOCH_HI : Fld := ⟨0, 32, .ro⟩
/-- DEV_MODE_EPOCH_HI (17_reset_power_clocks.md). -/
def DEV_MODE_EPOCH_HI : Reg :=
  ⟨0x204, 1, 0x0, 1, 0x0, 0x0, [],
    [DEV_MODE_EPOCH_HI_EPOCH_HI]⟩

def DEV_MODE_STATUS_LAST : Fld := ⟨0, 16, .ro⟩
def DEV_MODE_STATUS_RESULT : Fld := ⟨16, 2, .ro⟩
def DEV_MODE_STATUS_BUSY : Fld := ⟨18, 1, .ro⟩
def DEV_MODE_STATUS_UNIT : Fld := ⟨19, 13, .ro⟩
/-- DEV_MODE_STATUS (17_reset_power_clocks.md). -/
def DEV_MODE_STATUS : Reg :=
  ⟨0x208, 1, 0x0, 1, 0x0, 0x0, [],
    [DEV_MODE_STATUS_LAST, DEV_MODE_STATUS_RESULT, DEV_MODE_STATUS_BUSY, DEV_MODE_STATUS_UNIT]⟩

def PW_STATE_POWER : Fld := ⟨0, 3, .ro⟩
def PW_STATE_LAST_RESET : Fld := ⟨4, 3, .ro⟩
def PW_STATE_RETAINED : Fld := ⟨7, 1, .ro⟩
def PW_STATE_RECORD : Fld := ⟨8, 1, .ro⟩
/-- PW_STATE (17_reset_power_clocks.md). -/
def PW_STATE : Reg :=
  ⟨0x40000, 1, 0x0, 1, 0x0, 0x0, [],
    [PW_STATE_POWER, PW_STATE_LAST_RESET, PW_STATE_RETAINED, PW_STATE_RECORD]⟩

def PW_UNIT_RESET_RESET : Fld := ⟨0, 12, .wo⟩
/-- PW_UNIT_RESET (17_reset_power_clocks.md). -/
def PW_UNIT_RESET : Reg :=
  ⟨0x40004, 1, 0x0, 1, 0x0, 0x0, [],
    [PW_UNIT_RESET_RESET]⟩

def PW_UNIT_BUSY_BUSY : Fld := ⟨0, 12, .ro⟩
/-- PW_UNIT_BUSY (17_reset_power_clocks.md). -/
def PW_UNIT_BUSY : Reg :=
  ⟨0x40008, 1, 0x0, 1, 0x0, 0x0, [],
    [PW_UNIT_BUSY_BUSY]⟩

def PW_SLACK_CTL_EN : Fld := ⟨0, 1, .rw⟩
/-- PW_SLACK_CTL (17_reset_power_clocks.md). -/
def PW_SLACK_CTL : Reg :=
  ⟨0x4000c, 1, 0x0, 1, 0x0, 0x1, [],
    [PW_SLACK_CTL_EN]⟩

def PW_HARBOUR_CTL_TIMER_MIN : Fld := ⟨0, 16, .rw⟩
def PW_HARBOUR_CTL_PERST_EXIT : Fld := ⟨16, 1, .rw⟩
/-- PW_HARBOUR_CTL (17_reset_power_clocks.md). -/
def PW_HARBOUR_CTL : Reg :=
  ⟨0x40010, 1, 0x0, 1, 0x0, 0x10000, [],
    [PW_HARBOUR_CTL_TIMER_MIN, PW_HARBOUR_CTL_PERST_EXIT]⟩

def PW_CLK_STATUS_LOCKED : Fld := ⟨0, 12, .ro⟩
def PW_CLK_STATUS_AON_FALLBACK : Fld := ⟨12, 1, .ro⟩
/-- PW_CLK_STATUS (17_reset_power_clocks.md). -/
def PW_CLK_STATUS : Reg :=
  ⟨0x40014, 1, 0x0, 1, 0x0, 0x0, [],
    [PW_CLK_STATUS_LOCKED, PW_CLK_STATUS_AON_FALLBACK]⟩

def PW_PD_STATE_STATE : Fld := ⟨0, 32, .ro⟩
/-- PW_PD_STATE_n (17_reset_power_clocks.md). -/
def PW_PD_STATE : Reg :=
  ⟨0x40100, 12, 0x4, 1, 0x0, 0x0, [],
    [PW_PD_STATE_STATE]⟩

def PW_PD_REQ_CE : Fld := ⟨0, 7, .rw⟩
def PW_PD_REQ_HE : Fld := ⟨7, 3, .rw⟩
def PW_PD_REQ_LD : Fld := ⟨10, 4, .rw⟩
def PW_PD_REQ_PLK : Fld := ⟨14, 1, .rw⟩
/-- PW_PD_REQ (17_reset_power_clocks.md). -/
def PW_PD_REQ : Reg :=
  ⟨0x40200, 1, 0x0, 1, 0x0, 0x0, [],
    [PW_PD_REQ_CE, PW_PD_REQ_HE, PW_PD_REQ_LD, PW_PD_REQ_PLK]⟩

def MC_CAP_CHANNELS : Fld := ⟨0, 7, .ro⟩
def MC_CAP_POINTS : Fld := ⟨8, 3, .ro⟩
def MC_CAP_REGIONS : Fld := ⟨12, 3, .ro⟩
def MC_CAP_ECC : Fld := ⟨15, 1, .ro⟩
/-- MC_CAP (18_memory_controller.md). -/
def MC_CAP : Reg :=
  ⟨0x440000, 1, 0x0, 1, 0x0, 0xc440, [],
    [MC_CAP_CHANNELS, MC_CAP_POINTS, MC_CAP_REGIONS, MC_CAP_ECC]⟩

def MC_FREQ_CURRENT : Fld := ⟨0, 2, .ro⟩
def MC_FREQ_TARGET : Fld := ⟨4, 2, .rw⟩
def MC_FREQ_TRAINED : Fld := ⟨8, 4, .ro⟩
def MC_FREQ_RESULT : Fld := ⟨12, 2, .ro⟩
def MC_FREQ_BUSY : Fld := ⟨14, 1, .ro⟩
/-- MC_FREQ (18_memory_controller.md). -/
def MC_FREQ : Reg :=
  ⟨0x440004, 1, 0x0, 1, 0x0, 0x33, [],
    [MC_FREQ_CURRENT, MC_FREQ_TARGET, MC_FREQ_TRAINED, MC_FREQ_RESULT, MC_FREQ_BUSY]⟩

def MC_ACT_PARAM_ROW_LIMIT : Fld := ⟨0, 16, .rw⟩
def MC_ACT_PARAM_THROTTLE_US : Fld := ⟨16, 16, .rw⟩
/-- MC_ACT_PARAM (18_memory_controller.md). -/
def MC_ACT_PARAM : Reg :=
  ⟨0x440020, 1, 0x0, 1, 0x0, 0x3e80400, [],
    [MC_ACT_PARAM_ROW_LIMIT, MC_ACT_PARAM_THROTTLE_US]⟩

def MC_RETRAIN_CHANNEL : Fld := ⟨0, 6, .rw⟩
def MC_RETRAIN_GO : Fld := ⟨6, 1, .wo⟩
def MC_RETRAIN_BUSY : Fld := ⟨7, 1, .ro⟩
def MC_RETRAIN_DRIFT_C : Fld := ⟨16, 8, .rw⟩
/-- MC_RETRAIN (18_memory_controller.md). -/
def MC_RETRAIN : Reg :=
  ⟨0x440024, 1, 0x0, 1, 0x0, 0x140000, [],
    [MC_RETRAIN_CHANNEL, MC_RETRAIN_GO, MC_RETRAIN_BUSY, MC_RETRAIN_DRIFT_C]⟩

def MC_SCRUB_HOURS : Fld := ⟨0, 16, .rw⟩
def MC_SCRUB_PASS : Fld := ⟨16, 16, .ro⟩
/-- MC_SCRUB (18_memory_controller.md). -/
def MC_SCRUB : Reg :=
  ⟨0x440028, 1, 0x0, 1, 0x0, 0x18, [],
    [MC_SCRUB_HOURS, MC_SCRUB_PASS]⟩

def MC_REGION_BASE_BASE_GIB : Fld := ⟨0, 9, .ro⟩
/-- MC_REGION_r_BASE (18_memory_controller.md). -/
def MC_REGION_BASE : Reg :=
  ⟨0x440100, 4, 0x8, 1, 0x0, 0x0, [(1, 0x40), (2, 0x80), (3, 0x1b0)],
    [MC_REGION_BASE_BASE_GIB]⟩

def MC_REGION_CFG_SIZE_GIB : Fld := ⟨0, 9, .ro⟩
def MC_REGION_CFG_GRAIN_LOG2 : Fld := ⟨16, 4, .ro⟩
/-- MC_REGION_r_CFG (18_memory_controller.md). -/
def MC_REGION_CFG : Reg :=
  ⟨0x440104, 4, 0x8, 1, 0x0, 0xc0040, [(2, 0x80130), (3, 0xa0010)],
    [MC_REGION_CFG_SIZE_GIB, MC_REGION_CFG_GRAIN_LOG2]⟩

def MC_PORT_TARGET_TARGET_NS : Fld := ⟨0, 16, .rw⟩
/-- MC_PORT_p_TARGET (18_memory_controller.md). -/
def MC_PORT_TARGET : Reg :=
  ⟨0x440200, 12, 0x10, 1, 0x0, 0xc8, [(1, 0x1f4), (2, 0x1f4), (3, 0x190), (4, 0x12c), (5, 0x3e8), (6, 0x3e8), (7, 0x1f4), (8, 0x7d0), (9, 0xfa0), (10, 0x3e8), (11, 0x4e20)],
    [MC_PORT_TARGET_TARGET_NS]⟩

def MC_PORT_STAT_LAT_MAX_NS : Fld := ⟨0, 16, .rc⟩
def MC_PORT_STAT_THROTTLED : Fld := ⟨16, 1, .ro⟩
/-- MC_PORT_p_STAT (18_memory_controller.md). -/
def MC_PORT_STAT : Reg :=
  ⟨0x440204, 12, 0x10, 1, 0x0, 0x0, [],
    [MC_PORT_STAT_LAT_MAX_NS, MC_PORT_STAT_THROTTLED]⟩

def MC_PORT_URGENT_COUNT : Fld := ⟨0, 32, .rc⟩
/-- MC_PORT_p_URGENT (18_memory_controller.md). -/
def MC_PORT_URGENT : Reg :=
  ⟨0x440208, 12, 0x10, 1, 0x0, 0x0, [],
    [MC_PORT_URGENT_COUNT]⟩

def MC_CH_STATUS_STATE : Fld := ⟨0, 3, .ro⟩
def MC_CH_STATUS_REFRESH : Fld := ⟨3, 2, .ro⟩
def MC_CH_STATUS_SR_HELD : Fld := ⟨5, 1, .ro⟩
def MC_CH_STATUS_INORDER : Fld := ⟨6, 1, .ro⟩
def MC_CH_STATUS_TEMP_C : Fld := ⟨8, 8, .ro⟩
/-- MC_CH_n_STATUS (18_memory_controller.md). -/
def MC_CH_STATUS : Reg :=
  ⟨0x400000, 64, 0x1000, 1, 0x0, 0x0, [],
    [MC_CH_STATUS_STATE, MC_CH_STATUS_REFRESH, MC_CH_STATUS_SR_HELD, MC_CH_STATUS_INORDER, MC_CH_STATUS_TEMP_C]⟩

def MC_CH_ECC_CE : Fld := ⟨0, 16, .rc⟩
def MC_CH_ECC_UE : Fld := ⟨16, 16, .rc⟩
/-- MC_CH_n_ECC (18_memory_controller.md). -/
def MC_CH_ECC : Reg :=
  ⟨0x400004, 64, 0x1000, 1, 0x0, 0x0, [],
    [MC_CH_ECC_CE, MC_CH_ECC_UE]⟩

def MC_CH_UE_ADDR_LO_ADDR_LO : Fld := ⟨0, 32, .ro⟩
/-- MC_CH_n_UE_ADDR_LO (18_memory_controller.md). -/
def MC_CH_UE_ADDR_LO : Reg :=
  ⟨0x400008, 64, 0x1000, 1, 0x0, 0x0, [],
    [MC_CH_UE_ADDR_LO_ADDR_LO]⟩

def MC_CH_UE_ADDR_HI_ADDR_HI : Fld := ⟨0, 32, .ro⟩
/-- MC_CH_n_UE_ADDR_HI (18_memory_controller.md). -/
def MC_CH_UE_ADDR_HI : Reg :=
  ⟨0x40000c, 64, 0x1000, 1, 0x0, 0x0, [],
    [MC_CH_UE_ADDR_HI_ADDR_HI]⟩

def MC_CH_ACT_RFM : Fld := ⟨0, 16, .rc⟩
def MC_CH_ACT_THROTTLES : Fld := ⟨16, 16, .rc⟩
/-- MC_CH_n_ACT (18_memory_controller.md). -/
def MC_CH_ACT : Reg :=
  ⟨0x400010, 64, 0x1000, 1, 0x0, 0x0, [],
    [MC_CH_ACT_RFM, MC_CH_ACT_THROTTLES]⟩

def MC_CH_TRAIN_STEP : Fld := ⟨0, 3, .ro⟩
def MC_CH_TRAIN_POINT : Fld := ⟨4, 2, .ro⟩
def MC_CH_TRAIN_PASS : Fld := ⟨6, 1, .ro⟩
/-- MC_CH_n_TRAIN (18_memory_controller.md). -/
def MC_CH_TRAIN : Reg :=
  ⟨0x400014, 64, 0x1000, 1, 0x0, 0x0, [],
    [MC_CH_TRAIN_STEP, MC_CH_TRAIN_POINT, MC_CH_TRAIN_PASS]⟩

def MC_CH_DIAG_CTL_OP : Fld := ⟨0, 2, .rw⟩
def MC_CH_DIAG_CTL_PATTERN : Fld := ⟨2, 2, .rw⟩
def MC_CH_DIAG_CTL_GO : Fld := ⟨4, 1, .wo⟩
def MC_CH_DIAG_CTL_BUSY : Fld := ⟨5, 1, .ro⟩
/-- MC_CH_n_DIAG_CTL (18_memory_controller.md). -/
def MC_CH_DIAG_CTL : Reg :=
  ⟨0x400020, 64, 0x1000, 1, 0x0, 0x0, [],
    [MC_CH_DIAG_CTL_OP, MC_CH_DIAG_CTL_PATTERN, MC_CH_DIAG_CTL_GO, MC_CH_DIAG_CTL_BUSY]⟩

def MC_CH_DIAG_OFFSET_BLOCK : Fld := ⟨6, 21, .rw⟩
/-- MC_CH_n_DIAG_OFFSET (18_memory_controller.md). -/
def MC_CH_DIAG_OFFSET : Reg :=
  ⟨0x400024, 64, 0x1000, 1, 0x0, 0x0, [],
    [MC_CH_DIAG_OFFSET_BLOCK]⟩

def MC_CH_DIAG_LEN_BLOCKS : Fld := ⟨0, 22, .rw⟩
/-- MC_CH_n_DIAG_LEN (18_memory_controller.md). -/
def MC_CH_DIAG_LEN : Reg :=
  ⟨0x400028, 64, 0x1000, 1, 0x0, 0x0, [],
    [MC_CH_DIAG_LEN_BLOCKS]⟩

def MC_CH_DIAG_SEED_SEED : Fld := ⟨0, 32, .rw⟩
/-- MC_CH_n_DIAG_SEED (18_memory_controller.md). -/
def MC_CH_DIAG_SEED : Reg :=
  ⟨0x40002c, 64, 0x1000, 1, 0x0, 0x0, [],
    [MC_CH_DIAG_SEED_SEED]⟩

def MC_CH_DIAG_RESULT_DQ_FAIL : Fld := ⟨0, 16, .ro⟩
def MC_CH_DIAG_RESULT_ERRORS : Fld := ⟨16, 16, .ro⟩
/-- MC_CH_n_DIAG_RESULT (18_memory_controller.md). -/
def MC_CH_DIAG_RESULT : Reg :=
  ⟨0x400030, 64, 0x1000, 1, 0x0, 0x0, [],
    [MC_CH_DIAG_RESULT_DQ_FAIL, MC_CH_DIAG_RESULT_ERRORS]⟩

def MDC_CAP_WAYS : Fld := ⟨0, 5, .ro⟩
def MDC_CAP_LINE_LOG2 : Fld := ⟨8, 4, .ro⟩
def MDC_CAP_SETS_LOG2 : Fld := ⟨16, 4, .ro⟩
def MDC_CAP_VB_LINES : Fld := ⟨24, 7, .ro⟩
/-- MDC_CAP (19_metadata_cache.md). -/
def MDC_CAP : Reg :=
  ⟨0x500000, 1, 0x0, 1, 0x0, 0x400e0710, [],
    [MDC_CAP_WAYS, MDC_CAP_LINE_LOG2, MDC_CAP_SETS_LOG2, MDC_CAP_VB_LINES]⟩

def MDC_CTL_EN : Fld := ⟨0, 1, .rw⟩
def MDC_CTL_HERITAGE : Fld := ⟨1, 1, .rw⟩
def MDC_CTL_PF_EN : Fld := ⟨2, 1, .rw⟩
def MDC_CTL_PF_DEPTH : Fld := ⟨4, 4, .rw⟩
def MDC_CTL_WAY_ERR_LIMIT : Fld := ⟨8, 8, .rw⟩
/-- MDC_CTL (19_metadata_cache.md). -/
def MDC_CTL : Reg :=
  ⟨0x500004, 1, 0x0, 1, 0x0, 0x845, [],
    [MDC_CTL_EN, MDC_CTL_HERITAGE, MDC_CTL_PF_EN, MDC_CTL_PF_DEPTH, MDC_CTL_WAY_ERR_LIMIT]⟩

def MDC_STATUS_STALE : Fld := ⟨0, 1, .ro⟩
def MDC_STATUS_MAINT_BUSY : Fld := ⟨1, 1, .ro⟩
def MDC_STATUS_NO_WAYS : Fld := ⟨2, 1, .ro⟩
def MDC_STATUS_FILLS : Fld := ⟨16, 8, .ro⟩
/-- MDC_STATUS (19_metadata_cache.md). -/
def MDC_STATUS : Reg :=
  ⟨0x500008, 1, 0x0, 1, 0x0, 0x0, [],
    [MDC_STATUS_STALE, MDC_STATUS_MAINT_BUSY, MDC_STATUS_NO_WAYS, MDC_STATUS_FILLS]⟩

def MDC_WAY_DIS_DIS : Fld := ⟨0, 16, .rw1c⟩
/-- MDC_WAY_DIS (19_metadata_cache.md). -/
def MDC_WAY_DIS : Reg :=
  ⟨0x50000c, 1, 0x0, 1, 0x0, 0x0, [],
    [MDC_WAY_DIS_DIS]⟩

def MDC_WAY_OFF_OFF : Fld := ⟨0, 16, .rw⟩
/-- MDC_WAY_OFF (19_metadata_cache.md). -/
def MDC_WAY_OFF : Reg :=
  ⟨0x500010, 1, 0x0, 1, 0x0, 0x0, [],
    [MDC_WAY_OFF_OFF]⟩

def MDC_MAINT_CTL_OP : Fld := ⟨0, 2, .rw⟩
def MDC_MAINT_CTL_CLASS : Fld := ⟨2, 4, .rw⟩
def MDC_MAINT_CTL_GO : Fld := ⟨6, 1, .wo⟩
/-- MDC_MAINT_CTL (19_metadata_cache.md). -/
def MDC_MAINT_CTL : Reg :=
  ⟨0x500020, 1, 0x0, 1, 0x0, 0x0, [],
    [MDC_MAINT_CTL_OP, MDC_MAINT_CTL_CLASS, MDC_MAINT_CTL_GO]⟩

def MDC_MAINT_BASE_LO_ADDR_LO : Fld := ⟨7, 25, .rw⟩
/-- MDC_MAINT_BASE_LO (19_metadata_cache.md). -/
def MDC_MAINT_BASE_LO : Reg :=
  ⟨0x500024, 1, 0x0, 1, 0x0, 0x0, [],
    [MDC_MAINT_BASE_LO_ADDR_LO]⟩

def MDC_MAINT_BASE_HI_ADDR_HI : Fld := ⟨0, 7, .rw⟩
/-- MDC_MAINT_BASE_HI (19_metadata_cache.md). -/
def MDC_MAINT_BASE_HI : Reg :=
  ⟨0x500028, 1, 0x0, 1, 0x0, 0x0, [],
    [MDC_MAINT_BASE_HI_ADDR_HI]⟩

def MDC_MAINT_LINES_LINES : Fld := ⟨0, 32, .rw⟩
/-- MDC_MAINT_LINES (19_metadata_cache.md). -/
def MDC_MAINT_LINES : Reg :=
  ⟨0x50002c, 1, 0x0, 1, 0x0, 0x0, [],
    [MDC_MAINT_LINES_LINES]⟩

def MDC_HIT_COUNT : Fld := ⟨0, 32, .rc⟩
/-- MDC_HIT (19_metadata_cache.md). -/
def MDC_HIT : Reg :=
  ⟨0x500040, 1, 0x0, 1, 0x0, 0x0, [],
    [MDC_HIT_COUNT]⟩

def MDC_MISS_COUNT : Fld := ⟨0, 32, .rc⟩
/-- MDC_MISS (19_metadata_cache.md). -/
def MDC_MISS : Reg :=
  ⟨0x500044, 1, 0x0, 1, 0x0, 0x0, [],
    [MDC_MISS_COUNT]⟩

def MDC_VB_HIT_COUNT : Fld := ⟨0, 32, .rc⟩
/-- MDC_VB_HIT (19_metadata_cache.md). -/
def MDC_VB_HIT : Reg :=
  ⟨0x500048, 1, 0x0, 1, 0x0, 0x0, [],
    [MDC_VB_HIT_COUNT]⟩

def MDC_PF_ISSUED : Fld := ⟨0, 16, .rc⟩
def MDC_PF_USED : Fld := ⟨16, 16, .rc⟩
/-- MDC_PF (19_metadata_cache.md). -/
def MDC_PF : Reg :=
  ⟨0x50004c, 1, 0x0, 1, 0x0, 0x0, [],
    [MDC_PF_ISSUED, MDC_PF_USED]⟩

def MDC_ERR_CORRECTED : Fld := ⟨0, 16, .rc⟩
def MDC_ERR_REFILLED : Fld := ⟨16, 16, .rc⟩
/-- MDC_ERR (19_metadata_cache.md). -/
def MDC_ERR : Reg :=
  ⟨0x500054, 1, 0x0, 1, 0x0, 0x0, [],
    [MDC_ERR_CORRECTED, MDC_ERR_REFILLED]⟩

def MDC_WAY_ERR_COUNT : Fld := ⟨0, 8, .ro⟩
/-- MDC_WAY_ERR_w (19_metadata_cache.md). -/
def MDC_WAY_ERR : Reg :=
  ⟨0x500080, 16, 0x4, 1, 0x0, 0x0, [],
    [MDC_WAY_ERR_COUNT]⟩

def MDC_CLASS_MASK_MASK : Fld := ⟨0, 16, .rw⟩
def MDC_CLASS_MASK_PF : Fld := ⟨16, 1, .rw⟩
/-- MDC_CLASS_c_MASK (19_metadata_cache.md). -/
def MDC_CLASS_MASK : Reg :=
  ⟨0x500100, 16, 0x4, 1, 0x0, 0x1ffff, [(1, 0xffff), (2, 0xffff), (4, 0xff), (5, 0xf), (6, 0x100ff), (7, 0x1000f), (8, 0xff), (9, 0x0), (10, 0x0), (11, 0x0), (13, 0x3), (14, 0x0), (15, 0xff)],
    [MDC_CLASS_MASK_MASK, MDC_CLASS_MASK_PF]⟩

def XM_CAP_CHANNELS : Fld := ⟨0, 6, .ro⟩
def XM_CAP_LINES : Fld := ⟨8, 6, .ro⟩
def XM_CAP_LOOP_DEPTH : Fld := ⟨16, 4, .ro⟩
def XM_CAP_EVENTS : Fld := ⟨24, 6, .ro⟩
/-- XM_CAP (20_aux_mover.md). -/
def XM_CAP : Reg :=
  ⟨0x608000, 1, 0x0, 1, 0x0, 0x20042020, [],
    [XM_CAP_CHANNELS, XM_CAP_LINES, XM_CAP_LOOP_DEPTH, XM_CAP_EVENTS]⟩

def XM_EVENT_FLAGS : Fld := ⟨0, 32, .ro⟩
/-- XM_EVENT (20_aux_mover.md). -/
def XM_EVENT : Reg :=
  ⟨0x608004, 1, 0x0, 1, 0x0, 0x0, [],
    [XM_EVENT_FLAGS]⟩

def XM_EVENT_SET_SET : Fld := ⟨0, 32, .wo⟩
/-- XM_EVENT_SET (20_aux_mover.md). -/
def XM_EVENT_SET : Reg :=
  ⟨0x608008, 1, 0x0, 1, 0x0, 0x0, [],
    [XM_EVENT_SET_SET]⟩

def XM_REQ_LINES : Fld := ⟨0, 32, .ro⟩
/-- XM_REQ (20_aux_mover.md). -/
def XM_REQ : Reg :=
  ⟨0x60800c, 1, 0x0, 1, 0x0, 0x0, [],
    [XM_REQ_LINES]⟩

def XM_BUSERR_COUNT : Fld := ⟨0, 32, .rc⟩
/-- XM_BUSERR (20_aux_mover.md). -/
def XM_BUSERR : Reg :=
  ⟨0x608010, 1, 0x0, 1, 0x0, 0x0, [],
    [XM_BUSERR_COUNT]⟩

def XM_CH_CTL_START : Fld := ⟨0, 1, .wo⟩
def XM_CH_CTL_PAUSE : Fld := ⟨1, 1, .rw⟩
def XM_CH_CTL_STOP : Fld := ⟨2, 1, .wo⟩
/-- XM_CH_n_CTL (20_aux_mover.md). -/
def XM_CH_CTL : Reg :=
  ⟨0x600000, 32, 0x400, 1, 0x0, 0x0, [],
    [XM_CH_CTL_START, XM_CH_CTL_PAUSE, XM_CH_CTL_STOP]⟩

def XM_CH_CFG_PRIO : Fld := ⟨0, 3, .rw⟩
def XM_CH_CFG_RETRY : Fld := ⟨4, 3, .rw⟩
def XM_CH_CFG_PROG_SPACE : Fld := ⟨7, 1, .rw⟩
def XM_CH_CFG_ENTRY : Fld := ⟨8, 7, .rw⟩
/-- XM_CH_n_CFG (20_aux_mover.md). -/
def XM_CH_CFG : Reg :=
  ⟨0x600004, 32, 0x400, 1, 0x0, 0x23, [(31, 0x77)],
    [XM_CH_CFG_PRIO, XM_CH_CFG_RETRY, XM_CH_CFG_PROG_SPACE, XM_CH_CFG_ENTRY]⟩

def XM_CH_PC_LO_ADDR_LO : Fld := ⟨5, 27, .rw⟩
/-- XM_CH_n_PC_LO (20_aux_mover.md). -/
def XM_CH_PC_LO : Reg :=
  ⟨0x600008, 32, 0x400, 1, 0x0, 0x0, [],
    [XM_CH_PC_LO_ADDR_LO]⟩

def XM_CH_PC_HI_ADDR_HI : Fld := ⟨0, 32, .rw⟩
/-- XM_CH_n_PC_HI (20_aux_mover.md). -/
def XM_CH_PC_HI : Reg :=
  ⟨0x60000c, 32, 0x400, 1, 0x0, 0x0, [],
    [XM_CH_PC_HI_ADDR_HI]⟩

def XM_CH_STATUS_STATE : Fld := ⟨0, 3, .ro⟩
def XM_CH_STATUS_HALF : Fld := ⟨3, 1, .rw1c⟩
def XM_CH_STATUS_FULL : Fld := ⟨4, 1, .rw1c⟩
def XM_CH_STATUS_SIGNALLED : Fld := ⟨5, 1, .rw1c⟩
def XM_CH_STATUS_ERR : Fld := ⟨8, 4, .ro⟩
def XM_CH_STATUS_RETRIES : Fld := ⟨12, 3, .ro⟩
def XM_CH_STATUS_LOOPS : Fld := ⟨16, 3, .ro⟩
/-- XM_CH_n_STATUS (20_aux_mover.md). -/
def XM_CH_STATUS : Reg :=
  ⟨0x600010, 32, 0x400, 1, 0x0, 0x0, [],
    [XM_CH_STATUS_STATE, XM_CH_STATUS_HALF, XM_CH_STATUS_FULL, XM_CH_STATUS_SIGNALLED, XM_CH_STATUS_ERR, XM_CH_STATUS_RETRIES, XM_CH_STATUS_LOOPS]⟩

def XM_CH_SRC_LO_ADDR : Fld := ⟨0, 32, .ro⟩
/-- XM_CH_n_SRC_LO, _SRC_HI, _DST_LO, _DST_HI (20_aux_mover.md). -/
def XM_CH_SRC_LO : Reg :=
  ⟨0x600018, 32, 0x400, 1, 0x0, 0x0, [],
    [XM_CH_SRC_LO_ADDR]⟩

def XM_CH_SRC_HI_ADDR : Fld := ⟨0, 32, .ro⟩
/-- XM_CH_n_SRC_LO, _SRC_HI, _DST_LO, _DST_HI (20_aux_mover.md). -/
def XM_CH_SRC_HI : Reg :=
  ⟨0x60001c, 32, 0x400, 1, 0x0, 0x0, [],
    [XM_CH_SRC_HI_ADDR]⟩

def XM_CH_DST_LO_ADDR : Fld := ⟨0, 32, .ro⟩
/-- XM_CH_n_SRC_LO, _SRC_HI, _DST_LO, _DST_HI (20_aux_mover.md). -/
def XM_CH_DST_LO : Reg :=
  ⟨0x600020, 32, 0x400, 1, 0x0, 0x0, [],
    [XM_CH_DST_LO_ADDR]⟩

def XM_CH_DST_HI_ADDR : Fld := ⟨0, 32, .ro⟩
/-- XM_CH_n_SRC_LO, _SRC_HI, _DST_LO, _DST_HI (20_aux_mover.md). -/
def XM_CH_DST_HI : Reg :=
  ⟨0x600024, 32, 0x400, 1, 0x0, 0x0, [],
    [XM_CH_DST_HI_ADDR]⟩

def XM_CH_REMAIN_BYTES : Fld := ⟨0, 32, .ro⟩
/-- XM_CH_n_REMAIN (20_aux_mover.md). -/
def XM_CH_REMAIN : Reg :=
  ⟨0x600028, 32, 0x400, 1, 0x0, 0x0, [],
    [XM_CH_REMAIN_BYTES]⟩

def XM_CH_LOOP_COUNT : Fld := ⟨0, 32, .ro⟩
/-- XM_CH_n_LOOP_k (20_aux_mover.md). -/
def XM_CH_LOOP : Reg :=
  ⟨0x600030, 32, 0x400, 4, 0x4, 0x0, [],
    [XM_CH_LOOP_COUNT]⟩

def EV_CAP_LOG_LOG2 : Fld := ⟨0, 5, .ro⟩
def EV_CAP_RING_LOG2 : Fld := ⟨8, 4, .ro⟩
def EV_CAP_FIFO_LOG2 : Fld := ⟨16, 4, .ro⟩
/-- EV_CAP (21_event_recorder.md). -/
def EV_CAP : Reg :=
  ⟨0x80000, 1, 0x0, 1, 0x0, 0x60814, [],
    [EV_CAP_LOG_LOG2, EV_CAP_RING_LOG2, EV_CAP_FIFO_LOG2]⟩

def EV_STATUS_STORE_FAULT : Fld := ⟨0, 1, .ro⟩
def EV_STATUS_NO_STORE : Fld := ⟨1, 1, .ro⟩
def EV_STATUS_CLEARING : Fld := ⟨2, 1, .ro⟩
def EV_STATUS_FULL : Fld := ⟨3, 1, .ro⟩
def EV_STATUS_SCANNING : Fld := ⟨4, 1, .ro⟩
def EV_STATUS_RING_PENDING : Fld := ⟨8, 9, .ro⟩
/-- EV_STATUS (21_event_recorder.md). -/
def EV_STATUS : Reg :=
  ⟨0x80004, 1, 0x0, 1, 0x0, 0x0, [],
    [EV_STATUS_STORE_FAULT, EV_STATUS_NO_STORE, EV_STATUS_CLEARING, EV_STATUS_FULL, EV_STATUS_SCANNING, EV_STATUS_RING_PENDING]⟩

def EV_SEQ_LO_SEQ_LO : Fld := ⟨0, 32, .ro⟩
/-- EV_SEQ_LO (21_event_recorder.md). -/
def EV_SEQ_LO : Reg :=
  ⟨0x80008, 1, 0x0, 1, 0x0, 0x0, [],
    [EV_SEQ_LO_SEQ_LO]⟩

def EV_SEQ_HI_SEQ_HI : Fld := ⟨0, 32, .ro⟩
/-- EV_SEQ_HI (21_event_recorder.md). -/
def EV_SEQ_HI : Reg :=
  ⟨0x8000c, 1, 0x0, 1, 0x0, 0x0, [],
    [EV_SEQ_HI_SEQ_HI]⟩

def EV_OLDEST_LO_SEQ_LO : Fld := ⟨0, 32, .ro⟩
/-- EV_OLDEST_LO (21_event_recorder.md). -/
def EV_OLDEST_LO : Reg :=
  ⟨0x80010, 1, 0x0, 1, 0x0, 0x0, [],
    [EV_OLDEST_LO_SEQ_LO]⟩

def EV_OLDEST_HI_SEQ_HI : Fld := ⟨0, 32, .ro⟩
/-- EV_OLDEST_HI (21_event_recorder.md). -/
def EV_OLDEST_HI : Reg :=
  ⟨0x80014, 1, 0x0, 1, 0x0, 0x0, [],
    [EV_OLDEST_HI_SEQ_HI]⟩

def EV_COUNT_RECORDS : Fld := ⟨0, 21, .ro⟩
/-- EV_COUNT (21_event_recorder.md). -/
def EV_COUNT : Reg :=
  ⟨0x80018, 1, 0x0, 1, 0x0, 0x0, [],
    [EV_COUNT_RECORDS]⟩

def EV_LOST_COUNT : Fld := ⟨0, 32, .rc⟩
/-- EV_LOST (21_event_recorder.md). -/
def EV_LOST : Reg :=
  ⟨0x8001c, 1, 0x0, 1, 0x0, 0x0, [],
    [EV_LOST_COUNT]⟩

def EV_DROPPED_COUNT : Fld := ⟨0, 32, .rc⟩
/-- EV_DROPPED (21_event_recorder.md). -/
def EV_DROPPED : Reg :=
  ⟨0x80020, 1, 0x0, 1, 0x0, 0x0, [],
    [EV_DROPPED_COUNT]⟩

def EV_SUPPRESSED_COUNT : Fld := ⟨0, 32, .rc⟩
/-- EV_SUPPRESSED (21_event_recorder.md). -/
def EV_SUPPRESSED : Reg :=
  ⟨0x80024, 1, 0x0, 1, 0x0, 0x0, [],
    [EV_SUPPRESSED_COUNT]⟩

def EV_RATE_BURST : Fld := ⟨0, 8, .rw⟩
def EV_RATE_PER_MIN : Fld := ⟨8, 16, .rw⟩
/-- EV_RATE_s (21_event_recorder.md). -/
def EV_RATE : Reg :=
  ⟨0x80040, 7, 0x4, 1, 0x0, 0x604, [(3, 0x3c10), (4, 0x3c10), (5, 0x25840), (6, 0x25840)],
    [EV_RATE_BURST, EV_RATE_PER_MIN]⟩

def EV_NOTIFY_EN : Fld := ⟨0, 1, .rw⟩
def EV_NOTIFY_MIN_SEV : Fld := ⟨1, 3, .rw⟩
def EV_NOTIFY_VECTOR : Fld := ⟨4, 11, .rw⟩
/-- EV_NOTIFY_p (21_event_recorder.md). -/
def EV_NOTIFY : Reg :=
  ⟨0x80080, 2, 0x4, 1, 0x0, 0x0, [],
    [EV_NOTIFY_EN, EV_NOTIFY_MIN_SEV, EV_NOTIFY_VECTOR]⟩

def DEV_CAP_0_INTERFACE_LEVEL : Fld := ⟨0, 16, .ro⟩
def DEV_CAP_0_FORMAT_LEVEL : Fld := ⟨16, 16, .ro⟩
/-- DEV_CAP_0 (22_variants_and_continuity.md). -/
def DEV_CAP_0 : Reg :=
  ⟨0x40, 1, 0x0, 1, 0x0, 0x10001, [],
    [DEV_CAP_0_INTERFACE_LEVEL, DEV_CAP_0_FORMAT_LEVEL]⟩

def DEV_CAP_1_STEPPING : Fld := ⟨0, 4, .ro⟩
def DEV_CAP_1_VARIANT : Fld := ⟨4, 4, .ro⟩
/-- DEV_CAP_1 (22_variants_and_continuity.md). -/
def DEV_CAP_1 : Reg :=
  ⟨0x44, 1, 0x0, 1, 0x0, 0x0, [],
    [DEV_CAP_1_STEPPING, DEV_CAP_1_VARIANT]⟩

def DEV_CAP_2_PL : Fld := ⟨0, 1, .ro⟩
def DEV_CAP_2_CL : Fld := ⟨1, 1, .ro⟩
def DEV_CAP_2_EB : Fld := ⟨2, 1, .ro⟩
def DEV_CAP_2_DIES : Fld := ⟨3, 4, .ro⟩
def DEV_CAP_2_MAX_M : Fld := ⟨8, 3, .ro⟩
/-- DEV_CAP_2 (22_variants_and_continuity.md). -/
def DEV_CAP_2 : Reg :=
  ⟨0x48, 1, 0x0, 1, 0x0, 0x0, [],
    [DEV_CAP_2_PL, DEV_CAP_2_CL, DEV_CAP_2_EB, DEV_CAP_2_DIES, DEV_CAP_2_MAX_M]⟩

def DEV_CAP_3_SLOTS : Fld := ⟨0, 11, .ro⟩
def DEV_CAP_3_POOLS : Fld := ⟨16, 7, .ro⟩
/-- DEV_CAP_3 (22_variants_and_continuity.md). -/
def DEV_CAP_3 : Reg :=
  ⟨0x4c, 1, 0x0, 1, 0x0, 0x0, [],
    [DEV_CAP_3_SLOTS, DEV_CAP_3_POOLS]⟩

def DEV_TIME_LO_TIME_LO : Fld := ⟨0, 32, .ro⟩
/-- DEV_TIME_LO (22_variants_and_continuity.md). -/
def DEV_TIME_LO : Reg :=
  ⟨0x0, 1, 0x0, 1, 0x0, 0x0, [],
    [DEV_TIME_LO_TIME_LO]⟩

def DEV_TIME_HI_TIME_HI : Fld := ⟨0, 32, .ro⟩
/-- DEV_TIME_HI (22_variants_and_continuity.md). -/
def DEV_TIME_HI : Reg :=
  ⟨0x4, 1, 0x0, 1, 0x0, 0x0, [],
    [DEV_TIME_HI_TIME_HI]⟩

def DEV_STATUS_TIME_SET : Fld := ⟨0, 1, .ro⟩
def DEV_STATUS_FW_READY : Fld := ⟨1, 1, .ro⟩
def DEV_STATUS_CC_ON : Fld := ⟨2, 4, .ro⟩
def DEV_STATUS_CC_GATED : Fld := ⟨6, 4, .ro⟩
/-- DEV_STATUS (22_variants_and_continuity.md). -/
def DEV_STATUS : Reg :=
  ⟨0x8, 1, 0x0, 1, 0x0, 0x0, [],
    [DEV_STATUS_TIME_SET, DEV_STATUS_FW_READY, DEV_STATUS_CC_ON, DEV_STATUS_CC_GATED]⟩

def DEV_TEMP_TEMP_C : Fld := ⟨0, 8, .ro⟩
def DEV_TEMP_VALID : Fld := ⟨8, 1, .ro⟩
def DEV_TEMP_TRIP : Fld := ⟨9, 1, .ro⟩
/-- DEV_TEMP_k (23_electrical_and_package.md). -/
def DEV_TEMP : Reg :=
  ⟨0x300, 6, 0x4, 1, 0x0, 0x0, [],
    [DEV_TEMP_TEMP_C, DEV_TEMP_VALID, DEV_TEMP_TRIP]⟩

/-- DEV_CAP_4 to DEV_CAP_15 (22_variants_and_continuity.md). -/
def DEV_CAP_REST : Reg :=
  ⟨0x50, 12, 0x4, 1, 0x0, 0x0, [],
    []⟩

/-- The register tables of SE. -/
def regTableSE : List Reg :=
  [SE_TABLE_BUDGET_LO, SE_TABLE_BUDGET_HI, SE_TABLE_USED_LO, SE_TABLE_USED_HI, SE_SETS_USED, SE_POOL_STATE, SE_POOL_CODE, SE_POOL_BAND, SE_POOL_MEMBERS, SE_OPEN_STRIPES, SE_RELEASE_PENDING, SE_LEDGER_USED, SE_RELEASE_REJECT, SE_POOL_APPEND, SE_POOL_OPEN, SE_POOL_SEAL_SEQ_LO, SE_POOL_SEAL_SEQ_HI, SE_POOL_APPEND_SEQ_LO, SE_POOL_APPEND_SEQ_HI, SE_POOL_PENDING, SE_POOL_DRAINED, SE_WIN_LIMIT, SE_WIN_USED, SE_WIN_MIRROR, SE_WIN_STATUS, SE_WIN_ENERGY, SE_WIN_PARAM, SE_POOL_JOURNAL, SE_POOL_JSTAT, SE_POOL_CKPT, SE_POOL_RESYNC, SE_RB_STATUS, SE_RB_QUEUED, SE_RB_PARAM, SE_DEGRADED_READS, SE_WAKES_AVOIDED, SE_READ_HASH_FAIL, SE_REPAIRS, SE_POOL_READPOL, SE_POOL_RBSETS, SE_POOL_RBLEFT, SE_POOL_LOSS, SE_MEMBER, SE_MEMBER_ERR, SE_MEMBER_CAUSE, SE_TIDE_PARAM, SE_TIDE_STRIPES, SE_TIDE_REPAIRS, SE_TIDE_PARITY, SE_TIDE_LOST, SE_TIDE_PARTIAL, SE_POOL_TIDECFG, SE_POOL_TIDESTAT, SE_POOL_TIDEROUND, SE_POOL_TIDEDAYS, SE_SCARF_PARAM, SE_SCARF_COPIED, SE_SCARF_RECOPY, SE_SCARF_LOSTCHUNK, SE_POOL_SCARF, SE_POOL_SCARFOLD, SE_POOL_SCARFLEFT, SE_POOL_SCARFNEW]

/-- The register tables of CE. -/
def regTableCE : List Reg :=
  [CE_CAP, CE_CTL, CE_STATUS, CE_CLUSTER_EN, CE_CLUSTER_FAULT, CE_WEIGHT, CE_CACHE_HIT, CE_CACHE_MISS, CE_VERIFY_MISMATCH, CE_CL_BYTES_LO, CE_CL_BYTES_HI, CE_CL_JOBS]

/-- The register tables of EB. -/
def regTableEB : List Reg :=
  [EB_CAP, EB_GEOM, EB_STATUS, EB_SEQ_LO, EB_SEQ_HI, EB_LAST, EB_RATE]

/-- The register tables of QM. -/
def regTableQM : List Reg :=
  [QM_CAP, QM_PORT, QM_SPILL_RESERVED, QM_SPILL_USED, QM_INFLIGHT, QM_ORPHANS, QM_ORPHAN_DROP, QM_FN_STATE, QM_FN_ERR, QM_FN_ORPHANS]

/-- The register tables of QC. -/
def regTableQC : List Reg :=
  [QC_OWNER, QC_SQ_CFG, QC_SQ_ARB, QC_SQ_TAIL, QC_SQ_HEAD, QC_CQ_CFG, QC_CQ_COAL, QC_CQ_TAIL, QC_CQ_HEAD, QC_CQ_SPILL_LIMIT, QC_CQ_SPILL_USED, QC_CQ_OUTSTANDING]

/-- The register tables of DL. -/
def regTableDL : List Reg :=
  [DL_DIE_CAP, DL_DIE_STATUS, DL_CHAIN_STATUS, DL_ENC_SPIN, DL_ENC_QUEUE, DL_SPIN_PARAM, DL_SLOT_STATUS, DL_SLOT_CTL, DL_SLOT_PHYERR, DL_SLOT_CMDERR, DL_SLOT_SPINS]

/-- The register tables of CL. -/
def regTableCL : List Reg :=
  [CL_CAP, CL_STATUS, CL_TRIP, CL_HOLD, CL_BANK_VI, CL_BANK_CE, CL_BANK_EU, CL_CHG, CL_BANK_PARAM, CL_TEST_PARAM, CL_BANK_NAMEPLATE, CL_CLIM_PARAM, CL_CAPTURE, CL_AIN, CL_FAN, CL_HTR, CL_ENC_STATE, CL_ENC_AIR, CL_SNS, CL_LE_CFG, CL_LE_SET, CL_LE_GAIN, CL_LE_FF, CL_LE_LIMIT, CL_LE_STATE]

/-- The register tables of PL. -/
def regTablePL : List Reg :=
  [PL_CAP, PL_STATUS, PL_PARAM, PL_PEER_OWNED_LO, PL_PEER_OWNED_HI, PL_MIRROR_LAG, PL_REPLAY, PL_FEC, PL_BAD_FRAME, PL_HANDOVERS]

/-- The register tables of DEV. -/
def regTableDEV : List Reg :=
  [DEV_BOOT, DEV_BOOT_REASON, DEV_IMG_FAULT, DEV_IMG_SEQ_LO, DEV_IMG_SEQ_HI, DEV_STAGE, DEV_START, DEV_MODE_EPOCH_LO, DEV_MODE_EPOCH_HI, DEV_MODE_STATUS, DEV_CAP_0, DEV_CAP_1, DEV_CAP_2, DEV_CAP_3, DEV_TIME_LO, DEV_TIME_HI, DEV_STATUS, DEV_TEMP, DEV_CAP_REST]

/-- The register tables of SEC. -/
def regTableSEC : List Reg :=
  [SEC_STATE, SEC_SESSION, SEC_SESSION_FAIL, SEC_PROT_EPOCH_LO, SEC_PROT_EPOCH_HI, SEC_PROT_GEN_LO, SEC_PROT_GEN_HI, SEC_PROT_SRC, SEC_ENROLL_CTL, SEC_OWNER_HASH, SEC_MEAS, SEC_CERT_LEN, SEC_ENROLL_KEY, SEC_CERT]

/-- The register tables of PW. -/
def regTablePW : List Reg :=
  [PW_STATE, PW_UNIT_RESET, PW_UNIT_BUSY, PW_SLACK_CTL, PW_HARBOUR_CTL, PW_CLK_STATUS, PW_PD_STATE, PW_PD_REQ]

/-- The register tables of MC. -/
def regTableMC : List Reg :=
  [MC_CAP, MC_FREQ, MC_ACT_PARAM, MC_RETRAIN, MC_SCRUB, MC_REGION_BASE, MC_REGION_CFG, MC_PORT_TARGET, MC_PORT_STAT, MC_PORT_URGENT, MC_CH_STATUS, MC_CH_ECC, MC_CH_UE_ADDR_LO, MC_CH_UE_ADDR_HI, MC_CH_ACT, MC_CH_TRAIN, MC_CH_DIAG_CTL, MC_CH_DIAG_OFFSET, MC_CH_DIAG_LEN, MC_CH_DIAG_SEED, MC_CH_DIAG_RESULT]

/-- The register tables of MDC. -/
def regTableMDC : List Reg :=
  [MDC_CAP, MDC_CTL, MDC_STATUS, MDC_WAY_DIS, MDC_WAY_OFF, MDC_MAINT_CTL, MDC_MAINT_BASE_LO, MDC_MAINT_BASE_HI, MDC_MAINT_LINES, MDC_HIT, MDC_MISS, MDC_VB_HIT, MDC_PF, MDC_ERR, MDC_WAY_ERR, MDC_CLASS_MASK]

/-- The register tables of XM. -/
def regTableXM : List Reg :=
  [XM_CAP, XM_EVENT, XM_EVENT_SET, XM_REQ, XM_BUSERR, XM_CH_CTL, XM_CH_CFG, XM_CH_PC_LO, XM_CH_PC_HI, XM_CH_STATUS, XM_CH_SRC_LO, XM_CH_SRC_HI, XM_CH_DST_LO, XM_CH_DST_HI, XM_CH_REMAIN, XM_CH_LOOP]

/-- The register tables of EV. -/
def regTableEV : List Reg :=
  [EV_CAP, EV_STATUS, EV_SEQ_LO, EV_SEQ_HI, EV_OLDEST_LO, EV_OLDEST_HI, EV_COUNT, EV_LOST, EV_DROPPED, EV_SUPPRESSED, EV_RATE, EV_NOTIFY]

/-- The register tables of the span that holds BAR0 offset `a` (R35); an unmapped span has none (R36). -/
def regTableOf (a : Nat) : List Reg :=
  if a < 0x10000 then regTableDEV
  else if a < 0x20000 then []
  else if a < 0x40000 then regTableSEC
  else if a < 0x80000 then regTablePW
  else if a < 0x100000 then regTableEV
  else if a < 0x200000 then regTableQM
  else if a < 0x300000 then regTableSE
  else if a < 0x340000 then regTableCE
  else if a < 0x400000 then []
  else if a < 0x500000 then regTableMC
  else if a < 0x600000 then regTableMDC
  else if a < 0x700000 then regTableXM
  else if a < 0x780000 then regTableCL
  else if a < 0x800000 then regTableEB
  else if a < 0x1000000 then regTablePL
  else if a < 0x1440000 then regTableDL
  else if a < 0x2000000 then []
  else if a < 0x2400000 then regTableQC
  else []

/-- The register at BAR0 offset `a` with its two indices; none where the map has no register (R36). -/
def regLookup (a : Nat) : Option (Reg × Nat × Nat) :=
  (regTableOf a).findSome? (fun r => (r.index? a).map (fun p => (r, p.1, p.2)))

/-- The value the register tables give BAR0 offset `a` at reset; 0 where they give no register. -/
def regReset (a : Nat) : Word :=
  match regLookup a with
  | some (r, i, _) => r.resetAt i
  | none => 0

end Sys2Proof.Machine
end

