-- ==== Sys2Proof/Machine/State.lean ====
section
/-! DEFINITION. The state of the Z-1024: every register, queue, table and buffer the manual names, as plain data,
grouped by unit; the reasons a step stops; the state right at COLD reset. -/

namespace Sys2Proof.Machine

open Sys2Proof

/-- Reasons for a stop of the block. Raised by nothing: the manual gives every listed step an effect. Safe. -/
inductive Fault where
  /-- Reserved for a unit the manual gives no behaviour; raised by no meaning. Safe. -/
  | unitBehaviourNotGiven
  deriving DecidableEq, Repr

/-- Reasons for a refusal. -/
inductive Refusal where
  /-- A command without a meaning yet, named by its mnemonic; raised by a refused arm of `exec`. Safe. -/
  | notModelled (mnemonic : String)
  deriving DecidableEq, Repr

/-- What the device sends outside, kept as the model's own trace (log entry 7). -/
inductive Out where
  | completion (x loc : Nat) (index : Word) (entry : List Byte)
  | hostWrite (x addr : Nat) (bytes : List Byte)
  | hostRead (x addr len : Nat)
  | msix (x vector : Nat)
  | drive (slot : Nat) (kind : Nat) (a b : Nat) (bytes : List Byte)
  | peer (kind : Nat) (args : List Nat) (bytes : List Byte)
  | store (off : Nat) (bytes : List Byte)
  | pin (name : String) (level : Bool)
  | duty (name : String) (v : Nat)
  | regRead (off : Nat) (v : Word)
  deriving DecidableEq, Repr

/-- A completion entry (R336) before its phase bit is set, with the opcode of its command. -/
structure CompEntry where
  op : Nat
  result : List Byte
  cid : Nat
  status : Nat
  sq : Nat
  sqHead : Word
  detail : Nat
  flags : Nat
  deriving DecidableEq, Repr

/-- A submission queue (R322 to R335): `slots` holds the contents read ahead of consumption by index. -/
structure Sq where
  log2 : Nat
  base : Nat
  a : Word
  c : Word
  cq : Nat
  weight : Nat
  burst : Nat
  prefetch : Nat
  pollUs : Nat
  credits : Nat
  slots : Tab (List Byte)
  deriving DecidableEq, Repr

/-- A completion queue (R336 to R344). -/
structure Cq where
  log2 : Nat
  base : Nat
  vector : Option Nat
  coalCount : Nat
  coalUs : Nat
  spillLimit : Nat
  pc : Word
  h : Word
  spill : List CompEntry
  outstanding : Nat
  closed : Bool
  unsignalled : Nat
  deriving DecidableEq, Repr

/-- A device queue number and its binding (R315). -/
structure DevQueue where
  x : Nat
  loc : Nat
  sq : Option Sq
  cq : Option Cq
  deriving DecidableEq, Repr

/-- A function entry (R309): PCIe configuration state the device uses, and its queue capability (R313). -/
structure Fn where
  present : Bool
  bme : Bool
  inReset : Bool
  strayArmed : Bool
  ctlq : Word
  sqBase : Nat
  cqBase : Nat
  sqBaseLow : Word
  cqBaseLow : Word
  closing : Bool
  msixOn : Bool
  unmasked : List Nat
  pendingVec : List Nat
  deriving DecidableEq, Repr

/-- An APPEND in progress, or one copy of a COPY_FORWARD (`parent`: the command and source index). `reserved`: it holds a
window reservation; `placed`: its stripe and directory slot; `payload` carries a copy's bytes. -/
structure AppendCmd where
  pool : Nat
  len : Nat
  tag : BitVec 256
  durable : Bool
  addr : List (Nat × Nat)
  payload : Option (List Byte)
  parent : Option (Nat × Nat)
  reserved : Bool
  placed : Option (Nat × Nat)
  off : Nat
  seq : Nat
  got : Nat
  whole : Bool
  deriving DecidableEq, Repr

/-- One chunk read of a READ: position, and what came back. -/
structure ChunkRead where
  pos : Nat
  slot : Nat
  off : Nat
  len : Nat
  got : Option (List Byte)
  lost : Bool
  asleep : Bool
  deriving DecidableEq, Repr

/-- A READ in progress: the extent asked for, the placement and code it reads, what its directory entry holds, its chunk
reads, and its phase under R199 (0 first read, 1 chunk checks, 2 second hash). No chunk reads: it waits for an APPEND.
`reply` is the position of the assembled bytes among the chunk reads. -/
structure ReadCmd where
  pool : Nat
  stripe : Nat
  params : Params
  set : Nat
  chunkOffset : Nat
  extOff : Nat
  extLen : Nat
  start : Nat
  len : Nat
  tagCheck : Option (BitVec 256)
  bufs : List (Nat × Nat)
  needDir : Bool
  seq : Nat
  hash : BitVec 256
  tag : BitVec 256
  chunks : List ChunkRead
  deferred : Bool
  woken : Bool
  rebuilt : Bool
  phase : Nat
  hashOnly : Bool
  deriving DecidableEq, Repr

/-- The outcome of one source of a COPY_FORWARD (R369). -/
structure CopyItem where
  locator : List Byte
  status : Option Nat
  durable : Bool
  deriving DecidableEq, Repr

/-- What a consumed command that has not completed is doing. -/
inductive CmdBody where
  /-- Its checks or its own effect are running inside the present step. -/
  | running
  /-- Waits for an earlier one-at-a-time command (R85, R382). -/
  | serial (c : HostCmd) (verdict : Nat)
  | append (a : AppendCmd)
  | copy (buf len : Nat) (items : List CopyItem)
  | read (r : ReadCmd)
  /-- SEAL: waits until the listed stripes are SEALED (R140); `count` of them. -/
  | sealWait (stripes : List (Nat × Nat)) (count : Nat)
  /-- FLUSH: waits until the listed stripes, and those the listed APPENDs are placed in, are WRITTEN (R141). -/
  | flush (stripes : List (Nat × Nat)) (appends : List Nat)
  /-- QUEUE_DELETE of a submission queue waits for its consumed commands (R320). -/
  | queueDelete (q : Nat)
  /-- PROTECT_SET waits for older commands of the function (R505). -/
  | protectSet (epoch : Nat) (older : List Nat)
  /-- PROTECT_COMMIT waits for the pools' sill members (R507). -/
  | protectCommit (gen : Nat)
  /-- EV_CLEAR waits for the erase (R616). -/
  | evClear (seq : Nat)
  /-- DEVICE_MODE waits for the epoch (R532, R534). -/
  | deviceMode (mode epoch : Nat)
  /-- STAGE_COMMIT waits for the flash (R490). -/
  | stageCommit (target slot : Nat)
  /-- A pool or drive administration command waits for media. -/
  | poolCreate (pool : Nat) (taken : List (Nat × MemberState))
  | poolGrow (pool : Nat) (taken : List (Nat × MemberState))
  | poolDelete (pool : Nat)
  | poolGive (pools : List Nat)
  | scarfStart (pool : Nat)
  | scarfCommit (pool : Nat)
  | scarfAbort (pool : Nat)
  | driveLabel (slot : Nat) (target : MemberState)
  deriving DecidableEq, Repr

/-- A consumed command (R331). `silent`: its function was reset and no completion is written (R345). -/
structure Cmd where
  x : Nat
  loc : Nat
  dq : Nat
  cq : Nat
  cid : Nat
  head : Word
  op : Nat
  silent : Bool
  body : CmdBody
  deriving DecidableEq, Repr

/-- An orphan record (R347) with the function it is kept for. -/
structure Orphan where
  x : Nat
  pool : Nat
  seq : Nat
  stripe : Nat
  slot : Nat
  locator : List Byte
  tag : BitVec 256
  copied : Bool
  deriving DecidableEq, Repr

/-- The queue manager (QM, chapter 10). -/
structure QmUnit where
  fns : Tab Fn
  queues : Tab DevQueue
  cmds : Tab Cmd
  nextCmd : Nat
  visit : Tab (Nat × Nat)
  orphans : List Orphan
  deriving DecidableEq, Repr

/-- The event recorder (EV, chapter 21). `tokens` lists a code's tokens when its bucket is not full; `ring` the records
not yet in the store, `log` the records of the log region, both in rising SEQ. -/
structure EvUnit where
  seq : Nat
  fifo : List RaisedEvent
  ring : List EvRecord
  log : List EvRecord
  tokens : Tab Nat
  suppressed : Tab Nat
  lostNow : Nat
  storeFault : Bool
  clearing : Bool
  scanning : Bool
  resetting : Bool
  cleared : Option EvRecord
  notifyDue : List Nat
  backWait : Bool
  deriving DecidableEq, Repr

/-- A session challenge (R500). -/
structure Challenge where
  keySlot : Nat
  bytes : List Byte
  deriving DecidableEq, Repr

/-- The owner session (R499); `lastOwner` is the device time of its latest command under OWNER privilege (R503). -/
structure Session where
  port : Nat
  keySlot : Nat
  lastOwner : Nat
  deriving DecidableEq, Repr

/-- The protection table and the security unit (PR and SEC, chapter 16). `kept`: the table a WARM reset retained, until the
retention check (R508). -/
structure SecUnit where
  table : Tab ProtEntry
  epoch : Nat
  gen : Nat
  genSeen : Nat
  src : Nat
  dirty : Bool
  session : Option Session
  challenges : Tab Challenge
  challengeSeq : Nat
  ownerKeys : Tab (BitVec 256)
  areasUsed : Tab Nat
  enrolled : List Nat
  fuses : List Nat
  enrollBusy : Option (Nat × Nat × Nat × BitVec 256)
  kept : Option (Tab ProtEntry)
  identity : Bool
  deviceId : BitVec 256
  cert : List Byte
  measRom : BitVec 256
  measFw : BitVec 256
  measImg : BitVec 256
  imgKey : Option Nat
  committed : Option (Nat × Nat × Tab ProtEntry)
  deriving DecidableEq, Repr

/-- A pending release record (R144, R300): `off` in 4 KiB units, `len` in bytes. -/
structure PendRel where
  pool : Nat
  stripe : Nat
  off : Nat
  len : Nat
  tag : BitVec 256
  time : Nat
  deriving DecidableEq, Repr

/-- The user of a hash engine job and its class of R236. -/
inductive HashUser where
  | append (cmd : Nat)
  | chunk (pool stripe pos : Nat)
  | read (cmd : Nat)
  deriving DecidableEq, Repr

/-- A hash engine job: its user, the class that serves it (R236), and the digest it delivers when the bytes are in the
device. -/
structure HashJob where
  user : HashUser
  cls : Nat
  digest : BitVec 256
  deriving DecidableEq, Repr

/-- A rebuild pass (R214): the chunk offset and stripe it works on, the positions still to be read, being read and read, the
positions whose rebuilt chunk is being written, and whether its RECOVER job is in the coding engine. -/
structure Pass where
  off : Nat
  key : Nat
  need : List Nat
  issued : List Nat
  got : List Nat
  writing : List Nat
  coding : Bool
  deriving DecidableEq, Repr

/-- The stripe engine (SE, chapters 02 and 04 to 08). Sizes of the window are in bytes, energy in joules. -/
structure SeUnit where
  pools : Tab Pool
  sets : Tab SetRec
  stripes : Tab Stripe
  bands : Tab (BandState × Nat)
  drives : Tab Drive
  pending : List PendRel
  pendingHigh : Bool
  ledgerFull : Bool
  deltaFull : Bool
  dirCache : List (Nat × Nat)
  repairs : List (Nat × Nat × Nat)
  reclaims : Tab Nat
  passes : Tab Pass
  recoveries : Tab RecoveryInfo
  hashJobs : Tab HashJob
  nextHash : Nat
  w : Nat
  wTarget : Nat
  wComputed : Bool
  f : Nat
  eu : Nat
  covered : Bool
  coverKnown : Bool
  bEbb : Option Nat
  credit : Nat
  freedNow : Nat
  freedTicks : List Nat
  above : Bool
  stopped : Bool
  deriving DecidableEq, Repr

/-- The tables of an ebb image: what the window and the checkpoints of its pools hold together (R171, R177). -/
structure SeTables where
  pools : Tab Pool
  sets : Tab SetRec
  stripes : Tab Stripe
  bands : Tab (BandState × Nat)
  pending : List PendRel
  orphans : List Orphan
  placed : List (Nat × Nat × Nat)
  deriving DecidableEq, Repr

/-- A valid ebb image (R173, R174). -/
structure EbbImage where
  seq : Nat
  trigger : Nat
  time : Nat
  tables : SeTables
  standby : Tab PoolTables
  mirror : Tab Stripe
  paired : Bool
  timeUnset : Bool
  header : List Byte
  deriving DecidableEq, Repr

/-- One image slot of the ebb store (R175, R176). -/
structure EbSlot where
  image : Option EbbImage
  consumed : Bool
  ready : Bool
  erasing : Bool
  programmed : Bool
  deriving DecidableEq, Repr

/-- The ebb store interface (EB, chapter 05): its slots, EB_SEQ with the slot that holds or last held it, and the AON
record of the last ebb (R661). -/
structure EbUnit where
  slots : List EbSlot
  seq : Nat
  seqSlot : Nat
  storeFault : Bool
  lastTrigger : Nat
  lastMs : Nat
  lastComplete : Bool
  running : Option (Option Nat)
  deriving DecidableEq, Repr

/-- Power conditions of a slot (R399). -/
inductive Cond where
  | off | held | spinningUp | standby | idle | active
  deriving DecidableEq, Repr

/-- One drive slot (chapter 12). `known`: the device has read the drive's identity; `inS`: the drive is in S(e) of R415; `cls`:
the class of the wake it was admitted for; `standbyIssued`: its standby command is out, and
`wakeAfter` the class of a wake that waits for it. -/
structure Slot where
  present : Bool
  pwrEn : Bool
  pwrGood : Bool
  pwrDis : Bool
  powerFault : Bool
  linkUp : Bool
  rate : Nat
  sata : Bool
  known : Bool
  cond : Cond
  zoned : Bool
  flash : Bool
  single : Bool
  noPr : Bool
  unsupported : Bool
  linkFail : Bool
  locate : Bool
  attempts : Nat
  inS : Bool
  cls : Nat
  standbyIssued : Bool
  wakeAfter : Option Nat
  deriving DecidableEq, Repr

/-- One slot chain (R404 to R407). -/
structure Chain where
  fault : Bool
  badRun : Nat
  goodRun : Nat
  deriving DecidableEq, Repr

/-- A drive queued for spin admission: slot and class of R412, in request order. -/
structure WakeReq where
  slot : Nat
  cls : Nat
  deriving DecidableEq, Repr

/-- The drive links (DL, chapter 12). `evaluate`: a drive was queued or left S(e), and R415 is evaluated (R416). -/
structure DlUnit where
  slots : Tab Slot
  chains : Tab Chain
  queue : List WakeReq
  evaluate : Bool
  sgpioLast : Tab (BitVec 6)
  deriving DecidableEq, Repr

/-- A CLAIM sent and not answered, or granted to the partner (R464). -/
structure Claim where
  pool : Nat
  id : Nat
  slots : List Nat
  cmd : Nat
  deriving DecidableEq, Repr

/-- The peer link (PL, chapter 14). `fromPair`: the present TRAINING, HELLO or COPYING was entered from PAIRED or LOST
(R454). `lag` lists the M frames sent and not confirmed with their bytes; `sections` the standby copy's sections, as bytes, by
16 × pool + type; `mirrorRaw` and `pull` window bytes by window offset; `mirrorOf` the pools whose mirror is held;
`giveWaits` the GIVE_REQs whose MSEQ is not applied yet. -/
structure PlUnit where
  peer : PeerState
  pairMode : Bool
  side : Nat
  linkUp : Bool
  rate : Nat
  width : Nat
  fromPair : Bool
  pairUuid : Nat
  mseqSent : Nat
  mseqConfirmed : Nat
  mseqApplied : Nat
  copyEnd : Nat
  appendMseq : Tab Nat
  lag : List (Nat × Nat)
  discardM : Bool
  fPartner : Nat
  claims : List Claim
  taken : List Nat
  nextClaim : Nat
  standby : Tab PoolTables
  sections : Tab (List Host.Cell)
  mirror : Tab Stripe
  mirrorRaw : List Host.Cell
  mirrorOf : List Nat
  mirPending : List PendRel
  mirLedger : Tab (List Byte)
  resolving : Bool
  giveSent : List Nat
  giveWaits : List (Nat × Nat)
  pull : List Host.Cell
  flitAcked : Nat
  deriving DecidableEq, Repr

/-- A staging buffer (R489): its bytes by offset, and the owner session that last wrote it (port and the session's count). -/
structure StageBuf where
  data : Tab Byte
  writer : Option Nat
  deriving DecidableEq, Repr

/-- A STAGE_COMMIT that programs the flash (R490). -/
structure StageRun where
  target : Nat
  slot : Nat
  len : Nat
  cmd : Nat
  deriving DecidableEq, Repr

/-- The configuration flash's directory and what runs (chapter 15). `lens` holds FW0, FW1, IMG0, IMG1. -/
structure BootUnit where
  fwPref : Nat
  imgPref : Nat
  lens : List Nat
  fwSlot : Nat
  imgSlot : Nat
  bare : Bool
  fwReady : Bool
  phase : Nat
  image : Option Image
  fwSvn : Nat
  fwVersion : Nat
  vendorKey : Nat
  fwBuf : StageBuf
  imgBuf : StageBuf
  stage : Option StageRun
  startWakes : List Nat
  adoptOpen : Bool
  romHeld : Bool
  deriving DecidableEq, Repr


/-- What a mode epoch changes (R544): entry to HARBOUR, a POOL_SET, or the memory operating point. -/
inductive EpochKind where
  | harbour
  | poolSet (c : HostCmd)
  | freq (point : Nat)
  deriving DecidableEq, Repr

/-- A mode epoch in progress (R544): units whose answer is awaited, and whether COMMIT was sent. -/
structure Epoch where
  e : Nat
  kind : EpochKind
  cmd : Option Nat
  waiting : List Nat
  committed : Bool
  switched : List Nat
  deriving DecidableEq, Repr

/-- The device's power state: PW_STATE.POWER, and the states no register reports. -/
inductive Power where
  | run | harbourPrep | harbour | harbourExit | ebb | off | warmPrep | inReset
  deriving DecidableEq, Repr

/-- Power, reset and clocks (PW, chapter 17). `doms` lists domains that are not ON: 1 DRAIN, 2 OFF. `prepStep` is the step of
R532 that entry to HARBOUR has reached, and `phyDue` its wait before the PHYs go down. -/
structure PwUnit where
  power : Power
  lastReset : Nat
  retained : Bool
  record : Bool
  checkDue : Bool
  doms : Tab Nat
  idleGated : List Nat
  ungating : List Nat
  unitBusy : List Nat
  unitWaiting : List Nat
  epochTried : Nat
  epochDone : Nat
  epoch : Option Epoch
  modeLast : Nat
  modeResult : Nat
  modeUnit : Nat
  warmKind : Option Nat
  resetN : Bool
  boot : Option BootInfo
  aonFallback : Bool
  unlocked : List Nat
  harbourCmd : Option Nat
  thermTrip : Bool
  prepStep : Nat
  phyDue : Bool
  deriving DecidableEq, Repr

/-- The memory controller's state beside its registers (MC, chapter 18). -/
structure McUnit where
  retrain : List Nat
  step : Option (Nat × Nat)
  discard : Bool
  trainedAt : Tab Int
  cooler : Tab Nat
  throttles : List (Nat × Nat × Nat)
  deriving DecidableEq, Repr

/-- A line of the metadata cache (R569, R571): device address of the line, class, and whether a prefetch filled it. -/
structure CacheLine where
  line : Nat
  cls : Nat
  prefetched : Bool
  deriving DecidableEq, Repr

/-- A cache fill in flight (R575): which 64-byte blocks have arrived, and whether the line is installed invalid. -/
structure CacheFill where
  line : Nat
  cls : Nat
  got0 : Bool
  got1 : Bool
  invalid : Bool
  prefetched : Bool
  deriving DecidableEq, Repr

/-- A prefetch stream (R577). `last` is the latest line index and `stride` the signed stride in lines. -/
structure Stream where
  port : Nat
  cls : Nat
  region : Nat
  last : Int
  stride : Int
  run : Nat
  deriving DecidableEq, Repr

/-- A maintenance operation in progress (R581): 1 RANGE, 2 ALL, 3 CLASS. -/
structure Maint where
  op : Nat
  base : Nat
  lines : Nat
  cls : Nat
  deriving DecidableEq, Repr

/-- The metadata cache (MDC, chapter 19). `ways` is keyed by 16 × set + way. -/
structure MdcUnit where
  ways : Tab CacheLine
  rr : Tab Nat
  victim : List CacheLine
  evict : Option CacheLine
  fills : List CacheFill
  streams : List Stream
  maint : Option Maint
  wayErrs : List (Nat × Nat)
  deriving DecidableEq, Repr

/-- A MOVE in progress on a mover channel (R590): `done` counts bytes written, `down` the direction of R588. -/
structure Move where
  srcSpace : Nat
  dstSpace : Nat
  src : Nat
  dst : Nat
  len : Nat
  done : Nat
  down : Bool
  paced : Bool
  line : Nat
  burst : Nat
  half : Bool
  full : Bool
  inBurst : Bool
  retryAt : Bool
  deriving DecidableEq, Repr

/-- A mover channel's program state beside its registers: the loop stack holds the address after each LOOP and whether
the loop is without end; `wait` is a line (false) or an event flag (true); `program` is the firmware's program of channels 29 to 31 and
`base` the address where the firmware has put it. -/
structure XmChan where
  move : Option Move
  loops : List (Nat × Bool)
  wait : Option (Bool × Nat)
  program : List (List Byte)
  base : Nat
  deriving DecidableEq, Repr

/-- The auxiliary mover (XM, chapter 20). -/
structure XmUnit where
  chans : Tab XmChan
  deriving DecidableEq, Repr


/-- Job kinds of the coding engine. -/
inductive JobKind where
  | encode | recover | verify
  deriving DecidableEq, Repr

/-- The key of a decode matrix (R104). -/
structure MatrixKey where
  k : Nat
  m : Nat
  lost : List Nat
  par : List Nat
  deriving DecidableEq, Repr

/-- A coding job: what submitted it (a stripe, and a command for a RECOVER of a READ), its class of R103, the matrix it
needs, and its input bytes. -/
structure CeJob where
  kind : JobKind
  cls : Nat
  pool : Nat
  stripe : Nat
  cmd : Option Nat
  m : Nat
  key : Option MatrixKey
  bytes : Nat
  deriving DecidableEq, Repr

/-- The coding engine (CE, chapter 03): the queue in order of submission, the jobs running by cluster, the keys held by
the two cache levels (most recent first), the inversion in progress with the clusters that wait for it, and the credits
of the four classes. -/
structure CeUnit where
  queue : List CeJob
  running : Tab CeJob
  l1 : List MatrixKey
  l2 : List MatrixKey
  inverting : Option MatrixKey
  waiting : List Nat
  credits : List Nat
  waitDomain : Option Nat
  noCluster : Bool
  deriving DecidableEq, Repr


/-- The climate unit's state beside its registers (CL, chapter 13). Loop integrators and outputs are kept in 1/6,553,600
of a duty step, in which every product of R424 is whole. -/
structure ClUnit where
  ainHist : Tab (List Int)
  snsFails : Tab Nat
  integ : Tab Int
  uPrev : Tab Int
  fifo0 : List Byte
  fifo1 : List Byte
  evaluated : List Nat
  held : List Nat
  euReported : Nat
  testV0 : Option Nat
  testWait : Bool
  lastStart : Option Nat
  lastTest : Option Nat
  outputsOff : Bool
  deriving DecidableEq, Repr

/-- Ordering variants of chapter 00. -/
inductive Variant where
  | fa | fb | fc | ha | la
  deriving DecidableEq, Repr

/-- The whole state of one Z-1024. `regs` holds every register that is not its reset value, by BAR0 offset, rising;
`dram` and `sram` hold the bytes that are not 0, by address, rising; `latch` and `staged` hold the halves of R22 and R23. -/
structure State where
  pending : List Instr
  variant : Variant
  stepB0 : Bool
  devNs : Nat
  devFrac : Nat
  timeSet : Bool
  draws : Nat
  latch : Tab Word
  staged : Tab Word
  regs : List (Nat × Word)
  dram : List Host.Cell
  sram : List Host.Cell
  out : List Out
  ev : EvUnit
  qm : QmUnit
  sec : SecUnit
  se : SeUnit
  eb : EbUnit
  dl : DlUnit
  pl : PlUnit
  boot : BootUnit
  pw : PwUnit
  mc : McUnit
  mdc : MdcUnit
  xm : XmUnit
  ce : CeUnit
  cl : ClUnit
  deriving DecidableEq, Repr

/-- The event recorder at COLD reset: empty FIFO and ring, full buckets (R604, R606); the log region is found by the scan. -/
def EvUnit.reset : EvUnit :=
  { seq := 0, fifo := [], ring := [], log := [], tokens := [], suppressed := [], lostNow := 0, storeFault := false,
    clearing := false, scanning := false, resetting := false, cleared := none, notifyDue := [],
    backWait := false }

/-- The queue manager at COLD reset: no queue, command or orphan (R529). -/
def QmUnit.reset : QmUnit :=
  { fns := [], queues := [], cmds := [], nextCmd := 0, visit := [], orphans := [] }

/-- The security unit at COLD reset: epoch 1 (R504), no session; fuses and enrolled keys as a part never enrolled has
them (log entry 8). -/
def SecUnit.reset : SecUnit :=
  { table := [], epoch := 1, gen := 0, genSeen := 0, src := 0, dirty := false, session := none, challenges := [],
    challengeSeq := 0, ownerKeys := [], areasUsed := [], enrolled := [], fuses := [], enrollBusy := none, kept := none,
    identity := false, deviceId := 0, cert := [], measRom := 0, measFw := 0, measImg := 0, imgKey := none,
    committed := none }

/-- The stripe engine at COLD reset: no pool, and no window computed (R161, R662). -/
def SeUnit.reset : SeUnit :=
  { pools := [], sets := [], stripes := [], bands := [], drives := [], pending := [], pendingHigh := false,
    ledgerFull := false, deltaFull := false, dirCache := [], repairs := [], reclaims := [], passes := [], recoveries := [], hashJobs := [],
    nextHash := 0, w := 0, wTarget := 0, wComputed := false, f := 0, eu := 0, covered := false, coverKnown := false,
    bEbb := none, credit := 0, freedNow := 0, freedTicks := [], above := false, stopped := false }

/-- An image slot that is erased and ready. -/
def EbSlot.blank : EbSlot :=
  { image := none, consumed := false, ready := false, erasing := false, programmed := false }

/-- The ebb store interface at COLD reset. -/
def EbUnit.reset : EbUnit :=
  { slots := [EbSlot.blank, EbSlot.blank], seq := 0, seqSlot := 0, storeFault := false, lastTrigger := 0, lastMs := 0,
    lastComplete := false, running := none }

/-- The drive links at COLD reset: no slot found (R529: PWR_EN cleared). -/
def DlUnit.reset : DlUnit := { slots := [], chains := [], queue := [], evaluate := false, sgpioLast := [] }

/-- The peer link at COLD reset. -/
def PlUnit.reset : PlUnit :=
  { peer := .unpaired, pairMode := false, side := 0, linkUp := false, rate := 0, width := 0, fromPair := false,
    pairUuid := 0, mseqSent := 0, mseqConfirmed := 0, mseqApplied := 0, copyEnd := 0, appendMseq := [], lag := [],
    discardM := false, fPartner := 0, claims := [], taken := [], nextClaim := 0, standby := [], sections := [],
    mirror := [], mirrorRaw := [], mirrorOf := [], mirPending := [], mirLedger := [], resolving := false, giveSent := [],
    giveWaits := [], pull := [], flitAcked := 0 }

/-- The boot state at COLD reset: the ROM runs (DEV_START.PHASE 0). -/
def BootUnit.reset : BootUnit :=
  { fwPref := 0, imgPref := 0, lens := [0, 0, 0, 0], fwSlot := 0, imgSlot := 0, bare := false, fwReady := false,
    phase := 0, image := none, fwSvn := 0, fwVersion := 0, vendorKey := 0, fwBuf := ⟨[], none⟩, imgBuf := ⟨[], none⟩,
    stage := none, startWakes := [], adoptOpen := false, romHeld := false }

/-- Power, reset and clocks at COLD reset (R544: epoch 0). -/
def PwUnit.reset : PwUnit :=
  { power := .run, lastReset := 0, retained := false, record := false, checkDue := false,
    doms := [], idleGated := [], ungating := [], unitBusy := [], unitWaiting := [], epochTried := 0, epochDone := 0,
    epoch := none, modeLast := 0, modeResult := 0, modeUnit := 0, warmKind := none, resetN := true, boot := none,
    aonFallback := false, unlocked := [], harbourCmd := none, thermTrip := false, prepStep := 0, phyDue := false }

/-- The memory controller at COLD reset. -/
def McUnit.reset : McUnit :=
  { retrain := [], step := none, discard := false, trainedAt := [], cooler := [], throttles := [] }

/-- The metadata cache at COLD reset: empty (R529). -/
def MdcUnit.reset : MdcUnit :=
  { ways := [], rr := [], victim := [], evict := none, fills := [], streams := [], maint := none, wayErrs := [] }

/-- The coding engine at COLD reset. -/
def CeUnit.reset : CeUnit :=
  { queue := [], running := [], l1 := [], l2 := [], inverting := none, waiting := [], credits := [], waitDomain := none,
    noCluster := false }

/-- The climate unit at COLD reset: every enclosure counts as held until its first evaluation (R436). -/
def ClUnit.reset : ClUnit :=
  { ainHist := [], snsFails := [], integ := [], uPrev := [], fifo0 := [], fifo1 := [], evaluated := [], held := List.range 32,
    euReported := 0, testV0 := none, testWait := false, lastStart := none, lastTest := none, outputsOff := false }

/-- The machine right at COLD reset: device time 0 and unset (R13), every register at the value its table gives, no
queue, pool or drive; the part is a KZ1024-FA of stepping B0 (log entry 9) and its memories hold zeros (log entry 10). -/
def State.reset : State :=
  { pending := [], variant := .fa, stepB0 := true, devNs := 0, devFrac := 0, timeSet := false, draws := 0, latch := [],
    staged := [], regs := [], dram := [], sram := [], out := [], ev := EvUnit.reset, qm := QmUnit.reset,
    sec := SecUnit.reset, se := SeUnit.reset, eb := EbUnit.reset, dl := DlUnit.reset, pl := PlUnit.reset,
    boot := BootUnit.reset, pw := PwUnit.reset, mc := McUnit.reset, mdc := MdcUnit.reset, xm := { chans := [] },
    ce := CeUnit.reset, cl := ClUnit.reset }

end Sys2Proof.Machine
end

