-- ==== Sys2Proof/Machine/Ops.lean ====
section
/-! DEFINITION. The named operations over tables, memories and registers, the raising of events (R606 to R609), and
device time. Every register write of the model goes through `State.setReg`. -/

namespace Sys2Proof.Machine

open Sys2Proof

/-- The entry of a table at a key. -/
def Tab.get? {α : Type} (t : Tab α) (k : Nat) : Option α := (t.find? (fun p => p.1 == k)).map (·.2)

/-- The entry of a table at a key, or a default. -/
def Tab.getD {α : Type} (t : Tab α) (k : Nat) (d : α) : α := (Tab.get? t k).getD d

/-- A table with the entry at a key removed. -/
def Tab.erase {α : Type} (t : Tab α) (k : Nat) : Tab α := t.filter (fun p => p.1 != k)

/-- A table with the entry at a key set; keys stay in rising order. -/
def Tab.set {α : Type} (t : Tab α) (k : Nat) (v : α) : Tab α :=
  match t with
  | [] => [(k, v)]
  | p :: ps =>
    if k < p.1 then (k, v) :: p :: ps
    else if k = p.1 then (k, v) :: ps
    else p :: Tab.set ps k v

/-- A table with the entry at a key changed, when there is one. -/
def Tab.modify {α : Type} (t : Tab α) (k : Nat) (f : α → α) : Tab α :=
  t.map (fun p => if p.1 == k then (p.1, f p.2) else p)

/-- The keys of a table. -/
def Tab.keys {α : Type} (t : Tab α) : List Nat := t.map (·.1)

/-- A value put into a list before the first element it does not come after. -/
def insertBy {α : Type} (le : α → α → Bool) (a : α) : List α → List α
  | [] => [a]
  | b :: bs => if le a b then a :: b :: bs else b :: insertBy le a bs

/-- A list in the order of `le`; elements equal under it keep their order. -/
def sortBy {α : Type} (le : α → α → Bool) (xs : List α) : List α := xs.foldr (insertBy le) []

/-- Keys in strictly rising order. -/
def Tab.sorted {α : Type} : Tab α → Bool
  | [] => true
  | [_] => true
  | a :: b :: t => a.1 < b.1 && Tab.sorted (b :: t)

/-! ### Registers -/

/-- The value of register storage at a BAR0 offset: the listed value, else the reset value of its table. -/
def regGet (rs : List (Nat × Word)) (a : Nat) : Word := Tab.getD rs a (regReset a)

/-- Register storage with the value at an offset set; a value equal to the reset value is not listed. -/
def regPut (rs : List (Nat × Word)) (a : Nat) (v : Word) : List (Nat × Word) :=
  if v = regReset a then Tab.erase rs a else Tab.set rs a v

/-- The canonical form of register storage: offsets rising, no entry equal to the reset value. -/
def regsWf (rs : List (Nat × Word)) : Bool := Tab.sorted rs && rs.all (fun p => p.2 != regReset p.1)

/-- The stored value of the register at a BAR0 offset. -/
def State.getReg (s : State) (a : Nat) : Word := regGet s.regs a

/-- The state with the stored value of the register at a BAR0 offset set. -/
def State.setReg (s : State) (a : Nat) (v : Word) : State := { s with regs := regPut s.regs a v }

/-- A field of a register word. -/
def Fld.get (f : Fld) (w : Word) : Nat := bits w.toNat f.lo f.len

/-- A register word with a field set, the value reduced to the field's width. -/
def Fld.put (f : Fld) (w : Word) (v : Nat) : Word :=
  let m : Nat := (2 ^ f.len - 1) <<< f.lo
  BitVec.ofNat 32 ((w.toNat &&& (0xFFFFFFFF ^^^ m)) ||| ((v % 2 ^ f.len) <<< f.lo))

/-- Field `f` of instance `i` of register `r`. -/
def State.fld (s : State) (r : Reg) (i : Nat) (f : Fld) : Nat := f.get (s.getReg (r.at i))

/-- The state with field `f` of instance `i` of register `r` set. -/
def State.setFld (s : State) (r : Reg) (i : Nat) (f : Fld) (v : Nat) : State :=
  s.setReg (r.at i) (f.put (s.getReg (r.at i)) v)

/-- The state with a counting field raised by `n`, saturating at its width. -/
def State.bump (s : State) (r : Reg) (i : Nat) (f : Fld) (n : Nat := 1) : State :=
  s.setFld r i f (min (s.fld r i f + n) (2 ^ f.len - 1))

/-- The state with a counting field raised by one, wrapping at its width. -/
def State.bumpWrap (s : State) (r : Reg) (i : Nat) (f : Fld) : State :=
  s.setFld r i f (s.fld r i f + 1)

/-- The state with the two halves of a 64-bit register pair set. -/
def State.setReg64 (s : State) (lo hi : Nat) (v : Nat) : State :=
  (s.setReg lo (BitVec.ofNat 32 v)).setReg hi (BitVec.ofNat 32 (v / 2 ^ 32))

/-- The 64-bit value of a register pair. -/
def State.reg64 (s : State) (lo hi : Nat) : Nat := (s.getReg lo).toNat + 2 ^ 32 * (s.getReg hi).toNat

/-! ### Memories -/

/-- The byte of a memory at an address; an unlisted byte is 0 (log entry 10). -/
def memGet (m : List Host.Cell) (a : Nat) : Byte := Tab.getD m a 0

/-- A memory with one byte written; a byte that becomes 0 is not listed. -/
def memPut (m : List Host.Cell) (a : Nat) (b : Byte) : List Host.Cell :=
  if b = 0 then Tab.erase m a else Tab.set m a b

/-- The canonical form of a memory: addresses rising, no zero byte listed. -/
def Memory.wf (m : List Host.Cell) : Bool := Tab.sorted m && m.all (fun p => p.2 != 0)

/-- `n` bytes of a memory from an address. -/
def memRead (m : List Host.Cell) (a : Nat) : Nat → List Byte
  | 0 => []
  | n + 1 => memGet m a :: memRead m (a + 1) n

/-- A memory with bytes written from an address. -/
def memWrite (m : List Host.Cell) (a : Nat) : List Byte → List Host.Cell
  | [] => m
  | b :: bs => memWrite (memPut m a b) (a + 1) bs

/-! ### Outputs, draws and time -/

/-- The state after something goes outside the device (log entry 7). -/
def State.emit (s : State) (o : Out) : State := { s with out := s.out ++ [o] }

/-- A fresh free value from `f`, and the state with the draw counted (log entries 3 to 6). -/
def State.draw {α : Type} (s : State) (f : Nat → α) : α × State := (f s.draws, { s with draws := s.draws + 1 })

/-- Device time after one tick of the AON domain (R14): 1/32,768 s is 1,953,125/64 ns. -/
def State.aonTick (s : State) : State :=
  { s with devNs := (s.devNs + (s.devFrac + 1953125) / 64) % 2 ^ 64, devFrac := (s.devFrac + 1953125) % 64 }

/-! ### Units present (R4 to R7) -/

/-- Whether the peer link unit is present. -/
def State.hasPL (s : State) : Bool := s.variant != .fb

/-- Whether the climate unit is present. -/
def State.hasCL (s : State) : Bool := s.variant != .fc

/-- Whether the ebb store interface is present. -/
def State.hasEB (s : State) : Bool := s.variant != .la

/-- The highest m of the coding engine (R114). -/
def State.maxM (s : State) : Nat := if s.variant = .la then 2 else 4

/-- The drive slots that exist (R27). -/
def State.slotCount (s : State) : Nat := if s.variant = .ha then 512 else 1024

/-! ### Events -/

/-- INSTANCE of an event that names no object (R603). -/
def noInst : Nat := 0xFFFFFFFF

/-- Bucket size of a severity: EV_RATE_s.BURST, 0 acting as 1 (R606). -/
def State.burst (s : State) (sev : Nat) : Nat := max 1 (s.fld EV_RATE sev EV_RATE_BURST)

/-- Tokens of a code of a severity; an unlisted bucket is full. -/
def State.tokens (s : State) (code sev : Nat) : Nat := min (Tab.getD s.ev.tokens code (s.burst sev)) (s.burst sev)

/-- An event lost under R609: counted in EV_LOST and in LOST of the next record. -/
def State.evLose (s : State) : State :=
  let s := s.bump EV_LOST 0 EV_LOST_COUNT
  { s with ev := { s.ev with lostNow := min (s.ev.lostNow + 1) 0xFFFFFFFF } }

/-- An event enters the 64-entry intake FIFO, or is lost (R609). -/
def State.evIntake (s : State) (e : RaisedEvent) : State :=
  if s.ev.resetting ∨ s.ev.fifo.length ≥ 64 then s.evLose
  else { s with ev := { s.ev with fifo := s.ev.fifo ++ [e] } }

/-- A unit raises an event: the rate limit of R606 to R608, then the intake of R609. -/
def State.raiseEvent (s : State) (e : RaisedEvent) : State :=
  if e.sev ≥ 7 then s.evIntake e
  else if s.ev.resetting then s.evLose
  else if s.tokens e.code e.sev = 0 then
    let s := s.bump EV_SUPPRESSED 0 EV_SUPPRESSED_COUNT
    { s with ev := { s.ev with
        suppressed := Tab.set s.ev.suppressed e.code (min (Tab.getD s.ev.suppressed e.code 0 + 1) 0xFFFFFFFF) } }
  else
    let n := s.tokens e.code e.sev - 1
    evIntake { s with ev := { s.ev with tokens := Tab.set s.ev.tokens e.code n } } e

/-- Raise the event of a code, severity, INSTANCE and DETAIL now. -/
def State.raise (s : State) (code sev inst : Nat) (detail : List Byte := []) : State :=
  s.raiseEvent ⟨code, sev, inst, padTo 28 detail, s.devNs⟩

/-- An operation done for each element of a list, in order. -/
def State.each {α : Type} (s : State) (xs : List α) (f : α → State → State) : State :=
  List.foldl (fun (t : State) (x : α) => f x t) s xs

end Sys2Proof.Machine
end

