-- ==== Sys2Proof/Machine/Flags.lean ====
section
/-! DEFINITION. Status codes (R383), the FLAGS bits of a completion (R336, R365), and the margins and shortfalls that
status bits are computed from. -/

namespace Sys2Proof.Machine

open Sys2Proof

def stSuccess : Nat := 0x0000
def stPartial : Nat := 0x0001
def stMalformed : Nat := 0x0101
def stMalformedLength : Nat := 0x0102
def stBadOpcode : Nat := 0x0103
def stBadLocator : Nat := 0x0104
def stBadDescriptor : Nat := 0x0105
def stAccessDenied : Nat := 0x0201
def stNoSession : Nat := 0x0202
def stSessionRefused : Nat := 0x0203
def stHostAccessError : Nat := 0x0204
def stUnitAbsent : Nat := 0x0301
def stDomainOff : Nat := 0x0302
def stNoTableSpace : Nat := 0x0303
def stNoSetIndex : Nat := 0x0304
def stQuotaExceeded : Nat := 0x0305
def stNoSpill : Nat := 0x0306
def stNoQueue : Nat := 0x0307
def stQueueInUse : Nat := 0x0308
def stReleaseFull : Nat := 0x0309
def stNoRoom : Nat := 0x030A
def stExtentLost : Nat := 0x0401
def stHashMismatch : Nat := 0x0402
def stExtentReleased : Nat := 0x0403
def stTagMismatch : Nat := 0x0404
def stPoolOffline : Nat := 0x0501
def stNoWritableSet : Nat := 0x0502
def stPoolExists : Nat := 0x0503
def stPoolState : Nat := 0x0504
def stScarfCapacity : Nat := 0x0505
def stDriveState : Nat := 0x0506
def stBrokenHold : Nat := 0x0507
def stNoSillDrives : Nat := 0x0508
def stPoolNotEmpty : Nat := 0x0509
def stMarginExceeded : Nat := 0x050A
def stWakeTimeout : Nat := 0x0601
def stMembersUnreachable : Nat := 0x0602
def stDriveAbsent : Nat := 0x0603
def stDriveError : Nat := 0x0604
def stModeRollback : Nat := 0x0701
def stNotPaired : Nat := 0x0702
def stStageInvalid : Nat := 0x0703
def stInternalFault : Nat := 0x0704

/-- DRIVE_DURABLE of a completion's FLAGS (R336). -/
def flDriveDurable : Nat := 1
/-- PENDING of a completion's FLAGS. -/
def flPending : Nat := 2
/-- CHUNK_HASH_ONLY of a completion's FLAGS (R224). -/
def flChunkHashOnly : Nat := 4
/-- SPILLED of a completion's FLAGS (R336). -/
def flSpilled : Nat := 8
/-- RECONSTRUCTED of a READ's completion (R365). -/
def flReconstructed : Nat := 16
/-- WOKEN of a READ's completion (R365). -/
def flWoken : Nat := 32

/-- Severity of an event code under R620; a GENERAL code, or one the table does not name, has 3. -/
def codeSev (code : Nat) : Nat :=
  let table : List (Nat × Nat) :=
    [(0x001, 1), (0x002, 4), (0x003, 2), (0x004, 5), (0x005, 6), (0x006, 5), (0x101, 4), (0x102, 2), (0x103, 3),
     (0x104, 4), (0x105, 6), (0x201, 4), (0x202, 6), (0x203, 4), (0x204, 5), (0x205, 2), (0x301, 4), (0x302, 6)] ++
    [(0x303, 3), (0x401, 2), (0x402, 3), (0x501, 4), (0x502, 5), (0x503, 4), (0x504, 5), (0x505, 3), (0x506, 4),
     (0x507, 4), (0x508, 7), (0x601, 7), (0x602, 7), (0x603, 6), (0x604, 3), (0x605, 5), (0x606, 6), (0x607, 4)] ++
    [(0x608, 5), (0x609, 5), (0x701, 5), (0x702, 6), (0x801, 6), (0x802, 3), (0x803, 5), (0x804, 5), (0x901, 4),
     (0x902, 5), (0x903, 6), (0xA01, 4), (0xB01, 4), (0xB02, 5), (0xB03, 6), (0xB04, 5), (0xB05, 5), (0xB06, 4)] ++
    [(0xB07, 3), (0xB08, 4), (0xB09, 4), (0xB0A, 6), (0xC01, 5), (0xD01, 6), (0xD02, 6), (0xD03, 6), (0xE01, 4),
     (0xE02, 5), (0xE03, 6)]
  Tab.getD table code 3

end Sys2Proof.Machine
end

