-- ==== Sys2Proof/Machine/RegOps.lean ====
section
/-! DEFINITION. Who may write a register: the protection table (R304, R498), owner sessions (R499), the units and power
domains behind the register map (R33 to R36), and the access types of chapter 00. -/

namespace Sys2Proof.Machine

open Sys2Proof

/-- Port and entry of a function index x = port × 65 + entry (R309). -/
def fnPort (x : Nat) : Nat := x / 65
/-- Entry of a function index. -/
def fnEntry (x : Nat) : Nat := x % 65

/-- Whether the split strap of a port was high at COLD reset. -/
def State.split (s : State) (port : Nat) : Bool := s.fld QM_PORT port QM_PORT_SPLIT = 1

/-- The default protection entry of a function (R498). -/
def State.protDefault (s : State) (x : Nat) : ProtEntry :=
  if fnEntry x = 0 then ⟨256, 0xF, 0⟩
  else if fnEntry x = 1 ∨ (fnEntry x = 33 ∧ s.split (fnPort x)) then ⟨16384, 0, BitVec.allOnes 256⟩
  else ⟨64, 0, 0⟩

/-- The protection entry of a function in force. -/
def State.prot (s : State) (x : Nat) : ProtEntry := Tab.getD s.sec.table x (s.protDefault x)

/-- Rights of POOL_RIGHTS (R304). -/
inductive Right where
  | read | append | release | copyForward
  deriving DecidableEq, Repr

/-- The bit of a right within a pool's four. -/
def Right.bit : Right → Nat
  | .read => 0 | .append => 1 | .release => 2 | .copyForward => 3

/-- Whether a function holds a right on a pool (R304, R357). -/
def State.hasRight (s : State) (x pool : Nat) (r : Right) : Bool := (s.prot x).rights.getLsbD (4 * pool + r.bit)

/-- Whether a function is the management function that holds the owner session (R499). -/
def State.hasSession (s : State) (x : Nat) : Bool :=
  match s.sec.session with
  | some o => x = o.port * 65
  | none => false

/-- Bit `b` of a function's ADMIN (R493). -/
def State.admin (s : State) (x b : Nat) : Bool := bit (s.prot x).admin b

/-! ### Power domains behind the map -/

/-- Whether the unit that owns a BAR0 offset is absent from the variant (R5): PL, CL, EB, and slots of absent dies. -/
def State.absentAt (s : State) (a : Nat) : Bool :=
  (0x700000 ≤ a && a < 0x780000 && !s.hasCL) || (0x780000 ≤ a && a < 0x800000 && !s.hasEB) ||
  (0x800000 ≤ a && a < 0x1000000 && !s.hasPL) ||
  (s.variant = .ha && ((0x1000000 + 512 * 0x1000 ≤ a && a < 0x1400000) || (0x1420000 ≤ a && a < 0x1440000) ||
    (0x210000 + 512 * 0x10 ≤ a && a < 0x214000)))

/-- The power domain whose gating hides the registers at a BAR0 offset (R33, R34, R115, R657), by its index of R536;
`none` for PW, DEV and EV and for offsets outside every unit. -/
def domainAt (a : Nat) : Option Nat :=
  if a < 0x20000 then none
  else if a < 0x40000 then some 188
  else if a < 0x100000 then none
  else if a < 0x300000 then some 190
  else if a < 0x340000 then some 151
  else if a < 0x400000 then some 159
  else if a < 0x440000 then some (135 + (a - 0x400000) / 0x4000)
  else if a < 0x500000 then some 190
  else if a < 0x600000 then some 183
  else if a < 0x700000 then some 184
  else if a < 0x780000 then some 185
  else if a < 0x800000 then some 186
  else if a < 0x1000000 then some 134
  else if a < 0x1400000 then some (128 + (a - 0x1000000) / 0x100000)
  else if a < 0x1440000 then some (128 + (a - 0x1400000) / 0x10000)
  else if a < 0x2000000 then none
  else some 190

/-- The state of a power domain (R536): 0 ON, 1 DRAIN, 2 OFF, 3 ABSENT. -/
def State.domain (s : State) (d : Nat) : Nat :=
  if (d = 134 && !s.hasPL) || (d = 185 && !s.hasCL) || (d = 186 && !s.hasEB) ||
      (s.variant = .ha && ((64 ≤ d && d < 128) || d = 130 || d = 131)) then 3
  else Tab.getD s.pw.doms d 0

/-- The state with a power domain set to ON, DRAIN or OFF. -/
def State.setDomain (s : State) (d v : Nat) : State :=
  { s with pw := { s.pw with doms := if v = 0 then Tab.erase s.pw.doms d else Tab.set s.pw.doms d v } }

/-- Whether the registers at an offset are hidden because a present unit's domain is gated (R33). -/
def State.gatedAt (s : State) (a : Nat) : Bool :=
  match domainAt a with
  | some d => s.domain d = 2
  | none => false

/-- Whether the device is running in a state in which its units act on events from outside: powered, out of reset, with its firmware
ready. -/
def State.up (s : State) : Bool :=
  s.boot.fwReady && (match s.pw.power with
    | .run | .harbourPrep | .harbourExit | .warmPrep => true
    | _ => false)

/-- An event of the memory controller or the mover, which also run in EBB (R535, R597). -/
def State.whenMemory (s : State) (act : State → State) : State := if s.up || s.pw.power = .ebb then act s else s

/-- An event of a unit by its bit in PW_UNIT_RESET, which acts while the device runs and the unit's UNIT reset has ended (R530). -/
def State.whenUnit (s : State) (u : Nat) (act : State → State) : State :=
  if s.up && !s.pw.unitBusy.contains u then act s else s

/-! ### Events of register access -/

/-- REG_ACCESS (R20, R36): DETAIL carries the offset and 1 for a write. -/
def State.regAccessEvent (s : State) (a : Nat) (isWrite : Bool) : State :=
  s.raise 0x003 2 noInst (leBytes 4 a ++ [if isWrite then 1 else 0])

/-- The event of an access to a gated unit (R33), GENERAL of PW (R620; log entry 11). -/
def State.gatedEvent (s : State) (a : Nat) (isWrite : Bool) : State :=
  s.raise 0x2FF 3 noInst (leBytes 4 a ++ [if isWrite then 1 else 0])

/-- WRITE_REFUSED (R496). -/
def State.writeRefused (s : State) (port a : Nat) : State := s.raise 0x103 3 (port * 65) (leBytes 4 a)

/-- A host write of the register at `a` through the management function of a port, while the device answers its hosts (R486):
ignored in an absent unit (R5), discarded with an event in a gated one (R33) or without REG_WRITE (R496), else `act`. -/
def State.hostWrite (s : State) (port a : Nat) (act : State → State) : State :=
  if !s.up ∨ s.absentAt a then s
  else if s.gatedAt a then s.gatedEvent a true
  else if s.admin (port * 65) 3 || s.hasSession (port * 65) then act s
  else s.writeRefused port a

/-! ### Access types -/

/-- The word after a host write of `v` by the access types of a register's fields: RW is set, RW1C cleared by 1, RW1S
set by 1; RO, RC, WO and reserved bits keep their value (R24, R25). RWO is set when `first`. -/
def writeFields (fs : List Fld) (first : Bool) (old v : Word) : Word :=
  fs.foldl (fun w f =>
    match f.acc with
    | .rw => f.put w (f.get v)
    | .rw1c => f.put w (f.get w &&& ((2 ^ f.len - 1) ^^^ f.get v))
    | .rw1s => f.put w (f.get w ||| f.get v)
    | .rwo => if first then f.put w (f.get v) else w
    | .ro => w
    | .wo => w
    | .rc => w) old

/-- The state after a host write of `v` sets the fields of the register at `a` by their access types. -/
def State.writeByType (s : State) (a : Nat) (v : Word) : State :=
  match regLookup a with
  | some (r, _, _) => s.setReg a (writeFields r.fields (!(Tab.keys s.regs).contains a) (s.getReg a) v)
  | none => s

/-- A field of the written word. -/
def Fld.of (f : Fld) (v : Word) : Nat := f.get v

end Sys2Proof.Machine
end

