-- ==== Sys2Proof/Machine/Queues.lean ====
section
/-! DEFINITION. Shared operations of the queue manager (chapter 10): functions and vectors, completions and the spill
list, MSI-X and coalescing, the breakwater, the consumption of entries, and the ends that other completions release. -/

namespace Sys2Proof.Machine

open Sys2Proof

/-! ### Functions -/

/-- A function no link has brought up, with every vector masked and the event of R41 armed. -/
def Fn.blank : Fn :=
  { present := false, bme := false, inReset := false, strayArmed := true, ctlq := 0, sqBase := 0, cqBase := 0,
    sqBaseLow := 0, cqBaseLow := 0, closing := false, msixOn := false, unmasked := [], pendingVec := [] }

/-- The function entry of index x (R309). -/
def State.fn (s : State) (x : Nat) : Fn := Tab.getD s.qm.fns x Fn.blank

/-- The state with a function entry set. -/
def State.setFn (s : State) (x : Nat) (f : Fn) : State := { s with qm := { s.qm with fns := Tab.set s.qm.fns x f } }

/-- One more in a function's error counter QM_FN_x_ERR. -/
def State.fnError (s : State) (x : Nat) : State := s.bump QM_FN_ERR x QM_FN_ERR_COUNT

/-- The MSI-X table size of a function: the image's, else the defaults of R312. -/
def State.vectorsOf (s : State) (x : Nat) : Nat :=
  let d := if fnEntry x = 0 then 32 else if fnEntry x = 1 ∨ fnEntry x = 33 then 512 else 16
  match s.boot.image with
  | some i => Tab.getD i.vectors x d
  | none => d

/-- An MSI-X message of a function (R341): sent, or held pending while the vector is masked; none while MSI-X is disabled
or the vector is outside the table. -/
def State.sendMsix (s : State) (x v : Nat) : State :=
  let f := s.fn x
  if !f.msixOn || v ≥ s.vectorsOf x then s
  else if f.unmasked.contains v then s.emit (.msix x v)
  else s.setFn x { f with pendingVec := if f.pendingVec.contains v then f.pendingVec else f.pendingVec ++ [v] }

/-! ### Queues -/

/-- The queue context of a device queue number. -/
def State.dq (s : State) (q : Nat) : Option DevQueue := Tab.get? s.qm.queues q

/-- The device queue number bound to a local number of a function. -/
def State.dqNum (s : State) (x loc : Nat) : Option Nat :=
  (s.qm.queues.find? (fun p => p.2.x = x && p.2.loc = loc)).map (·.1)

/-- The submission queue of a device queue number. -/
def State.sq? (s : State) (q : Nat) : Option Sq := (s.dq q).bind (·.sq)

/-- The completion queue of a device queue number. -/
def State.cq? (s : State) (q : Nat) : Option Cq := (s.dq q).bind (·.cq)

/-- The state with the contexts changed at a device queue number. -/
def State.modDq (s : State) (q : Nat) (f : DevQueue → DevQueue) : State :=
  { s with qm := { s.qm with queues := Tab.modify s.qm.queues q f } }

/-- The state with a submission queue changed. -/
def State.modSq (s : State) (q : Nat) (f : Sq → Sq) : State := s.modDq q (fun d => { d with sq := d.sq.map f })

/-- The state with a completion queue changed. -/
def State.modCq (s : State) (q : Nat) (f : Cq → Cq) : State := s.modDq q (fun d => { d with cq := d.cq.map f })

/-- Device queue numbers held by a function. -/
def State.queuesHeld (s : State) (x : Nat) : Nat := s.qm.queues.countP (fun p => p.2.x = x)

/-- The lowest number not a key of a table in rising order. -/
def Tab.firstFree {α : Type} (t : Tab α) : Nat := t.foldl (fun n p => if p.1 = n then n + 1 else n) 0

/-- Ring size of a submission queue. -/
def Sq.size (c : Sq) : Nat := 2 ^ c.log2

/-- Ring size of a completion queue. -/
def Cq.size (c : Cq) : Nat := 2 ^ c.log2

/-- Q of the breakwater: Pc − H. -/
def Cq.inRing (c : Cq) : Nat := idxSub c.pc c.h

/-- O + Q + S of a completion queue (R342). -/
def Cq.load (c : Cq) : Nat := c.outstanding + c.inRing + c.spill.length

/-- Spill entries reserved by every completion queue (R343). -/
def State.spillReserved (s : State) : Nat :=
  (s.qm.queues.map (fun p => match p.2.cq with | some c => c.spillLimit | none => 0)).sum

/-- Spill entries in use. -/
def State.spillUsed (s : State) : Nat :=
  (s.qm.queues.map (fun p => match p.2.cq with | some c => c.spill.length | none => 0)).sum

/-- A device queue number with neither queue is free again (R315). -/
def State.unbindIfEmpty (s : State) (q : Nat) : State :=
  match s.dq q with
  | some d =>
    if d.sq.isNone && d.cq.isNone then { s with qm := { s.qm with queues := Tab.erase s.qm.queues q } } else s
  | none => s

/-! ### Completions -/

/-- The 32 bytes of a completion entry (R336) with its phase. -/
def CompEntry.bytes (e : CompEntry) (phase : Nat) : List Byte :=
  padTo 16 e.result ++ leBytes 4 e.cid ++ leBytes 2 e.status ++ leBytes 2 e.sq ++ leBytes 4 e.sqHead.toNat ++
    leBytes 2 e.detail ++ leBytes 1 e.flags ++ leBytes 1 phase

/-- PHASE of the completion written at index `j` of a ring of `2^log2` entries (R337). -/
def phaseAt (log2 : Nat) (j : Word) : Nat := (j.toNat / 2 ^ log2 + 1) % 2

/-- The MSI-X message of a completion queue, when it has a vector; it covers every entry written so far (R340). -/
def State.cqSignal (s : State) (q : Nat) : State :=
  match s.dq q with
  | some d =>
    match d.cq with
    | some c =>
      match c.vector with
      | some v => (s.modCq q (fun c => { c with unsignalled := 0 })).sendMsix d.x v
      | none => s
    | none => s
  | none => s

/-- Write a completion into the ring at Pc (R336, R337) and signal it by R340. -/
def State.cqWrite (s : State) (q : Nat) (e : CompEntry) : State :=
  match s.dq q with
  | some d =>
    match d.cq with
    | some c =>
      let s := s.emit (.completion d.x d.loc c.pc (e.bytes (phaseAt c.log2 c.pc)))
      let s := s.modCq q (fun c => { c with pc := c.pc + 1, unsignalled := c.unsignalled + 1 })
      if c.coalUs = 0 || c.unsignalled + 1 ≥ c.coalCount then s.cqSignal q else s
    | none => s
  | none => s

/-- A completion of queue `q`: into the ring when the spill list is empty and the ring has room, else at the tail of the
spill list (R339). -/
def State.cqPost (s : State) (q : Nat) (e : CompEntry) : State :=
  match s.cq? q with
  | some c =>
    if c.spill.isEmpty && c.inRing < c.size then s.cqWrite q e
    else s.modCq q (fun c => { c with spill := c.spill ++ [{ e with flags := e.flags ||| flSpilled }] })
  | none => s

/-- Move spill entries, oldest first, into freed slots (R339). -/
def State.cqRefill : Nat → State → Nat → State
  | 0, s, _ => s
  | n + 1, s, q =>
    match s.cq? q with
    | some c =>
      match c.spill with
      | e :: es =>
        if c.inRing < c.size then
          State.cqRefill n ((s.modCq q (fun c => { c with spill := es })).cqWrite q e) q
        else s
      | [] => s
    | none => s

/-- The breakwater opens when O + Q + S is at most size + floor(L ÷ 2) (R344). -/
def State.breakwaterOpen (s : State) (q : Nat) : State :=
  s.modCq q (fun c => if c.load ≤ c.size + c.spillLimit / 2 then { c with closed := false } else c)

/-- The breakwater closes, with its event, when O + Q + S reaches size + L (R344). -/
def State.breakwaterClose (s : State) (q : Nat) : State :=
  match s.dq q with
  | some d =>
    match d.cq with
    | some c =>
      if !c.closed && c.load ≥ c.size + c.spillLimit then
        (s.modCq q (fun c => { c with closed := true })).raise 0x402 3 d.x (leBytes 2 q ++ leBytes 2 d.loc)
      else s
    | none => s
  | none => s

/-! ### Consumed commands -/

/-- The record of a consumed command. -/
def State.cmd? (s : State) (id : Nat) : Option Cmd := Tab.get? s.qm.cmds id

/-- The state with a command's record set. -/
def State.setCmd (s : State) (id : Nat) (c : Cmd) : State :=
  { s with qm := { s.qm with cmds := Tab.set s.qm.cmds id c } }

/-- The state with what a command is doing set. -/
def State.setBody (s : State) (id : Nat) (b : CmdBody) : State :=
  { s with qm := { s.qm with cmds := Tab.modify s.qm.cmds id (fun c => { c with body := b }) } }

/-- Remove a command and write its completion, unless its function was reset (R345). -/
def State.completeRaw (s : State) (id : Nat) (status : Nat) (result : List Byte) (detail flags : Nat) : State :=
  match s.cmd? id with
  | some c =>
    let s := { s with qm := { s.qm with cmds := Tab.erase s.qm.cmds id } }
    if c.silent then s
    else
      let s := s.modCq c.cq (fun k => { k with outstanding := k.outstanding - 1 })
      s.cqPost c.cq { op := c.op, result := padTo 16 result, cid := c.cid, status := status, sq := c.loc, sqHead := c.head,
                      detail := detail % 65536, flags := flags }
  | none => s

/-- Whether a command consumed from device queue `q` is outstanding. -/
def State.cmdsFrom (s : State) (q : Nat) : Bool := s.qm.cmds.any (fun p => p.2.dq = q && !p.2.silent)

/-- The end a waiting command has reached: its id, the queue it deletes, and its result. -/
def State.settled (s : State) : Option (Nat × Option Nat × List Byte) :=
  s.qm.cmds.findSome? (fun p =>
    match p.2.body with
    | .queueDelete q => if s.cmdsFrom q then none else some (p.1, some q, [])
    | .protectSet e older =>
      if older.any (fun i => (s.cmd? i).isSome) then none else some (p.1, none, leBytes 8 e)
    | _ => none)

/-- Delete the submission queue of a device queue number. -/
def State.dropSq (s : State) (q : Nat) : State := (s.modDq q (fun d => { d with sq := none })).unbindIfEmpty q

/-- Delete the completion queue of a device queue number; its spill entries are released (R343). -/
def State.dropCq (s : State) (q : Nat) : State := (s.modDq q (fun d => { d with cq := none })).unbindIfEmpty q

/-- Control queues whose deletion waited for their commands (R321). -/
def State.settleCtlq (s : State) : State :=
  s.each (Tab.keys s.qm.fns) (fun x s =>
    let f := s.fn x
    match f.closing, s.dqNum x 0 with
    | true, some q => if s.cmdsFrom q then s else ((s.dropSq q).dropCq q).setFn x { f with closing := false }
    | _, _ => s)

/-- Complete the commands that waited for others: QUEUE_DELETE (R320) and PROTECT_SET (R505). -/
def State.settle : Nat → State → State
  | 0, s => s
  | n + 1, s =>
    match s.settled with
    | some (id, q, result) =>
      let s : State := match q with
        | some k => s.dropSq k
        | none => s
      State.settle n (s.completeRaw id stSuccess result 0 0)
    | none => s

/-- Complete a command (R336), and whatever waited for it. -/
def State.complete (s : State) (id : Nat) (status : Nat) (result : List Byte := []) (detail : Nat := 0)
    (flags : Nat := 0) : State :=
  let s := s.completeRaw id status result detail flags
  (State.settle s.qm.cmds.length s).settleCtlq

/-- Whether fetching from a submission queue has stopped for its deletion (R320, R321). -/
def State.sqStopped (s : State) (q : Nat) : Bool :=
  s.qm.cmds.any (fun p => p.2.body = .queueDelete q) ||
    (match s.dq q with
     | some d => d.loc = 0 && (s.fn d.x).closing
     | none => false)

/-- Whether the device consumes entries: it is in RUN or SLACK with its firmware ready (R486, R523, R532). -/
def State.consumes (s : State) : Bool :=
  s.boot.fwReady && (s.pw.power = .run || s.pw.power = .harbourExit)

/-- Whether the function of a submission queue has Bus Master Enable set and is not in reset (R334), and the device consumes. -/
def State.sqRuns (s : State) (q : Nat) : Bool :=
  s.consumes && (match s.dq q with
    | some d => (s.fn d.x).bme && !(s.fn d.x).inReset
    | none => false)

/-- Commands consumed and not completed (R332): copies of a COPY_FORWARD do not count beside it. -/
def State.inflight (s : State) : Nat :=
  s.qm.cmds.countP (fun p =>
    match p.2.body with
    | .append a => a.parent.isNone
    | _ => true)

/-- Whether one entry of a submission queue may be consumed: its function may fetch (R334), in flight below the limit of R332, and O + Q + S below
size + L with the breakwater open (R342, R344). -/
def State.canConsume (s : State) (q : Nat) : Bool :=
  match s.sq? q with
  | some a =>
    match s.cq? a.cq with
    | some c => s.sqRuns q && !s.sqStopped q && !c.closed && c.load < c.size + c.spillLimit && s.inflight < 1048576
    | none => false
  | none => false

/-- Erase the slots read ahead at `n` indices from `i`. -/
def eraseSlots : Nat → Word → Tab (List Byte) → Tab (List Byte)
  | 0, _, t => t
  | n + 1, i, t => eraseSlots n (i + 1) (Tab.erase t i.toNat)

/-- Consume `n` slots of a submission queue (R331): C moves on, a completion place is reserved, and the command's record
is made. A consumption beyond A takes the announced tail along. -/
def State.consume (s : State) (q n cid op : Nat) : Nat × State :=
  match s.dq q, s.sq? q with
  | some d, some a =>
    let id := s.qm.nextCmd
    let head := a.c + BitVec.ofNat 32 n
    let tail := if idxSub a.a a.c < n then head else a.a
    let s := s.modSq q (fun a => { a with c := head, a := tail, slots := eraseSlots n a.c a.slots })
    let s := s.modCq a.cq (fun c => { c with outstanding := c.outstanding + 1 })
    let s := s.setCmd id { x := d.x, loc := d.loc, dq := q, cq := a.cq, cid := cid, head := head, op := op,
                           silent := false, body := .running }
    let s := { s with qm := { s.qm with nextCmd := id + 1 } }
    (id, s.breakwaterClose a.cq)
  | _, _ => (s.qm.nextCmd, s)

end Sys2Proof.Machine
end

