-- ==== Sys2Proof/Machine/Stripes.lean ====
section
/-! DEFINITION. Shared operations of the stripe engine over pools, drives, sets, bands and stripes (chapters 02, 04, 05):
sizes, positions, readability, choices of sets and bands, locators, window use, deltas and journal records. -/

namespace Sys2Proof.Machine

open Sys2Proof

/-! ### Sizes (R43, R46, R47, R76) -/

/-- The table budget of the device (R77). -/
def tableBudget : Nat := 304 * 2 ^ 30

/-! ### Tables of the unit -/

/-- The key of a logical stripe of a pool. -/
def stripeKey (pool stripe : Nat) : Nat := pool * 2 ^ 40 + stripe

/-- The pool of a stripe key. -/
def keyPool (k : Nat) : Nat := k / 2 ^ 40

/-- The logical stripe of a stripe key. -/
def keyStripe (k : Nat) : Nat := k % 2 ^ 40

/-- The key of a band of a drive. -/
def bandKey (slot band : Nat) : Nat := slot * 2 ^ 32 + band

/-- The pool of an identifier. -/
def State.pool? (s : State) (p : Nat) : Option Pool := Tab.get? s.se.pools p

/-- The state with a pool set. -/
def State.setPool (s : State) (p : Nat) (x : Pool) : State :=
  { s with se := { s.se with pools := Tab.set s.se.pools p x } }

/-- The state with a pool changed. -/
def State.modPool (s : State) (p : Nat) (f : Pool → Pool) : State :=
  { s with se := { s.se with pools := Tab.modify s.se.pools p f } }

/-- State of a pool; NONE when there is none. -/
def State.poolState (s : State) (p : Nat) : PoolState :=
  match s.pool? p with
  | some x => x.state
  | none => .none

/-- Whether a pool is ONLINE or DEGRADED. -/
def State.poolUp (s : State) (p : Nat) : Bool := s.poolState p = .online || s.poolState p = .degraded

/-- The stripe of a number; a number without an entry is FREE. -/
def State.stripe? (s : State) (p n : Nat) : Option Stripe := Tab.get? s.se.stripes (stripeKey p n)

/-- The state with a stripe set. -/
def State.setStripe (s : State) (p n : Nat) (x : Stripe) : State :=
  { s with se := { s.se with stripes := Tab.set s.se.stripes (stripeKey p n) x } }

/-- The state with a stripe changed. -/
def State.modStripe (s : State) (p n : Nat) (f : Stripe → Stripe) : State :=
  { s with se := { s.se with stripes := Tab.modify s.se.stripes (stripeKey p n) f } }

/-- The set of an index. -/
def State.set? (s : State) (i : Nat) : Option SetRec := Tab.get? s.se.sets i

/-- The state with a set changed. -/
def State.modSet (s : State) (i : Nat) (f : SetRec → SetRec) : State :=
  { s with se := { s.se with sets := Tab.modify s.se.sets i f } }

/-- The drive of a slot, as last found there. -/
def State.drive? (s : State) (n : Nat) : Option Drive := Tab.get? s.se.drives n

/-- The state with a drive changed. -/
def State.modDrive (s : State) (n : Nat) (f : Drive → Drive) : State :=
  { s with se := { s.se with drives := Tab.modify s.se.drives n f } }

/-- The link state of a slot. -/
def State.slot? (s : State) (n : Nat) : Option Slot := Tab.get? s.dl.slots n

/-- The state with a slot changed. -/
def State.modSlot (s : State) (n : Nat) (f : Slot → Slot) : State :=
  { s with dl := { s.dl with slots := Tab.modify s.dl.slots n f } }

/-- Stripes of a pool with their numbers. -/
def State.stripesOf (s : State) (p : Nat) : List (Nat × Stripe) :=
  (s.se.stripes.filter (fun e => keyPool e.1 = p)).map (fun e => (keyStripe e.1, e.2))

/-- Sets of a pool with their indices. -/
def State.setsOf (s : State) (p : Nat) : List (Nat × SetRec) :=
  s.se.sets.filter (fun e => e.2.pool = p && e.2.state != .unused)

/-- Pools this device owns: every pool it holds but PARTNER ones. -/
def State.ownedPools (s : State) : List Nat :=
  (s.se.pools.filter (fun e => e.2.state != .partner && e.2.state != .none)).map (·.1)

/-! ### Slots and groups -/

/-- The image's entry for a slot. -/
def State.slotCfg (s : State) (n : Nat) : Option SlotCfg := s.boot.image.bind (fun i => Tab.get? i.slots n)

/-- The enclosure of a slot: its chain number by default. -/
def State.enclosure (s : State) (n : Nat) : Nat :=
  match s.slotCfg n with
  | some c => c.enclosure
  | none => n / 32

/-- The failure group of a slot: its enclosure by default. -/
def State.failGroup (s : State) (n : Nat) : Nat :=
  match s.slotCfg n with
  | some c => c.failureGroup
  | none => s.enclosure n

/-- The wake group of a slot: one slot of each enclosure by default. -/
def State.wakeGroup (s : State) (n : Nat) : Nat :=
  match s.slotCfg n with
  | some c => c.wakeGroup
  | none => n % 32

/-- Whether a power condition is awake (R399). -/
def Cond.awake (c : Cond) : Bool := c = .idle || c = .active

/-- Whether the drive of a slot is awake (R201, R399, R402). -/
def State.awake (s : State) (n : Nat) : Bool :=
  match s.slot? n with
  | some x => x.linkUp && (x.cond.awake || (x.flash && x.cond != .off))
  | none => false

/-! ### Drives and bands -/

/-- State and set of a band; unlisted bands are FREE, and bands 0 and last are LABEL (R58). -/
def State.band (s : State) (slot b bandMiB : Nat) : BandState × Nat :=
  match s.drive? slot with
  | some d =>
    if b = 0 ∨ b + 1 ≥ d.info.bands bandMiB then (.label, 0)
    else Tab.getD s.se.bands (bandKey slot b) (.free, 0)
  | none => (.bad, 0)

/-- The state with a band's entry set; a FREE band is not listed. -/
def State.setBand (s : State) (slot b : Nat) (v : BandState) (set : Nat) : State :=
  { s with se := { s.se with bands :=
      if v = .free then Tab.erase s.se.bands (bandKey slot b) else Tab.set s.se.bands (bandKey slot b) (v, set) } }

/-- Whether position `p` of a set is FAILED: its slot holds no serving member of the pool. -/
def State.posFailed (s : State) (x : SetRec) (p : Nat) : Bool :=
  x.failedPos.contains p ||
  match x.members[p]? with
  | some n =>
    match s.drive? n with
    | some d => !d.serves x.pool
    | none => true
  | none => true

/-- Whether position `p` of a set is LINK_DOWN (R206). -/
def State.posDown (s : State) (x : SetRec) (p : Nat) : Bool :=
  match x.members[p]? with
  | some n =>
    match s.drive? n with
    | some d => d.linkDown
    | none => false
  | none => false

/-- The margin of a set (R215). -/
def State.margin (s : State) (x : SetRec) : Nat :=
  x.m - (List.range x.members.length).countP (fun p => s.posFailed x p || s.posDown x p || (x.record p).isSome)

/-- Whether every member of a set that is not FAILED is awake. -/
def State.setAwake (s : State) (x : SetRec) : Bool :=
  (List.range x.members.length).all (fun p => s.posFailed x p || s.awake (x.members.getD p 0))

/-- Band offsets FREE on every member of a set (R61), from `1` below the smallest member's last band. -/
def State.freeBands (s : State) (x : SetRec) (bandMiB : Nat) : List Nat :=
  let n := (x.members.map (fun m =>
    match s.drive? m with
    | some d => d.info.bands bandMiB
    | none => 0)).foldl Nat.min (2 ^ 32)
  (List.range n).filter (fun b => x.members.all (fun m => (s.band m b bandMiB).1 = .free))

/-! ### Stripe positions -/

/-- Set position of data chunk or parity `i` (parities from k) of logical stripe `n` in a set of width `w` (R74). -/
def chunkPos (n i w : Nat) : Nat := (n + i) % w

/-- The chunk index (parities from k) at set position `p` (R74). -/
def posChunk (n p w : Nat) : Nat := (p + w - n % w) % w

/-- Whether the chunk of a stripe at a position is readable without regard to sleep (R201). -/
def State.chunkThere (s : State) (x : SetRec) (t : Stripe) (p : Nat) : Bool :=
  !s.posFailed x p && !s.posDown x p && !x.behind p t.chunkOffset && !t.lost.contains p

/-- Whether the chunk of a stripe at a position is lost (R207): on a FAILED member, behind a cursor, or known bad. -/
def State.chunkLost (s : State) (x : SetRec) (t : Stripe) (p : Nat) : Bool :=
  s.posFailed x p || x.behind p t.chunkOffset || t.lost.contains p

/-- Data chunks an extent spans (R119, R196): first and last. -/
def extentChunks (p : Params) (off len : Nat) : Nat × Nat :=
  let u := chunkPayload p.chunk / 4096
  (off / u, (off * 4096 + len - 1) / chunkPayload p.chunk)

/-! ### Locators (R126, R127) -/

/-- CHECK of the 14 leading bytes of a locator. -/
def locatorCheck (bs : List Byte) : Nat := (crc32c (bs.take 14)).toNat % 65536

/-- The 16 bytes of a locator. -/
def locatorBytes (pool stripe off len : Nat) : List Byte :=
  let h := leBytes 2 pool ++ leBytes 5 stripe ++ leBytes 3 off ++ leBytes 4 len
  h ++ leBytes 2 (locatorCheck h)

/-- The fields of a locator. -/
structure Locator where
  pool : Nat
  stripe : Nat
  off : Nat
  len : Nat
  deriving DecidableEq, Repr

/-- The fields held in locator bytes. -/
def locatorOf (bs : List Byte) : Locator := ⟨leAt bs 0 2, leAt bs 2 5, leAt bs 7 3, leAt bs 10 4⟩

/-- A locator passes R127. -/
def State.locatorOk (s : State) (bs : List Byte) : Bool :=
  let l := locatorOf bs
  leAt bs 14 2 = locatorCheck bs && l.pool ≤ 63 &&
  (match s.pool? l.pool with
   | some x =>
     x.state = .none || x.params.k = 0 || l.off + ceilDiv l.len 4096 ≤ x.limits.dirUnit
   | none => true)

/-! ### Directories -/

/-- The state with a directory entry of a stripe changed. -/
def State.modEntry (s : State) (p n slot : Nat) (f : DirEnt → DirEnt) : State :=
  s.modStripe p n (fun t => { t with dir := t.dir.modify slot f })

/-- Ledger entries in use. -/
def State.ledgerUsed (s : State) : Nat := s.se.stripes.countP (fun e => e.2.inLedger)

/-- Whether a directory is readable now without a wake: in the window, in the directory cache, or from a member (R196,
R366). -/
def State.dirNow (s : State) (p n : Nat) (t : Stripe) : Bool :=
  if t.state = .opened ∨ t.state = .sealed then true
  else if t.dirLost then false
  else if s.se.dirCache.contains (p, n) then true
  else
    match s.set? t.set, s.pool? p with
    | some x, some pl =>
      let w := x.members.length
      let k := (pl.paramsOf t.gen).k
      let there := fun q => s.chunkThere x t q && s.awake (x.members.getD q 0)
      there (chunkPos n (k - 1) w) || (List.range w).countP there ≥ k
    | _, _ => false

/-- A directory enters the cache of 32,768, least recently used first (R196). -/
def State.touchDir (s : State) (p n : Nat) : State :=
  let l := s.se.dirCache.filter (· ≠ (p, n)) ++ [(p, n)]
  { s with se := { s.se with dirCache := l.drop (l.length - 32768) } }

/-! ### The window -/

/-- U of R162: payload pages in use and reservations of admitted APPENDs not yet placed. -/
def State.winU (s : State) : Nat :=
  (s.se.stripes.map (fun e => e.2.pages)).sum +
  (s.qm.cmds.map (fun e =>
    match e.2.body with
    | .append a => if a.reserved && a.placed.isNone then roundUp a.len 4096 else 0
    | _ => 0)).sum

/-- A of R162: the payload area. -/
def State.winA (s : State) : Nat := s.se.w - 1920 * 2 ^ 20

/-- Occupied bytes of the mirror region. -/
def State.mirrorBytes (s : State) : Nat := (s.pl.mirror.map (fun e => e.2.nextUnit * 4096)).sum

/-- Set the credit to 0 when U has risen above 0.75 A (R162); admission stopped by a smaller W goes on once U is at most A
(R163). -/
def State.noteU (s : State) : State :=
  let up := decide (4 * s.winU > 3 * s.winA)
  { s with se := { s.se with above := up, credit := if up && !s.se.above then 0 else s.se.credit,
                             stopped := s.se.stopped && s.winU > s.winA } }

/-- Payload pages freed: they feed the admission credit (R162). -/
def State.freePages (s : State) (bytes : Nat) : State :=
  State.noteU { s with se := { s.se with freedNow := s.se.freedNow + bytes } }

/-! ### Frames to the partner -/

/-- Whether the device holds its pools under the silence rules (R454, R466, R467): no chunk, label or sill write to a pool it
owns, and no completion of a window-durable APPEND. -/
def State.silenced (s : State) : Bool :=
  match s.pl.peer with
  | .silent | .fenced | .conflict => true
  | .training | .hello | .copying => !s.pl.fromPair
  | .unpaired | .paired | .lost => false

/-- Whether the device mirrors to a partner (R164, R168). -/
def State.mirrors (s : State) : Bool := s.pl.peer = .paired || s.pl.peer = .copying

/-- Send a frame that is no M frame. -/
def State.sendFrame (s : State) (type : Nat) (args : List Nat) (bytes : List Byte := []) : State :=
  if s.hasPL then s.emit (.peer type (0 :: args) bytes) else s

/-- Send an M frame while mirroring: MSEQ is one above the previous one (R459). -/
def State.sendM (s : State) (type : Nat) (args : List Nat) (bytes : List Byte := []) : State :=
  if s.mirrors then
    let q := s.pl.mseqSent + 1
    let s := { s with pl := { s.pl with mseqSent := q, lag := s.pl.lag ++ [(q, 64 + bytes.length)] } }
    s.emit (.peer type (q :: args) bytes)
  else s

/-! ### Deltas and the journal -/

/-- Capacity of the delta log in records (R152). -/
def deltaCapacity : Nat := 1024 * 2 ^ 20 / 32

/-- Delta records of every pool. -/
def State.deltaTotal (s : State) : Nat := (s.se.pools.map (fun e => e.2.deltaCount)).sum

/-- A delta of a pool: counted in the delta log, sent to the partner; past half the log a checkpoint is wanted, and a full
log stops seals with an event (R155, R156). -/
def State.delta (s : State) (p n : Nat) : State :=
  let s := s.modPool p (fun x => { x with deltaCount := x.deltaCount + 1, deltaSeq := x.deltaSeq + 1 })
  let s := s.sendM 0x13 [p, n]
  let total := s.deltaTotal
  let s : State := if 2 * total > deltaCapacity then s.modPool p (fun x => { x with ckptWanted := true }) else s
  if total ≥ deltaCapacity ∧ !s.se.deltaFull then
    State.raise { s with se := { s.se with deltaFull := true } } 0x504 5 p
  else s

/-- A journal record waits in the gather block of a pool (R180, R182). -/
def State.journal (s : State) (p : Nat) (r : JRec) : State :=
  s.modPool p (fun x => { x with gather := x.gather ++ [r] })

/-- A drive command goes out (log entry 7): 1 chunk write, 2 chunk read, 3 label, 4 sill record, 5 reclaim, 6 standby,
7 wake, 8 power, 9 reservation, 10 rebuild write, 11 link reset, 12 chain outputs, 13 IDENTIFY. -/
def State.driveOut (s : State) (slot kind a b : Nat) (bytes : List Byte := []) : State :=
  s.emit (.drive slot kind a b bytes)

/-- Wake requests of named members in a class (R411, R412): each sleeping drive of their wake groups is queued once. A wake
of a group whose standby is issued waits for it (R414). -/
def State.wake (s : State) (slots : List Nat) (cls : Nat) : State :=
  let groups := (slots.filter (fun n => !s.awake n)).map s.wakeGroup
  let asleep := (s.dl.slots.filter (fun e =>
    e.2.present && groups.contains (s.wakeGroup e.1) && !s.awake e.1 && e.2.cond != .spinningUp)).map (·.1)
  s.each asleep (fun n s =>
    match s.slot? n with
    | some x =>
      if x.standbyIssued then
        s.modSlot n (fun x => { x with wakeAfter := some (match x.wakeAfter with
          | some c => min c cls
          | none => cls) })
      else if s.dl.queue.any (fun q => q.slot = n) then
        { s with dl := { s.dl with queue := s.dl.queue.map (fun q =>
            if q.slot = n then { q with cls := min q.cls cls } else q) } }
      else { s with dl := { s.dl with queue := s.dl.queue ++ [{ slot := n, cls := cls }], evaluate := true } }
    | none => s)

/-- Append a loss record, or drop it when the report is full (R227, R228). -/
def State.addLoss (s : State) (p : Nat) (r : LossRec) : State :=
  match s.pool? p with
  | some x =>
    if x.loss.length ≥ 1048576 then
      (s.modPool p (fun x => { x with lossOverflow := true, lossDropped := x.lossDropped + 1 })).raise 0x602 7 p
    else s.modPool p (fun x => { x with loss := x.loss ++ [r] })
  | none => s

/-- A loss record of a kind, cause and extent, stamped now. -/
def State.lossRec (s : State) (kind cause stripe off len : Nat) (tag : Option (BitVec 256)) : LossRec :=
  { kind := kind, cause := cause, tagKnown := tag.isSome, timeUnset := !s.timeSet, time := s.devNs, stripe := stripe,
    off := off, len := len, tag := tag.getD 0 }

/-- ONLINE or DEGRADED of a pool that is up, from its sets and stripes (chapter 02, pool states). -/
def State.gradePool (s : State) (p : Nat) : State :=
  if s.poolUp p then
    let bad := (s.setsOf p).any (fun e =>
      e.2.state = .degraded || e.2.state = .rebuilding || (e.2.state = .retiring && (s.poolState p != .retiring))) ||
      (s.stripesOf p).any (fun e => e.2.state = .broken && (e.2.live > 0 || e.2.dirLost))
    s.modPool p (fun x => { x with state := if bad then .degraded else .online })
  else s

/-- The members of a set. -/
def State.membersOf (s : State) (i : Nat) : List Nat :=
  match s.set? i with
  | some x => x.members
  | none => []

end Sys2Proof.Machine
end

