-- ==== Sys2Proof/Machine/Gf.lean ====
section
/-! DEFINITION. The erasure code of CODE_ID 1 (chapter 03): arithmetic in GF(2^8), the generator, parities, decode
matrices and recovery; and the bytes of the extent directory that the code covers (R123 to R125). -/

namespace Sys2Proof.Machine

open Sys2Proof

/-! ### The field (R93) -/

/-- Multiplication by x modulo 0x11D. -/
def gfDouble (a : Byte) : Byte := if a.msb then (a <<< 1) ^^^ 0x1D#8 else a <<< 1

/-- Product of `a` with the bits of `b` from bit 0, `n` of them. -/
def gfMulBits : Nat → Byte → Byte → Byte
  | 0, _, _ => 0
  | n + 1, a, b => (if b.getLsbD 0 then a else 0) ^^^ gfMulBits n (gfDouble a) (b >>> 1)

/-- The product of two field elements (R93). -/
def gfMul (a b : Byte) : Byte := gfMulBits 8 a b

/-- a^(2^n - 1) squared and so on: the product of a^2, a^4, …, a^(2^n). -/
def gfPowers : Nat → Byte → Byte
  | 0, _ => 1
  | n + 1, a => gfMul (gfMul a a) (gfPowers n (gfMul a a))

/-- The inverse of a non-zero element: a^254. -/
def gfInv (a : Byte) : Byte := gfPowers 7 a

/-- The coefficient g(j, i) (R95). -/
def genCoef (j i : Nat) : Byte := if j = 0 then 1 else gfInv (BitVec.ofNat 8 (j ^^^ (i + 4)))

/-- One byte of parity `j` from the bytes of data chunks 0, 1, … (R94). -/
def parityByte (j : Nat) (ds : List Byte) : Byte :=
  ds.zipIdx.foldl (fun acc e => acc ^^^ gfMul (genCoef j e.2) e.1) 0

/-! ### Decoding (R97) -/

/-- A row of a linear system scaled by a factor. -/
def rowScale (c : Byte) (r : List Byte) : List Byte := r.map (gfMul c)

/-- The sum of two rows. -/
def rowAdd (r t : List Byte) : List Byte := List.zipWith (· ^^^ ·) r t

/-- Eliminate column `c` of a system with the first row, from row `c` on, whose entry there is not 0. -/
def gfStep (rows : List (List Byte)) (c : Nat) : List (List Byte) :=
  match (List.range rows.length).find? (fun i => c ≤ i && (rows.getD i []).getD c 0 != 0) with
  | none => rows
  | some i =>
    let piv := rowScale (gfInv ((rows.getD i []).getD c 0)) (rows.getD i [])
    let rows := (rows.set i (rows.getD c [])).set c piv
    rows.zipIdx.map (fun e => if e.2 = c then e.1 else rowAdd e.1 (rowScale (e.1.getD c 0) piv))

/-- The inverse of an e × e matrix by elimination. -/
def gfInverse (a : List (List Byte)) : List (List Byte) :=
  let e := a.length
  let ext := a.zipIdx.map (fun r => r.1 ++ (List.range e).map (fun j => if j = r.2 then (1 : Byte) else 0))
  ((List.range e).foldl gfStep ext).map (fun r => r.drop e)

/-- The matrix A of R97: rows of the chosen parities, columns of the lost data chunks. -/
def decodeA (lost par : List Nat) : List (List Byte) := par.map (fun j => lost.map (genCoef j))

/-- The bytes of the lost data chunks at one offset: `known` gives the bytes of the readable data chunks and `ps` those of
the chosen parities (R97). -/
def recoverBytes (lost par : List Nat) (known : List (Nat × Byte)) (ps : List Byte) : List Byte :=
  let folded := List.zipWith (fun j p => known.foldl (fun acc d => acc ^^^ gfMul (genCoef j d.1) d.2) p) par ps
  (gfInverse (decodeA lost par)).map (fun row =>
    (List.zipWith gfMul row folded).foldl (· ^^^ ·) 0)

/-- Whether a recovery needs a decode matrix of the matrix unit: not when one data chunk is lost and parity 0 is offered,
nor when only parities are lost (R99). -/
def needsMatrix (lost par : List Nat) : Bool := !(lost.isEmpty || (lost.length = 1 && par.head? = some 0))

/-! ### The extent directory (R123 to R125) -/

/-- An object with its CRC-32C appended. -/
def withCrc (bs : List Byte) : List Byte := bs ++ leBytes 4 (crc32c bs).toNat

/-- FLAGS of a directory entry. -/
def dirFlags (e : DirEnt) : Nat := b2n e.void + 2 * b2n e.releasedAtSeal + 4 * b2n e.copied + 8 * b2n e.timeUnset

/-- The 96 bytes of a directory entry (R124); a hash still in the engine is that of the payload in the window. -/
def dirEntryBytes (data : List Host.Cell) (e : DirEnt) : List Byte :=
  let h : BitVec 256 := if e.void then 0 else match e.hash with
    | some h => h
    | none => Config.sha3 (memRead data (e.off * 4096) e.len)
  withCrc (leBytes 4 e.off ++ leBytes 4 e.len ++ leBytes 2 (dirFlags e) ++ zeros 2 ++ leBytes 8 e.seq ++
    leBytes 32 e.tag.toNat ++ leBytes 32 h.toNat ++ leBytes 8 e.ackTime)

/-- The 64 bytes of a directory header (R123). -/
def dirHeaderBytes (pool n gen : Nat) (t : Stripe) : List Byte :=
  withCrc (leBytes 4 0x44585A46 ++ leBytes 2 t.dir.length ++ leBytes 2 (b2n t.padded + 2 * b2n t.timeUnset) ++
    leBytes 8 n ++ leBytes 8 t.sealSeq ++ leBytes 8 t.sealTime ++ leBytes 2 pool ++ leBytes 2 gen ++
    leBytes 4 t.nextUnit ++ zeros 20)

/-- The directory of a sealed stripe: header and entries in rising OFFSET; the rest of its 64 KiB is zero. -/
def dirBytes (pool n : Nat) (t : Stripe) : List Byte :=
  dirHeaderBytes pool n t.gen t ++ t.dir.flatMap (dirEntryBytes t.data)

/-- Whether directory bytes pass the header CRC and the CRC of every entry in use (R196). -/
def dirCrcOk (bs : List Byte) : Bool :=
  leAt bs 60 4 = (crc32c (slice bs 0 60)).toNat &&
  (List.range (min (leAt bs 4 2) 682)).all (fun i =>
    leAt bs (64 + 96 * i + 92) 4 = (crc32c (slice bs (64 + 96 * i) 92)).toNat)

/-! ### Encoding a stripe -/

/-- The parity payloads of a stripe added to its data area: parity `j` stands after the k data payloads of `len` bytes. Only
bytes that are not 0 contribute (R94). -/
def encodeCells (k m len : Nat) (data : List Host.Cell) : List Host.Cell :=
  (data.filter (fun c => c.1 < k * len)).foldl (fun acc c =>
    (List.range m).foldl (fun acc j =>
      let a := (k + j) * len + c.1 % len
      memPut acc a (memGet acc a ^^^ gfMul (genCoef j (c.1 / len)) c.2)) acc) data

end Sys2Proof.Machine
end

