-- ==== Sys2Proof/Machine/Media.lean ====
section
/-! DEFINITION. The Fuzil media format (chapter 09): the bytes of labels, pool descriptors, chunk headers, set and stripe table
entries, journal blocks, release, ledger, loss, orphan and protection records. -/

namespace Sys2Proof.Machine

open Sys2Proof

/-- Text stored as a byte string in the order given (R276). -/
def ascii (t : String) : List Byte := t.toList.map (fun c => BitVec.ofNat 8 c.toNat)

/-- Member states as numbers (chapter 02). -/
def memberCode (m : MemberState) : Nat :=
  match m with
  | .candidate => 0 | .spare => 1 | .active => 2 | .suspect => 3 | .failed => 4 | .retiring => 5 | .retired => 6
  | .foreign => 7

/-- Set states as numbers (R53). -/
def setCode (x : SetState) : Nat :=
  match x with
  | .unused => 0 | .active => 1 | .degraded => 2 | .rebuilding => 3 | .retiring => 4 | .retired => 5

/-- Stripe states as numbers (R67). -/
def stripeCode (t : StripeState) : Nat :=
  match t with
  | .free => 0 | .opened => 1 | .sealed => 2 | .written => 3 | .released => 4 | .broken => 5

/-- Pool states as numbers (chapter 02). -/
def poolCode (p : PoolState) : Nat :=
  match p with
  | .none => 0 | .assembling => 1 | .online => 2 | .degraded => 3 | .offline => 4 | .partner => 5 | .retiring => 6

/-- Scarf states as SE_POOL_n_SCARF numbers them. -/
def scarfCode (x : ScarfState) : Nat :=
  match x with
  | .none => 0 | .copying => 1 | .copied => 2 | .committing => 3 | .aborting => 4 | .stalled => 5

/-- The 16 bytes of a stripe table entry (R67). -/
def stripeEntry (t : Stripe) : List Byte :=
  let flags := b2n t.degraded + 2 * b2n t.relocating + 4 * b2n t.scarfCopied + 8 * b2n t.padded + 16 * b2n t.timeUnset +
    32 * b2n t.repaired + 64 * b2n t.imported
  leBytes 16 (stripeCode t.state + t.codeId % 16 * 2 ^ 4 + flags * 2 ^ 8 + t.gen % 2 ^ 16 * 2 ^ 16 +
    t.set % 2 ^ 16 * 2 ^ 32 + t.chunkOffset % 2 ^ 36 * 2 ^ 48 + t.sealSeq % 2 ^ 44 * 2 ^ 84)

/-- Distinct values of a list. -/
def distinct (xs : List Nat) : Nat := xs.eraseDups.length

/-- The 128 bytes of a set table entry (R53). -/
def State.setEntry (s : State) (i : Nat) (x : SetRec) (bandsHeld : Nat) : List Byte :=
  let groups := x.members.map s.failGroup
  let gmax := (groups.map (fun g => groups.countP (· = g))).foldl Nat.max 0
  let rb := fun (r : RbRec) => leBytes 6 (r.pos % 64 + 2 ^ 6 + r.cursor % 2 ^ 36 * 2 ^ 8)
  let mem := (x.members.zipIdx.map (fun e => e.1 % 1024 * 2 ^ (10 * e.2))).sum
  leBytes 2 i ++ leBytes 1 x.pool ++ leBytes 1 (setCode x.state) ++ leBytes 1 (x.k + x.m) ++ leBytes 1 x.k ++
    leBytes 2 x.gen ++ leBytes 4 (x.openBand.getD 0xFFFFFFFF) ++ leBytes 2 x.openFill ++
    leBytes 1 (distinct (x.members.map s.wakeGroup)) ++ leBytes 1 gmax ++ leBytes 4 bandsHeld ++
    leBytes 1 (s.wakeGroup (x.members.getD 0 0)) ++ leBytes 1 (b2n x.single + 2 * b2n x.imported) ++ zeros 2 ++
    padTo 24 (x.rebuild.flatMap rb) ++ leBytes 80 mem

/-- The 24 bytes of a parameter block (R282). -/
def paramBlock (p : Params) (sillCount sillBands entries : Nat) : List Byte :=
  leBytes 2 p.gen ++ leBytes 1 p.k ++ leBytes 1 p.m ++ leBytes 1 p.chunk ++ leBytes 1 p.d ++ leBytes 1 (b2n p.single) ++
    leBytes 1 1 ++ leBytes 2 p.bandMiB ++ leBytes 1 sillCount ++ zeros 1 ++ leBytes 4 sillBands ++ leBytes 8 entries

/-- A list of `n` slot numbers, unused places 0xFFFF. -/
def slotList (n : Nat) (xs : List Nat) : List Byte :=
  (List.range n).flatMap (fun i => leBytes 2 (xs.getD i 0xFFFF))

/-- The bytes of a pool's descriptor (R282). -/
def State.descriptor (s : State) (p : Nat) (x : Pool) : List Byte :=
  let cur := x.oldParams
  let new := x.newParams
  let curSill := match x.scarf with
    | some c => (c.oldSill, c.oldJournal, c.oldMembers, c.oldEntries, c.oldSillBands)
    | none => (x.sill, x.journal, x.members, x.tableEntries, x.sillBands)
  let inNew := fun (n : Nat) => match x.scarf with
    | some c => c.newMembers.contains n
    | none => false
  let entry := fun (n : Nat) => match s.drive? n with
    | some d =>
      leBytes 8 d.info.wwn ++ leBytes 2 n ++ leBytes 1 (memberCode d.state) ++
        leBytes 1 (b2n d.info.zoned + 2 * b2n d.info.flash + 4 * b2n (curSill.2.2.1.contains n) + 8 * b2n (inNew n)) ++
        leBytes 1 (s.failGroup n) ++ leBytes 1 (s.wakeGroup n) ++ zeros 2 ++ leBytes 8 d.info.capacity ++
        leBytes 4 (d.info.bands cur.bandMiB - 1) ++ zeros 4
    | none => zeros 32
  withCrc (ascii "FZPD" ++ leBytes 2 1 ++ leBytes 1 p ++ leBytes 1 x.side ++ leBytes 8 x.descSeq ++ leBytes 16 x.uuid ++
    leBytes 2 cur.gen ++ leBytes 2 (if x.scarf.isSome then new.gen else 0) ++
    leBytes 1 (b2n x.imported + 2 * b2n x.scarf.isSome + 4 * b2n (x.state = .retiring) + 8 * b2n (!s.timeSet)) ++ zeros 3 ++
    paramBlock cur curSill.1.length curSill.2.2.2.2 curSill.2.2.2.1 ++
    (if x.scarf.isSome then paramBlock new x.sill.length x.sillBands x.tableEntries else zeros 24) ++
    leBytes 8 x.created ++ leBytes 2 x.members.length ++ zeros 6 ++ slotList 5 curSill.1 ++
    slotList 5 (if x.scarf.isSome then x.sill else []) ++ slotList 3 curSill.2.1 ++
    slotList 3 (if x.scarf.isSome then x.journal else []) ++ padTo 32 x.name ++ zeros 24 ++ x.members.flatMap entry)

/-- The bytes of a drive label (R281): the 4 KiB header, and the descriptor after it in a MEMBER label. -/
def State.labelBytes (s : State) (n : Nat) (d : Drive) (kind : LabelKind) (back : Bool) : List Byte :=
  let pool := match kind, s.pool? d.pool with
    | .member, some x => some x
    | _, _ => none
  let desc := match pool with
    | some x => s.descriptor d.pool x
    | none => []
  let code := match kind with
    | .void => 0
    | .spare => 1
    | .member => 2
  let band := match pool with
    | some x => x.params.bandMiB
    | none => if d.info.zoned then d.info.zoneMiB else 256
  let uuid := match pool with
    | some x => x.uuid
    | none => 0
  let mstate := match kind with
    | .void => MemberState.candidate
    | .spare => .spare
    | .member => d.state
  let h := ascii "FZDRVLBL" ++ leBytes 2 1 ++ leBytes 2 code ++ leBytes 4 (b2n (!s.timeSet) + 2 * b2n back) ++
    leBytes 8 (d.labelSeq + 1) ++ leBytes 8 s.devNs ++ leBytes 16 s.pl.pairUuid ++ leBytes 16 uuid ++
    leBytes 8 d.info.wwn ++ padTo 40 d.info.serial ++ leBytes 8 d.info.capacity ++ leBytes 4 d.info.block ++
    leBytes 4 band ++ leBytes 4 (d.info.bands band - 1) ++ leBytes 2 n ++ leBytes 1 (memberCode mstate) ++ zeros 1 ++
    leBytes 4 desc.length ++ (if desc.isEmpty then zeros 32 else leBytes 32 (Config.sha3 desc).toNat)
  withCrc (padTo 4092 h) ++ desc

/-- The 4 KiB header of chunk index `i` (parities from k) of a stripe (R285). -/
def State.chunkHeader (s : State) (p n i : Nat) (x : Pool) (t : Stripe) (slot : Nat) (payload : List Byte) : List Byte :=
  let q := x.paramsOf t.gen
  let parity := decide (q.k ≤ i)
  let l := chunkPayload q.chunk
  let used := if parity then 0 else min l (t.nextUnit * 4096 - min (t.nextUnit * 4096) (i * l))
  let wwn := match s.drive? slot with
    | some d => d.info.wwn
    | none => 0
  withCrc (padTo 4092 (ascii "FZCHUNKH" ++ leBytes 2 1 ++ leBytes 1 t.codeId ++
    leBytes 1 (b2n parity + 4 * b2n (!s.timeSet) + 8 * b2n t.padded + 16 * b2n (t.scarfCopied && !t.fromScarf)) ++
    leBytes 2 t.gen ++ leBytes 1 (chunkPos n i q.w) ++ leBytes 1 (if parity then i - q.k else i) ++ leBytes 16 x.uuid ++
    leBytes 8 n ++ leBytes 1 q.k ++ leBytes 1 q.m ++ leBytes 1 q.chunk ++ leBytes 1 p ++ leBytes 2 t.set ++
    leBytes 2 t.moves ++ leBytes 8 t.chunkOffset ++ leBytes 8 t.sealSeq ++ leBytes 8 s.devNs ++
    leBytes 4 l ++ leBytes 4 used ++ leBytes 32 (Config.sha3 payload).toNat ++ leBytes 8 wwn))

/-- The whole chunk of index `i` of a stripe in the window: header and payload. -/
def State.chunkBytesOf (s : State) (p n i : Nat) (x : Pool) (t : Stripe) (slot : Nat) : List Byte :=
  let l := chunkPayload (x.paramsOf t.gen).chunk
  let payload := memRead t.data (i * l) l
  s.chunkHeader p n i x t slot payload ++ payload

/-- The 64 bytes of a journal record (R294) with a JSEQ. -/
def journalRecord (unset : Bool) (gen jseq : Nat) (r : JRec) : List Byte :=
  let kind := match r with
    | .bandOpen _ _ => 1
    | .fill _ _ _ => 2
    | .reserve _ _ => 3
    | .checkpoint _ _ => 4
    | .clean _ _ => 5
    | .members _ => 6
  let body := match r with
    | .bandOpen set band => leBytes 2 set ++ zeros 2 ++ leBytes 4 band
    | .fill set band c => leBytes 2 set ++ zeros 2 ++ leBytes 4 band ++ zeros 4 ++ leBytes 8 c
    | .reserve first n => leBytes 8 first ++ leBytes 4 n
    | .checkpoint g j => leBytes 8 g ++ leBytes 8 j
    | .clean a b => leBytes 8 a ++ leBytes 8 b
    | .members ms => slotList 3 ms
  withCrc (leBytes 1 kind ++ leBytes 1 (b2n unset) ++ leBytes 2 gen ++ leBytes 8 jseq ++ padTo 48 body)

/-- The 64 bytes of a pending release record (R300). -/
def pendRecord (r : PendRel) : List Byte :=
  withCrc (locatorBytes r.pool r.stripe r.off r.len ++ leBytes 32 r.tag.toNat ++ leBytes 8 r.time ++ zeros 4)

/-- The 128 bytes of a ledger entry (R300). -/
def ledgerEntry (n : Nat) (t : Stripe) : List Byte :=
  withCrc (leBytes 8 n ++ leBytes 2 t.live ++ zeros 2 ++
    leBytes 86 ((t.dir.zipIdx.map (fun e => if e.1.released || e.1.releasedAtSeal then 2 ^ e.2 else 0)).sum) ++ zeros 26)

/-- The 64 bytes of a loss record of a pool (R228). -/
def lossBytes (p : Nat) (r : LossRec) : List Byte :=
  withCrc (leBytes 1 r.kind ++ leBytes 1 r.cause ++ leBytes 1 (b2n r.tagKnown + 2 * b2n r.timeUnset) ++ zeros 1 ++
    leBytes 8 r.time ++ locatorBytes p r.stripe r.off r.len ++ leBytes 32 r.tag.toNat)

/-- The 64 bytes of an orphan record (R347). -/
def orphanBytes (o : Orphan) : List Byte :=
  withCrc (padTo 16 o.locator ++ leBytes 32 o.tag.toNat ++ leBytes 8 o.seq ++ leBytes 4 (b2n o.copied))

/-- The protection record of a device: head and 130 entries of 64 bytes (R304). -/
def protRecord (side gen time : Nat) (entry : Nat → ProtEntry) : List Byte :=
  withCrc (ascii "FZPR" ++ leBytes 1 side ++ zeros 3 ++ leBytes 8 gen ++ leBytes 8 time ++ leBytes 4 130 ++ zeros 32) ++
  (List.range 130).flatMap (fun x =>
    let e := entry x
    withCrc (leBytes 2 x ++ leBytes 2 e.quota ++ leBytes 4 e.admin ++ leBytes 32 e.rights.toNat ++ zeros 20))

end Sys2Proof.Machine
end

