-- ==== Sys2Proof/Machine/Append.lean ====
section
/-! DEFINITION. Shared operations of the append path (chapter 04): admission and placement, opening and sealing of
stripes, durability and completion of APPENDs, VOID entries, chunk writes and WRITTEN. -/

namespace Sys2Proof.Machine

open Sys2Proof

/-! ### Opening stripes -/

/-- Whether a set has room for one more stripe (R120). -/
def State.setRoom (s : State) (x : SetRec) (p : Params) : Bool :=
  x.openRoom p > 0 || !(s.freeBands x p.bandMiB).isEmpty

/-- Whether a set meets R120 but for an open stripe on it. -/
def State.setQualifies (s : State) (x : SetRec) (p : Params) : Bool :=
  (x.state = .active || x.state = .rebuilding) && x.gen = p.gen && !x.held && s.setRoom x p

/-- Whether a set holds an open stripe (R55). -/
def State.setHasOpen (s : State) (i : Nat) : Bool :=
  s.se.stripes.any (fun e => e.2.state = .opened && e.2.set = i)

/-- Whether set `a` is preferred to set `b` under R120: awake members, then FREE bands, then index. -/
def State.setBetter (s : State) (bandMiB : Nat) (a b : Nat × SetRec) : Bool :=
  let wa := s.setAwake a.2
  let wb := s.setAwake b.2
  if wa != wb then wa
  else
    let fa := (s.freeBands a.2 bandMiB).length
    let fb := (s.freeBands b.2 bandMiB).length
    if fa != fb then fb < fa else a.1 < b.1

/-- The first element no other is better than. -/
def pickBest {α : Type} (better : α → α → Bool) : List α → Option α
  | [] => none
  | a :: as =>
    match pickBest better as with
    | none => some a
    | some b => if better b a then some b else some a

/-- The set R120 chooses for a stripe of pool `p` in the generation of `q`. -/
def State.chooseSet (s : State) (p : Nat) (q : Params) : Option (Nat × SetRec) :=
  pickBest (s.setBetter q.bandMiB)
    ((s.setsOf p).filter (fun e => s.setQualifies e.2 q && !s.setHasOpen e.1))

/-- Whether some set would meet R120 with every open stripe sealed (R121). -/
def State.someSetEver (s : State) (p : Nat) (q : Params) : Bool :=
  (s.setsOf p).any (fun e => s.setQualifies e.2 q)

/-- Keep at least 64 numbers reserved once fewer than 32 remain (R180): a RESERVE record is journalled. -/
def State.keepReserved (s : State) (p : Nat) : State :=
  match s.pool? p with
  | some x =>
    if x.reserved + x.reserveQueued < 32 then
      let first := match x.nextNumber with
        | some n => n
        | none => 0
      let n := 64 - x.reserved - x.reserveQueued
      (s.modPool p (fun x => { x with reserveQueued := x.reserveQueued + n })).journal p (.reserve first n)
    else s
  | none => s

/-- Open stripes of a pool. -/
def State.openOf (s : State) (p : Nat) : List (Nat × Stripe) :=
  (s.stripesOf p).filter (fun e => e.2.state = .opened)

/-- Open stripes of the device. -/
def State.openCount (s : State) : Nat := s.se.stripes.countP (fun e => e.2.state = .opened)

/-- Open a stripe of a pool on a set under its next reserved number (R120, R181). -/
def State.openStripe (s : State) (p set : Nat) : Option (Nat × State) :=
  match s.pool? p with
  | some x =>
    match x.nextNumber with
    | some n =>
      if x.reserved = 0 then none
      else
        let s := s.modPool p (fun x =>
          { x.takeNumber with reserved := x.reserved - 1, openSeq := x.openSeq + 1 })
        let t := Stripe.fresh x.params.gen set s.devNs x.openSeq x.opensNew false
        some (n, (s.setStripe p n t).keepReserved p)
    | none => none
  | none => none

/-! ### Seals begin -/

/-- Begin the seal of an open stripe (R134, R135): nothing more is placed in it. -/
def State.startSeal (s : State) (p n : Nat) : State :=
  s.modStripe p n (fun t => if t.state = .opened then { t with sealing := true } else t)

/-- Begin the seal of every open stripe of a pool that holds a placement; how many. -/
def State.sealPool (s : State) (p : Nat) : State :=
  s.each ((s.openOf p).filter (fun e => !e.2.dir.isEmpty)) (fun e s => s.startSeal p e.1)

/-- The forced seal of R122: the pool's open stripe with the most units placed, or the oldest open stripe of any pool when
the device-wide limit is the cause. -/
def State.forcedSeal (s : State) (p : Nat) : State :=
  if s.openCount ≥ 1024 then
    match pickBest (fun a b => a.2.placement < b.2.placement)
        (s.se.stripes.filter (fun e => e.2.state = .opened && !e.2.sealing)) with
    | some e => s.startSeal (keyPool e.1) (keyStripe e.1)
    | none => s
  else
    match pickBest (fun a b => b.2.nextUnit < a.2.nextUnit)
        ((s.openOf p).filter (fun e => !e.2.sealing)) with
    | some e => if e.2.dir.isEmpty then s else s.startSeal p e.1
    | none => s

/-! ### Placement -/

/-- The APPEND in progress under a command id. -/
def State.append? (s : State) (id : Nat) : Option AppendCmd :=
  match s.cmd? id with
  | some c =>
    match c.body with
    | .append a => some a
    | _ => none
  | none => none

/-- Place a payload at next_unit of a stripe (R118, R119); the seal begins when a limit of R134 is reached. -/
def State.placeIn (s : State) (id : Nat) (a : AppendCmd) (n : Nat) : State :=
  match s.pool? a.pool, s.stripe? a.pool n with
  | some x, some t =>
    let need := ceilDiv a.len 4096
    let seq := x.appendSeq + 1
    let e := DirEnt.placed t.nextUnit a.len seq a.tag a.parent.isSome id
    let t' := { t with dir := t.dir ++ [e], nextUnit := t.nextUnit + need,
                       placement := if t.dir.isEmpty then s.devNs else t.placement }
    let s := (s.modPool a.pool (fun x => { x with appendSeq := seq })).setStripe a.pool n t'
    let s := s.setBody id (.append { a with reserved := true, placed := some (n, t.dir.length), off := t.nextUnit,
                                            seq := seq })
    if t'.nextUnit ≥ x.limitUnit t' ∨ t'.dir.length ≥ 682 then s.startSeal a.pool n else s
  | _, _ => s

/-- The end of a COPY_FORWARD source: its outcome is recorded; the command ends when every source has one (R369). -/
def State.copyItem (s : State) (id idx : Nat) (item : CopyItem) : State :=
  match s.cmd? id with
  | some c =>
    match c.body with
    | .copy buf len items =>
      let items := items.set idx item
      let s := s.setBody id (.copy buf len items)
      if items.all (fun i => i.status.isSome) then
        let ok := fun (i : CopyItem) => i.status = some stSuccess
        let bytes := items.flatMap (fun i =>
          padTo 16 i.locator ++ leBytes 2 (i.status.getD 0) ++ leBytes 1 (b2n i.durable) ++ zeros 13)
        let s : State := if c.silent then s else s.emit (.hostWrite c.x buf bytes)
        let mask := (items.zipIdx.map (fun e => if ok e.1 then 2 ^ e.2 else 0)).sum
        let status := if items.all ok then stSuccess else if items.any ok then stPartial
          else match items.head? with
            | some i => i.status.getD stSuccess
            | none => stSuccess
        s.complete id status (leBytes 8 mask)
      else s
    | _ => s
  | none => s

/-- End an APPEND, or a COPY_FORWARD's copy, with a status. -/
def State.endAppend (s : State) (id : Nat) (status : Nat) (durable : Bool) : State :=
  match s.cmd? id with
  | some c =>
    match c.body with
    | .append a =>
      let loc := match a.placed with
        | some (n, _) => if status = stSuccess then locatorBytes a.pool n a.off a.len else []
        | none => []
      let s : State := match a.placed with
        | some (n, slot) => s.modEntry a.pool n slot (fun e => { e with cmd := none })
        | none => s
      let s := { s with pl := { s.pl with appendMseq := Tab.erase s.pl.appendMseq id } }
      match a.parent with
      | some (pid, idx) =>
        let s := { s with qm := { s.qm with cmds := Tab.erase s.qm.cmds id } }
        s.copyItem pid idx { locator := loc, status := some status, durable := durable && status = stSuccess }
      | none => s.complete id status loc 0 (if durable ∧ status = stSuccess then flDriveDurable else 0)
    | _ => s
  | none => s

/-- Complete an APPEND with SUCCESS: ACK_TIME is taken (R124). -/
def State.ackAppend (s : State) (id : Nat) (durable : Bool) : State :=
  match s.cmd? id with
  | some c =>
    match c.body with
    | .append a =>
      let s : State := match a.placed with
        | some (n, slot) => s.modEntry a.pool n slot (fun e =>
            if e.cmd = some id then { e with ackTime := s.devNs, timeUnset := !s.timeSet } else e)
        | none => s
      s.endAppend id stSuccess durable
    | _ => s
  | none => s

/-- Complete an APPEND whose payload is whole and hashed if its durability is reached (R129 to R132, R168, R466). -/
def State.tryAck (s : State) (id : Nat) : State :=
  match s.cmd? id with
  | some c =>
    match c.body with
    | .append a =>
      match a.placed with
      | some (n, slot) =>
        match s.stripe? a.pool n with
        | some t =>
          match t.dir[slot]? with
          | some e =>
            if !a.whole || e.hash.isNone then s
            else if t.state = .written ∨ t.state = .released ∨ t.state = .broken then s.ackAppend id true
            else if a.durable then s
            else if s.silenced then s
            else if s.pl.peer = .paired then
              match Tab.get? s.pl.appendMseq id with
              | some q => if q ≤ s.pl.mseqConfirmed then s.ackAppend id false else s
              | none => s
            else if s.se.covered then s.ackAppend id false
            else s
          | none => s
        | none => s
      | none => s
    | _ => s
  | none => s

/-- Submit a job to the hash engine (R236). -/
def State.hashSubmit (s : State) (user : HashUser) (cls : Nat) (digest : BitVec 256) : State :=
  { s with se := { s.se with hashJobs := Tab.set s.se.hashJobs s.se.nextHash { user := user, cls := cls, digest := digest },
                             nextHash := s.se.nextHash + 1 } }

/-- Bytes of an APPEND's payload arrive at an offset of the extent: they go to the window and to the mirror; a whole
payload goes to the hash engine (R129, R164). -/
def State.payloadIn (s : State) (id off : Nat) (bytes : List Byte) : State :=
  match s.cmd? id with
  | some c =>
    match c.body with
    | .append a =>
      match a.placed with
      | some (n, slot) =>
        let bs := bytes.take (a.len - off)
        if a.whole ∨ off ≥ a.len then s
        else
          let s := s.modStripe a.pool n (fun t => { t with data := memWrite t.data (a.off * 4096 + off) bs })
          let got := a.got + bs.length
          let s := s.modEntry a.pool n slot (fun e => { e with arrived := min got a.len })
          let s := s.each (List.range (ceilDiv bs.length 4096)) (fun i s =>
            s.sendM 0x10 [a.pool, n, a.off, off + 4096 * i] ((bs.drop (4096 * i)).take 4096))
          let whole := decide (got ≥ a.len)
          let s := s.setBody id (.append { a with got := got, whole := whole })
          if whole then
            match s.stripe? a.pool n with
            | some t => s.hashSubmit (.append id) 1 (Config.sha3 (memRead t.data (a.off * 4096) a.len))
            | none => s
          else s
      | none => s
    | _ => s
  | none => s

/-- Mark a placed APPEND's entry VOID and zero its range (R133); the partner gets the entry. -/
def State.voidEntry (s : State) (p n slot : Nat) : State :=
  match s.stripe? p n with
  | some t =>
    match t.dir[slot]? with
    | some e =>
      let lo := e.off * 4096
      let hi := lo + e.len
      let s := s.setStripe p n { t with
        dir := t.dir.set slot { e with void := true, hash := none, arrived := e.len, cmd := none }
        data := t.data.filter (fun c => c.1 < lo || hi ≤ c.1) }
      s.sendM 0x11 [p, n, slot] (dirEntryBytes [] { e with void := true, hash := none })
    | none => s
  | none => s

/-- Fail an APPEND with a status: VOID when it was placed (R133), its reservation released otherwise. -/
def State.failAppend (s : State) (id status : Nat) : State :=
  match s.cmd? id with
  | some c =>
    match c.body with
    | .append a =>
      let s : State := match a.placed with
        | some (n, slot) => s.voidEntry a.pool n slot
        | none => s
      let s := { s with se := { s.se with hashJobs := s.se.hashJobs.filter (fun j => j.2.user != HashUser.append id) } }
      (s.setBody id (.append { a with placed := none, reserved := false })).endAppend id status false
    | _ => s
  | none => s

/-- What placing an admitted APPEND comes to. -/
inductive Place where
  | done (s : State)
  | hold (s : State)

/-- A scarf that finds no new-generation set with room becomes STALLED, with its event (R265). -/
def State.stallScarf (s : State) (p : Nat) : State :=
  match (s.pool? p).bind (·.scarf) with
  | some c =>
    if c.state = .copying ∨ c.state = .copied then
      (s.modPool p (fun x => { x with scarf := some { c with state := .stalled } })).raise 0x608 5 p
    else s
  | none => s

/-- Place an admitted APPEND by R118, R120 to R122; a scarf with no room becomes STALLED (R265). -/
def State.tryPlace (s : State) (id : Nat) (a : AppendCmd) : Place :=
  match s.pool? a.pool with
  | none => .hold s
  | some x =>
    let need := ceilDiv a.len 4096
    let fits := fun (e : Nat × Stripe) =>
      e.2.gen = x.params.gen && !e.2.sealing && e.2.dir.length < 682 && e.2.nextUnit + need ≤ x.limitUnit e.2
    match pickBest (fun p q => p.2.openSeq < q.2.openSeq) ((s.openOf a.pool).filter fits) with
    | some e => .done (s.placeIn id a e.1)
    | none =>
      if (s.openOf a.pool).length < x.policy.openLimit ∧ s.openCount < 1024 then
        match s.chooseSet a.pool x.params with
        | some e =>
          match s.openStripe a.pool e.1 with
          | some (n, s) => .done (s.placeIn id a n)
          | none => .hold (s.keepReserved a.pool)
        | none =>
          if s.someSetEver a.pool x.params then .hold (s.forcedSeal a.pool)
          else
            .done ((s.stallScarf a.pool).failAppend id stNoWritableSet)
      else .hold (s.forcedSeal a.pool)

/-- A copy's payload is at hand when it is placed (R149). -/
def State.copyPayload (s : State) (id : Nat) (a : AppendCmd) : State :=
  match a.payload with
  | some bs => s.payloadIn id 0 bs
  | none => s

/-- Place the admitted APPENDs not yet placed, in admission order per pool: one that must wait holds back the later ones
of its pool (R118). -/
def State.placeAdmitted (s : State) : State :=
  (s.qm.cmds.foldl (fun (acc : State × List Nat) e =>
    match e.2.body with
    | .append a =>
      if a.reserved && a.placed.isNone && !acc.2.contains a.pool then
        match acc.1.tryPlace e.1 a with
        | .done s => (s.copyPayload e.1 a, acc.2)
        | .hold s => (s, a.pool :: acc.2)
      else acc
    | _ => acc) (s, [])).1

/-- Whether the window takes a reservation of `n` bytes now (R162, R163). -/
def State.winTakes (s : State) (n : Nat) : Bool :=
  !s.se.stopped && s.winU + n ≤ s.winA && (4 * s.winU ≤ 3 * s.winA || n ≤ s.se.credit)

/-- Admit a held APPEND: its window reservation is made, from the credit above 0.75 A (R117, R162). -/
def State.admitOne (s : State) (id : Nat) (a : AppendCmd) : State :=
  let n := roundUp a.len 4096
  let paid := decide (4 * s.winU > 3 * s.winA)
  let s := s.setBody id (.append { a with reserved := true })
  let s : State := if paid then { s with se := { s.se with credit := s.se.credit - n } } else s
  s.noteU

/-- The oldest held APPEND of each submission queue, in fetch order (R117). -/
def State.oldestHeld (s : State) : List (Nat × AppendCmd) :=
  (s.qm.cmds.foldl (fun (acc : List (Nat × AppendCmd) × List Nat) e =>
    match e.2.body with
    | .append a =>
      if a.placed.isNone && !a.reserved && !acc.2.contains e.2.dq then (acc.1 ++ [(e.1, a)], e.2.dq :: acc.2) else acc
    | _ => acc) ([], [])).1

/-- Admit, round by round, each queue's oldest held APPEND that now fits, and place what is admitted (R117, R118). -/
def State.admitRounds : Nat → State → State
  | 0, s => s.placeAdmitted
  | n + 1, s =>
    let t := (s.oldestHeld.foldl (fun (s : State) (e : Nat × AppendCmd) =>
      if s.winTakes (roundUp e.2.len 4096) then s.admitOne e.1 e.2 else s) s).placeAdmitted
    if t.oldestHeld.map (·.1) = s.oldestHeld.map (·.1) then t else State.admitRounds n t

/-- Examine the held APPENDs (R117). -/
def State.admitHeld (s : State) : State := State.admitRounds s.qm.cmds.length s

/-! ### Sealing -/

/-- A set draws a band (R61): OPEN on its members, SUBSTITUTE where a rebuild record is open (R212); BAND_OPEN journalled. -/
def State.drawBand (s : State) (i b : Nat) : State :=
  match s.set? i with
  | some x =>
    let s := s.each x.members.zipIdx (fun e s =>
      s.setBand e.1 b (if (x.record e.2).isSome then .substitute else .opened) i)
    let s := s.modSet i (fun x => { x with openBand := some b, openFill := 0, bandOpenLogged := false, fill := 0 })
    let s := s.modPool x.pool (fun p => { p with jBandsSince := p.jBandsSince + 1 })
    s.journal x.pool (.bandOpen i b)
  | none => s

/-- Assign a chunk offset in a set (R137): after its last seal, or at the start of the lowest band FREE on every member. -/
def State.takeOffset (s : State) (i : Nat) (p : Params) : Option (Nat × State) :=
  match s.set? i with
  | some x =>
    if x.openRoom p > 0 then
      some (x.nextOffset p, s.modSet i (fun x => { x with openFill := x.openFill + 1 }))
    else
      match (s.freeBands x p.bandMiB).head? with
      | some b =>
        let s := s.drawBand i b
        some (b * p.bandUnits, s.modSet i (fun x => { x with openFill := 1 }))
      | none => none
  | none => none

/-- Commands that wait for a stripe to be SEALED (R140). -/
def State.sealedHook (s : State) (p n : Nat) : State :=
  s.each (Tab.keys s.qm.cmds) (fun id s =>
    match s.cmd? id with
    | some c =>
      match c.body with
      | .sealWait l k =>
        let l := l.filter (· ≠ (p, n))
        let s := s.setBody id (.sealWait l k)
        if l.isEmpty then s.complete id stSuccess (leBytes 4 k) else s
      | _ => s
    | none => s)

/-- A coding job joins the queue of the coding engine (R103). -/
def State.ceSubmit (s : State) (j : CeJob) : State := { s with ce := { s.ce with queue := s.ce.queue ++ [j] } }

/-- Whether no coding cluster is enabled (R111). -/
def State.noCluster (s : State) : Bool := s.fld CE_CLUSTER_EN 0 CE_CLUSTER_EN_EN = 0

/-- Seal a stripe whose placed payloads have all arrived or failed (R135 to R137): zero fill, seal sequence, chunk offset,
delta and MIR_SEAL; one ENCODE job is submitted and its members are woken for the writes. -/
def State.sealStripe (s : State) (p n : Nat) : State :=
  match s.pool? p, s.stripe? p n with
  | some x, some t =>
    if t.state = .opened && t.sealing && !s.se.deltaFull && !s.noCluster && t.dir.all (fun e => e.void || e.arrived ≥ e.len) then
      let q := x.paramsOf t.gen
      match s.takeOffset t.set q with
      | some (off, s) =>
        let seq := x.sealSeq + 1
        let now := s.devNs
        let dir := t.dir.map (fun e => if e.cmd.isSome then { e with ackTime := now, timeUnset := !s.timeSet } else e)
        let s := s.modPool p (fun x => { x with sealSeq := seq })
        let s := s.setStripe p n { t with
          state := .sealed, sealing := false, sealSeq := seq, sealTime := now, timeUnset := !s.timeSet,
          padded := decide (t.nextUnit < q.dirUnit), chunkOffset := off, dir := dir }
        let s := s.sendM 0x12 [p, n, seq, off, t.set]
        let s := s.delta p n
        let s := s.ceSubmit { kind := .encode, cls := 0, pool := p, stripe := n, cmd := none, m := q.m, key := none,
                              bytes := q.capacity }
        let s := s.wake (s.membersOf t.set) 1
        (s.sealedHook p n).admitHeld
      | none => s
    else s
  | _, _ => s

/-! ### Writes and WRITTEN -/

/-- Whether the device may write to a pool's members (R206, R397, R466, R467). -/
def State.mayWrite (s : State) (p : Nat) : Bool :=
  !s.silenced &&
  (match s.pool? p with
   | some x => !x.writesStopped
   | none => false)

/-- Positions of a stripe's set that must report its chunk: neither FAILED nor behind a rebuild cursor (R72, R212). -/
def State.mustAck (s : State) (x : SetRec) (t : Stripe) : List Nat :=
  (List.range x.members.length).filter (fun q => !s.posFailed x q && !x.behind q t.chunkOffset)

/-- Whether the header of a stripe's chunk at a position still waits for its payload hash (R137, R285). -/
def State.chunkHashing (s : State) (p n q : Nat) : Bool := s.se.hashJobs.any (fun j => j.2.user = HashUser.chunk p n q)

/-- Issue the chunk write of a SEALED stripe at a position: header and payload go to the member (R137, R153). -/
def State.writeChunk (s : State) (p n q : Nat) : State :=
  match s.pool? p, s.stripe? p n with
  | some pl, some t =>
    match s.set? t.set with
    | some x =>
      let d := x.members.getD q 0
      if s.posDown x q then s
      else s.driveOut d 1 (stripeKey p n) t.chunkOffset
        (s.chunkBytesOf p n (posChunk n q (pl.paramsOf t.gen).w) pl t d)
    | none => s
  | _, _ => s

/-- Issue the chunk writes of a coded stripe whose chunk headers are formed and whose band's BAND_OPEN record is on stable
media (R137, R181); writes to LINK_DOWN members are held (R206). -/
def State.issueWrites (s : State) (p n : Nat) : State :=
  match s.stripe? p n with
  | some t =>
    match s.set? t.set with
    | some x =>
      if t.state = .sealed && t.coded && x.bandOpenLogged && s.mayWrite p then
        s.each ((s.mustAck x t).filter (fun q => !t.acked.contains q && !s.chunkHashing p n q)) (fun q s => s.writeChunk p n q)
      else s
    | none => s
  | none => s

/-- FLUSH commands look again at what they wait for (R141): an APPEND that was placed adds its stripe, one that ended drops
out, and a stripe that is WRITTEN no longer counts. -/
def State.flushHook (s : State) : State :=
  s.each (Tab.keys s.qm.cmds) (fun id s =>
    match s.cmd? id with
    | some c =>
      match c.body with
      | .flush l ids =>
        let placed := ids.filterMap (fun a =>
          match s.append? a with
          | some x => x.placed.map (fun q => (x.pool, q.1))
          | none => none)
        let s := s.each placed (fun e s => s.startSeal e.1 e.2)
        let ids := ids.filter (fun a =>
          match s.append? a with
          | some x => x.placed.isNone
          | none => false)
        let l := (l ++ placed).filter (fun e =>
          match s.stripe? e.1 e.2 with
          | some t => t.state = .opened || t.state = .sealed
          | none => false)
        let s := s.setBody id (.flush l ids)
        if l.isEmpty && ids.isEmpty then s.complete id stSuccess else s
      | _ => s
    | none => s)

/-- Live stripes of a set in a band: placements that READs or the window use (R148, R223). -/
def State.bandLive (s : State) (i b : Nat) (bandUnits : Nat) : Nat :=
  s.se.stripes.countP (fun e =>
    (e.2.set = i && e.2.chunkOffset / bandUnits = b &&
      (e.2.state = .sealed || e.2.state = .written || e.2.state = .broken)) ||
    (e.2.scarfCopied && !e.2.fromScarf && e.2.oldSet = i && e.2.oldOffset / bandUnits = b &&
      (e.2.state = .written || e.2.state = .broken)))

/-- A band of a set with no live stripe that is not the set's open band becomes DRAINED on every member (R148). -/
def State.drainIfDead (s : State) (i b : Nat) : State :=
  match s.set? i with
  | some x =>
    match s.pool? x.pool with
    | some pl =>
      let q := pl.paramsOf x.gen
      let held := x.members.any (fun m => let v := s.band m b q.bandMiB; (v.1 = .opened || v.1 = .full) && v.2 = i)
      if held && x.openBand != some b && s.bandLive i b q.bandUnits = 0 then
        let s := s.each x.members (fun m s =>
          let v := s.band m b q.bandMiB
          if (v.1 = .opened || v.1 = .full || v.1 = .substitute) && v.2 = i then s.setBand m b .drained i else s)
        s.modPool x.pool (fun p => { p with ckptWanted := true })
      else s
    | none => s
  | none => s

/-- A stripe whose last live extent is released becomes RELEASED (R71, R148): its delta, and its band may be DRAINED. -/
def State.releaseStripe (s : State) (p n : Nat) : State :=
  match s.pool? p, s.stripe? p n with
  | some x, some t =>
    if (t.state = .written || t.state = .broken) && t.live = 0 then
      let s := s.modStripe p n (fun t => { t with state := .released })
      let s := { s with se := { s.se with ledgerFull := false,
                                          pending := s.se.pending.filter (fun r => !(r.pool = p && r.stripe = n)) } }
      let s := s.delta p n
      let s := s.drainIfDead t.set (t.chunkOffset / (x.paramsOf t.gen).bandUnits)
      let s : State := if t.scarfCopied && !t.fromScarf then
        s.drainIfDead t.oldSet (t.oldOffset / (x.paramsOf t.oldGen).bandUnits) else s
      s.gradePool p
    else s
  | _, _ => s

/-- A band is closed as FULL when the set has written the last whole stripe that fits (R61, band transitions). -/
def State.closeBand (s : State) (i : Nat) : State :=
  match s.set? i with
  | some x =>
    match s.pool? x.pool, x.openBand with
    | some pl, some b =>
      let q := pl.paramsOf x.gen
      let sealed := s.se.stripes.any (fun e => e.2.set = i && e.2.chunkOffset / q.bandUnits = b && e.2.state = .sealed)
      if x.openFill ≥ q.perBand && !sealed then
        let s := s.each x.members (fun m s =>
          if s.band m b q.bandMiB = (.opened, i) then s.setBand m b .full i else s)
        let s := s.modSet i (fun x => { x with openBand := none, openFill := 0, fill := 0 })
        let s := s.journal x.pool (.fill i b ((b + 1) * q.bandUnits))
        s.drainIfDead i b
      else s
    | _, _ => s
  | none => s

/-- A SEALED stripe that every member not FAILED has acknowledged becomes WRITTEN (R72, R154, R212), unless more than m
members are FAILED without a substitute (R73): delta, retire notice,
freed pages, drive-durable APPENDs, FLUSH, and RELEASED when nothing in it lives (R71). -/
def State.writeDone (s : State) (p n : Nat) : State :=
  match s.stripe? p n with
  | some t =>
    match s.set? t.set with
    | some x =>
      if t.state = .sealed && t.coded && (s.mustAck x t).all (fun q => t.acked.contains q) &&
          (List.range x.members.length).countP (fun q => s.posFailed x q) ≤ x.m then
        let short := (List.range x.members.length).any (fun q => s.posFailed x q || x.behind q t.chunkOffset)
        let pages := t.pages
        let s := s.setStripe p n { t with state := .written, degraded := t.degraded || short, data := [], relocating := false }
        let s := s.delta p n
        let s := s.sendM 0x15 [p, n]
        let s := s.freePages pages
        let s := s.each (Tab.keys s.qm.cmds) (fun id s => match s.cmd? id with
          | some c => match c.body with
            | .append a => match a.placed with
              | some (m, _) => if a.pool = p ∧ m = n then s.tryAck id else s
              | none => s
            | _ => s
          | none => s)
        let s := s.flushHook
        let s := s.closeBand t.set
        let s := s.releaseStripe p n
        let s := s.touchDir p n
        s.admitHeld
      else s
    | none => s
  | none => s

end Sys2Proof.Machine
end

