-- ==== Sys2Proof/Machine/Sections.lean ====
section
/-! DEFINITION. The sections of a checkpoint and of a standby copy (R53, R67, R124, R282, R297 to R303, R463): what they hold read
back, and their bytes as the device writes them. -/

namespace Sys2Proof.Machine

open Sys2Proof

/-! ### Small records -/

/-- A stripe state from its number (R67). -/
def stripeStateOf (n : Nat) : StripeState :=
  match n with
  | 1 => .opened
  | 2 => .sealed
  | 3 => .written
  | 4 => .released
  | 5 => .broken
  | _ => .free

/-- A stripe from its table entry (R67); its directory is not known yet. A STATE of 6 to 15 acts as an unknown code (R70). -/
def parseStripe (bs : List Byte) : Stripe :=
  let v := leAt bs 0 16
  let odd := decide (bits v 0 4 > 5)
  { Stripe.fresh (bits v 16 16) (bits v 32 16) 0 0 false (bit v 14) with
    state := if odd then .written else stripeStateOf (bits v 0 4), codeId := if odd then 15 else bits v 4 4, degraded := bit v 8, relocating := bit v 9,
    scarfCopied := bit v 10, padded := bit v 11, timeUnset := bit v 12, repaired := bit v 13,
    chunkOffset := bits v 48 36, sealSeq := bits v 84 44 }

/-- A set state from its number (R53); a number from 6 up is taken as DEGRADED (R56). -/
def setStateOf (n : Nat) : SetState :=
  match n with
  | 1 => .active
  | 2 => .degraded
  | 3 => .rebuilding
  | 4 => .retiring
  | 5 => .retired
  | 0 => .unused
  | _ => .degraded

/-- A new ACTIVE set (R53). -/
def SetRec.built (pool : Nat) (q : Params) (imported : Bool) (members : List Nat) : SetRec :=
  { state := .active, pool := pool, k := q.k, m := q.m, gen := q.gen, members := members, failedPos := [], openBand := none,
    openFill := 0, single := q.single, imported := imported, rebuild := [], enteredRb := 0, passRunning := false,
    passSubs := [], held := false, tideDone := 0, tideCursor := 0, bandOpenLogged := false, fill := 0,
    oddState := false }

/-- A set from its table entry (R53): its index and what it holds. -/
def parseSet (bs : List Byte) : Nat × SetRec :=
  let w := leAt bs 4 1
  let mem := leAt bs 48 80
  let members := (List.range w).map (fun i => bits mem (10 * i) 10)
  let ob := leAt bs 8 4
  let recs := (List.range 4).filterMap (fun i =>
    let v := leAt bs (24 + 6 * i) 6
    if bit v 6 then
      some ({ pos := bits v 0 6, cursor := bits v 8 36, failedSlot := members.getD (bits v 0 6) 1024 } : RbRec)
    else none)
  (leAt bs 0 2,
   { SetRec.built (leAt bs 2 1) { k := leAt bs 5 1, m := w - leAt bs 5 1, chunk := 0, bandMiB := 0, d := 0,
                                  single := bit (leAt bs 21 1) 0, gen := leAt bs 6 2 } (bit (leAt bs 21 1) 1) members with
     state := setStateOf (leAt bs 3 1), openBand := if ob = 0xFFFFFFFF then none else some ob
     openFill := leAt bs 12 2, rebuild := recs, bandOpenLogged := ob != 0xFFFFFFFF
     oddState := decide (leAt bs 3 1 > 5) })

/-- Code parameters from their block (R282). -/
def parseParams (bs : List Byte) : Params :=
  { k := leAt bs 2 1, m := leAt bs 3 1, chunk := leAt bs 4 1, bandMiB := leAt bs 8 2, d := leAt bs 5 1,
    single := bit (leAt bs 6 1) 0, gen := leAt bs 0 2 }

/-- Member states from their numbers. -/
def memberStateOf (n : Nat) : MemberState :=
  match n with
  | 0 => .candidate
  | 1 => .spare
  | 2 => .active
  | 3 => .suspect
  | 4 => .failed
  | 5 => .retiring
  | 6 => .retired
  | _ => .foreign

/-- The slots of a list whose unused places hold 0xFFFF. -/
def parseSlots (bs : List Byte) (off n : Nat) : List Nat :=
  ((List.range n).map (fun i => leAt bs (off + 2 * i) 2)).filter (· ≠ 0xFFFF)

/-- The member entries of a descriptor, each with its flags (R282). -/
def parseMembers (bs : List Byte) : List (MemberEntry × Nat) :=
  (List.range (leAt bs 96 2)).map (fun i =>
    let o := 192 + 32 * i
    ({ slot := leAt bs (o + 8) 2, wwn := leAt bs o 8, state := memberStateOf (leAt bs (o + 10) 1) }, leAt bs (o + 11) 1))

/-- A pending release record from its 64 bytes (R300). -/
def parsePend (bs : List Byte) : PendRel :=
  let l := locatorOf bs
  { pool := l.pool, stripe := l.stripe, off := l.off, len := l.len, tag := BitVec.ofNat 256 (leAt bs 16 32),
    time := leAt bs 48 8 }

/-- A loss record from its 64 bytes (R228). -/
def parseLoss (bs : List Byte) : LossRec :=
  let l := locatorOf (bs.drop 12)
  { kind := leAt bs 0 1, cause := leAt bs 1 1, tagKnown := bit (leAt bs 2 1) 0, timeUnset := bit (leAt bs 2 1) 1,
    time := leAt bs 4 8, stripe := l.stripe, off := l.off, len := l.len, tag := BitVec.ofNat 256 (leAt bs 28 32) }

/-- A new pool under creation (R83). -/
def Pool.created (side uuid : Nat) (name : List Byte) (q : Params) (pol : Policy) (sill journal : List Nat)
    (sillBands entries now : Nat) : Pool :=
  { state := .none, side := side, uuid := uuid, name := name, params := q, policy := pol, members := [], sill := sill,
    journal := journal, sillBands := sillBands, genTop := q.gen, tableEntries := entries, created := now, imported := false, nextFresh := 0,
    freed := [], reserved := 0, reserveQueued := 0, sealSeq := 0, appendSeq := 0, jseq := 0, descSeq := 1, deltaCount := 0, deltaSeq := 0,
    ckptGen := 0, logs := [], ckpt := none, ckptWanted := false, gather := [], jBlock := [], jWritten := [],
    jBandsSince := 0, openSeq := 0, lossFirst := 0, loss := [], lossOverflow := false, lossDropped := 0, scarf := none,
    round := 0, roundStart := 0, lastDays := 0, roundOver := false, verified := 0, tideLate := false, tideWaking := false,
    tideWake := none, tideMark := 1000, tideLog := [], recovery := .none, resynced := 0, lostStripes := 0, startLayer := 0,
    writesStopped := false, giving := none, labelWaits := 0, protWaits := [], failedWwn := [] }

/-! ### Reasons of a checkpoint that something waits for -/

/-- Period, half log, reclaim. -/
def ckPlain : Nat := 0
/-- Pool creation (R83 step 6). -/
def ckCreate : Nat := 1
/-- End of recovery (R192). -/
def ckRecover : Nat := 2
/-- SCARF_START (R253 step 6). -/
def ckScarf : Nat := 3
/-- The commit of a scarf (R268 step 2). -/
def ckCommit : Nat := 4
/-- The abort point (R271 step 6). -/
def ckAbort : Nat := 5
/-- Preparation of a WARM reset or HARBOUR. -/
def ckOrderly : Nat := 6

/-! ### Bands a set holds -/

/-- Band offsets a set holds in any state but FREE, rising, as the members' maps show them. -/
def State.heldBands (s : State) (i : Nat) : List Nat :=
  let bs := (s.se.bands.filter (fun e => e.2.2 = i &&
    (e.2.1 = .opened || e.2.1 = .full || e.2.1 = .drained || e.2.1 = .substitute) &&
    (s.membersOf i).contains (e.1 / 2 ^ 32))).map (fun e => e.1 % 2 ^ 32)
  sortBy (· ≤ ·) (bs.eraseDups)

/-! ### Sections read back (R297) -/

/-- Records of `n` bytes a section holds, up to its last byte that is not 0. -/
def records (m : List Host.Cell) (n first : Nat) : List (List Byte) :=
  let top := m.foldl (fun a c => max a (c.1 + 1)) 0
  (List.range (ceilDiv (top - first) n)).map (fun i => memRead m (first + n * i) n)

/-- The stripe table a section holds: its stripes that are not FREE. -/
def parseTable (p : Nat) (m : List Host.Cell) : Tab Stripe :=
  ((records m 16 0).zipIdx.filter (fun e => leAt e.1 0 1 % 16 != 0)).map (fun e => (stripeKey p e.2, parseStripe e.1))

/-- The FREE chain of a stripe table from a number, oldest first (R298). -/
def freeChain (m : List Host.Cell) : Nat → Nat → List Nat
  | 0, _ => []
  | k + 1, n =>
    if n = 0xFFFFFFFFFF then []
    else n :: freeChain m k (bits (leVal (memRead m (16 * n) 16)) 16 40)

/-- The state of a scarf from its number. -/
def scarfStateOf (n : Nat) : ScarfState :=
  match n with
  | 1 => .copying
  | 2 => .copied
  | 3 => .committing
  | 4 => .aborting
  | 5 => .stalled
  | _ => .none

/-- The scarf a descriptor and a SCARF section describe (R282, R302); one whose STATE is NONE had not begun (log entry 162). -/
def parseScarf (d : List Byte) (m : List Host.Cell) (mark : Bool) : Option Scarf :=
  let n := leVal (memRead m 16 8)
  let cursors := leVal (memRead m 8 8)
  let q := leVal (memRead m 24 8)
  let nums := fun (o k : Nat) => (List.range k).map (fun i => leVal (memRead m (o + 8 * i) 8))
  let st := scarfStateOf (leVal (memRead m 0 1))
  let ms := parseMembers d
  let old := slice d 40 24
  if bit (leAt d 36 1) 1 ∧ st ≠ .none then
    some { state := st, old := if st = .aborting then parseParams (slice d 64 24) else parseParams old,
           oldEntries := if mark then 0 else leAt old 16 8, oldSill := parseSlots d 104 5, oldJournal := parseSlots d 124 3,
           oldSillBands := leAt old 12 4, oldMembers := (ms.filter (fun e => bit e.2 2)).map (fun e => e.1.slot),
           newMembers := (ms.filter (fun e => bit e.2 3)).map (fun e => e.1.slot), taken := [],
           returnList := if mark then [] else nums (64 + 16 * cursors) n
           recopy := if mark then [] else nums (64 + 16 * cursors + 8 * n) q, opened := [],
           commitMark := mark }
  else none

/-- The bands of a pool as its set table, stripe table and exceptions give them (R299); a STATE of 8 to 15 is BAD (R64). Sill bands are
the lowest that hold nothing else: 1 to S, and above them those of a scarf's other layout on the same drive (log entry 162). -/
def deriveBands (units : Nat → Nat) (layouts : List (List Nat × Nat)) (sets : Tab SetRec) (stripes : Tab Stripe)
    (excepts : List (List Byte)) : Tab (BandState × Nat) :=
  let placed := stripes.flatMap (fun (e : Nat × Stripe) =>
    let live := e.2.state != .released
    (e.2.set, e.2.chunkOffset, live) :: (if e.2.scarfCopied && !e.2.fromScarf then [(e.2.oldSet, e.2.oldOffset, live)] else []))
  let base := placed.foldl (fun (a : Tab (BandState × Nat)) (e : Nat × Nat × Bool) =>
    match Tab.get? sets e.1 with
    | some x =>
      let b := e.2.1 / units x.gen
      if b = 0 then a else x.members.foldl (fun (a : Tab (BandState × Nat)) (n : Nat) =>
        let was := Tab.getD a (bandKey n b) (BandState.drained, e.1)
        Tab.set a (bandKey n b) (if e.2.2 then (.full, e.1) else was)) a
    | none => a) []
  let opened := sets.foldl (fun (a : Tab (BandState × Nat)) (e : Nat × SetRec) =>
    match e.2.openBand with
    | some b => e.2.members.foldl (fun (a : Tab (BandState × Nat)) (n : Nat) => Tab.set a (bandKey n b) (.opened, e.1)) a
    | none => a) base
  let marked := excepts.foldl (fun (a : Tab (BandState × Nat)) (r : List Byte) =>
    let k := bandKey (leAt r 0 2) (leAt r 4 4)
    let was := Tab.getD a k (BandState.free, 0)
    if leAt r 2 1 ≥ 7 then Tab.set a k (.bad, 0)
    else if leAt r 2 1 = 6 then Tab.set a k (.substitute, was.2) else a) opened
  layouts.foldl (fun (a : Tab (BandState × Nat)) (l : List Nat × Nat) =>
    l.1.foldl (fun (a : Tab (BandState × Nat)) (n : Nat) =>
      let taken := (a.filter (fun e => e.1 / 2 ^ 32 = n)).map (fun e => e.1 % 2 ^ 32)
      let low := (((List.range (l.2 + taken.length)).map (· + 1)).filter (fun b => !taken.contains b)).take l.2
      low.foldl (fun (a : Tab (BandState × Nat)) (b : Nat) => Tab.set a (bandKey n b) (.sill, 0)) a) a) marked

/-- The section number under which the stripe table of a scarf's new generation is given beside the old one (R303). -/
def newTable : Nat := 15

/-- A set of another generation than the pool's, where no scarf runs, is RETIRED (R268 step 7, R271 step 7). -/
def SetRec.settled (x : SetRec) (gen : Nat) (scarf committed : Bool) : SetRec :=
  if scarf then (if committed && x.gen != gen then { x with rebuild := [] } else x)
  else if x.gen = gen ∨ x.state = .retired then x
  else { x with state := .retired, openBand := none, openFill := 0, rebuild := [] }

/-- A stripe of the old table and its entry in the new one (R254, R256): the new placement serves it once SCARF_COPIED is set. -/
def mergeCopied (gen : Nat) (t : Stripe) (entry : List Byte) : Stripe :=
  let n := parseStripe entry
  let t := { t with fromScarf := t.scarfCopied && t.gen = gen }
  if t.scarfCopied && n.state != .free then
    { t with set := n.set, chunkOffset := n.chunkOffset, gen := n.gen, sealSeq := n.sealSeq, padded := n.padded,
             oldSet := t.set, oldOffset := t.chunkOffset, oldGen := t.gen, oldSeal := t.sealSeq }
  else t

/-- The tables of a pool as the sections of a checkpoint or a standby copy give them (R282, R297 to R302). -/
def tablesOfSections (pol : Policy) (p : Nat) (sec : Nat → List Host.Cell) : PoolTables :=
  let dm := sec 2
  let d := memRead dm 0 (192 + 32 * leVal (memRead dm 96 2))
  let head := memRead (sec 1) 0 64
  let tm := sec 4
  let nm := sec newTable
  let stripes := (parseTable p tm).map (fun e => (e.1, mergeCopied (leAt d 34 2) e.2 (memRead nm (16 * keyStripe e.1) 16)))
  let whole := leAt head 56 1 = 1 ∧ leVal (memRead (sec 10) 0 1) = 3 ∧ stripes.all (fun e => !e.2.scarfCopied)
  let scarf := parseScarf d (sec 10) whole
  let aborting := (scarf.map (·.state)) = some .aborting
  let cur := slice d 40 24
  let new := if scarf.isSome then slice d 64 24 else cur
  let q := parseParams (if aborting then cur else new)
  let other := parseParams (if aborting then new else cur)
  let sets := ((records (sec 3) 128 0).map parseSet).map (fun e => (e.1, SetRec.settled e.2 q.gen scarf.isSome whole))
  let setTab := sets.foldl (fun (a : Tab SetRec) (e : Nat × SetRec) =>
    if e.2.state = .unused then a else Tab.set a e.1 { e.2 with pool := p }) []
  let free := freeChain tm (leAt head 48 8) (leAt head 32 8)
  let lm := sec 8
  let lh := memRead lm 0 16
  let td := memRead (sec 9) 0 32
  let ms := parseMembers d
  let pool : Pool :=
    { Pool.created (leAt d 7 1) (leAt d 16 16) (slice d 136 32) q pol
        (parseSlots d (if scarf.isSome then 114 else 104) 5) (parseSlots d (if scarf.isSome then 130 else 124) 3)
        (leAt new 12 4) (leAt new 16 8) (leAt d 88 8) with
      state := .partner, members := ms.map (fun e => e.1.slot), descSeq := leAt d 8 8, imported := bit (leAt d 36 1) 0
      sealSeq := leAt head 0 8, appendSeq := leAt head 8 8, deltaSeq := leAt head 16 8, jseq := leAt head 24 8
      nextFresh := leAt (if whole then new else cur) 16 8
      genTop := sets.foldl (fun m e => max m e.2.gen) (max (leAt cur 0 2) (leAt new 0 2)), freed := free, lossFirst := leAt lh 0 8, lossOverflow := bit (leAt lh 12 4) 0
      loss := (List.range (leAt lh 8 4)).map (fun i => parseLoss (memRead lm (16 + 64 * i) 64))
      round := leAt td 0 4, lastDays := leAt td 4 4, roundStart := leAt td 8 8, verified := leAt td 16 8, scarf := scarf }
  let tide := (records (sec 9) 16 32).foldl (fun (a : Tab SetRec) (r : List Byte) =>
    Tab.modify a (leAt r 0 2) (fun x => { x with tideDone := leAt r 4 4, tideCursor := leAt r 8 8 })) setTab
  { pool := pool, sets := tide
    stripes := (records (sec 7) 128 0).foldl (fun (a : Tab Stripe) (r : List Byte) =>
      Tab.modify a (stripeKey p (leAt r 0 8)) (fun t => t.applyLedger r)) stripes
    bands := deriveBands (fun g => if g = q.gen then q.bandUnits else other.bandUnits) ((match scarf with
      | some c => [(c.oldSill, c.oldSillBands)]
      | none => []) ++ [(pool.sill, pool.sillBands)]) tide stripes (records (sec 5) 8 0) }

/-- The pending release records of a section (R300). -/
def pendingOf (p : Nat) (sec : Nat → List Host.Cell) : List PendRel :=
  ((records (sec 6) 64 0).map parsePend).filter (fun r => r.pool = p && r.len != 0)

/-- Slots and bands of exceptions with a reserved STATE (R64). -/
def oddBands (sec : Nat → List Host.Cell) : List (Nat × Nat) :=
  ((records (sec 5) 8 0).filter (fun r => leAt r 2 1 > 7)).map (fun r => (leAt r 0 2, leAt r 4 4))

/-! ### Sections as the device writes them (R297) -/

/-- The FREE number after `n` in the order of reuse (R69, R298): numbers never used come before those that became FREE. -/
def Pool.nextFree (x : Pool) (n : Nat) : Nat :=
  let none_ := 0xFFFFFFFFFF
  if n ≥ x.nextFresh then (if n + 1 < x.numberLimit then n + 1 else x.freed.head?.getD none_)
  else (x.freed.drop (x.freed.idxOf n + 1)).head?.getD none_

/-- The oldest and the newest FREE stripe number of a pool, and how many are FREE (R297). -/
def Pool.freeEnds (x : Pool) : Nat × Nat × Nat :=
  let none_ := 0xFFFFFFFFFF
  let fresh : Bool := x.nextFresh < x.numberLimit
  (if fresh then x.nextFresh else x.freed.head?.getD none_, x.freed.getLast?.getD (if fresh then x.numberLimit - 1 else none_),
   x.freed.length + (x.numberLimit - x.nextFresh))

/-- Whether checkpoints mark a scarf NONE: from the abort point on (R271 step 6). -/
def Pool.abortDone (x : Pool) : Bool :=
  match x.scarf with
  | some c => c.state = .aborting && (c.commitMark || (match x.ckpt with
    | some k => k.reason = ckAbort
    | none => false))
  | none => false

/-- A pool as its checkpoints describe it: in the old layout alone from the abort point on (R271 step 6). -/
def Pool.recorded (x : Pool) : Pool :=
  match x.scarf with
  | some c =>
    if Pool.abortDone x then
      { x with scarf := none, params := x.oldParams, tableEntries := c.oldEntries, sill := c.oldSill, journal := c.oldJournal,
               sillBands := c.oldSillBands }
    else x
  | none => x

/-- A pool as the commit checkpoint gives it to the new generation's sill members (R268 step 2): its new table is the pool's, in which
old-generation stripes without a copy are FREE. -/
def State.commitView (s : State) (p : Nat) (x : Pool) : Pool :=
  match x.scarf with
  | some c =>
    if c.state = .committing && !c.commitMark then
      { x with freed := x.freed ++ ((s.stripesOf p).filter (fun e => !e.2.scarfCopied)).map (·.1), scarf := some { c with commitMark := true } }
    else x
  | none => x

/-- COMMIT_MARK (R297): 1 in the checkpoints of a generation a scarf committed. Generation 1 is the pool's first. -/
def Pool.marked (x : Pool) (old : Bool) : Bool :=
  match x.scarf with
  | some c => if old then x.oldParams.gen != 1 else c.forward && c.commitMark
  | none => x.params.gen != 1

/-- Section POOL (R297). -/
def Pool.poolSection (x : Pool) (old : Bool) : List Byte :=
  let e := Pool.freeEnds x
  withCrc (leBytes 8 x.sealSeq ++ leBytes 8 x.appendSeq ++ leBytes 8 x.deltaSeq ++ leBytes 8 x.jseq ++ leBytes 8 e.1 ++
    leBytes 8 e.2.1 ++ leBytes 8 e.2.2 ++ leBytes 1 (b2n (Pool.marked x old)) ++ zeros 7)

/-- A stripe as the old generation's table shows it while a scarf runs (R254). -/
def Stripe.oldView (t : Stripe) : Stripe :=
  if !t.scarfCopied then t
  else if t.fromScarf then { t with set := 0, chunkOffset := 0 }
  else { t with set := t.oldSet, chunkOffset := t.oldOffset, gen := t.oldGen, sealSeq := t.oldSeal }

/-- Section STRIPE_TABLE of the old generation, or of the only one (R298, R254). -/
def State.tableSection (s : State) (p : Nat) (x : Pool) : List Byte :=
  (List.range x.numberLimit).flatMap (fun n =>
    match s.stripe? p n with
    | some t => stripeEntry (if x.scarf.isSome then (Stripe.oldView t) else t)
    | none => leBytes 16 (Pool.nextFree x n * 2 ^ 16))

/-- Section STRIPE_TABLE of a scarf's new generation (R254, R303): beside the old table, or once it is the pool's own (R268). -/
def State.newTableSection (s : State) (p : Nat) (x : Pool) : List Byte :=
  let own := Pool.marked x false
  let chain := fun (n : Nat) => if own then leBytes 16 (Pool.nextFree x n * 2 ^ 16) else zeros 16
  (List.range x.tableEntries).flatMap (fun n =>
    match s.stripe? p n with
    | some t => if t.scarfCopied || (own && !x.freed.contains n) then stripeEntry { t with scarfCopied := false } else chain n
    | none => chain n)

/-- Section BAND_EXCEPT (R297). -/
def State.exceptSection (s : State) (x : Pool) : List Byte :=
  (s.se.bands.filter (fun e => x.members.contains (e.1 / 2 ^ 32) && (e.2.1 = .substitute || e.2.1 = .bad))).flatMap (fun e =>
    leBytes 2 (e.1 / 2 ^ 32) ++ leBytes 1 (if e.2.1 = .bad then 7 else 6) ++ zeros 1 ++ leBytes 4 (e.1 % 2 ^ 32))

/-- Where the copier stands in a set of the old generation: the first stripe it has not copied, or the set's end (R257, R302). -/
def State.copyCursor (s : State) (p i : Nat) (x : SetRec) (q : Params) : Nat :=
  ((s.stripesOf p).filter (fun e => e.2.set = i && e.2.state = .written && !e.2.scarfCopied)).foldl
    (fun m e => min m e.2.chunkOffset) (x.nextOffset q)

/-- A 16-byte record of a set's cursor (R301, R302). -/
def cursorRecord (i round cursor : Nat) : List Byte := leBytes 2 i ++ zeros 2 ++ leBytes 4 round ++ leBytes 8 cursor

/-- Section SCARF (R302). -/
def State.scarfSection (s : State) (p : Nat) (c : Scarf) (new : Params) : List Byte :=
  let old := (s.setsOf p).filter (fun e => e.2.gen = c.old.gen)
  withCrc (leBytes 1 (scarfCode c.state) ++ zeros 1 ++ leBytes 2 c.old.gen ++ leBytes 2 new.gen ++ zeros 2 ++
    leBytes 8 old.length ++ leBytes 8 c.returnList.length ++ leBytes 8 c.recopy.length ++ zeros 28) ++
  old.flatMap (fun e => cursorRecord e.1 0 (s.copyCursor p e.1 e.2 c.old)) ++
  (c.returnList ++ c.recopy).flatMap (leBytes 8)

/-- Section PROTECT: the latest protection record of the side (R297, R304). -/
def State.protSection (s : State) : List Byte :=
  match s.sec.committed with
  | some (gen, time, table) => protRecord s.pl.side gen time (fun x => Tab.getD table x (ProtEntry.mk 0 0 0))
  | none => []

/-- A section of a pool's checkpoint or standby copy, by its type (R297). -/
def State.sectionBytes (s : State) (p : Nat) (x : Pool) (old : Bool) (ty : Nat) : List Byte :=
  let x := Pool.recorded x
  let x := if old then x else s.commitView p x
  let loss := leBytes 8 x.lossFirst ++ leBytes 4 x.loss.length ++ leBytes 4 (b2n x.lossOverflow)
  match ty with
  | 1 => Pool.poolSection x old
  | 2 => s.descriptor p x
  | 3 => (s.setsOf p).flatMap (fun e => s.setEntry e.1 e.2 (s.heldBands e.1).length)
  | 4 => if old || x.scarf.isNone then s.tableSection p x else s.newTableSection p x
  | 5 => s.exceptSection x
  | 6 => (s.se.pending.filter (fun r => r.pool = p)).flatMap pendRecord
  | 7 => ((s.stripesOf p).filter (fun e => e.2.inLedger)).flatMap (fun e => ledgerEntry e.1 e.2)
  | 8 => loss ++ x.loss.flatMap (lossBytes p)
  | 9 => withCrc (leBytes 4 x.round ++ leBytes 4 x.lastDays ++ leBytes 8 x.roundStart ++ leBytes 8 x.verified ++ zeros 4) ++
      (s.setsOf p).flatMap (fun e => cursorRecord e.1 e.2.tideDone e.2.tideCursor)
  | 10 => match x.scarf with
    | some c => s.scarfSection p c x.newParams
    | none => []
  | 11 => s.protSection
  | _ => []

/-- The section types a checkpoint of a pool holds, in order (R297): SCARF only while a scarf runs. -/
def Pool.sectionTypes (x : Pool) : List Nat := (List.range 12).filter (fun i => i != 0 && (i != 10 || x.scarf.isSome))

/-- The sections of a pool's checkpoint in order (R297), for the sill members of the old or of the new generation (R303). -/
def State.checkpoint (s : State) (p : Nat) (x : Pool) (old : Bool) : List (Nat × List Byte) :=
  (Pool.sectionTypes (Pool.recorded x)).map (fun i => (i, s.sectionBytes p x old i))

/-! ### Records of the sill log (R290 to R295, R305) -/

/-- A record to be written: its kind, AUX, what its header block holds from byte 64, and its body (R291). -/
structure SillRec where
  kind : Nat
  aux : Nat
  head : List Byte
  body : List Byte

/-- Bytes padded to whole 4 KiB blocks. -/
def toBlocks (bs : List Byte) : List Byte := padTo (4096 * ceilDiv bs.length 4096) bs

/-- The bytes of a record under a LOG_SEQ (R291). -/
def State.sillBytes (s : State) (x : Pool) (gen seq : Nat) (r : SillRec) : List Byte :=
  let body := toBlocks r.body
  padTo 4096 (withCrc (ascii "FZSL" ++ leBytes 2 1 ++ leBytes 1 r.kind ++ leBytes 1 (b2n (!s.timeSet)) ++ leBytes 16 x.uuid ++
    leBytes 8 seq ++ leBytes 8 s.devNs ++ leBytes 8 gen ++ leBytes 8 (body.length / 4096) ++ leBytes 4 r.aux) ++ r.head) ++ body

/-- The records of a checkpoint (R295, R296): BEGIN with the section table, DATA of at most 255 body blocks each, and END with the
hash of each section. -/
def ckptRecords (sections : List (Nat × List Byte)) : List SillRec :=
  let padded := sections.map (fun e => toBlocks e.2)
  let starts := (List.range sections.length).map (fun i => ((padded.take i).map List.length).sum)
  let table := (sections.zip starts).flatMap (fun e => leBytes 4 e.1.1 ++ zeros 4 ++ leBytes 8 e.2 ++ leBytes 8 e.1.2.length ++ zeros 8)
  let body := padded.flatten
  let n := body.length / 4096
  [⟨2, sections.length, table, []⟩] ++
  (List.range (ceilDiv n 255)).map (fun i => ⟨3, 255 * i, [], slice body (255 * i * 4096) (min 255 (n - 255 * i) * 4096)⟩) ++
  [⟨4, sections.length, sections.flatMap (fun e => leBytes 32 (Config.sha3 e.2).toNat), []⟩]

/-- The blocks the next checkpoint of a pool takes (R292, R295). -/
def State.ckptBlocks (s : State) (p : Nat) (x : Pool) : Nat :=
  let sets := (s.setsOf p).length
  let blocks := ([68, 196 + 32 * x.members.length, 128 * sets, 16 * x.tableEntries, (s.exceptSection x).length,
    64 * s.se.pending.countP (fun r => r.pool = p), 128 * (s.stripesOf p).countP (fun e => e.2.inLedger), 16 + 64 * x.loss.length,
    32 + 16 * sets, (match x.scarf with
      | some c => 64 + 16 * sets + 8 * (c.returnList.length + c.recopy.length)
      | none => 0), 8384].map (fun n => ceilDiv n 4096)).sum
  2 + blocks + ceilDiv blocks 255

/-- The sill logs of a pool's sill and journal members (R290): slot and layout generation, of both while a scarf runs (R253) and of the
old one alone from the abort point on. -/
def Pool.liveLogs (x : Pool) : List (Nat × Nat) :=
  let old := match x.scarf with
    | some c => (c.oldSill ++ c.oldJournal).eraseDups.map (fun n => (n, x.oldParams.gen))
    | none => []
  if Pool.abortDone x then old else (x.sill ++ x.journal).eraseDups.map (fun n => (n, x.newParams.gen)) ++ old

/-- The sill logs on some of a pool's members. -/
def Pool.logsOf (x : Pool) (slots : List Nat) : List (Nat × Nat) := (Pool.liveLogs x).filter (fun e => slots.contains e.1)

/-- A sill log nothing has been written to. -/
def SillLog.empty : SillLog := { seq := 0, pos := 0, last := 0, done := 0, keep := 0 }

/-- The key of a sill log in a pool's table. -/
def logKey (n gen : Nat) : Nat := n * 2 ^ 16 + gen

/-- Blocks of a sill log of a generation (R290), and of a band. -/
def Pool.logSize (x : Pool) (gen : Nat) : Nat × Nat :=
  match x.scarf with
  | some c => if gen = x.newParams.gen then (x.sillBands * x.newParams.bandMiB * 256, x.newParams.bandMiB * 256)
      else (c.oldSillBands * x.oldParams.bandMiB * 256, x.oldParams.bandMiB * 256)
  | none => (x.sillBands * x.params.bandMiB * 256, x.params.bandMiB * 256)

/-- Blocks of a log the device may still write (R292): those before the band that holds the record after the second-latest complete
checkpoint. -/
def logFree (size band : Nat) (l : SillLog) : Nat := size - (l.pos - l.keep / (max band 1) * band)

/-- Whether some log of a pool would have less room than the next checkpoint needs (R183, R292). -/
def State.logTight (s : State) (p : Nat) (x : Pool) : Bool :=
  let live := (Pool.liveLogs x).map (fun e => logKey e.1 e.2)
  x.logs.any (fun e => let z := Pool.logSize x (e.1 % 2 ^ 16)
    live.contains e.1 && decide (z.1 > 0) && decide (logFree z.1 z.2 e.2 < s.ckptBlocks p x + 1))

/-- Append records to one sill log (R290, R291): each under the next LOG_SEQ in the next blocks; the log goes round,
and a zoned band is reset before it is written again (R292). -/
def State.appendLog (s : State) (p n lgen tag gen : Nat) (rs : List SillRec) : State :=
  match s.pool? p with
  | some x =>
    let size := (Pool.logSize x lgen).1
    let band := max (Pool.logSize x lgen).2 1
    s.each rs (fun r s =>
      match s.pool? p with
      | some y =>
        let l := Tab.getD y.logs (logKey n lgen) SillLog.empty
        let bs := s.sillBytes x gen (l.seq + 1) r
        let l' := { l with seq := l.seq + 1, pos := l.pos + bs.length / 4096, last := if r.kind = 4 then l.pos + 1 else l.last }
        let s := s.modPool p (fun y => { y with logs := Tab.set y.logs (logKey n lgen) l' })
        let zoned : Bool := match s.drive? n with
          | some d => d.info.zoned
          | none => false
        let again := if zoned then (List.range (bs.length / 4096)).filter (fun i => (l.pos + i) % band = 0 && l.pos + i ≥ size) else []
        let s := s.each again (fun i s => s.driveOut n 5 (1 + (l.pos + i) / band % max (size / band) 1) 0)
        s.driveOut n 4 p (tag + 4 * (l.pos % max size 1)) bs
      | none => s)
  | none => s

end Sys2Proof.Machine
end

