-- ==== Sys2Proof/Machine/Members.lean ====
section
/-! DEFINITION. Members and their failures (chapters 02 and 06): thresholds, substitutes and rebuild records, journal
members, lost chunks, relocation and repair, broken stripes. -/

namespace Sys2Proof.Machine

open Sys2Proof

/-! ### Error counts (R205) -/

/-- The thresholds of R205 in the order of the FAILURE section: unrecovered reads, bad bands and timeouts, each to SUSPECT
and to FAILED, then hardware errors to FAILED. -/
def State.threshold (s : State) (i : Nat) : Nat :=
  match s.boot.image with
  | some m => m.failure.getD i ([8, 64, 1, 4, 1, 3, 3].getD i 0)
  | none => [8, 64, 1, 4, 1, 3, 3].getD i 0

/-- Nanoseconds of 24 h. -/
def dayNs : Nat := 86400 * 10 ^ 9

/-- Times of the last 24 h. -/
def State.within24 (s : State) (ts : List Nat) : List Nat := ts.filter (fun t => s.devNs < t + dayNs)

/-- The pool a member serves, if any. -/
def State.memberPool (s : State) (n : Nat) : Option Nat :=
  match s.drive? n with
  | some d => if d.serves d.pool then some d.pool else none
  | none => none

/-! ### Bands a set holds -/

/-- State of a band of a set on the members whose map holds it (not as SUBSTITUTE). -/
def State.setBandState (s : State) (i b bandMiB : Nat) : BandState :=
  match (s.membersOf i).find? (fun m => (s.band m b bandMiB).2 = i && (s.band m b bandMiB).1 != .substitute) with
  | some m => (s.band m b bandMiB).1
  | none => .free

/-- Parameters of a set. -/
def State.setParams (s : State) (i : Nat) : Option Params :=
  match s.set? i with
  | some x => (s.pool? x.pool).map (fun p => p.paramsOf x.gen)
  | none => none

/-! ### Labels and descriptors (R280, R283) -/

/-- Issue one copy of a label into the next unused slot of the front or the back band (R280): a band without one is started again at
slot 0, on a zoned drive after a reset of its zone. -/
def State.issueLabel (s : State) (n : Nat) (d : Drive) (kind : LabelKind) (back : Bool) : State :=
  let i := if back then d.labelRear else d.labelFront
  let full := decide (i ≥ 4096)
  let i := if full then 0 else i
  let band := match kind, s.pool? d.pool with
    | .member, some x => x.params.bandMiB
    | _, _ => if d.info.zoned then d.info.zoneMiB else 256
  let s : State := if full && d.info.zoned then s.driveOut n 5 (if back then d.info.bands band - 1 else 0) 0 else s
  let s := s.modDrive n (fun d => if back then { d with labelRear := i + 1 } else { d with labelFront := i + 1 })
  s.driveOut n 3 (b2n back) i (s.labelBytes n d kind back)

/-- Write a label of a kind to a drive (R280): the front copy is issued; what it says is fixed by the drive's record.
One of a pool waits while the silence rules hold (R466). -/
def State.writeLabel (s : State) (n : Nat) (kind : LabelKind) : State :=
  let s := s.modDrive n (fun d => { d with labelWant := some kind, labelBack := false })
  match s.drive? n with
  | some d =>
    if kind = .member ∧ s.silenced then s else (s.wake [n] 1).issueLabel n d kind false
  | none => s

/-- A new descriptor of a pool under a higher DESC_SEQ (R283): written at once into the labels of awake members; a sleeping
member gets it when it next wakes. None is written while SILENT or FENCED (R466, R467). -/
def State.newDescriptor (s : State) (p : Nat) : State :=
  let s := s.modPool p (fun x => { x with descSeq := x.descSeq + 1 })
  match s.pool? p with
  | some x =>
    if s.silenced then s
    else
      s.each (x.members.filter (fun n => s.awake n && (match s.drive? n with
        | some d => d.serves p && !d.linkDown
        | none => false))) (fun n s => s.writeLabel n .member)
  | none => s

/-! ### Substitutes (R209 to R211) -/

/-- Whether `d` is a substitute with open records for a member other than `f` (R209). -/
def State.substForOther (s : State) (d f : Nat) : Bool :=
  s.se.sets.any (fun e => e.2.rebuild.any (fun r => e.2.members.getD r.pos 1024 = d && r.failedSlot != f)) ||
  (match s.drive? d with
   | some v => match v.substFor with
     | some g => g != f
     | none => false
   | none => false)

/-- Sets a drive has received from failed member `f`. -/
def State.receivedFrom (s : State) (d f : Nat) : Nat :=
  s.se.sets.countP (fun e => e.2.rebuild.any (fun r => e.2.members.getD r.pos 1024 = d && r.failedSlot = f))

/-- Whether drive `d` may substitute failed slot `f` in set `i` (R209, R398). -/
def State.substOk (s : State) (i d f : Nat) : Bool :=
  match s.set? i, s.drive? d, s.setParams i with
  | some x, some v, some q =>
    let adopt := match s.pool? x.pool with
      | some p => p.policy.adoptSlot
      | none => false
    (v.state = .spare || (v.state = .candidate && d = f && adopt) ||
      (v.state = .active && v.pool = x.pool && s.receivedFrom d f > 0)) &&
    v.info.bandBytes q.bandMiB = q.bandMiB * 2 ^ 20 && (!v.info.zoned || v.info.openZones ≥ q.d + 2) && !v.linkDown &&
    v.classified &&
    (match s.slot? d with
     | some sl => !sl.noPr && !sl.unsupported
     | none => false) &&
    (s.heldBands i).all (fun b => b + 1 < v.info.bands q.bandMiB) && !x.members.contains d && !s.substForOther d f
  | _, _, _ => false

/-- Whether substitute `a` is preferred to `b` for failed slot `f` in set `i` (R209). -/
def State.substBetter (s : State) (i f a b : Nat) : Bool :=
  match s.set? i with
  | some x =>
    let inGroup := fun d => x.members.countP (fun m => s.failGroup m = s.failGroup d)
    let near := fun d => s.wakeGroup d = s.wakeGroup (x.members.getD 0 0)
    if s.receivedFrom a f != s.receivedFrom b f then s.receivedFrom a f < s.receivedFrom b f
    else if inGroup a != inGroup b then inGroup a < inGroup b
    else if near a != near b then near a
    else a < b
  | none => false

/-- A drive becomes a member of a pool: its label is to be written (R280) and its reservation registered (R395). -/
def State.joinPool (s : State) (n p : Nat) : State :=
  let s := s.modDrive n (fun d => { d with state := .active, pool := p, ures := [], bads := [], timeouts := 0,
                                            hwErrors := 0, spinFails := 0 })
  let s := s.modPool p (fun x => { x with members := if x.members.contains n then x.members else x.members ++ [n] })
  (s.writeLabel n .member).wake [n] 1

/-- Assign substitute `d` to position `q` of set `i` for failed slot `f` (R210): its bands, its record, REBUILDING. -/
def State.assignSubst (s : State) (i q d f : Nat) : State :=
  match s.set? i, s.setParams i with
  | some x, some pr =>
    let bs := s.heldBands i
    let s : State := match s.drive? d with
      | some v => if v.state = .active then s else s.joinPool d x.pool
      | none => s
    let live := bs.filter (fun b => s.setBandState i b pr.bandMiB != .drained)
    let s := s.each bs (fun b s =>
      s.setBand d b (if s.setBandState i b pr.bandMiB = .drained then .drained else .substitute) i)
    let opened := live.head?.map (fun b => ({ pos := q, cursor := b * pr.bandUnits, failedSlot := f } : RbRec))
    let failed := x.failedPos.filter (· ≠ q)
    s.modSet i (fun x =>
      { x with members := x.members.set q d, failedPos := failed,
               rebuild := x.rebuild.filter (fun r => r.pos ≠ q) ++ opened.toList,
               enteredRb := if x.state = .rebuilding then x.enteredRb else s.devNs,
               state := if failed.isEmpty then
                   (if opened.isNone && (x.rebuild.filter (fun r => r.pos ≠ q)).isEmpty then .active else .rebuilding)
                 else .degraded })
  | _, _ => s

/-- Whether set `a` is rebuilt before set `b` (R215). -/
def State.rebuildBefore (s : State) (a b : Nat × SetRec) : Bool :=
  if s.margin a.2 != s.margin b.2 then s.margin a.2 < s.margin b.2
  else if s.setAwake a.2 != s.setAwake b.2 then s.setAwake a.2
  else if a.2.enteredRb != b.2.enteredRb then a.2.enteredRb < b.2.enteredRb
  else a.1 < b.1

/-- Assign what substitutes the drives `allow` permits, set by set in the order of R215 (R209, R211). -/
def State.assignAll (s : State) (allow : Nat → Bool) : State :=
  let needy := sortBy (fun a b => s.rebuildBefore a b) (s.se.sets.filter (fun e => !e.2.failedPos.isEmpty && e.2.state = .degraded && s.poolUp e.2.pool))
  s.each needy (fun e s =>
    s.each e.2.failedPos (fun q s =>
      let f := e.2.members.getD q 0
      match pickBest (s.substBetter e.1 f)
          ((Tab.keys s.se.drives).filter (fun d => allow d && s.substOk e.1 d f)) with
      | some d => s.assignSubst e.1 q d f
      | none => s))

/-- The mark of a CLAIM made for substitution. -/
def substClaim : Nat := 2 ^ 40

/-- Whether steps that take drives or identifiers need no CLAIM: unpaired, or the partner lost (R464). -/
def State.claimFree (s : State) : Bool := s.pl.peer = .unpaired || s.pl.peer = .lost

/-- Send a CLAIM for a step and remember it (R464). -/
def State.sendClaim (s : State) (pool : Nat) (slots : List Nat) (cmd : Nat) : State :=
  let id := s.pl.nextClaim % 256
  let s := { s with pl := { s.pl with nextClaim := s.pl.nextClaim + 1,
                                      claims := s.pl.claims ++ [Claim.mk pool id slots cmd] } }
  s.sendFrame 0x03 [pool, id] (slots.flatMap (leBytes 2))

/-- Assign substitutes where positions lack them: at once, or after a CLAIM while PAIRED (R209, R211, R464). -/
def State.substitute (s : State) : State :=
  if s.claimFree then s.assignAll (fun _ => true)
  else if s.pl.peer = .paired ∧ !s.pl.claims.any (fun c => c.cmd = substClaim) then
    let s := s.assignAll (fun d => s.pl.taken.contains d)
    let t := s.assignAll (fun _ => true)
    let slots := (Tab.keys s.se.drives).filter (fun d => (s.memberPool d).isNone && (t.memberPool d).isSome)
    if slots.isEmpty then s else s.sendClaim 0xFF slots substClaim
  else s

/-! ### Journal members (R179, R184) -/

/-- Choose `n` of the slots by step 3 of R83: rising, one for each new failure group, then the lowest remaining. -/
def State.spread (s : State) (n : Nat) (slots : List Nat) : List Nat :=
  let first := slots.foldl (fun acc d =>
    if acc.length < n && !acc.any (fun e => s.failGroup e = s.failGroup d) then acc ++ [d] else acc) []
  first ++ (slots.filter (fun d => !first.contains d)).take (n - first.length)

/-- The open bands of a pool's sets and its current reservation, as journal records (R184). -/
def State.journalNow (s : State) (p : Nat) (x : Pool) : List JRec :=
  (s.setsOf p).filterMap (fun e => e.2.openBand.map (fun b => JRec.bandOpen e.1 b)) ++
    (if x.reserved = 0 then [] else [.reserve (Pool.freeEnds x).1 x.reserved])

/-- Write the open bands and the current reservations to a journal member that takes another's place (R184). -/
def State.briefJournal (s : State) (p d : Nat) : State :=
  match s.pool? p with
  | some x =>
    if s.silenced then s
    else
      let rs := (s.journalNow p x).take 63
      let body := rs.zipIdx.flatMap (fun e => journalRecord (!s.timeSet) x.params.gen (x.jseq + 1 + e.2) e.1)
      let s := (s.modPool p (fun y => { y with jseq := x.jseq + rs.length })).wake [d] 1
      s.appendLog p d x.newParams.gen 1 x.ckptGen [⟨1, rs.length, body, []⟩]
  | none => s

/-- Replace a failed journal member by the preferences of R184 and journal a MEMBERS record; the replacement is told what is open. -/
def State.replaceJournal (s : State) (p n : Nat) : State :=
  match s.pool? p with
  | some x =>
    if x.journal.contains n then
      let others := x.journal.filter (· ≠ n)
      let ok := fun d => !others.contains d && d != n &&
        (match s.drive? d with
         | some v => v.serves p && !v.linkDown
         | none => false)
      let newGroup := fun d => !others.any (fun e => s.failGroup e = s.failGroup d)
      let sill := sortBy (· ≤ ·) x.sill
      let members := sortBy (· ≤ ·) x.members
      let choice := ((sill.filter (fun d => ok d && newGroup d)) ++ (members.filter (fun d => ok d && newGroup d)) ++
        (sill.filter ok) ++ (members.filter ok)).head?
      let js := match choice with
        | some d => x.journal.map (fun e => if e = n then d else e)
        | none => others
      let s := (s.modPool p (fun x => { x with journal := js })).journal p (.members js)
      let s : State := match choice with
        | some d => s.briefJournal p d
        | none => s
      s.newDescriptor p
    else s
  | none => s

/-! ### Lost chunks and broken stripes -/

/-- Positions of a stripe's serving placement that are lost. -/
def State.lostPos (s : State) (t : Stripe) : List Nat :=
  match s.set? t.set with
  | some x => (List.range x.members.length).filter (fun q => s.chunkLost x t q)
  | none => []

/-- Positions of a copied stripe's old placement that are lost. -/
def State.oldLost (s : State) (t : Stripe) : List Nat :=
  match s.set? t.oldSet with
  | some x => (List.range x.members.length).filter (fun q => s.posFailed x q || x.behind q t.oldOffset)
  | none => []

/-- A stripe becomes BROKEN (R225, R226): EXTENT_LOST for each live extent over a lost data chunk when the directory is
readable, else one STRIPE_LOST; the event. -/
def State.breakStripe (s : State) (p n cause : Nat) : State :=
  match s.pool? p, s.stripe? p n with
  | some x, some t =>
    let q := x.paramsOf t.gen
    let lost := s.lostPos t
    let dirLost := lost.contains (chunkPos n (q.k - 1) q.w)
    let s := s.modStripe p n (fun t => { t with state := .broken, dirLost := dirLost, degraded := true })
    let s := s.delta p n
    let s : State :=
      if dirLost then s.addLoss p (s.lossRec 1 cause n 0 0 none)
      else s.each (t.dir.filter (fun e => !e.void && !e.released && !e.releasedAtSeal)) (fun e s =>
        let c := extentChunks q e.off e.len
        if (List.range (c.2 + 1)).any (fun i => c.1 ≤ i && lost.contains (chunkPos n i q.w)) then
          s.addLoss p (s.lossRec 0 cause n e.off e.len (some e.tag))
        else s)
    let s := s.raise 0x601 7 p (leBytes 8 n)
    s.gradePool p
  | _, _ => s

/-- A WRITTEN stripe that has lost more chunks than its parities becomes BROKEN (R226), unless a scarf holds another
placement: a copied stripe goes back to its old one and is copied again (R264). -/
def State.checkBroken (s : State) (p n cause : Nat) : State :=
  match s.pool? p, s.stripe? p n with
  | some x, some t =>
    let q := x.paramsOf t.gen
    if t.state = .written && (s.lostPos t).length > q.m then
      if t.scarfCopied && !t.fromScarf && (s.oldLost t).length ≤ (x.paramsOf t.oldGen).m then
        let s := s.modStripe p n (fun t =>
          { t with scarfCopied := false, set := t.oldSet, chunkOffset := t.oldOffset, gen := t.oldGen, sealSeq := t.oldSeal,
                   lost := [],
                   degraded := !(s.oldLost t).isEmpty })
        let s := s.modPool p (fun x => { x with scarf := x.scarf.map (fun c =>
          { c with recopy := c.recopy ++ [n], state := if c.state = .copied then .copying else c.state }) })
        (s.delta p n).bump SE_SCARF_RECOPY 0 SE_SCARF_RECOPY_COUNT
      else s.breakStripe p n cause
    else s
  | _, _ => s

/-- After positions of a set are lost: DEGRADED flags, broken stripes, and the return list of a scarf (R263). -/
def State.afterLoss (s : State) (i cause : Nat) : State :=
  s.each s.se.stripes (fun e s =>
    let p := keyPool e.1
    let n := keyStripe e.1
    match s.stripe? p n with
    | some t =>
      if t.set = i && t.state = .written then
        let s : State := if (s.lostPos t).isEmpty then s else s.modStripe p n (fun t => { t with degraded := true })
        s.checkBroken p n cause
      else if t.scarfCopied && !t.fromScarf && t.oldSet = i && t.state = .written then
        match s.pool? p with
        | some x =>
          if (s.oldLost t).length > (x.paramsOf t.oldGen).m then
            s.modPool p (fun x => { x with scarf := x.scarf.map (fun c =>
              { c with returnList := if c.returnList.contains n then c.returnList else c.returnList ++ [n] }) })
          else s
        | none => s
      else s
    | none => s)

/-- SEALED stripes of a set that no longer wait for a member may be WRITTEN (R72). -/
def State.settleSealed (s : State) (i : Nat) : State :=
  s.each s.se.stripes (fun e s =>
    if e.2.set = i && e.2.state = .sealed then s.writeDone (keyPool e.1) (keyStripe e.1) else s)

/-- A set loses a position: its record closes (R221), its pass ends (R216), and it is DEGRADED. -/
def State.degradeSet (s : State) (i q : Nat) : State :=
  let s := { s with se := { s.se with passes := Tab.erase s.se.passes i } }
  s.modSet i (fun x =>
    { x with failedPos := if x.failedPos.contains q then x.failedPos else x.failedPos ++ [q],
             rebuild := x.rebuild.filter (fun r => r.pos ≠ q), passRunning := false, passSubs := [],
             state := if x.state = .unused ∨ x.state = .retired then x.state else .degraded })

/-- A member moves to FAILED (R205): its sets are DEGRADED, substitutes assigned, journal members replaced, the event
recorded. `cause` as in SE_MEMBER_n_CAUSE. -/
def State.failMember (s : State) (n cause : Nat) : State :=
  match s.memberPool n with
  | some p =>
    let sets := s.se.sets.filter (fun e => e.2.members.contains n && e.2.pool = p && e.2.state != .retired)
    let s := s.modDrive n (fun d => { d with state := .failed, cause := cause, linkDown := false })
    let s := s.each sets (fun e s =>
      match e.2.members.idxOf? n with
      | some q => s.degradeSet e.1 q
      | none => s)
    let s := s.raise 0x609 5 p [BitVec.ofNat 8 cause]
    let s := s.each sets (fun e s => s.afterLoss e.1 0)
    let s := s.each sets (fun e s => s.settleSealed e.1)
    let s := s.replaceJournal p n
    let s := s.substitute
    (s.newDescriptor p).gradePool p
  | none => s

/-- A member moves to SUSPECT (R205). -/
def State.suspectMember (s : State) (n cause : Nat) : State :=
  match s.drive? n with
  | some d =>
    if d.state = .active then
      (s.modDrive n (fun d => { d with state := .suspect, cause := cause })).newDescriptor d.pool
    else s
  | none => s

/-- Apply a count to the thresholds of R205: FAILED at the second, SUSPECT at the first. -/
def State.judge (s : State) (n count suspectAt failAt cause : Nat) : State :=
  if (s.memberPool n).isNone then s
  else if count ≥ failAt then s.failMember n cause
  else if count ≥ suspectAt then s.suspectMember n cause
  else s

/-- An unrecovered read error of a member (R205). -/
def State.readError (s : State) (n : Nat) : State :=
  match s.drive? n with
  | some d =>
    let ts := s.within24 d.ures ++ [s.devNs]
    (s.modDrive n (fun d => { d with ures := ts })).judge n ts.length (s.threshold 0) (s.threshold 1) 1
  | none => s

/-- A band of a member is made BAD by a write failure (R205). -/
def State.badBandCount (s : State) (n : Nat) : State :=
  match s.drive? n with
  | some d =>
    let ts := s.within24 d.bads ++ [s.devNs]
    (s.modDrive n (fun d => { d with bads := ts })).judge n ts.length (s.threshold 2) (s.threshold 3) 2
  | none => s

/-! ### Relocation and repair -/

/-- Move a SEALED stripe that is not yet written to the set's next chunk offset (R66): its number is kept. -/
def State.moveSealed (s : State) (p n : Nat) : State :=
  match s.pool? p, s.stripe? p n with
  | some x, some t =>
    match s.takeOffset t.set (x.paramsOf t.gen) with
    | some (off, s) =>
      let s := s.modStripe p n (fun t => { t with chunkOffset := off, acked := [], moves := t.moves + 1 })
      (s.delta p n).issueWrites p n
    | none => s
  | _, _ => s

/-- Begin the relocation of a WRITTEN stripe to its set's next chunk offset (R222, R223): RELOCATING is set and all its
chunks are written there. -/
def State.relocate (s : State) (p n : Nat) : State :=
  match s.pool? p, s.stripe? p n with
  | some x, some t =>
    if t.relocating then s
    else
      match s.takeOffset t.set (x.paramsOf t.gen) with
      | some (off, s) =>
        let s := s.modStripe p n (fun t =>
          { t with relocating := true, newPlace := some (t.set, off), newSeal := t.sealSeq, acked := [] })
        s.each (s.membersOf t.set) (fun m s => s.driveOut m 1 (stripeKey p n) off)
      | none => s
  | _, _ => s

/-- The first repair of a chunk found lost on a readable member (R222, R243): in place on a conventional member, by
relocation on a zoned one; REPAIRED, counts and the event. -/
def State.repairChunk (s : State) (p n q : Nat) : State :=
  match s.stripe? p n with
  | some t =>
    match s.set? t.set with
    | some x =>
      if s.posFailed x q || s.posDown x q then s
      else
        let d := x.members.getD q 0
        let zoned := match s.drive? d with
          | some v => v.info.zoned
          | none => false
        let s : State := if zoned then s.relocate p n
          else (s.driveOut d 1 (stripeKey p n) t.chunkOffset).modStripe p n (fun t =>
            { t with lost := t.lost.filter (· ≠ q) })
        let s := s.modStripe p n (fun t => { t with repaired := true })
        let s := s.bump SE_REPAIRS 0 SE_REPAIRS_COUNT
        let s := s.modDrive d (fun v => { v with repairs := min (v.repairs + 1) 255 })
        let s := s.raise 0x604 3 p (leBytes 8 n ++ leBytes 1 q)
        s.delta p n
    | none => s
  | none => s

/-- A chunk is found lost on a readable member: repaired when at least k chunks are usable, else the stripe is BROKEN
(R222, R226). -/
def State.chunkBad (s : State) (p n q cause : Nat) : State :=
  match s.pool? p, s.stripe? p n with
  | some x, some t =>
    let s := s.modStripe p n (fun t => { t with lost := if t.lost.contains q then t.lost else t.lost ++ [q],
                                                degraded := true })
    match s.stripe? p n with
    | some t' =>
      if (s.lostPos t').length > (x.paramsOf t.gen).m then s.checkBroken p n cause else s.repairChunk p n q
    | none => s
  | _, _ => s

/-- Every chunk of a relocation, a copy or a return is written: the placement switches in one update (R223, R258). -/
def State.switchPlace (s : State) (p n : Nat) : State :=
  match s.pool? p, s.stripe? p n with
  | some x, some t =>
    match t.newPlace with
    | some (i, off) =>
      match s.set? i with
      | some y =>
        let waits := (List.range y.members.length).filter (fun q => !s.posFailed y q && !y.behind q off)
        if waits.all (fun q => t.acked.contains q) then
          if t.state = .written then
            let short := (List.range y.members.length).any (fun q => s.posFailed y q || y.behind q off)
            let copy := y.gen != t.gen && !t.returning
            let back := t.returning
            let t' := { t with set := i, chunkOffset := off, gen := y.gen, relocating := false, newPlace := none,
                               sealSeq := if copy || back then t.newSeal else t.sealSeq,
                               padded := if copy || back then decide (t.nextUnit < (x.paramsOf y.gen).dirUnit) else t.padded,
                               moves := if copy || back then 0 else t.moves + 1,
                               oldSeal := if copy then t.sealSeq else t.oldSeal, acked := [], lost := [], degraded := short, returning := false,
                               scarfCopied := if back then false else (t.scarfCopied || copy),
                               fromScarf := if back then false else t.fromScarf,
                               oldSet := if copy then t.set else t.oldSet,
                               oldOffset := if copy then t.chunkOffset else t.oldOffset,
                               oldGen := if copy then t.gen else t.oldGen }
            let s := (s.setStripe p n t').delta p n
            let s : State := if copy ∨ back then
                (s.bump SE_SCARF_COPIED 0 SE_SCARF_COPIED_COUNT).modPool p (fun x => { x with scarf := x.scarf.map (fun c =>
                  { c with recopy := c.recopy.filter (· ≠ n),
                           returnList := if back then c.returnList.filter (· ≠ n) else c.returnList }) })
              else s
            if copy then s else s.drainIfDead t.set (t.chunkOffset / (x.paramsOf t.gen).bandUnits)
          else s.modStripe p n (fun t => { t with newPlace := none, acked := [], relocating := false, returning := false })
        else s
      | none => s
    | none => s
  | _, _ => s

end Sys2Proof.Machine
end

