-- ==== Sys2Proof/Machine/Reads.lean ====
section
/-! DEFINITION. Shared operations of READ (chapter 06): the extent in its directory, the choice of chunks to read, wake and
reconstruct (R201 to R204), assembly, verification and the end of the command (R199, R224, R365). -/

namespace Sys2Proof.Machine

open Sys2Proof

/-! ### Bytes wanted and chunks offered -/

/-- The payload ranges of data chunks an extent covers: chunk, first byte, byte after the last (R119, R196). -/
def extentRanges (p : Params) (off len : Nat) : List (Nat × Nat × Nat) :=
  let l := chunkPayload p.chunk
  let c := extentChunks p off len
  ((List.range (c.2 + 1)).drop c.1).map (fun i =>
    (i, max (off * 4096) (i * l) - i * l, min (off * 4096 + len) ((i + 1) * l) - i * l))

/-- The ranges a READ needs in its present phase: the directory, whole chunks for the checks of R199 and R224, or the
extent. -/
def ReadCmd.wants (r : ReadCmd) : List (Nat × Nat × Nat) :=
  let l := chunkPayload r.params.chunk
  if r.needDir then [(r.params.k - 1, l - 65536, l)]
  else if r.phase = 1 ∨ r.hashOnly then (extentRanges r.params r.extOff r.extLen).map (fun w => (w.1, 0, l))
  else extentRanges r.params r.extOff r.extLen

/-- The hull of payload ranges, widened to whole coding lanes of 64 bytes (R100). -/
def hull (ws : List (Nat × Nat × Nat)) : Nat × Nat :=
  let lo := ws.foldl (fun m w => min m w.2.1) (2 ^ 24)
  let hi := ws.foldl (fun m w => max m w.2.2) 0
  (lo / 64 * 64, roundUp hi 64)

/-- Positions this READ has found bad. -/
def ReadCmd.bad (r : ReadCmd) : List Nat := (r.chunks.filter (·.lost)).map (·.pos)

/-- The slot at a set position. -/
def State.posSlot (s : State) (i q : Nat) : Nat := (s.membersOf i).getD q 1024

/-- Whether the chunk at a position may be read for a READ, asleep or not (R201). -/
def State.posReadable (s : State) (r : ReadCmd) (q : Nat) : Bool :=
  match s.set? r.set, s.stripe? r.pool r.stripe with
  | some x, some t =>
    s.chunkThere x { t with set := r.set, chunkOffset := r.chunkOffset,
                            lost := if t.set = r.set && t.chunkOffset = r.chunkOffset then t.lost else [] } q &&
    !r.bad.contains q
  | some x, none => !s.posFailed x q && !s.posDown x q && !x.behind q r.chunkOffset && !r.bad.contains q
  | none, _ => false

/-- Set position of chunk index `i` of a READ's stripe. -/
def ReadCmd.posOf (r : ReadCmd) (i : Nat) : Nat := chunkPos r.stripe i r.params.w

/-- Chunk index at a set position of a READ's stripe. -/
def ReadCmd.idxOf (r : ReadCmd) (q : Nat) : Nat := posChunk r.stripe q r.params.w

/-- What a READ does next: chunk reads by chunk index with their ranges, the chunk indices to wake first, the number of
chunks reconstructed because their member sleeps; or the status that ends it. -/
inductive ReadPlan where
  | go (reads : List (Nat × Nat × Nat)) (wakes : List Nat) (avoided : Nat)
  | fail (status : Nat)

/-- Plan the chunk reads of a READ (R201 to R203, R207); in a set whose STATE is unknown wanted chunks are reconstructed, as many as
the others allow (R56). -/
def State.planRead (s : State) (r : ReadCmd) : ReadPlan :=
  let p := r.params
  let ws := r.wants
  let there := (List.range p.w).filter (fun i => s.posReadable r (r.posOf i))
  let slot := fun i => s.posSlot r.set (r.posOf i)
  let up := there.filter (fun i => s.awake (slot i))
  let need := ws.map (·.1)
  let missing := need.filter (fun i => !there.contains i)
  let asleep := need.filter (fun i => there.contains i && !up.contains i)
  let policy := match s.pool? r.pool with
    | some x => x.policy.wake
    | none => 0
  let wakeY := if asleep.isEmpty then [] else if policy = 1 ∨ up.length < p.k then asleep else []
  let odd : Bool := match s.set? r.set with
    | some x => x.oddState
    | none => false
  let around := if odd then (need.filter (fun i => up.contains i || wakeY.contains i)).take ((up ++ wakeY).eraseDups.length - p.k) else []
  let recon := missing ++ asleep.filter (fun i => !wakeY.contains i) ++ around
  let up := up.filter (fun i => !around.contains i)
  let wakeY := wakeY.filter (fun i => !around.contains i)
  let base := up ++ wakeY
  let groups := s.dl.queue.map (fun q => s.wakeGroup q.slot)
  let waking := fun i => groups.contains (s.wakeGroup (slot i))
  let sleepers := there.filter (fun i => !base.contains i)
  let order := (sortBy (fun a b => r.posOf a ≤ r.posOf b) (sleepers.filter waking)) ++
    (sortBy (fun a b => r.posOf a ≤ r.posOf b) (sleepers.filter (fun i => !waking i)))
  let extra := if recon.isEmpty then [] else order.take (p.k - base.length)
  if !recon.isEmpty && base.length + extra.length < p.k then
    let held := match s.set? r.set with
      | some x => (List.range p.w).any (fun i => s.posDown x (r.posOf i))
      | none => false
    .fail (if held then stMembersUnreachable else stExtentLost)
  else
    let woken := (sortBy (· ≤ ·) (wakeY ++ extra))
    let helpers := if recon.isEmpty then [] else
      (up.filter (· < p.k) ++ up.filter (p.k ≤ ·) ++ woken).take p.k
    let h := hull (ws.filter (fun w => recon.contains w.1))
    let direct := ws.filter (fun w => !recon.contains w.1)
    let reads := direct.map (fun w =>
      if helpers.contains w.1 then (w.1, min w.2.1 h.1, max w.2.2 h.2) else w) ++
      (helpers.filter (fun i => !direct.any (fun w => w.1 = i))).map (fun i => (i, h.1, h.2))
    .go reads woken (if policy = 1 then 0 else (recon.filter (fun i => asleep.contains i)).length)

/-! ### Assembly -/

/-- The good chunk read of a chunk index that covers a range. -/
def ReadCmd.have (r : ReadCmd) (i lo hi : Nat) : Option (List Byte) :=
  (r.chunks.find? (fun c => c.pos = r.posOf i && !c.lost && c.got.isSome && c.off ≤ lo && hi ≤ c.off + c.len)).bind
    (fun c => c.got.map (fun bs => slice bs (lo - c.off) (hi - lo)))

/-- The wanted ranges no chunk read supplies. -/
def ReadCmd.gaps (r : ReadCmd) : List (Nat × Nat × Nat) := r.wants.filter (fun w => (r.have w.1 w.2.1 w.2.2).isNone)

/-- The chunk indices a reconstruction over range `h` uses: readable data chunks first, then parities (R97, R201). -/
def ReadCmd.helpers (r : ReadCmd) (h : Nat × Nat) : List Nat :=
  ((List.range r.params.w).filter (fun i => (r.have i h.1 h.2).isSome)).take r.params.k

/-- The decode pattern of a reconstruction: the data chunks not offered and the parities that stand in for them. -/
def ReadCmd.pattern (r : ReadCmd) : List Nat × List Nat :=
  let hs := r.helpers (hull r.gaps)
  ((List.range r.params.k).filter (fun i => !hs.contains i), (hs.filter (r.params.k ≤ ·)).map (· - r.params.k))

/-- The reconstructed bytes of data chunk `i` over a range (R97). -/
def ReadCmd.rebuiltBytes (r : ReadCmd) (i lo hi : Nat) : List Byte :=
  let h := hull r.gaps
  let hs := r.helpers h
  let pat := r.pattern
  let part := fun j => (j, slice ((r.have j h.1 h.2).getD []) (lo - h.1) (hi - lo))
  let known := (hs.filter (· < r.params.k)).map part
  let pars := pat.2.map (fun j => (part (j + r.params.k)).2)
  (List.range (hi - lo)).map (fun t =>
    (recoverBytes pat.1 pat.2 (known.map (fun d => (d.1, d.2.getD t 0))) (pars.map (fun b => b.getD t 0))).getD
      (pat.1.idxOf i) 0)

/-- The wanted bytes in order. -/
def ReadCmd.assembled (r : ReadCmd) : List Byte :=
  r.wants.flatMap (fun w =>
    match r.have w.1 w.2.1 w.2.2 with
    | some bs => bs
    | none => r.rebuiltBytes w.1 w.2.1 w.2.2)

/-- The position under which a READ keeps its assembled bytes. -/
def replyPos : Nat := 1000

/-- The bytes of the extent a READ has assembled last. -/
def ReadCmd.reply (r : ReadCmd) : List Byte :=
  match r.chunks.find? (fun c => c.pos = replyPos) with
  | some c => c.got.getD []
  | none => []

/-- A READ with its assembled bytes kept; its chunk reads are dropped but for the ones found bad. -/
def ReadCmd.keep (r : ReadCmd) (bs : List Byte) : ReadCmd :=
  { r with chunks := r.chunks.filter (·.lost) ++
    [{ pos := replyPos, slot := 1024, off := 0, len := bs.length, got := some bs, lost := false, asleep := false }] }

/-! ### The end of a READ -/

/-- The READ in progress under a command id. -/
def State.read? (s : State) (id : Nat) : Option ReadCmd :=
  match s.cmd? id with
  | some c =>
    match c.body with
    | .read r => some r
    | _ => none
  | none => none

/-- Host writes of bytes into descriptors taken as one buffer (R355). -/
def State.scatter (s : State) (x : Nat) (bufs : List (Nat × Nat)) (bs : List Byte) : State :=
  (bufs.foldl (fun (acc : State × List Byte) b =>
    if acc.2.isEmpty then acc
    else (acc.1.emit (.hostWrite x b.1 (acc.2.take b.2)), acc.2.drop b.2)) (s, bs)).1

/-- End a READ with data: SUCCESS or HASH_MISMATCH (R365). -/
def State.returnRead (s : State) (id : Nat) (status : Nat) : State :=
  match s.cmd? id with
  | some c =>
    match c.body with
    | .read r =>
      let bs := slice r.reply r.start r.len
      let s : State := if c.silent then s else s.scatter c.x r.bufs bs
      let flags := (if r.hashOnly then flChunkHashOnly else 0) + (if r.rebuilt then flReconstructed else 0) +
        (if r.woken then flWoken else 0)
      s.complete id status (leBytes 4 r.len ++ zeros 4 ++ leBytes 8 r.seq) 0 flags
    | _ => s
  | none => s

/-- End a READ whose extent hash fails (R199): the bytes are returned, and an EXTENT_LOST record added. -/
def State.mismatchRead (s : State) (id : Nat) : State :=
  match s.cmd? id with
  | some c =>
    match c.body with
    | .read r =>
      let s := s.returnRead id stHashMismatch
      s.addLoss r.pool (s.lossRec 0 1 r.stripe r.extOff r.extLen (some r.tag))
    | _ => s
  | none => s

/-! ### Progress -/

/-- The state with a READ's record set. -/
def State.setRead (s : State) (id : Nat) (r : ReadCmd) : State := s.setBody id (.read r)

/-- The decode key of a READ's reconstruction, when it needs the matrix unit (R99, R104). -/
def ReadCmd.matrixKey (r : ReadCmd) : Option MatrixKey :=
  let pat := r.pattern
  if needsMatrix pat.1 pat.2 then some { k := r.params.k, m := r.params.m, lost := pat.1, par := pat.2 } else none

/-- Submit the RECOVER job of a READ (R103 class READ). -/
def State.submitRecover (s : State) (id : Nat) (r : ReadCmd) : State :=
  let h := hull r.gaps
  s.ceSubmit { kind := .recover, cls := 1, pool := r.pool, stripe := r.stripe, cmd := some id, m := r.params.m,
               key := r.matrixKey, bytes := r.params.k * (h.2 - h.1) }

/-- The event a READ's wanted bytes lead to, once they are together. -/
inductive ReadNext where
  /-- Nothing more to read now. -/
  | rest (s : State)
  /-- Plan the next chunk reads. -/
  | plan (s : State)

/-- The directory entry of a READ is found or not (R194, R195), and the extent is read next. -/
def State.entryOf (s : State) (id : Nat) (r : ReadCmd) (t : Stripe) : ReadNext :=
  match t.dir.find? (fun e => e.off = r.extOff && e.len = r.extLen) with
  | none => .rest (s.complete id stExtentReleased)
  | some e =>
    let pend := s.se.pending.any (fun q =>
      q.pool = r.pool && q.stripe = r.stripe && q.off = e.off && q.len = e.len && q.tag = e.tag)
    if e.void || e.released || e.releasedAtSeal || pend then .rest (s.complete id stExtentReleased)
    else if r.tagCheck.isSome && r.tagCheck != some e.tag then .rest (s.complete id stTagMismatch)
    else
      .plan (s.setRead id { r with needDir := false, seq := e.seq, hash := e.hash.getD 0, tag := e.tag,
                                   chunks := r.chunks.filter (·.lost) })

/-- The wanted bytes of a READ are together, reconstruction included: the directory is checked and searched, the checks of
R199 end, or the extent goes to the hash engine. -/
def State.readTogether (s : State) (id : Nat) : ReadNext :=
  match s.cmd? id with
  | some c =>
    match c.body with
    | .read r =>
      let lostNow := !r.gaps.isEmpty
      let bs := r.assembled
      let s : State := if lostNow ∧ !r.rebuilt then s.bump SE_DEGRADED_READS 0 SE_DEGRADED_READS_COUNT else s
      let r := { r with rebuilt := r.rebuilt || lostNow }
      if r.needDir then
        let q := r.posOf (r.params.k - 1)
        if !lostNow && !dirCrcOk bs then
          let r := { r with chunks := r.chunks.map (fun c => if c.pos = q then { c with lost := true, got := none } else c) }
          .plan ((s.setRead id r).chunkBad r.pool r.stripe q 0)
        else
          let s := s.modStripe r.pool r.stripe (fun t => t.learnDir bs)
          match s.stripe? r.pool r.stripe with
          | some t => (s.touchDir r.pool r.stripe).entryOf id r t
          | none => .rest (s.complete id stExtentReleased)
      else if r.hashOnly then
        let a := extentRanges r.params r.extOff r.extLen
        let first := match a.head? with
          | some w => w.2.1
          | none => 0
        .rest ((s.setRead id (r.keep (slice bs first r.extLen))).returnRead id stSuccess)
      else if r.phase = 1 then
        if lostNow then
          .plan (s.setRead id { r with phase := 2, chunks := r.chunks.filter (fun c => c.lost || c.pos = replyPos) })
        else .rest ((s.setRead id r).mismatchRead id)
      else
        .rest ((s.setRead id (r.keep bs)).hashSubmit (.read id) 1 (Config.sha3 bs))
    | _ => .rest s
  | none => .rest s

/-- Issue the chunk reads a READ needs now, and the wakes they wait for (R201 to R204); a READ that already holds what it
needs goes on. -/
def State.issueRead (s : State) (id : Nat) : State :=
  match s.cmd? id with
  | some c =>
    match c.body with
    | .read r =>
      match s.planRead r with
      | .fail st =>
        if r.phase = 0 then s.complete id st else s.mismatchRead id
      | .go reads wakes avoided =>
        let policy := match s.pool? r.pool with
          | some x => x.policy.wake
          | none => 0
        let chunks := (reads.filter (fun w => (r.have w.1 w.2.1 w.2.2).isNone)).map (fun w =>
          ({ pos := r.posOf w.1, slot := s.posSlot r.set (r.posOf w.1), off := w.2.1, len := w.2.2 - w.2.1, got := none,
             lost := false, asleep := wakes.contains w.1 } : ChunkRead))
        let r := { r with chunks := r.chunks.filter (fun c => c.lost || c.got.isSome) ++ chunks,
                          woken := r.woken || !wakes.isEmpty, deferred := policy = 2 && !wakes.isEmpty }
        let s := s.setRead id r
        let s := s.bump SE_WAKES_AVOIDED 0 SE_WAKES_AVOIDED_COUNT avoided
        let s := s.each (chunks.filter (fun c => !c.asleep)) (fun c s =>
          s.driveOut c.slot 2 (r.chunkOffset * 262144 + 4096 + c.off) c.len)
        if r.deferred then s else s.wake ((chunks.filter (·.asleep)).map (·.slot)) 2
    | _ => s
  | none => s

/-- Follow what a READ's bytes led to. -/
def ReadNext.follow (n : ReadNext) (id : Nat) : State :=
  match n with
  | .rest s => s
  | .plan s => s.issueRead id

/-- When every chunk read of a READ has come back, it is reconstructed or goes on. -/
def State.readReady (s : State) (id : Nat) : State :=
  match s.cmd? id with
  | some c =>
    match c.body with
    | .read r =>
      if r.chunks.any (fun c => !c.lost && c.got.isNone) then s
      else if r.gaps.isEmpty then (s.readTogether id).follow id
      else if (r.helpers (hull r.gaps)).length < r.params.k then s.issueRead id
      else s.submitRecover id r
    | _ => s
  | none => s

/-- Read the extent of an OPEN or SEALED stripe from the window (R193); it waits for an APPEND that has not completed. -/
def State.windowRead (s : State) (id : Nat) (r : ReadCmd) (t : Stripe) : State :=
  match t.dir.find? (fun e => e.off = r.extOff && e.len = r.extLen) with
  | some e =>
    if e.cmd.isSome && !e.void then s.setRead id { r with chunks := [] }
    else
      match s.entryOf id r t with
      | .rest s => s
      | .plan s =>
        match s.read? id with
        | some r =>
          let bs := memRead t.data (r.extOff * 4096) r.extLen
          (s.setRead id (r.keep bs)).hashSubmit (.read id) 1 (Config.sha3 bs)
        | _ => s
  | none => s.complete id stExtentReleased

/-- Begin a READ that has passed its checks, by the state of its stripe (R193). -/
def State.startRead (s : State) (id : Nat) (r : ReadCmd) : State :=
  match s.stripe? r.pool r.stripe, s.pool? r.pool with
  | some t, some x =>
    let r := { r with params := x.paramsOf t.gen, set := t.set, chunkOffset := t.chunkOffset }
    if t.codeId != 1 then s.complete id stExtentLost
    else
      match t.state with
      | .opened => s.windowRead id r t
      | .sealed => s.windowRead id r t
      | .written =>
        if s.se.dirCache.contains (r.pool, r.stripe) then
          ((s.touchDir r.pool r.stripe).entryOf id r t).follow id
        else (s.setRead id { r with needDir := true }).issueRead id
      | .broken =>
        if t.dirLost then
          let d := s.draw Config.freeNat
          (d.2.setRead id { r with hashOnly := true, seq := d.1 % 2 ^ 64 }).issueRead id
        else if s.se.dirCache.contains (r.pool, r.stripe) then
          ((s.touchDir r.pool r.stripe).entryOf id r t).follow id
        else (s.setRead id { r with needDir := true }).issueRead id
      | .free => s.complete id stExtentReleased
      | .released => s.complete id stExtentReleased
  | _, _ => s.complete id stExtentReleased

/-- READs that waited for an APPEND to complete look again (R193). -/
def State.settleReads (s : State) : State :=
  s.each (Tab.keys s.qm.cmds) (fun id s =>
    match s.cmd? id with
    | some c =>
      match c.body with
      | .read r => if r.chunks.isEmpty then s.startRead id r else s
      | _ => s
    | none => s)

/-- A chunk read of a READ comes back (R199, R201, R220, R222). -/
def State.chunkReadDone (s : State) (id q : Nat) (o : ChunkOutcome) : State :=
  match s.cmd? id with
  | some c =>
    match c.body with
    | .read r =>
      match r.chunks.find? (fun k => k.pos = q && !k.lost && k.got.isNone && !k.asleep) with
      | none => s
      | some k =>
        let put := fun (f : ChunkRead → ChunkRead) => r.chunks.map (fun e => if e.pos = q && !e.lost then f e else e)
        match o with
        | .data bs => (s.setRead id { r with chunks := put (fun e => { e with got := some (padTo e.len bs) }) }).readReady id
        | .unreadable =>
          let s := s.setRead id { r with chunks := put (fun e => { e with lost := true }) }
          (((s.readError k.slot).chunkBad r.pool r.stripe q 0).issueRead id).readReady id
        | .hashBad =>
          let s := s.setRead id { r with chunks := put (fun e => { e with lost := true }) }
          let s := s.chunkBad r.pool r.stripe q 0
          if r.phase = 1 then
            match s.read? id with
            | some r =>
              if r.chunks.any (fun c => !c.lost && c.got.isNone) then s
              else (s.issueRead id).readReady id
            | _ => s
          else (s.issueRead id).readReady id
    | _ => s
  | none => s

/-- The hash of a READ's extent is known (R199): SUCCESS, the chunk checks of a first mismatch, or HASH_MISMATCH. In a BROKEN
stripe a mismatch is EXTENT_LOST (R224). -/
def State.readHashed (s : State) (id : Nat) (digest : BitVec 256) : State :=
  match s.cmd? id with
  | some c =>
    match c.body with
    | .read r =>
      let state := match s.stripe? r.pool r.stripe with
        | some t => t.state
        | none => .released
      if digest = r.hash then s.returnRead id stSuccess
      else if r.phase = 0 then
        let s := s.bump SE_READ_HASH_FAIL 0 SE_READ_HASH_FAIL_COUNT
        if state = .written then (s.setRead id { r with phase := 1 }).issueRead id
        else if state = .broken then s.complete id stExtentLost
        else s.mismatchRead id
      else s.mismatchRead id
    | _ => s
  | none => s

/-- The chunk reads of every READ that waited for the drive of a slot to wake are issued (R401). -/
def State.readsAwake (s : State) (slot : Nat) : State :=
  s.each (Tab.keys s.qm.cmds) (fun id s =>
    match s.read? id with
    | some r =>
      let due := r.chunks.filter (fun c => c.asleep && c.slot = slot)
      if due.isEmpty then s
      else
        let cs := r.chunks.map (fun c => if c.asleep && c.slot = slot then { c with asleep := false } else c)
        let s := s.setRead id { r with chunks := cs, deferred := r.deferred && cs.any (·.asleep) }
        s.each due (fun c s => s.driveOut c.slot 2 (r.chunkOffset * 262144 + 4096 + c.off) c.len)
    | _ => s)

/-- WAKE_TIMEOUT (R204): a READ that still waits for a wake completes, and returns no data. -/
def State.wakeTimeout (s : State) (id : Nat) : State :=
  match s.read? id with
  | some r => if r.chunks.any (·.asleep) && !r.deferred then s.complete id stWakeTimeout else s
  | _ => s

/-- DEFER_LIMIT_EXPIRY (R204): the held wake is requested. -/
def State.deferExpiry (s : State) (id : Nat) : State :=
  match s.read? id with
  | some r =>
    if r.deferred then
      (s.setRead id { r with deferred := false }).wake ((r.chunks.filter (·.asleep)).map (·.slot)) 2
    else s
  | _ => s

end Sys2Proof.Machine
end

