-- ==== Sys2Proof/Machine/Checks.lean ====
section
/-! DEFINITION. The checks of a consumed entry (R351 to R358): layouts, descriptors, locators, privileges and pool states, in
the order of R356; and the use of an entry's host buffers. -/

namespace Sys2Proof.Machine

open Sys2Proof

/-- The outcome of a check: the status and DETAIL of the command when it fails. -/
abbrev Check := Option (Nat × Nat)

/-- A check that a condition holds, else a status with DETAIL 0. -/
def need (b : Bool) (status : Nat) : Check := if b then none else some (status, 0)

/-- A check that a condition holds, else MALFORMED at a byte (R351). -/
def needAt (b : Bool) (byte : Nat) : Check := if b then none else some (stMalformed, byte)

/-- The first failing check of a list (R356). -/
def firstFail (cs : List Check) : Check := cs.findSome? id

/-- R351 over a layout. -/
def layout (c : HostCmd) (flags req : Nat) (fs : List FieldCheck) : Check :=
  (firstBad c flags req fs).map (fun b => (stMalformed, b))

/-- A field of any value. -/
def anyAt (pos len : Nat) : FieldCheck := ⟨pos, len, true⟩

/-- The fields of a descriptor at byte `pos`: LEN is at least 1 (R352). -/
def descAt (c : HostCmd) (pos : Nat) : List FieldCheck :=
  [⟨pos, 8, true⟩, ⟨pos + 8, 4, entryLe c (pos / 64) (pos % 64 + 8) 4 ≠ 0⟩]

/-- The descriptor at byte `pos`. -/
def descOfEntry (c : HostCmd) (pos : Nat) : Desc := entryDesc c (pos / 64) (pos % 64)

/-- R354 for one descriptor that must hold `len` bytes. -/
def descCheck (c : HostCmd) (pos len : Nat) : Check :=
  let d := descOfEntry c pos
  need (!d.crosses && d.len = len) stBadDescriptor

/-- The positions of `n` in-line descriptors (R353). -/
def inlinePos (n : Nat) : List Nat := (List.range n).map (fun j => 64 * (1 + j / 3) + 16 * (j % 3))

/-- The descriptors a data command moves its bytes through: in-line or from its list. -/
def dataDescs (c : HostCmd) (n : Nat) : List Desc :=
  if entryList c then listDescs n (c.read.list.getD []) else inlineDescs c n

/-- DESC_COUNT is tested before any other field (R354); it stands at byte `pos` of slot 0. -/
def descCountCheck (c : HostCmd) (pos : Nat) : Check :=
  let n := entryLe c 0 pos 2
  if n = 0 ∨ n > 4096 then some (stBadDescriptor, 0)
  else if !entryList c && n > 45 then some (stMalformed, pos)
  else none

/-- The list of a LIST entry (R353, R354): its place and length, its reading, and the reserved bytes and LEN of what it
holds, where no single byte is at fault (R351). -/
def listCheck (c : HostCmd) (n item : Nat) : Check :=
  if entryList c then
    let d := entryDesc c 1 0
    firstFail [
      need (!d.crosses && d.addr % 16 = 0 && d.len = item * n) stBadDescriptor,
      match c.read.list with
      | none => some (stHostAccessError, 0)
      | some _ => none]
  else none

/-- R352 and R354 for the descriptors of a data command that moves `len` bytes. -/
def dataDescCheck (c : HostCmd) (n len : Nat) : Check :=
  let ds := dataDescs c n
  firstFail [
    if entryList c && ds.any (fun d => d.rsv ≠ 0 || d.len = 0) then some (stMalformed, 0xFFFF) else none,
    need (!ds.any Desc.crosses && descSum ds = len) stBadDescriptor]

/-- R127 for a locator in an entry slot. -/
def State.locatorCheck (s : State) (bs : List Byte) : Check := need (s.locatorOk bs) stBadLocator

/-- Step 2 of R356: a management command comes from function entry 0. -/
def onEntry0 (c : HostCmd) : Check := need (fnEntry c.x = 0) stAccessDenied

/-- DATA privilege: a right on a pool (R357). -/
def State.dataPriv (s : State) (c : HostCmd) (pool : Nat) (r : Right) : Check := need (s.hasRight c.x pool r) stAccessDenied

/-- OPERATOR privilege through a bit of ADMIN, or an owner session (R357, R493). -/
def State.operatorPriv (s : State) (c : HostCmd) (b : Nat) : Check :=
  need (s.admin c.x b || s.hasSession c.x) stAccessDenied

/-- OWNER privilege (R357). -/
def State.ownerPriv (s : State) (c : HostCmd) : Check := need (s.hasSession c.x) stNoSession

/-- A command consumed under OWNER privilege renews the session (R503). -/
def State.renewSession (s : State) : State :=
  { s with sec := { s.sec with session := s.sec.session.map (fun o => { o with lastOwner := s.devNs }) } }

/-- R81: the pool is ONLINE or DEGRADED, and is not being given to the partner (R469). -/
def State.poolCheck (s : State) (pool : Nat) : Check :=
  need (s.poolUp pool && (match s.pool? pool with
    | some x => x.giving.isNone
    | none => false)) stPoolOffline

/-- End a command on its first failing check, or go on. -/
def State.checked (s : State) (id : Nat) (ck : Check) (act : State → State) : State :=
  match ck with
  | some f => s.complete id f.1 [] f.2
  | none => act s

/-- Write bytes into a command's host buffer, unless its function was reset. -/
def State.toHost (s : State) (id addr : Nat) (bs : List Byte) : State :=
  match s.cmd? id with
  | some c => if c.silent || bs.isEmpty then s else s.emit (.hostWrite c.x addr bs)
  | none => s

end Sys2Proof.Machine
end

