-- ==== Sys2Proof/Machine/Releases.lean ====
section
/-! DEFINITION. Releasing extents (R142 to R148, R367): resolution at once, pending release records, the release ledger. -/

namespace Sys2Proof.Machine

open Sys2Proof

/-- Capacity of the pending release list and of the release ledger (R144, R147). -/
def releaseCapacity : Nat := 4194304

/-- How one release item ends: resolved, pending, or rejected with a status. -/
inductive Released where
  | resolved
  | pending
  | rejected (status : Nat)
  deriving DecidableEq, Repr

/-- Whether an entry is live: not VOID and not released (R142). -/
def entryLive (e : DirEnt) : Bool := !e.void && !e.released && !e.releasedAtSeal

/-- Whether the ledger holds the release of one more extent of a stripe (R147): its entry exists, or none is needed, or there
is room. -/
def State.ledgerRoom (s : State) (t : Stripe) : Bool :=
  t.inLedger || t.live ≤ 1 || s.ledgerUsed < releaseCapacity

/-- The ledger is full (R147): the event, once until an entry is freed. -/
def State.noteLedgerFull (s : State) : State :=
  if s.se.ledgerFull then s
  else State.raise { s with se := { s.se with ledgerFull := true } } 0x507 4 noInst

/-- The pending list passes 75 % (R145): the event, and wakes of the members of the last data chunks, in class 4. -/
def State.notePendingHigh (s : State) : State :=
  let high := decide (4 * s.se.pending.length > 3 * releaseCapacity)
  if high && !s.se.pendingHigh then
    let s := State.raise { s with se := { s.se with pendingHigh := true } } 0x506 4 noInst
    let slots := s.se.pending.filterMap (fun r =>
      match s.stripe? r.pool r.stripe, s.pool? r.pool with
      | some t, some x =>
        let q := x.paramsOf t.gen
        (s.membersOf t.set)[chunkPos r.stripe (q.k - 1) q.w]?
      | _, _ => none)
    s.wake slots.eraseDups 4
  else { s with se := { s.se with pendingHigh := high } }

/-- Release one live extent of a stripe whose directory is at hand: RELEASED_AT_SEAL while OPEN (R143), else its ledger bit;
the partner gets the entry. -/
def State.releaseEntry (s : State) (p n slot : Nat) : State :=
  match s.stripe? p n with
  | some t =>
    let s : State := if t.state = .opened then
        s.modEntry p n slot (fun e => { e with releasedAtSeal := true })
      else s.modEntry p n slot (fun e => { e with released := true })
    let s : State := match s.stripe? p n with
      | some t =>
        if t.state = .opened then
          match t.dir[slot]? with
          | some e => s.sendM 0x11 [p, n, slot] (dirEntryBytes t.data e)
          | none => s
        else s.sendM 0x14 [p, 1] (ledgerEntry n t)
      | none => s
    s.releaseStripe p n
  | none => s

/-- Resolve or record one item of a RELEASE (R142 to R144, R225, R367). -/
def State.releaseItem (s : State) (l : Locator) (tag : BitVec 256) : Released × State :=
  let p := l.pool
  let n := l.stripe
  let pend := fun (s : State) =>
    let r : PendRel := { pool := p, stripe := n, off := l.off, len := l.len, tag := tag, time := s.devNs }
    let s := { s with se := { s.se with pending := s.se.pending ++ [r] } }
    (Released.pending, (s.sendM 0x14 [p, 0] (pendRecord r)).notePendingHigh)
  match s.stripe? p n with
  | none => (.rejected stExtentReleased, s)
  | some t =>
    if t.state = .free ∨ t.state = .released then (.rejected stExtentReleased, s)
    else if t.state = .opened ∨ t.state = .sealed then
      match t.find l.off l.len with
      | some (slot, e) =>
        if !entryLive e then (.rejected stExtentReleased, s)
        else if e.tag ≠ tag then (.rejected stTagMismatch, s)
        else if t.state = .sealed && !s.ledgerRoom t then pend s.noteLedgerFull
        else (.resolved, s.releaseEntry p n slot)
      | none => (.rejected stExtentReleased, s)
    else if t.state = .broken && t.dirLost then (.resolved, s)
    else pend s

/-- Resolve one pending record against a directory at hand (R145 to R147); `true` when it stays pending. -/
def State.resolveRecord (s : State) (r : PendRel) : Bool × State :=
  let drop := { s with se := { s.se with pending := s.se.pending.erase r } }
  let reject := fun (report : Bool) (s : State) =>
    let s := s.bump SE_RELEASE_REJECT 0 SE_RELEASE_REJECT_COUNT
    if report then s.raise 0x505 3 r.pool (locatorBytes r.pool r.stripe r.off r.len) else s
  match s.stripe? r.pool r.stripe with
  | some t =>
    match t.find r.off r.len with
    | some (slot, e) =>
      if e.void || e.tag ≠ r.tag then (false, reject true drop)
      else if !entryLive e then (false, reject false drop)
      else if !s.ledgerRoom t then (true, s.noteLedgerFull)
      else (false, drop.releaseEntry r.pool r.stripe slot)
    | none => (false, reject true drop)
  | none => (false, drop)

/-- Resolve the pending records of a stripe together, in order (R145). -/
def State.resolvePending (s : State) (p n : Nat) : State :=
  let rs := s.se.pending.filter (fun r => r.pool = p && r.stripe = n)
  (s.each rs (fun r s => if s.se.pending.contains r then (s.resolveRecord r).2 else s)).notePendingHigh

/-- Whether the device may resolve the pending records of a stripe now (R145): its directory is known or readable without a wake. -/
def State.canResolve (s : State) (p n : Nat) : Bool :=
  match s.stripe? p n with
  | some t => (t.state = .written || t.state = .broken) && t.codeId = 1 && !t.dirUnread && s.dirNow p n t
  | none => false

/-- Items of a RELEASE: the locators and tags of slots 1 to COUNT (R367). -/
def releaseItems (c : HostCmd) : List (List Byte × BitVec 256) :=
  (List.range (entryLe c 0 8 2)).map (fun i => (entryBytes c (i + 1) 0 16, BitVec.ofNat 256 (entryLe c (i + 1) 16 32)))

/-- Whether an item of a RELEASE would need a pending record. -/
def State.itemPends (s : State) (l : Locator) : Bool :=
  match s.stripe? l.pool l.stripe with
  | some t => (t.state = .written || (t.state = .broken && !t.dirLost)) || (t.state = .sealed && !s.ledgerRoom t)
  | none => false

/-- The checks of RELEASE. -/
def State.releaseChecks (s : State) (c : HostCmd) : Check :=
  let n := entryLe c 0 8 2
  let good := decide (1 ≤ n ∧ n ≤ 15)
  let items := releaseItems c
  firstFail [
    layout c 0 (if good then 1 + n else entrySlots c)
      (⟨8, 2, good⟩ :: (List.range (if good then n else 0)).map (fun i => anyAt (64 * (i + 1)) 48)),
    firstFail (items.map (fun i => s.locatorCheck i.1)),
    firstFail (items.map (fun i => s.dataPriv c (locatorOf i.1).pool .release)),
    firstFail (items.map (fun i => s.poolCheck (locatorOf i.1).pool)),
    need (s.se.pending.length + items.countP (fun i => s.itemPends (locatorOf i.1)) ≤ releaseCapacity) stReleaseFull]

/-- RELEASE (R142 to R144, R367). -/
def State.runRelease (s : State) (id : Nat) (c : HostCmd) : State :=
  s.checked id (s.releaseChecks c) (fun s =>
    let run := (releaseItems c).foldl (fun (acc : List Released × State) i =>
      let r := acc.2.releaseItem (locatorOf i.1) i.2
      (acc.1 ++ [r.1], r.2)) ([], s)
    let mask := fun (f : Released → Bool) =>
      (run.1.zipIdx.map (fun e => if f e.1 then 2 ^ e.2 else 0)).sum
    let pend := mask (fun r => r = .pending)
    let rej := mask (fun r => match r with
      | .rejected _ => true
      | _ => false)
    let detail := (run.1.findSome? (fun r => match r with
      | .rejected st => some st
      | _ => none)).getD 0
    let result := leBytes 2 (mask (fun r => r = .resolved)) ++ leBytes 2 pend ++ leBytes 2 rej
    run.2.complete id (if rej = 0 then stSuccess else stPartial) result detail (if pend = 0 then 0 else flPending))

end Sys2Proof.Machine
end

