-- ==== Sys2Proof/Machine/DataCommands.lean ====
section
/-! DEFINITION. The data commands other than RELEASE (chapter 11): APPEND, READ, COPY_FORWARD, SEAL, FLUSH and
QUERY_LOCATOR. -/

namespace Sys2Proof.Machine

open Sys2Proof

/-! ### APPEND -/

/-- The largest APPEND of a pool (R116), under R255 during a scarf; none while the pool has no code parameters. -/
def State.appendLimit (s : State) (p : Nat) : Nat :=
  match s.pool? p with
  | some x => if x.params.k = 0 then 2 ^ 32 else x.limits.capacity - 65536
  | none => 2 ^ 32

/-- The checks of APPEND (R116, R351, R354, R357, R362). -/
def State.appendChecks (s : State) (c : HostCmd) : Check :=
  let p := entryLe c 0 8 2
  let n := entryLe c 0 10 2
  let len := entryLe c 0 12 4
  let lst := entryList c
  firstFail [
    descCountCheck c 10,
    layout c 0x0101 (if lst then 2 else 1 + ceilDiv n 3)
      ([⟨8, 2, p ≤ 63⟩, anyAt 10 2, ⟨12, 4, 1 ≤ len && len ≤ s.appendLimit p⟩, anyAt 16 32] ++
        (if lst then descAt c 64 else (inlinePos n).flatMap (descAt c))),
    listCheck c n 16,
    dataDescCheck c n len,
    s.dataPriv c p .append,
    s.poolCheck p]

/-- APPEND (R116, R117): checked, then held for admission. -/
def State.runAppend (s : State) (id : Nat) (c : HostCmd) : State :=
  s.checked id (s.appendChecks c) (fun s =>
    let n := entryLe c 0 10 2
    (s.setBody id (.append
      { pool := entryLe c 0 8 2, len := entryLe c 0 12 4, tag := BitVec.ofNat 256 (entryLe c 0 16 32),
        durable := bit (entryFlags c) 8, addr := (dataDescs c n).map (fun d => (d.addr, d.len)), payload := none,
        parent := none, reserved := false, placed := none, off := 0, seq := 0, got := 0, whole := false })).admitHeld)

/-! ### READ -/

/-- Bytes a READ returns (R197, R364). -/
def readLen (c : HostCmd) : Nat :=
  let total := (locatorOf (entryBytes c 0 8 16)).len
  let start := entryLe c 1 48 4
  let len := entryLe c 1 52 4
  if len = 0 then total - start else len

/-- The checks of READ (R351, R354, R357, R364). -/
def State.readChecks (s : State) (c : HostCmd) : Check :=
  let loc := entryBytes c 0 8 16
  let l := locatorOf loc
  let n := entryLe c 0 56 2
  let lst := entryList c
  let start := entryLe c 1 48 4
  let len := entryLe c 1 52 4
  firstFail [
    descCountCheck c 56,
    layout c 0x0101 (if lst then 2 else 1 + max 1 (ceilDiv n 3))
      ([anyAt 8 16, anyAt 24 32, anyAt 56 2, ⟨112, 4, start + len ≤ l.len⟩, anyAt 116 4] ++
        (if lst then descAt c 64 else (inlinePos n).flatMap (descAt c))),
    listCheck c n 16,
    dataDescCheck c n (readLen c),
    s.locatorCheck loc,
    s.dataPriv c l.pool .read,
    s.poolCheck l.pool]

/-- The parameters of a READ before its stripe is known. -/
def Params.blank : Params := ⟨0, 0, 0, 0, 0, false, 0⟩

/-- READ (R193). -/
def State.runRead (s : State) (id : Nat) (c : HostCmd) : State :=
  s.checked id (s.readChecks c) (fun s =>
    let l := locatorOf (entryBytes c 0 8 16)
    let r : ReadCmd :=
      { pool := l.pool, stripe := l.stripe, params := Params.blank, set := 0, chunkOffset := 0, extOff := l.off,
        extLen := l.len, start := entryLe c 1 48 4, len := readLen c,
        tagCheck := if bit (entryFlags c) 8 then some (BitVec.ofNat 256 (entryLe c 0 24 32)) else none,
        bufs := (dataDescs c (entryLe c 0 56 2)).map (fun d => (d.addr, d.len)), needDir := false, seq := 0, hash := 0,
        tag := 0, chunks := [], deferred := false, woken := false, rebuilt := false, phase := 0, hashOnly := false }
    s.startRead id r)

/-! ### QUERY_LOCATOR -/

/-- The checks of QUERY_LOCATOR. -/
def State.queryChecks (s : State) (c : HostCmd) : Check :=
  let loc := entryBytes c 0 8 16
  firstFail [
    layout c 0x0100 1 [anyAt 8 16, anyAt 24 32],
    s.locatorCheck loc,
    s.dataPriv c (locatorOf loc).pool .read,
    s.poolCheck (locatorOf loc).pool]


/-- EXTENT and SEQUENCE of a QUERY_LOCATOR result (R366): in a RELEASED stripe every extent is released. -/
def State.queryExtent (s : State) (p n off len : Nat) (t : Stripe) (tag : Option (BitVec 256)) : Nat × Nat :=
  if t.state = .free then (4, 0)
  else if !s.dirNow p n t then (3, 0)
  else
    match t.dir.find? (fun e => e.off = off && e.len = len) with
    | none => (4, 0)
    | some e =>
      if e.void then (4, 0)
      else if tag.isSome && tag != some e.tag then (5, 0)
      else if e.released || e.releasedAtSeal || t.state = .released then (1, e.seq)
      else if s.se.pending.any (fun r => r.pool = p && r.stripe = n && r.off = off && r.len = len && r.tag = e.tag) then
        (2, e.seq)
      else (0, e.seq)

/-- The 16 result bytes of QUERY_LOCATOR (R366). -/
def State.queryResult (s : State) (l : Locator) (tag : Option (BitVec 256)) : List Byte :=
  match s.stripe? l.pool l.stripe with
  | none =>
    let m := match s.pool? l.pool with
      | some x => x.params.m
      | none => 0
    [0, 4, BitVec.ofNat 8 m, 0] ++ zeros 12
  | some t =>
    let e := s.queryExtent l.pool l.stripe l.off l.len t tag
    let v : Nat × Nat := match s.set? t.set with
      | some x =>
        let bad := (List.range x.members.length).countP (fun q =>
          s.posFailed x q || s.posDown x q || (t.state != .opened && x.behind q t.chunkOffset))
        (x.m - bad, x.members.countP (fun n => !s.awake n && !(match s.drive? n with
          | some d => d.state = .failed
          | none => true)))
      | none => (0, 0)
    leBytes 1 (stripeCode t.state) ++ leBytes 1 e.1 ++ leBytes 1 (if t.state = .broken then 0xFF else v.1) ++
      leBytes 1 v.2 ++ zeros 4 ++ leBytes 8 e.2

/-- QUERY_LOCATOR (R366). -/
def State.runQuery (s : State) (id : Nat) (c : HostCmd) : State :=
  s.checked id (s.queryChecks c) (fun s =>
    let tag := if bit (entryFlags c) 8 then some (BitVec.ofNat 256 (entryLe c 0 24 32)) else none
    s.complete id stSuccess (s.queryResult (locatorOf (entryBytes c 0 8 16)) tag))

/-! ### SEAL and FLUSH -/

/-- The checks of SEAL and FLUSH (R370). -/
def State.sealChecks (s : State) (c : HostCmd) : Check :=
  let p := entryLe c 0 8 2
  firstFail [
    layout c 0 1 [⟨8, 2, p ≤ 63 || p = 0xFFFF⟩],
    if p = 0xFFFF then none else s.dataPriv c p .append,
    if p = 0xFFFF then none else s.poolCheck p]

/-- The pools SEAL or FLUSH names (R370): with 0xFFFF, those with the append right that are up. -/
def State.sealPools (s : State) (c : HostCmd) : List Nat :=
  let p := entryLe c 0 8 2
  if p = 0xFFFF then (Tab.keys s.se.pools).filter (fun q => s.hasRight c.x q .append && s.poolUp q) else [p]

/-- SEAL (R140, R370): seals every open stripe that holds a placement, and waits until they are SEALED. -/
def State.runSeal (s : State) (id : Nat) (c : HostCmd) : State :=
  s.checked id (s.sealChecks c) (fun s =>
    let ps := s.sealPools c
    let l := ps.flatMap (fun p => ((s.openOf p).filter (fun e => !e.2.dir.isEmpty)).map (fun e => (p, e.1)))
    let s := s.each ps (fun p s => s.sealPool p)
    let s := s.setBody id (.sealWait l l.length)
    if l.isEmpty then s.complete id stSuccess (leBytes 4 0) else s)

/-- FLUSH (R141, R370): seals the stripes of the APPENDs admitted so far and waits until they are WRITTEN. -/
def State.runFlush (s : State) (id : Nat) (c : HostCmd) : State :=
  s.checked id (s.sealChecks c) (fun s =>
    let ps := s.sealPools c
    let l := ps.flatMap (fun p => ((s.stripesOf p).filter (fun e =>
      (e.2.state = .opened && !e.2.dir.isEmpty) || e.2.state = .sealed)).map (fun e => (p, e.1)))
    let ids := (s.qm.cmds.filter (fun e =>
      match e.2.body with
      | .append a => a.reserved && a.placed.isNone && ps.contains a.pool
      | _ => false)).map (·.1)
    let s := s.each ps (fun p s => s.sealPool p)
    (s.setBody id (.flush l ids)).flushHook)

/-! ### COPY_FORWARD -/

/-- One source of a COPY_FORWARD: locator and tag. -/
structure CopySource where
  loc : List Byte
  tag : BitVec 256
  deriving DecidableEq, Repr

/-- The sources of a COPY_FORWARD (R353, R368). -/
def copySources (c : HostCmd) : List CopySource :=
  let n := entryLe c 0 10 2
  if entryList c then
    (List.range n).map (fun i =>
      let b := slice (c.read.list.getD []) (64 * i) 64
      ⟨slice b 0 16, BitVec.ofNat 256 (leAt b 16 32)⟩)
  else (List.range n).map (fun i => ⟨entryBytes c (i + 1) 0 16, BitVec.ofNat 256 (entryLe c (i + 1) 16 32)⟩)

/-- The checks of COPY_FORWARD (R351, R354, R357, R368). -/
def State.copyChecks (s : State) (c : HostCmd) : Check :=
  let n := entryLe c 0 10 2
  let lst := entryList c
  let good := decide (1 ≤ n ∧ n ≤ (if lst then 64 else 15))
  let p := entryLe c 0 8 2
  firstFail [
    layout c 0x0101 (if !good then entrySlots c else if lst then 2 else 1 + n)
      ([⟨8, 2, p ≤ 63⟩, ⟨10, 2, good⟩] ++ descAt c 16 ++
        (if !good then [] else if lst then descAt c 64
         else (List.range n).map (fun i => anyAt (64 * (i + 1)) 48))),
    descCheck c 16 (32 * n),
    listCheck c n 64,
    if lst && (List.range n).any (fun i => (slice (c.read.list.getD []) (64 * i + 48) 16).any (· ≠ 0)) then
      some (stMalformed, 0xFFFF) else none,
    if lst then none else firstFail ((copySources c).map (fun i => s.locatorCheck i.loc)),
    s.dataPriv c p .append,
    s.poolCheck p]

/-- The status of a source before it is read (R142, R150, R368); none when it is to be read. -/
def State.sourceCheck (s : State) (c : HostCmd) (i : CopySource) : Option Nat :=
  let l := locatorOf i.loc
  if !s.locatorOk i.loc then some stBadLocator
  else if !s.hasRight c.x l.pool .copyForward then some stAccessDenied
  else if !s.poolUp l.pool then some stPoolOffline
  else
    match s.stripe? l.pool l.stripe with
    | none => some stExtentReleased
    | some t =>
      if t.state = .free ∨ t.state = .released then some stExtentReleased
      else
        match t.dir.find? (fun e => e.off = l.off && e.len = l.len) with
        | none => if t.dirLost then none else some stExtentReleased
        | some e =>
          if t.dirLost then none
          else if e.void || e.released || e.releasedAtSeal then some stExtentReleased
          else if e.tag ≠ i.tag then some stTagMismatch
          else none

/-- Append the bytes of one source to the target pool (R149): a command of its own under its COPY_FORWARD. -/
def State.copyOne (s : State) (id idx pool : Nat) (durable : Bool) (tag : BitVec 256) (bytes : List Byte) : State :=
  match s.cmd? id with
  | some c =>
    if bytes.isEmpty ∨ bytes.length > s.appendLimit pool then
      s.copyItem id idx { locator := [], status := some stMalformed, durable := false }
    else
      let k := s.qm.nextCmd
      let a : AppendCmd := { pool := pool, len := bytes.length, tag := tag, durable := durable, addr := [],
                             payload := some bytes, parent := some (id, idx), reserved := false, placed := none, off := 0,
                             seq := 0, got := 0, whole := false }
      let s := s.setCmd k { c with cid := 0, body := .append a }
      { s with qm := { s.qm with nextCmd := k + 1 } }
  | none => s

/-- COPY_FORWARD (R149 to R151, R369), with what reading each source by the READ path gave; a source no operand speaks
of has a free outcome (log entry 6). -/
def State.runCopy (s : State) (id : Nat) (c : HostCmd) (reads : List SourceRead) : State :=
  s.checked id (s.copyChecks c) (fun s =>
    let src := copySources c
    let pool := entryLe c 0 8 2
    let buf := entryDesc c 0 16
    let blank : CopyItem := { locator := [], status := none, durable := false }
    let s := s.setBody id (.copy buf.addr buf.len (src.map (fun _ => blank)))
    let s := s.each src.zipIdx (fun e s =>
      match s.sourceCheck c e.1, reads[e.2]? with
      | some st, _ => s.copyItem id e.2 { locator := [], status := some st, durable := false }
      | none, some (.ok bytes) =>
        s.copyOne id e.2 pool (bit (entryFlags c) 8) e.1.tag (padTo (locatorOf e.1.loc).len bytes)
      | none, some (.failed st) => s.copyItem id e.2 { locator := [], status := some st, durable := false }
      | none, none =>
        let d := s.draw Config.freeNat
        if d.1 % 2 = 0 then
          d.2.copyOne id e.2 pool (bit (entryFlags c) 8) e.1.tag (leBytes (locatorOf e.1.loc).len (d.1 / 2))
        else d.2.copyItem id e.2 { locator := [], status := some (stExtentLost + d.1 / 2 % 4), durable := false })
    s.admitHeld)

end Sys2Proof.Machine
end

