-- ==== Sys2Proof/Machine/Rebuild.lean ====
section
/-! DEFINITION. Rebuild passes (R213 to R221): their order, their reads, the RECOVER of each stripe, the writes to substitutes,
the advance of cursors and the end of records. -/

namespace Sys2Proof.Machine

open Sys2Proof

/-! ### Where a pass may work -/

/-- H of an enclosure in 0.1 °C (R431). -/
def State.headroom (s : State) (e : Nat) : Int := (BitVec.ofNat 12 (s.fld CL_ENC_STATE e CL_ENC_STATE_HEADROOM_DC)).toInt

/-- Rebuild reads allowed at once to a member (R218, R219); a device without a climate unit measures no headroom. -/
def State.rebuildLimit (s : State) (slot : Nat) : Nat :=
  let h := s.headroom (s.enclosure slot)
  if !s.hasCL || h ≥ 10 * (s.fld SE_RB_PARAM 0 SE_RB_PARAM_HOT_HALF_C : Int) then
    s.fld SE_RB_PARAM 0 SE_RB_PARAM_READS_PER_MEMBER
  else if h ≥ 10 * (s.fld SE_RB_PARAM 0 SE_RB_PARAM_HOT_STOP_C : Int) then 1
  else 0

/-- Rebuild reads outstanding to a slot. -/
def State.rebuildReads (s : State) (slot : Nat) : Nat :=
  (s.se.passes.map (fun e => e.2.issued.countP (fun q => s.posSlot e.1 q = slot))).sum

/-- Surviving positions of a set: not FAILED, not LINK_DOWN, no open record. -/
def State.survivors (s : State) (x : SetRec) : List Nat :=
  (List.range x.members.length).filter (fun q => !s.posFailed x q && !s.posDown x q && (x.record q).isNone)

/-! ### Stripes of a set by offset -/

/-- Chunk offsets of a set's stripes at or above a cursor, outside DRAINED bands (R214), rising. -/
def State.rebuildOffsets (s : State) (i : Nat) (q : Params) (lo : Nat) : List Nat :=
  let os := s.se.stripes.flatMap (fun e =>
    (if e.2.standsAt i e.2.chunkOffset then [e.2.chunkOffset] else []) ++
    (if e.2.standsAt i e.2.oldOffset then [e.2.oldOffset] else []))
  sortBy (· ≤ ·) ((os.filter (fun o => lo ≤ o && s.setBandState i (o / q.bandUnits) q.bandMiB != .drained)).eraseDups)

/-- The stripe of a set at a chunk offset. -/
def State.stripeAt (s : State) (i o : Nat) : Option (Nat × Stripe) :=
  match s.se.stripes.find? (fun e => e.2.standsAt i o && e.2.state != .released) with
  | some e => some e
  | none => s.se.stripes.find? (fun e => e.2.standsAt i o)

/-! ### Records close (R213) -/

/-- Bands of a substitute below a cursor, or all of them at the end, take the state of the band they replaced (R64). -/
def State.settleBands (s : State) (i slot : Nat) (q : Params) (below : Nat) : State :=
  s.each (s.heldBands i) (fun b s =>
    if s.band slot b q.bandMiB = (.substitute, i) ∧ (b + 1) * q.bandUnits ≤ below then
      s.setBand slot b (s.setBandState i b q.bandMiB) i
    else s)

/-- Close the records of a set whose cursor no stripe stands at or above; without a record and with no position failed, the
set is ACTIVE again (R213). -/
def State.closeRecords (s : State) (i : Nat) : State :=
  match s.set? i, s.setParams i with
  | some x, some q =>
    let done := x.rebuild.filter (fun r => (s.rebuildOffsets i q r.cursor).isEmpty)
    if done.isEmpty then s
    else
      let s := s.each done (fun r s => s.settleBands i (x.members.getD r.pos 1024) q (2 ^ 40))
      let s := s.modSet i (fun x =>
        let left := x.rebuild.filter (fun r => !done.contains r)
        { x with rebuild := left,
                 state := if left.isEmpty ∧ x.state = .rebuilding then
                   (if x.failedPos.isEmpty then .active else .degraded) else x.state })
      s.gradePool x.pool
  | _, _ => s

/-- End a set's pass. -/
def State.endPass (s : State) (i : Nat) : State :=
  let s := { s with se := { s.se with passes := Tab.erase s.se.passes i } }
  s.modSet i (fun x => { x with passRunning := false, passSubs := [] })

/-! ### One stripe of a pass -/

/-- The state with a pass set. -/
def State.setPass (s : State) (i : Nat) (p : Pass) : State :=
  { s with se := { s.se with passes := Tab.set s.se.passes i p } }

/-- The pass of a set. -/
def State.pass? (s : State) (i : Nat) : Option Pass := Tab.get? s.se.passes i

/-- Advance every cursor of a set at or below `o` past it, and what follows (R214). -/
def State.passOffset (s : State) (i o : Nat) (only : Nat → Bool) : State :=
  match s.setParams i with
  | some q =>
    let s := s.modSet i (fun x => { x with rebuild := x.rebuild.map (fun r =>
      if r.cursor ≤ o ∧ only r.pos then { r with cursor := o + chunkUnits q.chunk } else r) })
    match s.set? i with
    | some x => s.each x.rebuild (fun r s => s.settleBands i (x.members.getD r.pos 1024) q r.cursor)
    | none => s
  | none => s

/-- Issue the chunk reads of every pass that its members may take now (R217 to R219). -/
def State.issuePasses (s : State) : State :=
  s.each (Tab.keys s.se.passes) (fun i s =>
    match s.pass? i with
    | some p =>
      s.each p.need (fun q s =>
        match s.pass? i with
        | some p =>
          let d := s.posSlot i q
          if s.awake d && s.rebuildReads d < s.rebuildLimit d then
            (s.setPass i { p with need := p.need.filter (· ≠ q), issued := p.issued ++ [q] }).driveOut d 2
              (p.off * 262144) (2 ^ 40 + i)
          else s
        | none => s)
    | none => s)

/-- Write the rebuilt or filler chunks of a pass to the substitutes behind at its offset (R214, R288); with none to write, the
cursors pass. -/
def State.passWrites (s : State) (i : Nat) (p : Pass) (positions : List Nat) : State :=
  if positions.isEmpty then (s.passOffset i p.off (fun _ => true)).setPass i { p with writing := [], coding := false }
  else
    let s := s.setPass i { p with writing := positions, coding := false }
    s.each positions (fun q s => s.driveOut (s.posSlot i q) 10 p.key p.off)

/-- The decode key of a pass (R97, R104): lost data chunks and the parities that stand in for them. -/
def passKey (n : Nat) (q : Params) (got : List Nat) : Option MatrixKey :=
  let idx := sortBy (· ≤ ·) (got.map (fun p => posChunk n p q.w))
  let hs := idx.take q.k
  let lost := (List.range q.k).filter (fun i => !hs.contains i)
  let par := (hs.filter (q.k ≤ ·)).map (· - q.k)
  if needsMatrix lost par then some { k := q.k, m := q.m, lost := lost, par := par } else none

/-- Start a pass's work on one offset: reads for a WRITTEN stripe, a filler or nothing for a RELEASED or BROKEN one (R214,
R220); `false` when the pass must wait. -/
def State.passStripe (s : State) (i o : Nat) : Bool × State :=
  match s.set? i, s.setParams i, s.stripeAt i o with
  | some x, some q, some (key, t) =>
    let blank : Pass := { off := o, key := key, need := [], issued := [], got := [], writing := [], coding := false }
    let t' := t.placedAt i o
    let filler := (x.behindAt o).filter (fun p => match s.drive? (x.members.getD p 1024) with
      | some d => d.info.zoned
      | none => false)
    if t.state = .sealed then (false, s)
    else if t.state = .written then
      let there := (List.range x.members.length).filter (fun p => s.chunkThere x t' p)
      let cool := fun p => s.rebuildLimit (x.members.getD p 1024) > 0
      let up := fun p => s.awake (x.members.getD p 1024)
      let order := there.filter (fun p => up p && cool p) ++ there.filter (fun p => up p && !cool p) ++
        there.filter (fun p => !up p)
      let helpers := order.take q.k
      if helpers.length < q.k then
        if (List.range x.members.length).countP (fun p => s.chunkLost x t' p) > q.m then
          let s := if t.set = i && t.chunkOffset = o then s.checkBroken (keyPool key) (keyStripe key) 0 else s
          (true, s.passWrites i blank filler)
        else (false, s)
      else
        let s := s.setPass i { blank with need := helpers }
        let s := s.wake ((helpers.filter (fun p => !up p)).map (fun p => x.members.getD p 1024)) 3
        (true, s.issuePasses)
    else (true, s.passWrites i blank filler)
  | _, _, _ => (false, s)

/-- Carry a pass to the next stripe that takes reads or writes, over those that take none (R214); at the end its records
close. -/
def State.passNext : Nat → State → Nat → State
  | 0, s, i => s.endPass i
  | n + 1, s, i =>
    match s.set? i, s.setParams i with
    | some x, some q =>
      if !x.passRunning ∨ x.rebuild.isEmpty then s.endPass i
      else
        let lo := x.rebuild.foldl (fun m r => min m r.cursor) (2 ^ 40)
        match (s.rebuildOffsets i q lo).head? with
        | none => (s.closeRecords i).endPass i
        | some o =>
          let r := s.passStripe i o
          if !r.1 then (r.2.closeRecords i).endPass i
          else
            match r.2.pass? i with
            | some p =>
              if p.need.isEmpty && p.issued.isEmpty && p.writing.isEmpty then State.passNext n (r.2.closeRecords i) i
              else r.2
            | none => r.2.endPass i
    | _, _ => s.endPass i

/-- Steps a pass can take over the stripes of the unit. -/
def State.passFuel (s : State) : Nat := 2 * s.se.stripes.length + 2

/-! ### Starting passes (R215 to R217) -/

/-- Whether a set may start a pass now (R215, R217, R219). -/
def State.passStartable (s : State) (x : SetRec) : Bool :=
  !x.passRunning && !x.rebuild.isEmpty && s.poolUp x.pool &&
  (x.state = .rebuilding || x.state = .degraded) &&
  !s.se.sets.any (fun e => e.2.passRunning && e.2.passSubs.any (fun d => x.substitutes.contains d)) &&
  x.substitutes.all (fun d => s.rebuildLimit d > 0) &&
  (s.margin x = 0 || (s.survivors x).countP (fun q => s.awake (x.members.getD q 1024)) ≥ x.k)

/-- REBUILD_PASS_START: the first set of R215 that may start a pass starts one (R214 to R217). -/
def State.startPass (s : State) : State :=
  let running := s.se.sets.countP (fun e => e.2.passRunning)
  if running ≥ s.fld SE_RB_PARAM 0 SE_RB_PARAM_MAX_PASSES then s
  else
    match pickBest s.rebuildBefore (s.se.sets.filter (fun e => s.passStartable e.2)) with
    | some e =>
      let s := s.modSet e.1 (fun x => { x with passRunning := true, passSubs := x.substitutes })
      State.passNext s.passFuel s e.1
    | none => s

/-! ### What comes back -/

/-- A pass has the chunks it needs: one RECOVER job for every behind position (R214). -/
def State.passReady (s : State) (i : Nat) : State :=
  match s.pass? i, s.setParams i with
  | some p, some q =>
    if p.need.isEmpty && p.issued.isEmpty && p.writing.isEmpty && !p.coding then
      (s.setPass i { p with coding := true }).ceSubmit
        { kind := .recover, cls := 2, pool := keyPool p.key, stripe := keyStripe p.key, cmd := some (2 ^ 40 + i), m := q.m,
          key := passKey (keyStripe p.key) q p.got, bytes := q.k * chunkPayload q.chunk }
    else s
  | _, _ => s

/-- A rebuild read of a pass comes back (R214, R220): data counts; an unreadable sector or hash failure makes the chunk lost, it
is repaired, and the pass chooses again. -/
def State.passRead (s : State) (i pos : Nat) (o : ChunkOutcome) : State :=
  match s.pass? i with
  | some p =>
    if !p.issued.contains pos then s
    else
      let s := s.setPass i { p with issued := p.issued.filter (· ≠ pos), got := p.got ++ [pos] }
      match o with
      | .data _ => (s.issuePasses).passReady i
      | bad =>
        let s : State := match bad with
          | .unreadable => s.readError (s.posSlot i pos)
          | _ => s
        let s := s.chunkBad (keyPool p.key) (keyStripe p.key) pos 0
        State.passNext s.passFuel s i
  | none => s

/-- The RECOVER job of a pass is done: its outputs are written to the behind substitutes (R214). -/
def State.passCoded (s : State) (i : Nat) : State :=
  match s.pass? i, s.set? i with
  | some p, some x =>
    if p.coding then
      let s := s.passWrites i p (x.behindAt p.off)
      if (x.behindAt p.off).isEmpty then State.passNext s.passFuel s i else s
    else s
  | _, _ => s

/-- A substitute reports a rebuilt chunk on stable media (R213, R214): the first outstanding position's cursor advances; after
the last, the stripe's flags follow and the pass goes on. -/
def State.passWritten (s : State) (i : Nat) : State :=
  match s.pass? i with
  | some p =>
    match p.writing with
    | q :: rest =>
      let s := (s.passOffset i p.off (fun r => r = q)).setPass i { p with writing := rest }
      if rest.isEmpty then
        let n := keyStripe p.key
        let s := s.modStripe (keyPool p.key) n (fun t =>
          if t.state = .written && t.set = i && t.chunkOffset = p.off then { t with repaired := true } else t)
        let s : State := match s.stripe? (keyPool p.key) n with
          | some t => if t.state = .written && (s.lostPos t).isEmpty then
              s.modStripe (keyPool p.key) n (fun t => { t with degraded := false }) else s
          | none => s
        State.passNext s.passFuel s i
      else s
    | [] => s
  | none => s

end Sys2Proof.Machine
end

