-- ==== Sys2Proof/Machine/CodingEngine.lean ====
section
/-! DEFINITION. The coding engine (chapter 03): dispatch of jobs to clusters, the decode-matrix cache and the matrix unit, the
ends of jobs, cluster faults and invalidation. -/

namespace Sys2Proof.Machine

open Sys2Proof

/-! ### Dispatch (R103) -/

/-- The domain of a coding cluster (R115). -/
def ceDomain (n : Nat) : Nat := 151 + n

/-- Clusters that are enabled and idle, rising (R103, R112); one whose domain drains or is gated by an owner request is out of
dispatch (R539). -/
def State.ceIdle (s : State) : List Nat :=
  (List.range 8).filter (fun n =>
    bit (s.fld CE_CLUSTER_EN 0 CE_CLUSTER_EN_EN) n && (Tab.get? s.ce.running n).isNone &&
    (s.domain (ceDomain n) = 0 || s.pw.idleGated.contains (ceDomain n)))

/-- The weights of the four classes (CE_WEIGHT; 0 acts as 1). -/
def State.ceWeights (s : State) : List Nat :=
  [CE_WEIGHT_ENCODE, CE_WEIGHT_READ, CE_WEIGHT_REBUILD, CE_WEIGHT_BACKGROUND].map (fun f => max 1 (s.fld CE_WEIGHT 0 f))

/-- The oldest job of the lowest class that has one and has credit. -/
def cePickWith (q : List CeJob) (credits : List Nat) : Option (CeJob × List Nat) :=
  match (List.range 4).find? (fun c => q.any (fun j => j.cls = c) && credits.getD c 0 > 0) with
  | some c => (q.find? (fun j => j.cls = c)).map (fun j => (j, credits.set c (credits.getD c 0 - 1)))
  | none => none

/-- The next job under weighted round robin, and the credits left: when no class with a job has credit, every class gets
its weight again (R103). -/
def State.cePick (s : State) : Option (CeJob × List Nat) :=
  match cePickWith s.ce.queue s.ce.credits with
  | some r => some r
  | none => cePickWith s.ce.queue s.ceWeights

/-! ### Decode matrices (R104 to R108) -/

/-- A key at the front of a cache level of `n` entries, least recently used last (R105). -/
def ceTouch (n : Nat) (k : MatrixKey) (l : List MatrixKey) : List MatrixKey := (k :: l.filter (· ≠ k)).take n

/-- Both cache levels hold a key as the most recent. -/
def State.ceInstall (s : State) (k : MatrixKey) : State :=
  { s with ce := { s.ce with l1 := ceTouch 256 k s.ce.l1, l2 := ceTouch 65536 k s.ce.l2 } }

/-- The key a waiting cluster's job needs. -/
def State.ceKeyOf (s : State) (n : Nat) : Option MatrixKey := (Tab.get? s.ce.running n).bind (·.key)

/-- The matrix unit begins the inversion the first waiting cluster needs, when it is idle (R106). -/
def State.ceInvertNext (s : State) : State :=
  match s.ce.inverting, s.ce.waiting with
  | none, n :: _ => { s with ce := { s.ce with inverting := s.ceKeyOf n } }
  | _, _ => s

/-- A cluster's job asks for its matrix (R105 to R107, CE_CTL.CACHE_EN): found, waiting for an inversion in progress, or
inverted for it. -/
def State.ceLookup (s : State) (n : Nat) (k : MatrixKey) : State :=
  let wait := fun (s : State) => State.ceInvertNext { s with ce := { s.ce with waiting := s.ce.waiting ++ [n] } }
  if s.fld CE_CTL 0 CE_CTL_CACHE_EN = 1 then
    if s.ce.l1.contains k ∨ s.ce.l2.contains k then (s.bump CE_CACHE_HIT 0 CE_CACHE_HIT_COUNT).ceInstall k
    else if s.ce.waiting.any (fun w => s.ceKeyOf w = some k) then wait (s.bump CE_CACHE_HIT 0 CE_CACHE_HIT_COUNT)
    else wait (s.bump CE_CACHE_MISS 0 CE_CACHE_MISS_COUNT)
  else wait (s.bump CE_CACHE_MISS 0 CE_CACHE_MISS_COUNT)

/-- A job starts on a cluster, or waits there for its matrix. -/
def State.ceStart (s : State) (n : Nat) (j : CeJob) : State :=
  let s := { s with ce := { s.ce with running := Tab.set s.ce.running n j } }
  match j.key with
  | some k => s.ceLookup n k
  | none => s

/-- The end of a job whose stripe has more parities than the variant codes (R114). -/
def State.ceAbsent (s : State) (j : CeJob) : State :=
  match j.cmd with
  | some id => if id ≥ 2 ^ 40 then s.endPass (id - 2 ^ 40) else s.complete id stUnitAbsent
  | none => s

/-- Dispatch the next queued job to the lowest-numbered idle enabled cluster of a powered domain; when all of them are gated,
the domain of the lowest is ungated first (R103). -/
def State.ceDispatch (s : State) : State :=
  match s.cePick with
  | none => s
  | some (j, credits) =>
    let take := { s with ce := { s.ce with queue := s.ce.queue.erase j, credits := credits } }
    if j.m > s.maxM then take.ceAbsent j
    else
      match s.ceIdle.find? (fun n => s.domain (ceDomain n) = 0) with
      | some n => take.ceStart n j
      | none =>
        match s.ceIdle.head?, s.ce.waitDomain with
        | some n, none =>
          { s with ce := { s.ce with waitDomain := some (ceDomain n) },
                   pw := { s.pw with ungating := if s.pw.ungating.contains (ceDomain n) then s.pw.ungating
                                                 else s.pw.ungating ++ [ceDomain n] } }
        | _, _ => s

/-! ### The ends of jobs -/

/-- Submit the header hash of each chunk of a coded stripe that has to be written (R137, R285). -/
def State.hashChunks (s : State) (p n : Nat) : State :=
  match s.pool? p, s.stripe? p n with
  | some pl, some t =>
    match s.set? t.set with
    | some x =>
      let q := pl.paramsOf t.gen
      let l := chunkPayload q.chunk
      s.each (s.mustAck x t) (fun pos s =>
        s.hashSubmit (.chunk p n pos) 1 (Config.sha3 (memRead t.data (posChunk n pos q.w * l) l)))
    | none => s
  | _, _ => s

/-- An ENCODE job is done (R94, R123, R136): the directory stands in the data area, the parities beside it, and the chunk
headers go to the hash engine. -/
def State.encodeDone (s : State) (p n : Nat) : State :=
  match s.pool? p, s.stripe? p n with
  | some x, some t =>
    if t.state = .sealed && !t.coded then
      let q := x.paramsOf t.gen
      let data := memWrite t.data (q.dirUnit * 4096) (dirBytes p n t)
      let data := encodeCells q.k q.m (chunkPayload q.chunk) data
      (s.modStripe p n (fun t => { t with data := data, coded := true })).hashChunks p n
    else s
  | _, _ => s

/-- The writes of a scarf copy or return go out once its parities are coded (R258). -/
def State.copyWrites (s : State) (p n : Nat) : State :=
  match s.stripe? p n with
  | some t =>
    match t.newPlace with
    | some (i, off) => s.each (s.membersOf i) (fun m s => s.driveOut m 1 (stripeKey p n) off)
    | none => s
  | none => s

/-- A job ends on its cluster (R101, R109): the counters, and what the job was for. -/
def State.ceFinish (s : State) (n : Nat) (mismatch : List (Nat × Nat)) : State :=
  match Tab.get? s.ce.running n with
  | none => s
  | some j =>
    if s.ce.waiting.contains n then s
    else
      let s := { s with ce := { s.ce with running := Tab.erase s.ce.running n } }
      let lo := CE_CL_BYTES_LO.at n
      let hi := CE_CL_BYTES_HI.at n
      let s := s.setReg64 lo hi (s.reg64 lo hi + j.bytes)
      let s := s.bumpWrap CE_CL_JOBS n CE_CL_JOBS_COUNT
      match j.kind with
      | .encode => if j.cls = 3 then s.copyWrites j.pool j.stripe else s.encodeDone j.pool j.stripe
      | .recover =>
        match j.cmd with
        | some id => if id ≥ 2 ^ 40 then s.passCoded (id - 2 ^ 40) else (s.readTogether id).follow id
        | none => s
      | .verify => if mismatch.isEmpty then s else s.bump CE_VERIFY_MISMATCH 0 CE_VERIFY_MISMATCH_COUNT

/-- The matrix unit finishes an inversion (R106, R107): installed in both levels, the jobs that wait for it start, and the
next inversion begins. -/
def State.ceInverted (s : State) : State :=
  match s.ce.inverting with
  | none => s
  | some k =>
    let cached := decide (s.fld CE_CTL 0 CE_CTL_CACHE_EN = 1)
    let s : State := if cached then s.ceInstall k else s
    let go := s.ce.waiting.filter (fun n => s.ceKeyOf n = some k)
    let go := if cached then go else go.take 1
    State.ceInvertNext
      { s with ce := { s.ce with inverting := none, waiting := s.ce.waiting.filter (fun n => !go.contains n) } }

/-! ### Faults, enables, invalidation, reset -/

/-- The event of an engine with no cluster enabled (R111), once until one is enabled. -/
def State.noteClusters (s : State) : State :=
  if s.noCluster then
    if s.ce.noCluster then s
    else State.raise { s with ce := { s.ce with noCluster := true } } 0x702 6 noInst
  else { s with ce := { s.ce with noCluster := false } }

/-- A job leaves its cluster without output. -/
def State.ceDrop (s : State) (n : Nat) : State :=
  let s := { s with ce := { s.ce with running := Tab.erase s.ce.running n, waiting := s.ce.waiting.filter (· ≠ n) } }
  match s.ce.inverting with
  | some k => if s.ce.waiting.any (fun w => s.ceKeyOf w = some k) then s
    else State.ceInvertNext { s with ce := { s.ce with inverting := none } }
  | none => s

/-- A cluster faults (R110): its job runs again from the start on another cluster, and the cluster is out until it is enabled
again. -/
def State.ceFault (s : State) (n : Nat) : State :=
  if n ≥ 8 then s
  else
    let s : State := match Tab.get? s.ce.running n with
      | some j =>
        let s := s.ceDrop n
        { s with ce := { s.ce with queue := j :: s.ce.queue } }
      | none => s
    let mask := 0xFF ^^^ 2 ^ n
    let s := s.setFld CE_CLUSTER_FAULT 0 CE_CLUSTER_FAULT_FAULT (s.fld CE_CLUSTER_FAULT 0 CE_CLUSTER_FAULT_FAULT ||| 2 ^ n)
    let s := s.setFld CE_CLUSTER_EN 0 CE_CLUSTER_EN_EN (s.fld CE_CLUSTER_EN 0 CE_CLUSTER_EN_EN &&& mask)
    (s.raise 0x701 5 n).noteClusters

/-- A write of CE_CTL (R108): CACHE_EN is set; INVALIDATE empties both cache levels, and INV_BUSY reads 1 until it is done. -/
def ceCtlWrite (v : Word) (s : State) : State :=
  let s := s.writeByType (CE_CTL.at 0) v
  if CE_CTL_INVALIDATE.get v = 1 then
    State.setFld { s with ce := { s.ce with l1 := [], l2 := [] } } CE_STATUS 0 CE_STATUS_INV_BUSY 1
  else s

/-- A write of CE_CLUSTER_EN (R111, R112): a cleared cluster finishes its job and takes no more. -/
def ceEnWrite (v : Word) (s : State) : State := (s.writeByType (CE_CLUSTER_EN.at 0) v).noteClusters

/-- A UNIT reset of CE (R113): jobs in flight end without output and are submitted again, both cache levels are invalid, and the
registers take their reset values. -/
def State.ceReset (s : State) : State :=
  let again := s.ce.running.map (·.2)
  { s with
    regs := s.regs.filter (fun e => !(0x300000 ≤ e.1 && e.1 < 0x340000))
    ce := { CeUnit.reset with queue := again ++ s.ce.queue } }

end Sys2Proof.Machine
end

