-- ==== Sys2Proof/Machine/Checkpoint.lean ====
section
/-! DEFINITION. Shared operations of checkpoints, the scribe journal and reclaim (R65, R155, R180 to R183, R295, R660). -/

namespace Sys2Proof.Machine

open Sys2Proof

/-- Whether a slot's drive serves a pool and can be reached. -/
def State.memberReadable (s : State) (p n : Nat) : Bool :=
  match s.drive? n with
  | some d => d.serves p && !d.linkDown
  | none => false

/-- Readable sill members of a pool, of both generations during a scarf (R253). -/
def State.readableSill (s : State) (p : Nat) : List Nat :=
  match s.pool? p with
  | some x =>
    let old := match x.scarf with
      | some c => c.oldSill
      | none => []
    ((x.sill ++ old).eraseDups).filter (s.memberReadable p)
  | none => []

/-- Readable journal members of a pool, of both generations during a scarf (R253). -/
def State.readableJournal (s : State) (p : Nat) : List Nat :=
  match s.pool? p with
  | some x =>
    let old := match x.scarf with
      | some c => c.oldJournal
      | none => []
    ((x.journal ++ old).eraseDups).filter (s.memberReadable p)
  | none => []

/-- Write a pool's checkpoint to the sill members (R155, R295, R303): its records go to each log, the members woken in class 1. The commit
checkpoint goes to the new generation's members (R268 step 2). -/
def State.writeCkpt (s : State) (p : Nat) : State :=
  match s.pool? p with
  | some x =>
    let sill := s.readableSill p
    let gen := (x.ckptGen + 1) % 2 ^ 64
    let old := ckptRecords (s.checkpoint p x true)
    let new := ckptRecords (s.checkpoint p x false)
    let pass := (Pool.logsOf x sill).filter (fun e => match x.scarf with
      | some c => !(c.state = .committing && !c.commitMark) || e.2 = x.newParams.gen
      | none => true)
    (s.wake sill 1).each pass (fun e s => s.appendLog p e.1 e.2 0 gen (if e.2 = x.oldParams.gen then old else new))
  | none => s

/-- Write the latest protection record to sill members of a pool (R305). -/
def State.writeProt (s : State) (p : Nat) (slots : List Nat) : State :=
  match s.pool? p with
  | some x =>
    let r := s.protSection
    s.each (Pool.logsOf x slots) (fun e s =>
      s.appendLog p e.1 e.2 2 x.ckptGen [⟨5, 0, r.take 4032, padTo 8192 (r.drop 4032)⟩])
  | none => s

/-- Start a checkpoint of a pool (R155, R296): what it covers is fixed now. One that something waits for takes the place of one that
runs already. -/
def State.startCkpt (s : State) (p reason : Nat) : State :=
  match s.pool? p with
  | some x =>
    if x.ckpt.isSome ∧ reason = ckPlain then s.modPool p (fun x => { x with ckptWanted := true })
    else
      let released := ((s.stripesOf p).filter (fun e => e.2.state = .released)).map (·.1)
      let s := s.modPool p (fun x =>
        { x with ckpt := some { gen := (x.ckptGen + 1) % 2 ^ 64, deltaSeq := x.deltaCount, released := released,
                                reason := reason }
                 ckptWanted := false })
      if s.silenced then s else s.writeCkpt p
  | none => s

/-- Whether every stripe of a set in a band is RELEASED and was so at a checkpoint (R65). -/
def State.bandRecorded (s : State) (i b bandUnits : Nat) (released : List Nat) : Bool :=
  s.se.stripes.all (fun e =>
    !(e.2.set = i && e.2.chunkOffset / bandUnits = b && e.2.state != .opened) ||
      (e.2.state = .released && released.contains (keyStripe e.1)))

/-- The stripes of a reclaimed band become FREE in rising order (R65), and the set RETIRED when it is retiring and holds no
band. -/
def State.bandFreed (s : State) (i b : Nat) : State :=
  match s.set? i, s.setParams i with
  | some x, some q =>
    if x.members.any (fun m => s.band m b q.bandMiB = (.drained, i)) then s
    else
      let dead := s.se.stripes.filter (fun e =>
        e.2.set = i && e.2.chunkOffset / q.bandUnits = b && e.2.state = .released)
      let s := { s with se := { s.se with stripes := s.se.stripes.filter (fun e => !dead.any (fun d => d.1 = e.1)) } }
      let s := s.modPool x.pool (fun p => { p with freed := p.freed ++ dead.map (fun e => keyStripe e.1) })
      let s := s.each dead (fun e s => s.delta x.pool (keyStripe e.1))
      let s : State := match s.pool? x.pool with
        | some pl =>
          (match pl.scarf with
           | some c => if c.state = .stalled then
               s.modPool x.pool (fun p => { p with scarf := some { c with state := .copying } }) else s
           | none => s)
        | none => s
      let dropped : Bool := match s.pool? x.pool with
        | some pl => x.gen != pl.params.gen && (match pl.scarf with
          | some c => c.commitMark
          | none => false)
        | none => false
      if (s.poolState x.pool = .retiring || dropped) && (s.heldBands i).isEmpty then
        s.modSet i (fun x => { x with state := .retired })
      else s
  | _, _ => s

/-- One member's part of a band is reclaimed (R660): FREE, or BAD when a zone cannot be reset. -/
def State.memberReclaimed (s : State) (n b : Nat) (bad : Bool) : State :=
  match Tab.get? s.se.bands (bandKey n b) with
  | some (_, i) =>
    let s := { s with se := { s.se with reclaims := Tab.erase s.se.reclaims (bandKey n b) } }
    let s := s.setBand n b (if bad then .bad else .free) 0
    let s : State := if bad then s.badBandCount n else s
    s.bandFreed i b
  | none => s

/-- Issue the reclaim of a DRAINED band on every member (R65): a zone reset, an UNMAP, or nothing on a conventional disk. -/
def State.reclaimBand (s : State) (i b : Nat) : State :=
  s.each (s.membersOf i) (fun m s =>
    match s.drive? m, Tab.get? s.se.bands (bandKey m b) with
    | some d, some (.drained, j) =>
      if !d.serves d.pool then s.memberReclaimed m b false
      else if j != i ∨ (Tab.get? s.se.reclaims (bandKey m b)).isSome then s
      else if d.info.zoned ∨ (d.info.flash ∧ !d.info.sata) then
        ({ s with se := { s.se with reclaims := Tab.set s.se.reclaims (bandKey m b) 0 } }).driveOut m 5 b 0
      else s.memberReclaimed m b false
    | _, _ => s)

/-- Reclaim every DRAINED band of a pool whose stripes a checkpoint has recorded RELEASED (R65). -/
def State.reclaimDrained (s : State) (p : Nat) (released : List Nat) : State :=
  s.each (s.setsOf p) (fun e s =>
    match s.setParams e.1 with
    | some q =>
      s.each (s.heldBands e.1) (fun b s =>
        if (s.membersOf e.1).any (fun m => s.band m b q.bandMiB = (.drained, e.1)) &&
            s.bandRecorded e.1 b q.bandUnits released then s.reclaimBand e.1 b
        else s)
    | none => s)

/-- The common part of a checkpoint's completion (R155): its deltas are dropped, its generation stands, a CHECKPOINT record
is journalled, and DRAINED bands it covers are reclaimed. -/
def State.ckptDone (s : State) (p : Nat) (c : Ckpt) : State :=
  let s := s.modPool p (fun x =>
    { x with ckptGen := c.gen, ckpt := none, deltaCount := x.deltaCount - c.deltaSeq, jBandsSince := 0,
             logs := x.logs.map (fun (e : Nat × SillLog) => (e.1, if e.2.last = e.2.done then e.2 else { e.2 with keep := e.2.done, done := e.2.last })) })
  let s := { s with se := { s.se with deltaFull := s.se.deltaFull && s.deltaTotal ≥ deltaCapacity } }
  let s : State := match s.pool? p with
    | some x => s.journal p (.checkpoint c.gen x.jseq)
    | none => s
  s.reclaimDrained p c.released

/-- A reclaim action ends (R660): a zone reset or UNMAP ends; the third failure makes a zone BAD, and an UNMAP counts as
done with an event. -/
def State.reclaimDone (s : State) (slot band : Nat) (ok : Bool) : State :=
  match Tab.get? s.se.reclaims (bandKey slot band), s.drive? slot with
    | some tries, some d =>
      if ok then s.memberReclaimed slot band false
      else if tries + 1 ≥ 3 then
        if d.info.zoned then s.memberReclaimed slot band true
        else (s.raise 0x5FF 3 d.pool (leBytes 2 slot ++ leBytes 4 band)).memberReclaimed slot band false
      else { s with se := { s.se with reclaims := Tab.set s.se.reclaims (bandKey slot band) (tries + 1) } }
    | _, _ => s

/-! ### The journal -/

/-- Whether a journal record is a BAND_OPEN. -/
def JRec.opensBand (r : JRec) : Bool :=
  match r with
  | .bandOpen _ _ => true
  | _ => false

/-- Write the gathered records as one block to the journal members, which are woken (R182); BAND_OPEN records are held while a log
has no room beyond the next checkpoint's (R183, R292). -/
def State.sendBlock (s : State) (p : Nat) : State :=
  match s.pool? p with
  | some x =>
    let held := s.logTight p x
    let go := (if held then x.gather.filter (fun r => !JRec.opensBand r) else x.gather).take 63
    if go.isEmpty ∨ !x.jBlock.isEmpty ∨ s.silenced then s
    else
      let kept := if held then x.gather.filter JRec.opensBand ++ (x.gather.filter (fun r => !JRec.opensBand r)).drop 63 else x.gather.drop 63
      let s := s.modPool p (fun x => { x with jBlock := go, gather := kept, jWritten := [] })
      let ms := s.readableJournal p
      let s := s.wake ms 1
      let body := go.zipIdx.flatMap (fun e => journalRecord (!s.timeSet) x.params.gen (x.jseq + 1 + e.2) e.1)
      let s := s.modPool p (fun y => { y with jseq := x.jseq + go.length })
      s.each (Pool.logsOf x ms) (fun e s => s.appendLog p e.1 e.2 1 x.ckptGen [⟨1, go.length, body, []⟩])
  | none => s

/-- Blocks that go out at once (R182), and checkpoints wanted by half a log, a DRAINED band or a log without room (R65, R155, R183,
R292). -/
def State.mediaHook (s : State) : State :=
  s.each s.ownedPools (fun p s =>
    match s.pool? p with
    | some x =>
      let s : State := if x.gather.any JRec.opensBand then s.sendBlock p else s
      if (x.ckptWanted || s.logTight p x) && x.ckpt.isNone && s.poolUp p && !s.silenced then s.startCkpt p ckPlain else s
    | none => s)

/-- A journal record is on stable media (R181): BAND_OPEN lets chunk writes go, RESERVE lets stripes open. -/
def State.recordStable (s : State) (p : Nat) (r : JRec) : State :=
  match r with
  | .bandOpen i _ =>
    let s := s.modSet i (fun x => { x with bandOpenLogged := true })
    s.each (s.stripesOf p) (fun e s => if e.2.set = i then s.issueWrites p e.1 else s)
  | .reserve _ n =>
    (s.modPool p (fun x => { x with reserved := x.reserved + n, reserveQueued := x.reserveQueued - n })).admitHeld
  | _ => s

/-- A journal block reaches stable media on a member (R181): its records count from the second member, or from the last
readable one; the next block follows when every readable member has it. -/
def State.blockWritten (s : State) (p n : Nat) : State :=
  match s.pool? p with
  | some x =>
    let ms := s.readableJournal p
    if x.jBlock.isEmpty ∨ !ms.contains n ∨ x.jWritten.contains n then s
    else
      let need := min 2 ms.length
      let before := x.jWritten.length
      let s := s.modPool p (fun x => { x with jWritten := x.jWritten ++ [n] })
      let s : State := if before < need ∧ before + 1 ≥ need then s.each x.jBlock (fun r s => s.recordStable p r) else s
      let s : State := if ms.all (fun m => m = n || x.jWritten.contains m) then
          s.modPool p (fun x => { x with jBlock := [], jWritten := [] })
        else s
      match s.pool? p with
      | some y =>
        if y.jBlock.isEmpty && y.gather.any JRec.opensBand then s.sendBlock p else s
      | none => s
  | none => s

/-- The committed chunk offset of a set's open band (R180): every stripe below it is WRITTEN. -/
def State.committed (s : State) (i : Nat) (x : SetRec) (q : Params) (b : Nat) : Nat :=
  (s.se.stripes.filter (fun e => e.2.set = i && e.2.state = .sealed && e.2.chunkOffset / q.bandUnits = b)).foldl
    (fun m e => min m e.2.chunkOffset) (x.nextOffset q)

/-- JOURNAL_FILL_TIMER (R180): a FILL record of the set's open band, when stripes in it became WRITTEN since the last. -/
def State.fillTimer (s : State) (set : Nat) : State :=
  (match s.set? set, s.setParams set with
    | some x, some q =>
      match x.openBand with
      | some b =>
        let c := s.committed set x q b
        if c > x.fill ∧ c > b * q.bandUnits then
          (s.modSet set (fun x => { x with fill := c })).journal x.pool (.fill set b c)
        else s
      | none => s
    | _, _ => s)

/-- RECLAIM_RETRY (R660): 1 s after a failed reclaim action it is issued again. -/
def State.reclaimRetry (s : State) (slot band : Nat) : State :=
  (match Tab.get? s.se.reclaims (bandKey slot band) with
    | some tries => if tries > 0 then s.driveOut slot 5 band 0 else s
    | none => s)

end Sys2Proof.Machine
end

