-- ==== Sys2Proof/Machine/Tide.lean ====
section
/-! DEFINITION. The tide (chapter 07): rounds, the check of one stripe and its findings, the tide mark, WAKING and LATE. -/

namespace Sys2Proof.Machine

open Sys2Proof

/-- The tide period of a pool in nanoseconds. -/
def Policy.tideNs (p : Policy) : Nat := p.tidePeriodD * dayNs

/-- Stripes of a set the tide has still to verify in a round, with their numbers: WRITTEN, at or above the cursor (R230,
R232). -/
def State.tideLeft (s : State) (p i : Nat) : List (Nat × Stripe) :=
  match s.pool? p, s.set? i with
  | some x, some y =>
    if y.tideDone = x.round then []
    else (s.stripesOf p).filter (fun e =>
      e.2.set = i && e.2.state = .written && e.2.codeId = 1 && y.tideCursor ≤ e.2.chunkOffset && e.2.tideRound != x.round)
  | _, _ => []

/-- Whether a pool's round runs. -/
def Pool.tideRuns (x : Pool) : Bool := x.round != 0 && !x.roundOver

/-- Chunk bytes not yet verified in the round (R235). -/
def State.tideBytesLeft (s : State) (p : Nat) : Nat :=
  match s.pool? p with
  | some x =>
    ((s.setsOf p).flatMap (fun e => s.tideLeft p e.1)).foldl
      (fun n e => n + (x.paramsOf e.2.gen).w * chunkBytes (x.paramsOf e.2.gen).chunk) 0
  | none => 0

/-- Sets with nothing left at or above their cursor complete the round; the round ends when every set has (R230). A set that is
REBUILDING or RETIRING keeps the round open (R244). -/
def State.tideEnd (s : State) (p : Nat) : State :=
  match s.pool? p with
  | some x =>
    if !Pool.tideRuns x then s
    else
      let s := s.each (s.setsOf p) (fun e s =>
        if (e.2.state = .active || e.2.state = .degraded) && (s.tideLeft p e.1).isEmpty then
          s.modSet e.1 (fun y => { y with tideDone := x.round })
        else s)
      if (s.setsOf p).all (fun e => e.2.tideDone = x.round || e.2.state = .retired) then
        s.modPool p (fun x => { x with roundOver := true, tideLate := false, tideWaking := false, tideWake := none,
                                       lastDays := min ((s.devNs - x.roundStart) / dayNs) 65535 })
      else s
  | none => s

/-- Start the next round of a pool that is up (R229). -/
def State.tideStart (s : State) (p : Nat) : State :=
  match s.pool? p with
  | some x =>
    if s.poolUp p && (x.round = 0 || x.roundOver) then
      let s := s.modPool p (fun x =>
        { x with round := (x.round + 1) % 2 ^ 32, roundStart := s.devNs, roundOver := false, verified := 0,
                 tideLate := false, tideWaking := false, tideLog := [] })
      s.each (s.setsOf p) (fun e s => s.modSet e.1 (fun y => { y with tideCursor := 0 }))
    else s
  | none => s

/-- The wake request of a tide (R241): the wake groups of the unverified set with the most unverified stripes whose members
sleep; one request per pool at a time. -/
def State.tideAsk (s : State) (p : Nat) : State :=
  match s.pool? p with
  | some x =>
    let wants := Pool.tideRuns x && s.poolUp p && !x.policy.tidePaused &&
      (x.policy.tideWake = 2 || (x.policy.tideWake = 1 && (x.tideWaking || x.tideLate)))
    if wants && x.tideWake.isNone then
      let todo := (s.setsOf p).filter (fun e =>
        (e.2.state = .active || e.2.state = .degraded) && !s.setAwake e.2 && !(s.tideLeft p e.1).isEmpty)
      match pickBest (fun a b => (s.tideLeft p b.1).length < (s.tideLeft p a.1).length) todo with
      | some e => (s.modPool p (fun x => { x with tideWake := some e.1 })).wake e.2.members 4
      | none => s
    else s
  | none => s

/-- Release a tide's held wake when no set is left that it makes scannable (R241). -/
def State.tideRelease (s : State) (p : Nat) : State :=
  match s.pool? p with
  | some x =>
    match x.tideWake with
    | some i => if (s.tideLeft p i).isEmpty then s.modPool p (fun x => { x with tideWake := none }) else s
    | none => s
  | none => s

/-- The minute's work of a pool's tide: the mark (R231), WAKING (R240), and its wake request (R241). -/
def State.tideMinute (s : State) (p : Nat) : State :=
  match s.pool? p with
  | some x =>
    let n := ((s.setsOf p).map (fun e => (s.tideLeft p e.1).length)).sum
    let mark := if x.verified + n = 0 then 1000 else 1000 * x.verified / (x.verified + n)
    let log := x.tideLog.filter (fun e => s.devNs < e.1 + dayNs)
    let done := (log.map (·.2)).sum
    let due := x.roundStart + Policy.tideNs x.policy
    let left := max ((due - s.devNs) / 10 ^ 9) 86400
    let l := s.tideBytesLeft p
    let rate := done * left
    let need := l * 86400
    let waking := Pool.tideRuns x && (if x.tideWaking then rate ≤ need else rate < need)
    let s := s.modPool p (fun x => { x with tideMark := mark, tideLog := log, tideWaking := waking })
    ((s.tideEnd p).tideRelease p).tideAsk p
  | none => s

/-- Whether the tide may check a stripe now (R232, R237 to R239, R244, R246): the first one left in its set. -/
def State.tideMay (s : State) (p n : Nat) : Bool :=
  match s.pool? p, s.stripe? p n with
  | some x, some t =>
    match s.set? t.set with
    | some y =>
      s.poolUp p && s.pw.power = .run && !x.policy.tidePaused && Pool.tideRuns x &&
      (y.state = .active || y.state = .degraded) && s.setAwake y &&
      (s.tideLeft p t.set).any (fun e => e.1 = n) &&
      (s.tideLeft p t.set).all (fun e => t.chunkOffset ≤ e.2.chunkOffset) &&
      (!s.hasCL || y.members.all (fun m =>
        s.headroom (s.enclosure m) ≥ 10 * (s.fld SE_RB_PARAM 0 SE_RB_PARAM_HOT_HALF_C : Int)))
    | none => false
  | _, _ => false

/-- The parities of a stripe are recomputed and rewritten (R222, R234): in place, or by relocation on zoned members. -/
def State.rewriteParity (s : State) (p n : Nat) : State :=
  match s.pool? p, s.stripe? p n with
  | some x, some t =>
    let q := x.paramsOf t.gen
    let slots := (List.range q.m).map (fun j => s.posSlot t.set (chunkPos n (q.k + j) q.w))
    let zoned := slots.any (fun d => match s.drive? d with
      | some v => v.info.zoned
      | none => false)
    let s := if zoned then s.relocate p n else s.each slots (fun d s => s.driveOut d 1 (stripeKey p n) t.chunkOffset)
    let s := s.modStripe p n (fun t => { t with repaired := true })
    ((s.bump SE_TIDE_PARITY 0 SE_TIDE_PARITY_COUNT).raise 0x605 5 p (leBytes 8 n)).delta p n
  | _, _ => s

/-- The finding of an extent whose hash fails under sound chunks (R234). -/
def State.tideExtent (s : State) (p n slot : Nat) : State :=
  match s.stripe? p n with
  | some t =>
    match t.dir[slot]? with
    | some e =>
      if e.void || e.released || e.releasedAtSeal then s
      else
        let s := s.addLoss p (s.lossRec 0 4 n e.off e.len (some e.tag))
        (s.bump SE_TIDE_LOST 0 SE_TIDE_LOST_COUNT).raise 0x606 6 p (locatorBytes p n e.off e.len)
    | none => s
  | none => s

/-- A stripe counts as verified in the round: its counts, its set's cursor, and the bytes of the last day. -/
def State.tideCount (s : State) (p n : Nat) (t : Stripe) (x : Pool) : State :=
  let q := x.paramsOf t.gen
  let s := s.modStripe p n (fun t => { t with tideRound := x.round })
  let s := s.modSet t.set (fun y => { y with tideCursor := t.chunkOffset + chunkUnits q.chunk })
  let s := s.modPool p (fun x =>
    { x with verified := x.verified + 1, tideLog := x.tideLog ++ [(s.devNs, q.w * chunkBytes q.chunk)] })
  (s.bump SE_TIDE_STRIPES 0 SE_TIDE_STRIPES_COUNT).tideEnd p

/-- TIDE_STRIPE_VERIFY (R233, R234, R242, R244): errors are counted, lost chunks repaired or the stripe BROKEN, then parities and
extents. -/
def State.tideVerify (s : State) (p n : Nat) (f : TideFinding) : State :=
  match s.pool? p, s.stripe? p n with
  | some x, some t =>
    if !s.tideMay p n then s
    else
      let whole := (s.lostPos t).isEmpty
      let ok := fun (q : Nat) => q < (s.membersOf t.set).length && !(s.lostPos t).contains q
      let unread := (f.unreadable.filter ok).eraseDups
      let lost := (unread ++ f.lost.filter ok).eraseDups
      let s := s.each unread (fun q s => s.readError (s.posSlot t.set q))
      let s := s.each lost (fun q s =>
        match s.stripe? p n with
        | some u =>
          if u.state = .written then
            let v := s.chunkBad p n q 4
            match v.stripe? p n with
            | some w => if w.state = .written then v.bump SE_TIDE_REPAIRS 0 SE_TIDE_REPAIRS_COUNT else v
            | none => v
          else s
        | none => s)
      let s : State :=
        if !lost.isEmpty then s
        else
          let s : State := if !whole then s.bump SE_TIDE_PARTIAL 0 SE_TIDE_PARTIAL_COUNT
            else if f.mismatch then (s.bump CE_VERIFY_MISMATCH 0 CE_VERIFY_MISMATCH_COUNT).rewriteParity p n
            else s
          s.each f.badExtents.eraseDups (fun slot s => s.tideExtent p n slot)
      match s.stripe? p n with
      | some u => if u.state = .written then s.tideCount p n t x else s
      | none => s
  | _, _ => s

/-- TIDE_LATE (R240, R241): the round has not ended by E; the event, and the wakes of LATE. -/
def State.tideLateNow (s : State) (p : Nat) : State :=
  match s.pool? p with
  | some x =>
    if Pool.tideRuns x && !x.tideLate then
      ((s.modPool p (fun x => { x with tideLate := true })).raise 0x607 4 p).tideAsk p
    else s
  | none => s

end Sys2Proof.Machine
end

