-- ==== Sys2Proof/Machine/Admin.lean ====
section
/-! DEFINITION. What pool, drive and device administration share: who waits for whom (R85, R382), CLAIMs (R464), the building of
sets (R50 to R52), table sizes (R76 to R79) and the choice of sill members (R83, R293). -/

namespace Sys2Proof.Machine

open Sys2Proof

/-! ### One at a time (R85, R382) -/

/-- Slot numbers of a DRIVES buffer. -/
def slotNumbers (count : Nat) (bs : List Byte) : List Nat := (List.range count).map (fun i => leAt bs (2 * i) 2)

/-- The drives an entry names: DRIVES of creation, growth and SCARF_START, and the slots of DRIVE_SET. -/
def entryDrives (c : HostCmd) : List Nat :=
  let op := entryOpcode c
  if op = 0x20 ∨ op = 0x21 ∨ op = 0x28 then slotNumbers (entryLe c 0 28 2) (c.read.data.getD [])
  else if op = 0x30 then entryLe c 0 8 2 :: (if entryByte c 0 10 = 5 then [entryLe c 0 12 2] else [])
  else []

/-- The pools an entry of pool administration names. -/
def entryPools (c : HostCmd) : List Nat :=
  let op := entryOpcode c
  if 0x20 ≤ op ∧ op ≤ 0x2A then
    (if op = 0x26 ∧ entryByte c 0 8 = 0xFF then List.range 64 else [entryByte c 0 8])
  else []

/-- Opcodes executed one at a time device-wide (R382). -/
def deviceWide (op : Nat) : Bool := [0x40, 0x43, 0x44, 0x45, 0x46, 0x50, 0x51, 0x52, 0x53, 0x54].contains op

/-- The pools and drives a command in progress holds (R85). -/
def State.holds (s : State) (b : CmdBody) : List Nat × List Nat :=
  match b with
  | .serial c _ => (entryPools c, entryDrives c)
  | .poolCreate p taken => ([p], taken.map (·.1))
  | .poolGrow p taken => ([p], taken.map (·.1))
  | .poolDelete p => ([p], match s.pool? p with
    | some x => x.members
    | none => [])
  | .poolGive ps => (ps, [])
  | .scarfStart p => ([p], match (s.pool? p).bind (·.scarf) with
    | some c => c.taken.map (·.1)
    | none => [])
  | .scarfCommit p => ([p], [])
  | .scarfAbort p => ([p], [])
  | .driveLabel n _ => ([], [n])
  | _ => ([], [])

/-- Whether an earlier command must end before this one starts (R85, R382). -/
def State.blocked (s : State) (id : Nat) (c : HostCmd) : Bool :=
  let ps := entryPools c
  let ds := entryDrives c
  s.qm.cmds.any (fun e => e.1 < id &&
    ((deviceWide e.2.op && deviceWide (entryOpcode c)) ||
      (let h := s.holds e.2.body
       h.1.any (fun p => ps.contains p) || h.2.any (fun d => ds.contains d)) ||
      (match s.pw.epoch with
       | some k => k.cmd = some e.1 && (match k.kind with
         | .poolSet d => ps.contains (entryByte d 0 8)
         | _ => false)
       | none => false)))

/-- Start a command that its checks let pass, or let it wait for its turn. -/
def State.inTurn (s : State) (id : Nat) (c : HostCmd) (go : State → State) : State :=
  if s.blocked id c then s.setBody id (.serial c 0) else go s

/-- Whether the link die of a slot is in DRAIN or gated: what needs it completes with DOMAIN_OFF (R537, R538). -/
def State.dieOff (s : State) (n : Nat) : Bool := s.domain (128 + n / 256) = 1 || s.domain (128 + n / 256) = 2

/-- Start a step that takes drives or an identifier (R464): at once without a partner, after a granted CLAIM while PAIRED, else
when the peer state lets it; a drive behind a gated link die ends it with DOMAIN_OFF (R538). -/
def State.claimed (s : State) (id pool : Nat) (slots : List Nat) (c : HostCmd) (granted : Bool) (go : State → State) : State :=
  if slots.any s.dieOff then s.complete id stDomainOff
  else if granted ∨ s.claimFree then go s
  else if s.pl.peer = .paired then (s.sendClaim pool slots id).setBody id (.serial c 2)
  else s.setBody id (.serial c 1)

/-! ### Tables (R76 to R79) -/

/-- Entries of a pool's tables on either side: its own and the new table of a running scarf. -/
def poolEntries (x : Pool) : Nat := x.tableEntries + (match x.scarf with
  | some c => c.oldEntries
  | none => 0)

/-- Bytes of the stripe tables of all pools of the pair but one (R78, R79). -/
def State.tableBytes (s : State) (but : Nat) : Nat :=
  let own := (s.se.pools.map (fun e => if e.1 = but then 0 else poolEntries e.2)).sum
  let theirs := (s.pl.standby.map (fun e =>
    if e.1 = but ∨ (s.pool? e.1).isSome then 0 else poolEntries e.2.pool)).sum
  16 * (own + theirs)

/-- Whether a set record occupies its index. -/
def setInUse (x : SetRec) : Bool := x.state != .unused && x.state != .retired

/-- Set indices in use on either side of the pair (R51). -/
def State.setIndices (s : State) : List Nat :=
  (s.se.sets.filter (fun e => setInUse e.2)).map (·.1) ++
    s.pl.standby.flatMap (fun e => (e.2.sets.filter (fun x => setInUse x.2)).map (·.1))

/-- The lowest `n` free set indices. -/
def State.freeIndices (s : State) (n : Nat) : List Nat :=
  let used := sortBy (· ≤ ·) (s.setIndices.eraseDups)
  (List.range (used.length + n)).filter (fun i => !used.contains i) |>.take n

/-- Sum of the capacities of slots (R76). -/
def State.capacityOf (s : State) (slots : List Nat) : Nat :=
  (slots.map (fun n => match s.drive? n with
    | some d => d.info.capacity
    | none => 0)).sum

/-! ### Building sets (R50 to R52) -/

/-- The elements of least key. -/
def keepMin (key : Nat → Nat) (xs : List Nat) : List Nat :=
  match xs with
  | [] => []
  | x :: rest =>
    let m := rest.foldl (fun m y => min m (key y)) (key x)
    xs.filter (fun y => key y = m)

/-- Sets holding a drive. -/
def holding (sets : List (List Nat)) (d : Nat) : Nat := sets.countP (fun t => t.contains d)

/-- The next drive of a set (R52). -/
def State.nextDrive (s : State) (members : List Nat) (sets : List (List Nat)) (chosen : List Nat) : Option Nat :=
  let c0 := members.filter (fun d => !chosen.contains d)
  let c1 := keepMin (fun d => chosen.countP (fun e => s.failGroup e = s.failGroup d)) c0
  let near := match chosen.head? with
    | some f => c1.filter (fun d => s.wakeGroup d = s.wakeGroup f)
    | none => []
  let c2 := if near.isEmpty then c1 else near
  let c3 := keepMin (holding sets) c2
  let shared := fun d => (chosen.map (fun e => sets.countP (fun t => t.contains d && t.contains e))).sum
  (keepMin id (keepMin shared c3)).head?

/-- One set of width `w` (R52). -/
def State.buildSet (s : State) (members : List Nat) (sets : List (List Nat)) : Nat → List Nat → List Nat
  | 0, chosen => chosen
  | w + 1, chosen =>
    match s.nextDrive members sets chosen with
    | some d => State.buildSet s members sets w (chosen ++ [d])
    | none => chosen

/-- `n` sets of width `w`, after those already built (R52). -/
def State.buildSets (s : State) (members : List Nat) (w : Nat) : Nat → List (List Nat) → List (List Nat)
  | 0, _ => []
  | n + 1, sets =>
    let t := s.buildSet members sets w []
    t :: State.buildSets s members w n (sets ++ [t])

/-- Number of sets for `n` drives (R44, R50). -/
def setCount (q : Params) (n : Nat) : Nat := if q.single then 1 else n * q.d / q.w

/-- Put sets into the set table under the lowest free indices (R51). -/
def State.addSets (s : State) (pool : Nat) (q : Params) (sets : List (List Nat)) : State :=
  s.each ((s.freeIndices sets.length).zip sets) (fun e s =>
    { s with se := { s.se with sets := Tab.set s.se.sets e.1 (SetRec.built pool q false e.2) } })

/-! ### Drives offered to a pool -/

/-- Band size in MiB a list of drives gives a pool (R57, R59): the zone size of its zoned drives, else the given one. -/
def State.bandFor (s : State) (slots : List Nat) (bandMiB : Nat) : Nat :=
  (slots.findSome? (fun n => match s.drive? n with
    | some d => if d.info.zoned then some d.info.zoneMiB else none
    | none => none)).getD bandMiB

/-- Whether a host-managed drive is admitted to a pool of a band size and D (R59, R389). -/
def DriveInfo.zonesOk (d : DriveInfo) (bandMiB dd : Nat) : Bool :=
  !d.zoned || (d.zoneMiB = bandMiB && [256, 512, 1024, 2048, 4096].contains d.zoneMiB && d.openZones ≥ dd + 2)

/-- Whether a drive can be taken into a pool of a band size and D (R59, R83 step 2, R389, R398). -/
def State.driveFits (s : State) (n bandMiB dd : Nat) : Bool :=
  match s.drive? n, s.slot? n with
  | some d, some x =>
    (d.state = .candidate || d.state = .spare) && d.classified && x.present && !x.noPr && !x.unsupported &&
    DriveInfo.zonesOk d.info bandMiB dd &&
    d.info.bands bandMiB ≥ 3
  | _, _ => false

/-- The first slot named twice, if any. -/
def firstTwice : List Nat → Option Nat
  | [] => none
  | a :: as => if as.contains a then some a else firstTwice as

/-- Sill bands of a table of `entries` entries (R83 step 4). -/
def sillBandsFor (entries bandMiB : Nat) : Nat := ceilDiv (2 * 16 * entries + 4 * 2 ^ 30) (bandMiB * 2 ^ 20)

/-- Sill members for a pool, when enough drives are eligible (R83 step 3, R293). -/
def State.chooseSill (s : State) (slots : List Nat) (q : Params) (sillBands : Nat) : Option (List Nat) :=
  let ok := sortBy (· ≤ ·) (slots.filter (fun n => match s.drive? n with
    | some d => (q.bandMiB ≤ 1024 || !d.info.zoned) && d.info.bands q.bandMiB - 2 ≥ sillBands + 1
    | none => false))
  let n := max (q.m + 1) 3
  if ok.length < n then none else some (s.spread n ok)

/-- The lowest FREE bands above band 0 of a drive. -/
def State.lowBands (s : State) (slot bandMiB n : Nat) : List Nat :=
  match s.drive? slot with
  | some d => ((List.range (min (d.info.bands bandMiB) (n + 1 + s.se.bands.length))).filter (fun b =>
      (s.band slot b bandMiB).1 = .free)).take n
  | none => []

/-- Move the sill bands of a drive from FREE to SILL (R83 step 4). -/
def State.layBands (s : State) (slot bandMiB n : Nat) : State :=
  s.each (s.lowBands slot bandMiB n) (fun b s => s.setBand slot b .sill 0)

/-- A fresh UUID of version 4 (R277). -/
def State.newUuid (s : State) : Nat × State :=
  let d := s.draw Config.random
  let r := d.1 % 2 ^ 128
  let keep := r &&& (2 ^ 128 - 1 - 15 * 2 ^ 52 - 3 * 2 ^ 70)
  (keep + 4 * 2 ^ 52 + 2 * 2 ^ 70, d.2)

/-- Bands of a drive are dropped from the maps (its labels name no pool any more). -/
def State.dropBands (s : State) (slot : Nat) : State :=
  { s with se := { s.se with bands := s.se.bands.filter (fun e => e.1 / 2 ^ 32 != slot || e.2.1 = .bad) } }

/-- Drives go back to the states they had before a command took them; those labelled get the label of that state (R84). -/
def State.returnDrives (s : State) (pool : Nat) (taken : List (Nat × MemberState)) : State :=
  let s := s.modPool pool (fun x => { x with members := x.members.filter (fun n => !taken.any (fun t => t.1 = n)) })
  s.each taken (fun (t : Nat × MemberState) (s : State) =>
    let failed : Bool := match s.drive? t.1 with
      | some d => d.state = .failed
      | none => true
    if failed then s
    else
      let s := (s.modDrive t.1 (fun d => { d with state := t.2, pool := 0 })).dropBands t.1
      s.writeLabel t.1 (if t.2 = .spare then .spare else .void))

/-- Whether every taken drive has its label on stable media. -/
def State.labelled (s : State) (taken : List (Nat × MemberState)) : Bool :=
  taken.all (fun t => match s.drive? t.1 with
    | some d => d.labelWant.isNone
    | none => false)

end Sys2Proof.Machine
end

