-- ==== Sys2Proof/Machine/PoolCommands.lean ====
section
/-! DEFINITION. Pool and drive administration (R83 to R92, R371 to R377): POOL_CREATE, POOL_GROW, POOL_SET, POOL_DELETE,
LOSS_CLEAR and DRIVE_SET, and the label writes they wait for. -/

namespace Sys2Proof.Machine

open Sys2Proof

/-! ### Common checks -/

/-- DETAIL of a failure that names no drive or byte (R372). -/
def noDetail : Nat := 0xFFFF

/-- The DRIVES list is readable (R355). -/
def drivesRead (c : HostCmd) : Check := if c.read.data.isNone then some (stHostAccessError, noDetail) else none

/-- A pool is in a state pool administration accepts (R371). -/
def State.adminPool (s : State) (p : Nat) : Check := need (s.poolUp p) stPoolOffline

/-- The first drive that cannot be taken, with DETAIL its slot (R83 step 2). A drive named twice is at fault the second time. -/
def State.drivesFit (s : State) (slots : List Nat) (q : Params) : Check :=
  let bad := slots.zipIdx.find? (fun e => !s.driveFits e.1 q.bandMiB q.d || (slots.take e.2).contains e.1)
  bad.map (fun e => (stDriveState, e.1))

/-- Present state of drives, to be put back by R84. -/
def State.takenOf (s : State) (slots : List Nat) : List (Nat × MemberState) :=
  slots.map (fun n => (n, match s.drive? n with
    | some d => d.state
    | none => .candidate))

/-! ### POOL_CREATE (R83, R84, R372) -/

/-- Parameters of POOL_CREATE and SCARF_START, the band size not yet fixed (R43, R372). -/
def entryParams (c : HostCmd) (gen : Nat) : Params :=
  let single := decide (entryByte c 0 14 = 1)
  { k := entryByte c 0 9, m := entryByte c 0 10, chunk := entryByte c 0 11, bandMiB := 256 * 2 ^ entryByte c 0 12,
    d := if single then 1 else if entryByte c 0 13 = 0 then 16 else entryByte c 0 13, single := single, gen := gen }

/-- Policies of POOL_CREATE with the defaults of R372. -/
def entryPolicy (c : HostCmd) : Policy :=
  let or := fun (v d : Nat) => if v = 0 then d else v
  let fl := entryByte c 0 19
  { openLimit := or (entryByte c 0 15) 8, sealMs := or (entryLe c 0 16 2) 200, wake := entryByte c 0 18,
    adoptSlot := !bit fl 0, readWaitS := or (entryLe c 0 20 2) 120, deferS := if bit fl 2 then entryLe c 0 22 2 else 900,
    tidePeriodD := or (entryLe c 0 24 2) 90, tideWake := if bit fl 3 then entryByte c 0 26 else 1, tidePaused := bit fl 1 }

/-- Range checks of the code parameters of POOL_CREATE and SCARF_START (R43 to R45, R372). -/
def paramFields (c : HostCmd) : List FieldCheck :=
  let single := decide (entryByte c 0 14 = 1)
  [⟨8, 1, entryByte c 0 8 ≤ 63⟩, ⟨9, 1, 2 ≤ entryByte c 0 9 && entryByte c 0 9 ≤ 60⟩,
   ⟨10, 1, 1 ≤ entryByte c 0 10 && entryByte c 0 10 ≤ 4 && (!single || entryByte c 0 10 = 1)⟩,
   ⟨11, 1, entryByte c 0 11 ≤ 3⟩, ⟨12, 1, entryByte c 0 12 ≤ 2⟩,
   ⟨13, 1, if single then entryByte c 0 13 ≤ 1 else entryByte c 0 13 ≤ 64⟩, ⟨14, 1, entryByte c 0 14 ≤ 1⟩]

/-- COUNT of named drives, and the number a single rotating parity layout fixes (R45, R372). -/
def countField (c : HostCmd) (create : Bool) : FieldCheck :=
  let n := entryLe c 0 28 2
  ⟨28, 2, 3 ≤ n && n ≤ 1024 && (!create || entryByte c 0 14 != 1 || n = entryByte c 0 9 + 1)⟩

/-- The checks of POOL_CREATE before it waits for its turn. -/
def State.poolCreatePre (s : State) (c : HostCmd) : Check :=
  let n := entryLe c 0 28 2
  let rw := entryLe c 0 20 2
  firstFail [
    onEntry0 c,
    layout c 0 2 (paramFields c ++
      [⟨15, 1, entryByte c 0 15 ≤ 64⟩, ⟨16, 2, entryLe c 0 16 2 ≤ 60000⟩, ⟨18, 1, entryByte c 0 18 ≤ 2⟩,
       ⟨19, 1, entryByte c 0 19 ≤ 15⟩, ⟨20, 2, rw = 0 || (10 ≤ rw && rw ≤ 3600)⟩, anyAt 22 2,
       ⟨24, 2, entryLe c 0 24 2 ≤ 3650⟩, ⟨26, 1, entryByte c 0 26 ≤ 2⟩, countField c true] ++ descAt c 32 ++
      [anyAt 64 32]),
    descCheck c 32 (2 * n),
    s.ownerPriv c,
    if entryByte c 0 10 > s.maxM then some (stUnitAbsent, noDetail) else none]

/-- The parameters of the pool a POOL_CREATE would make: band size and table entries settled by its drives. -/
def State.createParams (s : State) (c : HostCmd) : Params :=
  let q := entryParams c 1
  { q with bandMiB := s.bandFor (entryDrives c) q.bandMiB }

/-- Steps 1 to 3 of R83. -/
def State.createChecks (s : State) (c : HostCmd) : Check :=
  let q := s.createParams c
  let slots := entryDrives c
  let entries := q.entries (s.capacityOf slots)
  firstFail [
    if s.setIndices.length + setCount q slots.length > 65536 then some (stNoSetIndex, noDetail) else none,
    if s.tableBytes (entryByte c 0 8) + 16 * entries > tableBudget then some (stNoTableSpace, noDetail) else none,
    if slots.length < q.w then some (stMalformed, 28) else none,
    s.drivesFit slots q,
    if (s.chooseSill slots q (sillBandsFor entries q.bandMiB)).isNone then some (stNoSillDrives, noDetail) else none]

/-- Steps 4 to 6 of R83: sill bands, sets, labels; the checkpoint follows the labels. -/
def State.createPool (s : State) (id : Nat) (c : HostCmd) : State :=
  let p := entryByte c 0 8
  let q := s.createParams c
  let slots := entryDrives c
  let entries := q.entries (s.capacityOf slots)
  let sillBands := sillBandsFor entries q.bandMiB
  let sill := (s.chooseSill slots q sillBands).getD []
  let journal := s.spread 3 (sortBy (· ≤ ·) sill)
  let taken := s.takenOf slots
  let u := s.newUuid
  let s := u.2
  let s := s.setPool p (Pool.created s.pl.side u.1 (entryBytes c 1 0 32) q (entryPolicy c) sill journal sillBands entries
    s.devNs)
  let s := s.modPool p (fun x => { x with labelWaits := 1, members := slots })
  let s := s.each slots (fun n s => s.modDrive n (fun d => { d with state := .active, pool := p }))
  let s := s.each sill (fun n s => s.layBands n q.bandMiB sillBands)
  let s := s.addSets p q (s.buildSets slots q.w (setCount q slots.length) [])
  let s := s.each slots (fun n s => s.joinPool n p)
  s.setBody id (.poolCreate p taken)

/-- POOL_CREATE in its turn: the identifier is free (R371), then R464 and R83. -/
def State.goPoolCreate (s : State) (id : Nat) (c : HostCmd) (granted : Bool) : State :=
  let p := entryByte c 0 8
  s.checked id (firstFail [
      if s.poolState p = .none ∧ (Tab.get? s.pl.standby p).isNone then none else some (stPoolExists, noDetail),
      drivesRead c]) (fun s =>
    s.claimed id p (entryDrives c) c granted (fun s => s.checked id (s.createChecks c) (fun s => s.createPool id c)))

/-- POOL_CREATE (R83, R372). -/
def State.runPoolCreate (s : State) (id : Nat) (c : HostCmd) : State :=
  s.checked id (s.poolCreatePre c) (fun s => s.inTurn id c (fun s => s.goPoolCreate id c false))

/-- Undo a creation that failed over a drive (R84). -/
def State.undoCreate (s : State) (id p : Nat) (taken : List (Nat × MemberState)) (slot : Nat) : State :=
  let s := s.returnDrives p taken
  let s := { s with se := { s.se with pools := Tab.erase s.se.pools p
                                      sets := s.se.sets.filter (fun e => e.2.pool != p || e.2.state = SetState.retired) } }
  s.complete id stDriveError [] slot

/-- The labels of a creation are written: the empty checkpoint follows (R83 step 6). -/
def State.createLabelled (s : State) (p : Nat) : State :=
  (s.modPool p (fun x => { x with labelWaits := 0 })).startCkpt p ckCreate

/-- The creation ends (R83 step 7): ONLINE, the first tide round, and the UUID in the completion. -/
def State.createDone (s : State) (p : Nat) : State :=
  match s.pool? p, s.qm.cmds.find? (fun e => match e.2.body with
    | .poolCreate q _ => q = p
    | _ => false) with
  | some x, some e =>
    let s := s.modPool p (fun x => { x with state := .online })
    let s := (s.tideStart p).keepReserved p
    s.complete e.1 stSuccess (leBytes 16 x.uuid)
  | _, _ => s

/-! ### POOL_GROW (R86 to R88, R375) -/

/-- The checks of POOL_GROW before it waits for its turn. -/
def State.poolGrowPre (s : State) (c : HostCmd) : Check :=
  firstFail [
    onEntry0 c,
    layout c 0 1 ([⟨8, 1, entryByte c 0 8 ≤ 63⟩, countField c false] ++ descAt c 32),
    descCheck c 32 (2 * entryLe c 0 28 2),
    s.ownerPriv c]

/-- The checks of POOL_GROW in its turn (R44, R51, R59, R86 to R88). -/
def State.growChecks (s : State) (c : HostCmd) : Check :=
  let p := entryByte c 0 8
  let slots := entryDrives c
  match s.pool? p with
  | some x =>
    let q := x.params
    let entries := q.entries (s.capacityOf (x.members ++ slots))
    firstFail [
      if x.scarf.isSome ∨ q.single then some (stPoolState, noDetail) else none,
      if s.setIndices.length + slots.length * q.d / q.w > 65536 then some (stNoSetIndex, noDetail) else none,
      if s.tableBytes p + 16 * entries > tableBudget then some (stNoTableSpace, noDetail) else none,
      s.drivesFit slots q]
  | none => some (stPoolOffline, noDetail)

/-- Take the drives of a growth; the sets follow their labels (R86). -/
def State.growPool (s : State) (id : Nat) (c : HostCmd) : State :=
  let p := entryByte c 0 8
  let slots := entryDrives c
  let taken := s.takenOf slots
  let s := s.modPool p (fun x => { x with members := x.members ++ slots })
  let s := s.each slots (fun n s => s.joinPool n p)
  s.setBody id (.poolGrow p taken)

/-- POOL_GROW in its turn. -/
def State.goPoolGrow (s : State) (id : Nat) (c : HostCmd) (granted : Bool) : State :=
  s.checked id (firstFail [s.adminPool (entryByte c 0 8), drivesRead c]) (fun s =>
    s.claimed id 0xFF (entryDrives c) c granted (fun s => s.checked id (s.growChecks c) (fun s => s.growPool id c)))

/-- POOL_GROW (R86, R375). -/
def State.runPoolGrow (s : State) (id : Nat) (c : HostCmd) : State :=
  s.checked id (s.poolGrowPre c) (fun s => s.inTurn id c (fun s => s.goPoolGrow id c false))

/-- The labels of a growth are written: its sets are built from the grown member list, the table grows, and a descriptor and a
checkpoint follow (R86, R87, R283). -/
def State.growDone (s : State) (id p : Nat) (taken : List (Nat × MemberState)) : State :=
  match s.pool? p with
  | some x =>
    let q := x.params
    let old := (s.setsOf p).map (fun e => e.2.members)
    let s := s.addSets p q (s.buildSets x.members q.w (taken.length * q.d / q.w) old)
    let s := s.modPool p (fun x => { x with tableEntries := q.entries (s.capacityOf x.members) })
    let s := (s.newDescriptor p).startCkpt p ckPlain
    (s.complete id stSuccess).admitHeld
  | none => s.complete id stPoolOffline [] noDetail

/-- A growth that failed over a drive takes nothing. -/
def State.undoGrow (s : State) (id p : Nat) (taken : List (Nat × MemberState)) (slot : Nat) : State :=
  (s.returnDrives p taken).complete id stDriveError [] slot

/-! ### POOL_SET (R373, R374) -/

/-- The checks of POOL_SET: only a selected field must be in its range. -/
def State.poolSetPre (s : State) (c : HostCmd) : Check :=
  let mask := entryLe c 0 12 2
  let sel := fun (i : Nat) (b : Bool) => !bit mask i || b
  let v := fun (o n : Nat) => entryLe c 0 o n
  firstFail [
    onEntry0 c,
    layout c 0 (if bit mask 9 then 2 else 1)
      ([⟨8, 1, v 8 1 ≤ 63⟩, ⟨12, 2, mask < 1024⟩, ⟨15, 1, sel 0 (1 ≤ v 15 1 && v 15 1 ≤ 64)⟩,
        ⟨16, 2, sel 1 (1 ≤ v 16 2 && v 16 2 ≤ 60000)⟩, ⟨18, 1, sel 2 (v 18 1 ≤ 2)⟩, ⟨19, 1, v 19 1 ≤ 15⟩,
        ⟨20, 2, sel 4 (10 ≤ v 20 2 && v 20 2 ≤ 3600)⟩, anyAt 22 2, ⟨24, 2, sel 6 (1 ≤ v 24 2 && v 24 2 ≤ 3650)⟩,
        ⟨26, 1, sel 7 (v 26 1 ≤ 2)⟩] ++ (if bit mask 9 then [anyAt 64 32] else [])),
    s.ownerPriv c]

/-- The changes of a POOL_SET, once its mode epoch has committed (R373). -/
def State.applyPoolSet (s : State) (c : HostCmd) : State :=
  let p := entryByte c 0 8
  let mask := entryLe c 0 12 2
  let s := s.modPool p (fun x =>
    let o := x.policy
    let pick := fun (i new old : Nat) => if bit mask i then new else old
    { x with
      policy := { openLimit := pick 0 (entryByte c 0 15) o.openLimit, sealMs := pick 1 (entryLe c 0 16 2) o.sealMs,
                  wake := pick 2 (entryByte c 0 18) o.wake,
                  adoptSlot := if bit mask 3 then !bit (entryByte c 0 19) 0 else o.adoptSlot,
                  readWaitS := pick 4 (entryLe c 0 20 2) o.readWaitS, deferS := pick 5 (entryLe c 0 22 2) o.deferS,
                  tidePeriodD := pick 6 (entryLe c 0 24 2) o.tidePeriodD, tideWake := pick 7 (entryByte c 0 26) o.tideWake,
                  tidePaused := if bit mask 8 then bit (entryByte c 0 19) 1 else o.tidePaused }
      name := if bit mask 9 then entryBytes c 1 0 32 else x.name })
  let s : State := if bit mask 1 then
      match s.pool? p with
      | some x => s.each (s.openOf p) (fun e s =>
          if !e.2.dir.isEmpty && e.2.placement + x.policy.sealMs * 10 ^ 6 ≤ s.devNs then s.startSeal p e.1 else s)
      | none => s
    else s
  let s : State := if bit mask 9 then s.newDescriptor p else s
  if bit mask 3 then s.substitute else s

/-! ### POOL_DELETE (R91, R92, R375) -/

/-- The checks of POOL_DELETE before it waits for its turn. -/
def State.poolDeletePre (s : State) (c : HostCmd) : Check :=
  firstFail [onEntry0 c, layout c 0x0100 1 [⟨8, 1, entryByte c 0 8 ≤ 63⟩], s.ownerPriv c]

/-- Outstanding commands on a pool that is deleted complete with POOL_OFFLINE (R91). -/
def State.endOnPool (s : State) (p : Nat) : State :=
  s.each (Tab.keys s.qm.cmds) (fun id s =>
    match s.cmd? id with
    | some c =>
      match c.body with
      | .append a => if a.pool = p then
          (s.setBody id (.append { a with placed := none, reserved := false })).endAppend id stPoolOffline false else s
      | .read r => if r.pool = p then s.complete id stPoolOffline else s
      | .sealWait l _ => if l.any (fun e => e.1 = p) then s.complete id stPoolOffline else s
      | .flush l ids =>
        if l.any (fun e => e.1 = p) || ids.any (fun i => match s.append? i with
            | some a => a.pool = p
            | none => false) then s.complete id stPoolOffline else s
      | _ => s
    | none => s)

/-- Every band of a pool's sets is reclaimed at once: nothing of it is kept (R91). -/
def State.reclaimPool (s : State) (p : Nat) : State :=
  let sets := (s.setsOf p).filter (fun e => setInUse e.2)
  let s := { s with se := { s.se with
    stripes := s.se.stripes.filter (fun e => keyPool e.1 != p), pending := s.se.pending.filter (fun r => r.pool != p),
    dirCache := s.se.dirCache.filter (fun d => d.1 != p),
    hashJobs := s.se.hashJobs.filter (fun j => match j.2.user with
      | .chunk q _ _ => q != p
      | _ => true),
    passes := s.se.passes.filter (fun e => !sets.any (fun x => x.1 = e.1)) } }
  let s := { s with ce := { s.ce with queue := s.ce.queue.filter (fun j => j.pool != p) } }
  let s := s.each sets (fun e s => s.modSet e.1 (fun x =>
    { x with state := .retiring, openBand := none, openFill := 0, rebuild := [], passRunning := false, passSubs := [] }))
  s.each sets (fun e s =>
    s.each (s.heldBands e.1) (fun b s =>
      let s := s.each e.2.members (fun m s =>
        match Tab.get? s.se.bands (bandKey m b) with
        | some (st, j) =>
          if j = e.1 ∧ (st = .opened ∨ st = .full ∨ st = .substitute ∨ st = .drained) then s.setBand m b .drained j else s
        | none => s)
      s.reclaimBand e.1 b))

/-- POOL_DELETE in its turn. -/
def State.goPoolDelete (s : State) (id : Nat) (c : HostCmd) : State :=
  let p := entryByte c 0 8
  let force := bit (entryFlags c) 8
  s.checked id (firstFail [
      need (s.poolUp p || (force && s.poolState p = .offline)) stPoolOffline,
      need (force || !(s.stripesOf p).any (fun e => e.2.live > 0 || (e.2.state = .broken && e.2.dirLost) ||
        (e.2.state = .written && e.2.dirUnread))) stPoolNotEmpty])
    (fun s =>
      let s := s.setBody id (.poolDelete p)
      let s := s.modPool p (fun x => { x with state := .retiring, labelWaits := 1, scarf := none,
                                              ckpt := none, ckptWanted := false, gather := [], jBlock := [], jWritten := [] })
      (s.endOnPool p).reclaimPool p)

/-- POOL_DELETE (R91, R375). -/
def State.runPoolDelete (s : State) (id : Nat) (c : HostCmd) : State :=
  s.checked id (s.poolDeletePre c) (fun s => s.inTurn id c (fun s => s.goPoolDelete id c))

/-- Members of a pool that still serve it. -/
def State.servingMembers (s : State) (p : Nat) : List Nat :=
  match s.pool? p with
  | some x => x.members.filter (fun n => match s.drive? n with
    | some d => d.serves p
    | none => false)
  | none => []

/-- A deletion goes on (R91): with every band reclaimed the void labels are written; with every label written the members are
CANDIDATE, the sets RETIRED and the pool NONE. -/
def State.deleteProgress (s : State) (id p : Nat) : State :=
  match s.pool? p with
  | some x =>
    let sets := (s.setsOf p).map (·.1)
    let left := s.se.bands.any (fun e => sets.contains e.2.2 && e.2.1 = .drained)
    if left then s
    else if x.labelWaits = 1 then
      (s.each (s.servingMembers p) (fun n s => s.writeLabel n .void)).modPool p (fun x => { x with labelWaits := 2 })
    else if (s.servingMembers p).any (fun n => match s.drive? n with
        | some d => d.labelWant.isSome
        | none => false) then s
    else
      let s := s.each (s.servingMembers p) (fun n s =>
        (s.modDrive n (fun d => { d with state := .candidate, pool := 0 })).dropBands n)
      let s := s.each sets (fun i s => s.modSet i (fun x => { x with state := .retired }))
      let s := { s with se := { s.se with pools := Tab.erase s.se.pools p } }
      s.complete id stSuccess
  | none => s.complete id stSuccess

/-! ### LOSS_CLEAR (R376) -/

/-- LOSS_CLEAR in its turn: records below UP_TO go; the stripes of STRIPE_LOST records become RELEASED (R225). -/
def State.goLossClear (s : State) (id : Nat) (c : HostCmd) : State :=
  let p := entryByte c 0 8
  let upTo := entryLe c 0 16 8
  match s.pool? p with
  | some x =>
    s.checked id (firstFail [s.adminPool p, needAt (upTo ≤ x.lossFirst + x.loss.length) 16]) (fun s =>
      let n := min (upTo - x.lossFirst) x.loss.length
      let gone := x.loss.take n
      let s := s.modPool p (fun x => { x with loss := x.loss.drop n, lossFirst := x.lossFirst + n,
                                              lossOverflow := x.lossOverflow && n < x.loss.length })
      let s := s.each (gone.filter (fun r => r.kind = 1)) (fun r s =>
        match s.stripe? p r.stripe with
        | some t =>
          if t.state = .broken && t.dirLost then
            let s := (s.modStripe p r.stripe (fun t => { t with state := .released })).delta p r.stripe
            let s := { s with se := { s.se with
              pending := s.se.pending.filter (fun q => !(q.pool = p && q.stripe = r.stripe)) } }
            (s.drainIfDead t.set (t.chunkOffset / (x.paramsOf t.gen).bandUnits)).gradePool p
          else s
        | none => s)
      s.complete id stSuccess (leBytes 4 n))
  | none => s.complete id stPoolOffline

/-- The checks of LOSS_CLEAR before it waits for its turn (R375). -/
def State.lossClearPre (s : State) (c : HostCmd) : Check :=
  firstFail [onEntry0 c, layout c 0 1 [⟨8, 1, entryByte c 0 8 ≤ 63⟩, anyAt 16 8], s.ownerPriv c]

/-- LOSS_CLEAR (R376). -/
def State.runLossClear (s : State) (id : Nat) (c : HostCmd) : State :=
  s.checked id (s.lossClearPre c)
    (fun s => s.inTurn id c (fun s => s.goLossClear id c))

/-! ### DRIVE_SET (R377, R89, R90) -/

/-- Slots of a link die the variant lacks (R5, R377). -/
def State.slotAbsent (s : State) (n : Nat) : Bool := n ≥ s.slotCount

/-- The checks of DRIVE_SET before it waits for its turn. -/
def State.driveSetPre (s : State) (c : HostCmd) : Check :=
  let act := entryByte c 0 10
  let sub := entryLe c 0 12 2
  firstFail [
    onEntry0 c,
    layout c 0x0100 1 [⟨8, 2, entryLe c 0 8 2 ≤ 1023⟩, ⟨10, 1, 1 ≤ act && act ≤ 6⟩,
      ⟨12, 2, sub ≤ 1023 || sub = 0xFFFF⟩, ⟨14, 1, entryByte c 0 14 ≤ 1⟩],
    if act = 6 then s.operatorPriv c 2 else s.ownerPriv c,
    if s.slotAbsent (entryLe c 0 8 2) then some (stUnitAbsent, 0) else none]

/-- Whether failing a member would leave some set with more than m positions FAILED or LINK_DOWN (R207, R377). -/
def State.failExceeds (s : State) (n : Nat) : Bool :=
  s.se.sets.any (fun e => e.2.members.contains n && setInUse e.2 &&
    (List.range e.2.members.length).countP (fun q =>
      e.2.members.getD q 0 = n || s.posFailed e.2 q || s.posDown e.2 q) > e.2.m)

/-- Sets that hold a member. -/
def State.setsWith (s : State) (n : Nat) : List (Nat × SetRec) :=
  s.se.sets.filter (fun e => e.2.members.contains n && setInUse e.2)

/-- Whether drive `d` may take the place of retiring member `n` (R89). -/
def State.retireOk (s : State) (n d : Nat) : Bool :=
  match s.drive? n, s.drive? d, (s.memberPool n).bind s.pool? with
  | some v, some w, some x =>
    s.driveFits d x.params.bandMiB x.params.d && w.info.capacity ≥ v.info.capacity &&
    (s.setsWith n).all (fun e => !e.2.members.contains d) && w.info.bandBytes x.params.bandMiB = x.params.bandMiB * 2 ^ 20
  | _, _, _ => false

/-- Whether substitute `a` is preferred to `b` for retiring member `n` (R209). -/
def State.retireBetter (s : State) (n a b : Nat) : Bool :=
  let inGroup := fun d => ((s.setsWith n).map (fun e => e.2.members.countP (fun m => s.failGroup m = s.failGroup d))).sum
  let near := fun d => s.wakeGroup d = s.wakeGroup n
  if inGroup a != inGroup b then inGroup a < inGroup b
  else if near a != near b then near a
  else a < b

/-- Issue the copies of bands a retiring member holds that are not open (R89, R90): SUBSTITUTE on the substitute. -/
def State.retireBands (s : State) (n d bandMiB : Nat) : State :=
  s.each (s.se.bands.filter (fun e => e.1 / 2 ^ 32 = n && (e.2.1 = .full || e.2.1 = .drained))) (fun e s =>
    let b := e.1 % 2 ^ 32
    if (s.band d b bandMiB).1 = .free then (s.setBand d b .substitute e.2.2).driveOut d 10 n b else s)

/-- Retire a member onto a substitute (R89): its sets are RETIRING and copying begins. -/
def State.retireMember (s : State) (n d : Nat) : State :=
  match s.memberPool n with
  | some p =>
    match s.pool? p with
    | some x =>
      let s := s.joinPool d p
      let s := s.modDrive d (fun v => { v with substFor := some n })
      let s := s.modDrive n (fun v => { v with state := .retiring })
      let s := s.each (s.setsWith n) (fun e s => s.modSet e.1 (fun y => { y with state := .retiring }))
      let s := s.each ((s.setsWith n).filter (fun e => e.2.openBand.isSome)) (fun e s =>
        s.each ((s.openOf p).filter (fun t => t.2.set = e.1 && !t.2.dir.isEmpty)) (fun t s => s.startSeal p t.1))
      ((s.retireBands n d x.params.bandMiB).newDescriptor p).gradePool p
    | none => s
  | none => s

/-- The substitute of a retiring member. -/
def State.retireSub (s : State) (n : Nat) : Option Nat :=
  (s.se.drives.find? (fun e => e.2.substFor = some n && e.2.state = .active)).map (·.1)

/-- Whether a set has no band left on a member that is still to be copied. -/
def State.retireSetDone (s : State) (i n d : Nat) (bandMiB : Nat) : Bool :=
  (s.se.bands.all (fun e => !(e.1 / 2 ^ 32 = n && e.2.2 = i &&
    (e.2.1 = .opened || e.2.1 = .full || e.2.1 = .drained)) ||
    (let v := s.band d (e.1 % 2 ^ 32) bandMiB; v.2 = i && (v.1 = .full || v.1 = .drained || v.1 = .opened))))

/-- A RETIRING set with no stripe OPEN or SEALED closes its open band, which takes no further stripe (R90). -/
def State.retireClose (s : State) (i : Nat) (q : Params) : State :=
  match s.set? i with
  | some x =>
    match x.openBand with
    | some b =>
      if s.se.stripes.any (fun e => e.2.set = i && (e.2.state = .opened || e.2.state = .sealed)) then s
      else
        let s := s.each x.members (fun m s => if s.band m b q.bandMiB = (.opened, i) then s.setBand m b .full i else s)
        let s := s.modSet i (fun x => { x with openBand := none, openFill := 0, fill := 0 })
        s.drainIfDead i b
    | none => s
  | none => s

/-- A retirement goes on (R89): bands that closed are copied, a set with every band copied has the substitute in place, and a
member with no set left is RETIRED. -/
def State.retireSettle (s : State) (n : Nat) : State :=
  match s.memberPool n, s.retireSub n with
  | some p, some d =>
    match s.pool? p with
    | some x =>
      let q := x.params
      let s := s.each (s.setsWith n) (fun e s => s.retireClose e.1 q)
      let s := s.retireBands n d q.bandMiB
      let done := (s.setsWith n).filter (fun e => e.2.openBand.isNone && s.retireSetDone e.1 n d q.bandMiB &&
        !s.se.stripes.any (fun t => t.2.set = e.1 && (t.2.state = .opened || t.2.state = .sealed)))
      let s := s.each done (fun e s =>
        let s := s.modSet e.1 (fun y =>
          { y with members := y.members.map (fun m => if m = n then d else m),
                   state := if !y.failedPos.isEmpty then .degraded
                     else if !y.rebuild.isEmpty then .rebuilding else .active })
        { s with se := { s.se with bands := s.se.bands.filter (fun f => !(f.1 / 2 ^ 32 = n && f.2.2 = e.1)) } })
      let s : State := if (s.setsWith n).isEmpty then
          let s := s.modDrive n (fun v => { v with state := .retired })
          let s := s.modDrive d (fun v => { v with substFor := none })
          let swap := fun (l : List Nat) => l.map (fun m => if m = n then d else m)
          let s := s.each (if x.sill.contains n then [d] else []) (fun d s => s.layBands d q.bandMiB x.sillBands)
          (s.modPool p (fun x => { x with sill := swap x.sill, journal := swap x.journal })).newDescriptor p
        else s
      s.gradePool p
    | none => s
  | _, _ => s

/-- Every retirement goes on as far as it can. -/
def State.retireHook (s : State) : State :=
  s.each (s.se.drives.filter (fun e => e.2.state = .retiring)) (fun e s => s.retireSettle e.1)

/-- A band copy of a retiring member ends (R89): the substitute's band takes the state of the band it copies. -/
def State.retireCopied (s : State) (n b : Nat) : State :=
  match (s.memberPool n).bind s.pool?, s.retireSub n with
  | some x, some d =>
    let src := s.band n b x.params.bandMiB
    if (s.band d b x.params.bandMiB).1 = .substitute then (s.setBand d b src.1 src.2).retireSettle n else s
  | _, _ => s

/-- DRIVE_SET in its turn (R377). -/
def State.goDriveSet (s : State) (id : Nat) (c : HostCmd) (granted : Bool) : State :=
  let n := entryLe c 0 8 2
  let act := entryByte c 0 10
  let force := bit (entryFlags c) 8
  match s.slot? n with
  | none => s.complete id stDriveAbsent
  | some sl =>
    if !sl.present then s.complete id stDriveAbsent
    else if act = 6 then
      (s.modSlot n (fun x => { x with locate := decide (entryByte c 0 14 = 1) })).complete id stSuccess
    else if act ≤ 3 ∧ s.dieOff n then s.complete id stDomainOff
    else
      match s.drive? n with
      | none => s.complete id stDriveState [] n
      | some d =>
        let label := fun (target : MemberState) (k : LabelKind) =>
          (s.setBody id (.driveLabel n target)).writeLabel n k
        let wrong := s.complete id stDriveState [] n
        if act = 1 then (if d.state = .candidate then label .spare .spare else wrong)
        else if act = 2 then (if d.state = .spare then label .candidate .void else wrong)
        else if act = 3 then
          (if d.state = .failed ∨ d.state = .retired ∨ (d.state = .foreign ∧ force) then label .candidate .void else wrong)
        else if act = 4 then
          if (s.memberPool n).isNone then wrong
          else if !force && s.failExceeds n then s.complete id stMarginExceeded
          else (s.failMember n 9).complete id stSuccess
        else
          if d.state != .active ∧ d.state != .suspect then wrong
          else
            let sub := entryLe c 0 12 2
            let best := if sub = 0xFFFF then
                pickBest (s.retireBetter n) ((Tab.keys s.se.drives).filter (fun e => e != n && s.retireOk n e))
              else if s.retireOk n sub then some sub else none
            match best with
            | some e =>
              s.claimed id 0xFF [e] c granted (fun s => (s.retireMember n e).complete id stSuccess)
            | none => s.complete id stDriveState [] (if sub = 0xFFFF then n else sub)

/-- DRIVE_SET (R377). -/
def State.runDriveSet (s : State) (id : Nat) (c : HostCmd) : State :=
  s.checked id (s.driveSetPre c) (fun s => s.inTurn id c (fun s => s.goDriveSet id c false))

/-! ### Label writes (R280) -/

/-- What waits for the labels of drives goes on. -/
def State.labelHook (s : State) : State :=
  s.each (Tab.keys s.qm.cmds) (fun id s =>
    match s.cmd? id with
    | some c =>
      match c.body with
      | .poolCreate p taken =>
        match s.pool? p with
        | some x =>
          match taken.find? (fun t => match s.drive? t.1 with
            | some d => d.state != .active
            | none => true) with
          | some t => s.undoCreate id p taken t.1
          | none => if x.labelWaits = 1 && s.labelled taken then s.createLabelled p else s
        | none => s
      | .poolGrow p taken => if s.labelled taken then s.growDone id p taken else s
      | .driveLabel n target =>
        match s.drive? n with
        | some d => if d.labelWant.isNone then
            let s := (s.modDrive n (fun d => { d with state := target, pool := 0, cause := 0, ures := [], bads := [],
                                                      timeouts := 0, hwErrors := 0, spinFails := 0, repairs := 0,
                                                      substFor := none })).dropBands n
            (s.complete id stSuccess).substitute
          else s
        | none => s.complete id stDriveAbsent
      | .poolDelete p => s.deleteProgress id p
      | _ => s
    | none => s)

/-- A label write fails: the command that waits for it completes with DRIVE_ERROR (R84, R377). -/
def State.labelFailed (s : State) (n : Nat) : State :=
  let s := s.modDrive n (fun d => { d with labelWant := none, labelBack := false })
  s.each (Tab.keys s.qm.cmds) (fun id s =>
    match s.cmd? id with
    | some c =>
      match c.body with
      | .poolCreate p taken => if taken.any (fun t => t.1 = n) then s.undoCreate id p taken n else s
      | .poolGrow p taken => if taken.any (fun t => t.1 = n) then s.undoGrow id p taken n else s
      | .driveLabel m _ => if m = n then s.complete id stDriveError [] n else s
      | _ => s
    | none => s)

/-- LABEL_WRITE_DONE (R280): after the front copy the back copy is written; after both the label stands. -/
def State.labelDone (s : State) (n : Nat) (ok : Bool) : State :=
  match s.drive? n with
  | some d =>
    match d.labelWant with
    | some kind =>
      if !ok then s.labelFailed n
      else if !d.labelBack then
        (s.modDrive n (fun d => { d with labelBack := true })).issueLabel n d kind true
      else
        let seq := match kind, s.pool? d.pool with
          | .member, some x => x.descSeq
          | _, _ => d.descSeq
        let s := s.modDrive n (fun d => { d with labelWant := none, labelBack := false, labelSeq := d.labelSeq + 1,
                                                 descSeq := seq, info := { d.info with label := some kind } })
        s.labelHook
    | none => s
  | none => s

end Sys2Proof.Machine
end

