-- ==== Sys2Proof/Machine/Scarf.lean ====
section
/-! DEFINITION. Scarf migration (R248 to R275): SCARF_START, the copier, SCARF_COMMIT, SCARF_ABORT and the reclaim of the layout
that is dropped. -/

namespace Sys2Proof.Machine

open Sys2Proof

/-! ### Counting -/

/-- The scarf of a pool. -/
def State.scarf? (s : State) (p : Nat) : Option Scarf := (s.pool? p).bind (·.scarf)

/-- The state with a pool's scarf changed. -/
def State.modScarf (s : State) (p : Nat) (f : Scarf → Scarf) : State :=
  s.modPool p (fun x => { x with scarf := x.scarf.map f })

/-- Sets of a pool in a layout generation. -/
def State.setsOfGen (s : State) (p gen : Nat) : List (Nat × SetRec) := (s.setsOf p).filter (fun e => e.2.gen = gen)

/-- Whole stripes that fit in the band offsets FREE on every member of the sets, each band of a drive counted once (R250). -/
def State.roomOf (s : State) (q : Params) (sets : List SetRec) : Nat :=
  (sets.foldl (fun (acc : Nat × List (Nat × Nat)) x =>
    let free := (s.freeBands x q.bandMiB).filter (fun b => x.members.all (fun m => !acc.2.contains (m, b)))
    (acc.1 + free.length * q.perBand, acc.2 ++ free.flatMap (fun b => x.members.map (fun m => (m, b))))) (0, [])).1

/-- Stripes a scarf has to carry (R250). -/
def State.carried (s : State) (p gen : Nat) : Nat :=
  (s.stripesOf p).countP (fun e =>
    e.2.gen = gen && (e.2.state = .opened || e.2.state = .sealed || e.2.state = .written))

/-- The return set of an abort (R270): stripes opened in the new generation and not RELEASED, and the return list. -/
def State.returnSet (s : State) (p : Nat) : List Nat :=
  match s.scarf? p with
  | some c =>
    ((s.stripesOf p).filter (fun e => e.2.state != .free && e.2.state != .released &&
      (e.2.fromScarf || (e.2.scarfCopied && c.returnList.contains e.1)))).map (·.1)
  | none => []

/-! ### SCARF_START (R248 to R253) -/

/-- The parameters SCARF_START would give the new generation. -/
def State.scarfParams (s : State) (c : HostCmd) (x : Pool) : Params :=
  let q := entryParams c (x.genTop + 1)
  { q with bandMiB := s.bandFor (entryDrives c) q.bandMiB }

/-- Whether a named drive serves in the new layout: a member of the pool, or one that can be taken, of the band size (R248). -/
def State.scarfFits (s : State) (p n : Nat) (q : Params) : Bool :=
  s.driveFits n q.bandMiB q.d || (match s.drive? n with
    | some d => d.serves p && DriveInfo.zonesOk d.info q.bandMiB q.d
    | none => false)

/-- Named drives that are not members of the pool. -/
def State.scarfTakes (s : State) (p : Nat) (slots : List Nat) : List Nat :=
  slots.filter (fun n => s.memberPool n != some p)

/-- Entries of the new stripe table (R252). -/
def State.scarfEntries (s : State) (x : Pool) (q : Params) (slots : List Nat) : Nat :=
  max (q.entries (s.capacityOf slots)) x.tableEntries

/-- Drives of the new list with room for the sill bands of the new table. -/
def State.scarfSill (s : State) (q : Params) (slots : List Nat) (bands : Nat) : Option (List Nat) :=
  s.chooseSill (slots.filter (fun n => (s.lowBands n q.bandMiB bands).length = bands)) q bands

/-- The checks of SCARF_START before it waits for its turn. -/
def State.scarfStartPre (s : State) (c : HostCmd) : Check :=
  firstFail [
    onEntry0 c,
    layout c 0 1 (paramFields c ++ [countField c true] ++ descAt c 32),
    descCheck c 32 (2 * entryLe c 0 28 2),
    s.ownerPriv c,
    if entryByte c 0 10 > s.maxM then some (stUnitAbsent, noDetail) else none]

/-- The refusals of R248 in its order, and R83 step 3. -/
def State.scarfChecks (s : State) (c : HostCmd) : Check :=
  let p := entryByte c 0 8
  let slots := entryDrives c
  match s.pool? p with
  | some x =>
    let q := s.scarfParams c x
    let entries := s.scarfEntries x q slots
    let sets := s.buildSets slots q.w (setCount q slots.length) []
    firstFail [
      if q.capacity < x.params.capacity then some (stScarfCapacity, noDetail) else none,
      if slots.length < q.w then some (stMalformed, 28) else none,
      (slots.zipIdx.find? (fun e => !s.scarfFits p e.1 q || (slots.take e.2).contains e.1)).map
        (fun e => (stDriveState, e.1)),
      if q.bandMiB = x.params.bandMiB then none
        else (slots.find? (fun n => s.memberPool n = some p)).map (fun n => (stDriveState, n)),
      if s.setIndices.length + sets.length > 65536 then some (stNoSetIndex, noDetail) else none,
      if s.tableBytes p + 16 * (entries + x.tableEntries) > tableBudget then some (stNoTableSpace, noDetail) else none,
      if 100 * s.roomOf q (sets.map (SetRec.built p q false)) < 105 * s.carried p x.params.gen then
        some (stNoRoom, noDetail) else none,
      if (s.scarfSill q slots (sillBandsFor entries q.bandMiB)).isNone then some (stNoSillDrives, noDetail) else none]
  | none => some (stPoolOffline, noDetail)

/-- Steps 2 to 4 of R253: the drives are taken, the new sill and journal members chosen and the new sets built. The labels are
awaited before step 5. -/
def State.startScarf (s : State) (id : Nat) (c : HostCmd) : State :=
  let p := entryByte c 0 8
  let slots := entryDrives c
  match s.pool? p with
  | some x =>
    let q := s.scarfParams c x
    let entries := s.scarfEntries x q slots
    let bands := sillBandsFor entries q.bandMiB
    let sill := (s.scarfSill q slots bands).getD []
    let journal := s.spread 3 (sortBy (· ≤ ·) sill)
    let sets := s.buildSets slots q.w (setCount q slots.length) []
    let takes := s.scarfTakes p slots
    let rec' : Scarf :=
      { state := .none, old := q, oldEntries := x.tableEntries, oldSill := x.sill, oldJournal := x.journal,
        oldSillBands := x.sillBands, oldMembers := x.members, newMembers := slots, taken := s.takenOf takes,
        returnList := [], recopy := [], opened := [], commitMark := false }
    let s := s.modPool p (fun x =>
      { x with scarf := some rec', genTop := q.gen, tableEntries := entries, sill := sill, journal := journal,
               sillBands := bands, labelWaits := 1 })
    let s := s.each sill (fun n s => s.layBands n q.bandMiB bands)
    let s := s.addSets p q sets
    let s := s.each takes (fun n s => s.joinPool n p)
    s.setBody id (.scarfStart p)
  | none => s.complete id stPoolOffline [] noDetail

/-- SCARF_START in its turn. -/
def State.goScarfStart (s : State) (id : Nat) (c : HostCmd) (granted : Bool) : State :=
  let p := entryByte c 0 8
  s.checked id (firstFail [
      (s.adminPool p).map (fun f => (f.1, noDetail)),
      if (s.scarf? p).isSome then some (stPoolState, noDetail) else none,
      drivesRead c]) (fun s =>
    s.claimed id 0xFF (s.scarfTakes p (entryDrives c)) c granted (fun s =>
      s.checked id (s.scarfChecks c) (fun s => s.startScarf id c)))

/-- SCARF_START (R248, R375). -/
def State.runScarfStart (s : State) (id : Nat) (c : HostCmd) : State :=
  s.checked id (s.scarfStartPre c) (fun s => s.inTurn id c (fun s => s.goScarfStart id c false))

/-- Free the sill bands of slots: the highest of them, which were laid last. -/
def State.freeSill (s : State) (slots : List Nat) (bands : Nat) : State :=
  s.each slots (fun n s =>
    let held := (s.se.bands.filter (fun e => e.1 / 2 ^ 32 = n && e.2.1 = .sill)).map (fun e => e.1 % 2 ^ 32)
    s.each (held.drop (held.length - bands)) (fun b s => s.setBand n b .free 0))

/-- The sill, journal, member list and table of the old generation serve again, and the new sets are gone. -/
def State.dropNewLayout (s : State) (p : Nat) : State :=
  match s.pool? p with
  | some x =>
    match x.scarf with
    | some c =>
      let gen := x.newParams.gen
      let s := s.freeSill x.sill x.sillBands
      let s := s.modPool p (fun x =>
        { x with scarf := none, params := x.oldParams, tableEntries := c.oldEntries, sill := c.oldSill,
                 journal := c.oldJournal, sillBands := c.oldSillBands, labelWaits := 0 })
      { s with se := { s.se with sets := s.se.sets.filter (fun e =>
          !(e.2.pool = p && e.2.gen = gen) || e.2.state = SetState.retired) } }
    | none => s
  | none => s

/-- Undo a start that failed over a drive (R84, R253). -/
def State.undoScarf (s : State) (id p slot : Nat) : State :=
  match s.scarf? p with
  | some c => ((s.dropNewLayout p).returnDrives p c.taken).complete id stDriveError [] slot
  | none => s

/-- Step 7 of R253: the new generation is current, the state COPYING, the command complete. -/
def State.scarfBegun (s : State) (p : Nat) : State :=
  match s.pool? p with
  | some x =>
    match x.scarf with
    | some c =>
      let s := s.modPool p (fun x =>
        { x with params := c.old, scarf := some { c with state := .copying, old := x.params }, labelWaits := 0 })
      let s := (s.sealPool p).newDescriptor p
      let s : State := match s.qm.cmds.find? (fun e => e.2.body = .scarfStart p) with
        | some e => s.complete e.1 stSuccess
        | none => s
      s.admitHeld
    | none => s
  | none => s

/-- A starting scarf goes on (R253): labels, then the seals of step 5, then the checkpoint of step 6. -/
def State.scarfStarting (s : State) (id p : Nat) : State :=
  match s.pool? p with
  | some x =>
    match x.scarf with
    | some c =>
      match c.taken.find? (fun t => match s.drive? t.1 with
        | some d => d.state != .active
        | none => true) with
      | some t => s.undoScarf id p t.1
      | none =>
        if x.labelWaits = 1 then
          if s.labelled c.taken then
            let open' := (s.openOf p).map (·.1)
            let s := s.modPool p (fun x => { x with labelWaits := 2 })
            (s.modScarf p (fun c => { c with opened := open' })).sealPool p
          else s
        else if x.labelWaits = 2 then
          if c.opened.any (fun n => match s.stripe? p n with
              | some t => t.state = .opened
              | none => false) then s
          else (s.modPool p (fun x => { x with labelWaits := 3 })).startCkpt p ckScarf
        else s
    | none => s
  | none => s

/-! ### The copier (R257 to R261) -/

/-- The set a copy goes to: ACTIVE or REBUILDING, in the given generation, by the preferences of R120 (R258). -/
def State.copySet (s : State) (p : Nat) (q : Params) : Option (Nat × SetRec) :=
  pickBest (s.setBetter q.bandMiB) ((s.setsOf p).filter (fun e => s.setQualifies e.2 q))

/-- Whether the copier may take a stripe now (R257, R258, R263, R264, R271, R274). -/
def State.copyDue (s : State) (p n : Nat) (t : Stripe) (c : Scarf) : Bool :=
  s.poolUp p && s.pw.power = .run && s.mayWrite p && t.state = .written && t.codeId = 1 && t.newPlace.isNone &&
  (if c.state = .copying then t.gen = c.old.gen && !t.scarfCopied
   else if c.state = .aborting then !c.commitMark && (s.returnSet p).contains n
   else false)

/-- The copier copies one stripe (R258): `lost` are the positions it finds lost. With fewer than k chunks usable the ordinary
rules apply; with no set the scarf stalls. -/
def State.copyStripe (s : State) (p n : Nat) (lost : List Nat) : State :=
  match s.pool? p, s.stripe? p n with
  | some x, some t =>
    match x.scarf, s.set? t.set with
    | some c, some y =>
      if !s.copyDue p n t c then s
      else
        let w := y.members.length
        let q := x.paramsOf t.gen
        let found := (lost.filter (fun i => i < w && s.chunkThere y t i)).eraseDups
        let usable := (List.range w).countP (fun i => s.chunkThere y t i && !found.contains i)
        let data := (List.range q.k).map (fun i => chunkPos n i w)
        let built := data.countP (fun i => !s.chunkThere y t i || found.contains i)
        if usable < q.k then
          (s.modStripe p n (fun t => { t with lost := t.lost ++ found, degraded := t.degraded || !found.isEmpty })).checkBroken
            p n 0
        else
          let s := s.bump SE_SCARF_LOSTCHUNK 0 SE_SCARF_LOSTCHUNK_COUNT built
          match s.copySet p x.params with
          | none => s.stallScarf p
          | some e =>
            match s.takeOffset e.1 x.params with
            | none => s
            | some (off, s) =>
              let seq := x.sealSeq + 1
              let s := s.modPool p (fun x => { x with sealSeq := seq })
              let s := s.modStripe p n (fun t =>
                { t with newPlace := some (e.1, off), newSeal := seq, acked := [], returning := c.state = .aborting })
              (s.ceSubmit { kind := .encode, cls := 3, pool := p, stripe := n, cmd := none, m := x.params.m, key := none,
                            bytes := x.params.capacity }).wake (s.membersOf e.1) 4
    | _, _ => s
  | _, _ => s

/-- COPYING becomes COPIED (R266). -/
def State.scarfCheck (s : State) (p : Nat) : State :=
  match s.scarf? p with
  | some c =>
    if c.state = .copying && c.recopy.isEmpty && !(s.stripesOf p).any (fun e =>
        e.2.gen = c.old.gen && !e.2.scarfCopied &&
          (e.2.state = .opened || e.2.state = .sealed || e.2.state = .written)) then
      s.modScarf p (fun c => { c with state := .copied })
    else s
  | none => s

/-- Whether a BROKEN old-generation stripe holds a commit back (R267). -/
def State.brokenHold (s : State) (p : Nat) : Bool :=
  (s.scarf? p).isSome && (s.stripesOf p).any (fun e => e.2.state = .broken && !e.2.fromScarf)

/-! ### Dropping a layout -/

/-- Move every band of a generation's sets to DRAINED and reclaim it (R268, R271); a set without a band is RETIRED. -/
def State.reclaimGen (s : State) (p gen : Nat) : State :=
  s.each (s.setsOfGen p gen) (fun e s =>
    let s := s.modSet e.1 (fun x => { x with openBand := none, openFill := 0, rebuild := [], passRunning := false,
                                             passSubs := [] })
    let bands := s.heldBands e.1
    if bands.isEmpty then s.modSet e.1 (fun x => { x with state := .retired })
    else
      s.each bands (fun b s =>
        let s := s.each e.2.members (fun m s =>
          match Tab.get? s.se.bands (bandKey m b) with
          | some (_, j) => if j = e.1 then s.setBand m b .drained j else s
          | none => s)
        s.reclaimBand e.1 b))

/-- Whether a drive holds a band of any set. -/
def State.holdsBand (s : State) (n : Nat) : Bool :=
  s.se.bands.any (fun e => e.1 / 2 ^ 32 = n && e.2.1 != .bad && e.2.1 != .sill)

/-! ### SCARF_COMMIT (R266 to R269) -/

/-- The checks of SCARF_COMMIT and SCARF_ABORT before they wait for their turn. -/
def State.scarfEndPre (s : State) (c : HostCmd) : Check :=
  firstFail [onEntry0 c, layout c 0 1 [⟨8, 1, entryByte c 0 8 ≤ 63⟩], s.ownerPriv c]

/-- SCARF_COMMIT in its turn: COMMITTING, and the checkpoint with the commit mark. -/
def State.goScarfCommit (s : State) (id : Nat) (c : HostCmd) : State :=
  let p := entryByte c 0 8
  s.checked id (firstFail [
      s.adminPool p,
      need ((s.scarf? p).any (fun c => c.state = .copied)) stPoolState,
      need (!s.brokenHold p) stBrokenHold]) (fun s =>
    ((s.setBody id (.scarfCommit p)).modScarf p (fun c => { c with state := .committing })).startCkpt p ckCommit)

/-- SCARF_COMMIT (R267, R375). -/
def State.runScarfCommit (s : State) (id : Nat) (c : HostCmd) : State :=
  s.checked id (s.scarfEndPre c) (fun s => s.inTurn id c (fun s => s.goScarfCommit id c))

/-- The commit point (R268 steps 3 to 5): the command completes, the new table is the pool's, and rebuild records of the old
sets close. -/
def State.commitPoint (s : State) (p : Nat) : State :=
  match s.scarf? p with
  | some c =>
    let s : State := match s.qm.cmds.find? (fun e => e.2.body = .scarfCommit p) with
      | some e => s.complete e.1 stSuccess
      | none => s
    let s := s.modScarf p (fun c => { c with commitMark := true, oldEntries := 0, returnList := [], recopy := [] })
    let s := { s with se := { s.se with
      stripes := s.se.stripes.map (fun (e : Nat × Stripe) =>
        if keyPool e.1 = p then (e.1, { e.2 with scarfCopied := false, fromScarf := false }) else e)
      passes := s.se.passes.filter (fun e => !(s.setsOfGen p c.old.gen).any (fun x => x.1 = e.1)) } }
    s.each (s.setsOfGen p c.old.gen) (fun e s => s.modSet e.1 (fun x =>
      { x with rebuild := [], passRunning := false, passSubs := [] }))
  | none => s

/-- Whether a READ still has chunk reads to an old placement (R268 step 6). -/
def State.readsOld (s : State) (p gen : Nat) : Bool :=
  s.qm.cmds.any (fun e => match e.2.body with
    | .read r => r.pool = p && r.params.gen = gen && r.chunks.any (fun c => !c.lost && c.got.isNone)
    | _ => false)

/-- SCARF_OLD_RECLAIM (R268 step 7). -/
def State.oldReclaim (s : State) (p : Nat) : State :=
  match s.scarf? p with
  | some c =>
    if c.state = .committing && c.commitMark && !s.readsOld p c.old.gen then s.reclaimGen p c.old.gen else s
  | none => s

/-- The end of a commit (R268 steps 8 and 9): old sill bands are freed, members not in the new list retire, the scarf is
NONE. -/
def State.commitEnd (s : State) (p : Nat) (c : Scarf) : State :=
  let gone := c.oldSill.filter (fun n => !c.newMembers.contains n)
  let s := s.each gone (fun n s => { s with se := { s.se with
    bands := s.se.bands.filter (fun e => !(e.1 / 2 ^ 32 = n && e.2.1 = .sill)) } })
  let s : State := match s.pool? p with
    | some x => s.journal p (.members x.journal)
    | none => s
  let leave := (s.servingMembers p).filter (fun n => !c.newMembers.contains n && !s.holdsBand n)
  let s := s.each leave (fun n s => s.modDrive n (fun d => { d with state := .retired }))
  (s.modPool p (fun x => { x with scarf := none, members := x.members.filter (fun n => !leave.contains n) })).newDescriptor p

/-! ### SCARF_ABORT (R270, R271) -/

/-- Steps 1 to 4 of R271. -/
def State.startAbort (s : State) (id p : Nat) : State :=
  match s.scarf? p with
  | some c =>
    let s := s.modPool p (fun x =>
      { x with params := c.old, scarf := some { c with state := .aborting, old := x.params, recopy := [] } })
    let s := s.complete id stSuccess
    let s := s.sealPool p
    let back := fun (n : Nat) (t : Stripe) =>
      if t.scarfCopied && !t.fromScarf && !c.returnList.contains n then
        { t with scarfCopied := false, set := t.oldSet, chunkOffset := t.oldOffset, gen := t.oldGen, sealSeq := t.oldSeal,
                 newPlace := none, acked := [], lost := [], degraded := !(s.oldLost t).isEmpty }
      else if t.newPlace.isSome && !t.relocating then { t with newPlace := none, acked := [] }
      else t
    let s := { s with se := { s.se with stripes := s.se.stripes.map (fun (e : Nat × Stripe) =>
        if keyPool e.1 = p then (e.1, back (keyStripe e.1) e.2) else e) } }
    s.newDescriptor p
  | none => s

/-- SCARF_ABORT in its turn. -/
def State.goScarfAbort (s : State) (id : Nat) (c : HostCmd) : State :=
  let p := entryByte c 0 8
  let old := ((s.pool? p).map (fun x => x.oldParams)).getD { k := 0, m := 0, chunk := 0, bandMiB := 0, d := 0, single := false, gen := 0 }
  s.checked id (firstFail [
      s.adminPool p,
      need ((s.scarf? p).any (fun c => c.state = .copying || c.state = .copied || c.state = .stalled)) stPoolState,
      need ((s.returnSet p).length ≤ s.roomOf old ((s.setsOfGen p old.gen).map (·.2))) stNoRoom])
    (fun s => s.startAbort id p)

/-- SCARF_ABORT (R270, R375). -/
def State.runScarfAbort (s : State) (id : Nat) (c : HostCmd) : State :=
  s.checked id (s.scarfEndPre c) (fun s => s.inTurn id c (fun s => s.goScarfAbort id c))

/-- An abort's checkpoint starts once the return set is empty (R271 step 6). -/
def State.abortCheck (s : State) (p : Nat) : State :=
  match s.pool? p with
  | some x =>
    match x.scarf with
    | some c =>
      let asked : Bool := match x.ckpt with
        | some k => k.reason = ckAbort
        | none => false
      let open' := (s.stripesOf p).any (fun e => e.2.fromScarf && (e.2.state = .opened || e.2.state = .sealed))
      if c.state = .aborting && !c.commitMark && !asked && !open' && (s.returnSet p).isEmpty then s.startCkpt p ckAbort
      else s
    | none => s
  | none => s

/-- The abort point (R271 steps 6 and 7): every band of the new generation is reclaimed. -/
def State.abortPoint (s : State) (p : Nat) : State :=
  match s.scarf? p with
  | some c => (s.modScarf p (fun c => { c with commitMark := true })).reclaimGen p c.old.gen
  | none => s

/-- The end of an abort (R271 steps 7 and 8): the new sill bands are free, and drives taken at the start that hold no old band go
back to their former states. -/
def State.abortEnd (s : State) (p : Nat) (c : Scarf) : State :=
  let s := s.dropNewLayout p
  let back := c.taken.filter (fun t => !s.holdsBand t.1)
  (s.returnDrives p back).newDescriptor p

/-! ### Progress -/

/-- A scarf goes on as far as it can: COPIED, the abort's checkpoint, and the ends of a commit and of an abort. -/
def State.scarfHook (s : State) : State :=
  let s := s.each (Tab.keys s.qm.cmds) (fun id s =>
    match s.cmd? id with
    | some c =>
      match c.body with
      | .scarfStart p => s.scarfStarting id p
      | _ => s
    | none => s)
  s.each (Tab.keys s.se.pools) (fun p s =>
    let s := (s.scarfCheck p).abortCheck p
    match s.scarf? p with
    | some c =>
      let left := (s.setsOfGen p c.old.gen).any (fun e => e.2.state != .retired)
      if !c.commitMark || left then s
      else if c.state = .committing then s.commitEnd p c
      else if c.state = .aborting then s.abortEnd p c
      else s
    | none => s)

/-- A label write of a starting scarf fails (R253). -/
def State.scarfLabelFailed (s : State) (n : Nat) : State :=
  s.each (Tab.keys s.qm.cmds) (fun id s =>
    match s.cmd? id with
    | some c =>
      match c.body with
      | .scarfStart p => if ((s.scarf? p).map (fun c => c.taken.any (fun t => t.1 = n))).getD false then s.undoScarf id p n else s
      | _ => s
    | none => s)

end Sys2Proof.Machine
end

