-- ==== Sys2Proof/Machine/SillLog.lean ====
section
/-! DEFINITION. Sill logs as they are read at a start (R290, R291, R294 to R296, R304, R305): records, the latest complete checkpoint, the
journal, the protection record, and where each log goes on. -/

namespace Sys2Proof.Machine

open Sys2Proof

/-! ### Records (R291) -/

/-- A record of a sill log: where its header block stands in the log, what the header says, the header block, and its body blocks. -/
structure LogRecord where
  place : Nat
  kind : Nat
  seq : Nat
  time : Nat
  gen : Nat
  aux : Nat
  head : List Byte
  body : List (List Byte)

/-- Whether a block is a valid record header of a pool (R291). -/
def blockHeads (uuid : Nat) (b : List Byte) : Bool :=
  decide (b.length = 4096) && decide (slice b 0 4 = ascii "FZSL") && leAt b 4 2 = 1 && 1 ≤ leAt b 6 1 && leAt b 6 1 ≤ 5 &&
  leAt b 8 16 = uuid && leAt b 60 4 = (crc32c (b.take 60)).toNat

/-- The records of a log in the order of LOG_SEQ; a body goes on from the last block into the first (R290). -/
def logRecords (uuid : Nat) (blocks : List (List Byte)) : List LogRecord :=
  sortBy (fun (a b : LogRecord) => a.seq ≤ b.seq) (blocks.zipIdx.filterMap (fun e =>
    if blockHeads uuid e.1 then
      some { place := e.2, kind := leAt e.1 6 1, seq := leAt e.1 24 8, time := leAt e.1 32 8, gen := leAt e.1 40 8,
             aux := leAt e.1 56 4, head := e.1
             body := (List.range (min (leAt e.1 48 8) blocks.length)).map (fun i =>
               blocks.getD ((e.2 + 1 + i) % max blocks.length 1) []) }
    else none))

/-! ### Checkpoints (R295) -/

/-- The sections of a checkpoint under its generation, where it is complete in a log (R295): BEGIN and END are there, DATA records cover
every block of the body once, and every section matches its hash. With them the END record's place and the BEGIN record's time. -/
def completeCkpt (rs : List LogRecord) (gen : Nat) : Option (Nat × Nat × List (Nat × List Byte)) :=
  let mine := rs.filter (fun r => r.gen = gen)
  match (mine.filter (fun r => r.kind = 4)).getLast? with
  | some e =>
    match (mine.filter (fun r => r.kind = 2 && r.seq < e.seq)).getLast? with
    | some b =>
      let data := sortBy (fun (x y : LogRecord) => x.aux ≤ y.aux)
        (mine.filter (fun r => r.kind = 3 && b.seq < r.seq && r.seq < e.seq))
      let table := (List.range (min b.aux 126)).map (fun i =>
        (leAt b.head (64 + 32 * i) 4, leAt b.head (72 + 32 * i) 8, leAt b.head (80 + 32 * i) 8))
      let n := table.foldl (fun m t => max m (ceilDiv (t.2.1 + t.2.2) 4096)) 0
      let covered := data.flatMap (fun r => (List.range r.body.length).map (fun i => r.aux + i))
      let body := (data.flatMap (·.body)).flatten
      let sections := table.map (fun t => (t.1, slice body t.2.1 t.2.2))
      let good := sections.zipIdx.all (fun s => leAt e.head (64 + 32 * s.2) 32 = (Config.sha3 s.1.2).toNat)
      if covered = List.range n ∧ e.aux = b.aux ∧ good then some (e.place, b.time, sections) else none
    | none => none
  | none => none

/-- The generations of the checkpoints a log holds the end of, highest first. -/
def ckptGens (rs : List LogRecord) : List Nat :=
  (sortBy (fun (a b : Nat) => b ≤ a) ((rs.filter (fun r => r.kind = 4)).map (·.gen))).eraseDups

/-- The latest checkpoint that is complete in some log (R295): its generation, time and sections. -/
def latestCkpt (logs : List (List LogRecord)) : Option (Nat × Nat × List (Nat × List Byte)) :=
  let all := logs.flatMap (fun rs => (ckptGens rs).filterMap (fun g => (completeCkpt rs g).map (fun c => (g, c.2.1, c.2.2))))
  pickBest (fun a b => b.1 < a.1) all

/-! ### What recovery reads -/

/-- The logs read of a layout generation. -/
def RecoveryInfo.logsOf (r : RecoveryInfo) (x : Pool) (gen : Nat) : List (List LogRecord) :=
  (r.sill.filter (fun e => e.2.1 = gen)).map (fun e => logRecords x.uuid e.2.2)

/-- The generation the descriptor calls current: the older of two while a scarf runs. -/
def RecoveryInfo.curGen (r : RecoveryInfo) : Nat := ((r.sill.map (·.2.1)).min?).getD 0

/-- The new generation's, while a scarf runs. -/
def RecoveryInfo.newGen (r : RecoveryInfo) : Option Nat := (r.sill.map (·.2.1)).find? (fun g => RecoveryInfo.curGen r < g)

/-- The new generation where its sill members hold a checkpoint with the commit mark: the pool is committed (R269). -/
def RecoveryInfo.committed (r : RecoveryInfo) (x : Pool) : Option Nat :=
  (RecoveryInfo.newGen r).filter (fun g => match latestCkpt (RecoveryInfo.logsOf r x g) with
    | some d => d.2.2.any (fun s => s.1 = 1 && leAt s.2 56 1 = 1)
    | none => false)

/-- The latest complete checkpoint of the generation that counts (R269, R295). -/
def RecoveryInfo.latest (r : RecoveryInfo) (x : Pool) : Option (Nat × Nat × List (Nat × List Byte)) :=
  latestCkpt (RecoveryInfo.logsOf r x ((RecoveryInfo.committed r x).getD (RecoveryInfo.curGen r)))

/-- A section's bytes that are not 0. -/
def cellsOf (bs : List Byte) : List Host.Cell := (bs.zipIdx.filter (fun e => e.1 != 0)).map (fun e => (e.2, e.1))

/-- The sections of the latest complete checkpoint under their types (R295, R297), with the new generation's stripe table while a scarf
runs (R303). -/
def RecoveryInfo.sections (r : RecoveryInfo) (x : Pool) : Option (Tab (List Host.Cell)) :=
  (RecoveryInfo.latest r x).map (fun c =>
    let main := c.2.2.foldl (fun (a : Tab (List Host.Cell)) s => Tab.set a s.1 (cellsOf s.2)) []
    match RecoveryInfo.newGen r with
    | some g =>
      (match RecoveryInfo.committed r x, latestCkpt (RecoveryInfo.logsOf r x g) with
       | none, some d => (d.2.2.filter (fun s => s.1 = 4)).foldl (fun (a : Tab (List Host.Cell)) s => Tab.set a newTable (cellsOf s.2)) main
       | _, _ => main)
    | none => main)

/-- The generation and the device time of the latest complete checkpoint. -/
def RecoveryInfo.ckpt (r : RecoveryInfo) (x : Pool) : Nat × Nat :=
  match RecoveryInfo.latest r x with
  | some c => (c.1, c.2.1)
  | none => (0, 0)

/-- A journal record and its JSEQ, where its CRC is right (R294). -/
def parseJournal (bs : List Byte) : Option (Nat × JRec) :=
  if leAt bs 60 4 ≠ (crc32c (bs.take 60)).toNat then none
  else
    let q := leAt bs 4 8
    match leAt bs 0 1 with
    | 1 => some (q, .bandOpen (leAt bs 12 2) (leAt bs 16 4))
    | 2 => some (q, .fill (leAt bs 12 2) (leAt bs 16 4) (leAt bs 24 8))
    | 3 => some (q, .reserve (leAt bs 12 8) (leAt bs 20 4))
    | 4 => some (q, .checkpoint (leAt bs 12 8) (leAt bs 20 8))
    | 5 => some (q, .clean (leAt bs 12 8) (leAt bs 20 8))
    | 6 => some (q, .members (parseSlots bs 12 3))
    | _ => none

/-- The journal records of every log in the order of JSEQ, each once; none when no journal copy is readable (log entry 76). -/
def RecoveryInfo.records (r : RecoveryInfo) (x : Pool) : Option (List (Nat × JRec)) :=
  let blocks := (r.sill.flatMap (fun e => logRecords x.uuid e.2.2)).filter (fun b => b.kind = 1)
  if blocks.isEmpty then none
  else
    let rs := blocks.flatMap (fun b => (List.range (min b.aux 63)).filterMap (fun i => parseJournal (slice b.head (64 + 64 * i) 64)))
    some (sortBy (fun (a b : Nat × JRec) => a.1 ≤ b.1) (rs.foldl (fun (l : List (Nat × JRec)) e =>
      if l.any (fun o => o.1 = e.1) then l else l ++ [e]) []))

/-- A protection record, where its head is valid for a side: PROT_GEN, time and the entries whose CRC is right (R304). -/
def parseProt (side : Nat) (bs : List Byte) : Option (Nat × Nat × Tab ProtEntry) :=
  if slice bs 0 4 ≠ ascii "FZPR" ∨ leAt bs 4 1 ≠ side ∨ leAt bs 60 4 ≠ (crc32c (bs.take 60)).toNat then none
  else
    some (leAt bs 8 8, leAt bs 16 8, (List.range (min (leAt bs 24 4) 130)).foldl (fun (a : Tab ProtEntry) i =>
      let e := slice bs (64 + 64 * i) 64
      if leAt e 60 4 = (crc32c (e.take 60)).toNat then
        Tab.set a i { quota := leAt e 2 2, admin := leAt e 4 4, rights := BitVec.ofNat 256 (leAt e 8 32) }
      else a) [])

/-- The valid protection record of a side with the highest PROT_GEN, from PROTECT records and the checkpoint's section (R305, R508). -/
def RecoveryInfo.prot (r : RecoveryInfo) (x : Pool) (side : Nat) : Option (Nat × Nat × Tab ProtEntry) :=
  let heads := (r.sill.flatMap (fun e => logRecords x.uuid e.2.2)).filter (fun b => b.kind = 5)
  let section_ := match RecoveryInfo.latest r x with
    | some c => (c.2.2.filter (fun s => s.1 = 11)).map (·.2)
    | none => []
  pickBest (fun a b => b.1 < a.1) ((heads.map (fun b => b.head.drop 64 ++ b.body.flatten) ++ section_).filterMap (parseProt side))

/-- Where a log goes on (R290 to R292): after its last record, with the places where its two latest complete checkpoints end. -/
def logGoesOn (uuid : Nat) (blocks : List (List Byte)) : SillLog :=
  let rs := logRecords uuid blocks
  match rs.getLast? with
  | some l =>
    let size := blocks.length
    let next := l.place + 1 + l.body.length
    let since := fun (p : Nat) => if p ≤ next then p + size else p
    match (ckptGens rs).filterMap (fun g => (completeCkpt rs g).map (fun c => since (c.1 + 1))) with
    | a :: b :: _ => { seq := l.seq, pos := next + size, last := a, done := a, keep := b }
    | [a] => { seq := l.seq, pos := next + size, last := a, done := a, keep := size }
    | [] => { seq := l.seq, pos := next + size, last := size, done := size, keep := size }
  | none => SillLog.empty

/-- Where each log read goes on. -/
def RecoveryInfo.logs (r : RecoveryInfo) (x : Pool) : Tab SillLog :=
  r.sill.foldl (fun (a : Tab SillLog) e => Tab.set a (logKey e.1 e.2.1) (logGoesOn x.uuid e.2.2)) []

end Sys2Proof.Machine
end

