-- ==== Sys2Proof/Machine/Resync.lean ====
section
/-! DEFINITION. Resynchronisation of a pool's open bands from the chunk headers on its drives (R187 to R191), and what assembly does with
values no rule assigns (R56, R64, R68, R70). -/

namespace Sys2Proof.Machine

open Sys2Proof

/-! ### Chunk headers (R285, R286) -/

/-- LOGICAL_STRIPE, SET, POSITION, SEAL_SEQ and PLACEMENT of a chunk header. -/
def hdrStripe (h : List Byte) : Nat := leAt h 32 8
def hdrSet (h : List Byte) : Nat := leAt h 44 2
def hdrPos (h : List Byte) : Nat := leAt h 14 1
def hdrSeal (h : List Byte) : Nat := leAt h 56 8
def hdrMoves (h : List Byte) : Nat := leAt h 46 2

/-- Whether a chunk header is valid (R286). -/
def headerValid (h : List Byte) : Bool :=
  let k := leAt h 40 1
  let m := leAt h 41 1
  let c := leAt h 42 1
  let i := leAt h 15 1
  let par := bit (leAt h 11 1) 0
  decide (h.length = 4096) && decide (slice h 0 8 = ascii "FZCHUNKH") && leAt h 8 2 = 1 &&
  leAt h 4092 4 = (crc32c (h.take 4092)).toNat &&
  2 ≤ k && k ≤ 60 && 1 ≤ m && m ≤ 4 && k + m ≤ 64 && c ≤ 3 && hdrPos h < k + m &&
  hdrPos h = chunkPos (hdrStripe h) (if par then k + i else i) (k + m) && (if par then i < m else i < k) &&
  (leAt h 72 4 = chunkPayload c || (bit (leAt h 11 1) 1 && leAt h 72 4 = 0))

/-- Whether a reader accepts a directory (R289), for a directory start in units. -/
def dirValid (bs : List Byte) (start : Nat) : Bool :=
  let n := leAt bs 4 2
  let es := parseDir bs
  dirCrcOk bs && decide (slice bs 0 4 = ascii "FZXD") && n ≤ 682 && leAt bs 36 4 ≤ start &&
  (slice bs (64 + 96 * n) (65536 - 64 - 96 * n)).all (· = 0) &&
  (List.range es.length).all (fun i =>
    match es[i]?, es[i + 1]? with
    | some a, some b => a.off < b.off && a.off + ceilDiv a.len 4096 ≤ b.off
    | some a, none => a.off + ceilDiv a.len 4096 ≤ leAt bs 36 4
    | none, _ => true)

/-! ### What to scan (R187, R190) -/

/-- A band to scan: its set, its offset, the chunk offset where the scan starts and the committed one. -/
structure Scan where
  set : Nat
  band : Nat
  start : Nat
  commit : Nat

/-- The journal records after a checkpoint's last covered one (R296). -/
def RecoveryInfo.since (r : RecoveryInfo) (x : Pool) : List JRec :=
  (((RecoveryInfo.records r x).getD []).filter (fun e => e.1 > x.jseq)).map (·.2)

/-- What the journal shows (R185). -/
def RecoveryInfo.journal (r : RecoveryInfo) (x : Pool) : JournalTail :=
  match RecoveryInfo.records r x with
  | none => .unreadable
  | some rs => match rs.getLast? with
    | some (_, .clean _ _) => .clean
    | _ => .open

/-- Whether a chunk read at a place passes the header filter (R188): a stripe SEALED in the checkpoint is known by its own seal
sequence. -/
def State.passes (s : State) (p : Nat) (x : Pool) (c : FoundChunk) : Bool :=
  let h := c.header
  let gens := x.params.gen :: (match x.scarf with
    | some f => [f.old.gen]
    | none => [])
  headerValid h && leAt h 16 16 = x.uuid && gens.contains (leAt h 12 2) && leAt h 48 8 = c.off && !bit (leAt h 11 1) 1 &&
  (match s.set? (hdrSet h) with
   | some y => y.pool = p && y.members[hdrPos h]? = some c.slot
   | none => false) &&
  (hdrSeal h > x.sealSeq || (match s.stripe? p (hdrStripe h) with
    | some t => t.state = .sealed && t.sealSeq = hdrSeal h % 2 ^ 44
    | none => false))

/-- The bands a resynchronisation scans (R187); without a journal copy also those each set would draw next (R190). -/
def State.scans (s : State) (p : Nat) (x : Pool) (r : RecoveryInfo) : List Scan :=
  let recs := RecoveryInfo.since r x
  let readable := (RecoveryInfo.records r x).isSome
  let units := fun (y : SetRec) => (x.paramsOf y.gen).bandUnits
  let fill := fun (i b d : Nat) => recs.foldl (fun (a : Nat) (j : JRec) => match j with
    | .fill i' b' c => if i' = i ∧ b' = b then c else a
    | _ => a) d
  let scan := fun (i b start : Nat) => Scan.mk i b start (if readable then fill i b start else start)
  (s.setsOf p).flatMap (fun e =>
    let u := units e.2
    let open_ := match e.2.openBand with
      | some b => [scan e.1 b (b * u + e.2.openFill * chunkUnits (x.paramsOf e.2.gen).chunk)]
      | none => []
    let later := recs.filterMap (fun j => match j with
      | .bandOpen i b => if i = e.1 ∧ e.2.openBand != some b then some b else none
      | _ => none)
    let next := if readable then [] else
      (s.freeBands e.2 (x.paramsOf e.2.gen).bandMiB).takeWhile (fun b =>
        r.chunks.any (fun c => c.off = b * u && hdrSet c.header = e.1 && s.passes p x c))
    open_ ++ (later.eraseDups ++ next).map (fun b => scan e.1 b (b * u)))

/-- The chunks of a scan that pass the filter (R187). -/
def State.scanned (s : State) (p : Nat) (x : Pool) (r : RecoveryInfo) (scans : List Scan) : List (FoundChunk × Scan) :=
  r.chunks.filterMap (fun c =>
    if !s.passes p x c then none
    else
      (scans.find? (fun a => a.set = hdrSet c.header && a.start ≤ c.off &&
        c.off / (match s.set? a.set with
          | some y => (x.paramsOf y.gen).bandUnits
          | none => 1) = a.band)).map (fun a => (c, a)))

/-- The chunks of a stripe that stand together under its highest seal sequence and placement. -/
def groupOf (found : List (FoundChunk × Scan)) (n : Nat) : List (FoundChunk × Scan) :=
  let mine := found.filter (fun e => hdrStripe e.1.header = n)
  let key := fun (e : FoundChunk × Scan) => (hdrSeal e.1.header, hdrMoves e.1.header)
  let top := (mine.map key).foldl (fun (a b : Nat × Nat) => if b.1 > a.1 ∨ (b.1 = a.1 ∧ b.2 > a.2) then b else a) (0, 0)
  mine.filter (fun e => key e = top)

/-- What a resynchronisation makes of one stripe. -/
structure Verdict where
  stripe : Nat
  chunks : List (FoundChunk × Scan)
  below : Bool
  good : List Nat
  kept : Bool

/-- The verdict on each stripe found, in rising order (R187, R189): below the committed offset the entry is rebuilt; from there on k good
chunks are needed. -/
def verdicts (found : List (FoundChunk × Scan)) : List Verdict :=
  (sortBy (· ≤ ·) ((found.map (fun e => hdrStripe e.1.header)).eraseDups)).map (fun n =>
    let g := groupOf found n
    let below := match g.head? with
      | some e => decide (e.1.off < e.2.commit)
      | none => false
    let good := ((g.filter (·.1.hashOk)).map (fun e => hdrPos e.1.header)).eraseDups
    let k := match g.head? with
      | some e => leAt e.1.header 40 1
      | none => 1
    ⟨n, g, below, good, below || decide (good.length ≥ k)⟩)

/-- A stripe as its chunk headers give it (R189), with its directory where it was read and is accepted. -/
def Verdict.stripeOf (v : Verdict) (x : Pool) (dir : Option (List Byte)) : Option Stripe :=
  v.chunks.head?.map (fun e =>
    let h := e.1.header
    let fl := leAt h 11 1
    let t := { Stripe.fresh (leAt h 12 2) (hdrSet h) 0 0 false (bit fl 2) with
      state := .written, codeId := leAt h 10 1, padded := bit fl 3, chunkOffset := e.1.off, sealSeq := hdrSeal h % 2 ^ 44,
      moves := hdrMoves h }
    match dir with
    | some bs => if dirValid bs (x.paramsOf t.gen).dirUnit then { t with dir := parseDir bs } else t
    | none => t)

/-! ### Values no rule assigns (R56, R64, R68, R70) -/

/-- Events for sets, bands and stripes whose state or code is unknown, and the loss of such stripes' extents. -/
def State.reportUnknown (s : State) (p : Nat) (bands : List (Nat × Nat)) : State :=
  let s := s.each ((s.setsOf p).filter (fun e => e.2.oddState)) (fun e s => s.raise 0x501 4 p (leBytes 8 e.1))
  let s := s.each bands (fun e s => s.raise 0x501 4 p (leBytes 8 e.2))
  s.each ((s.stripesOf p).filter (fun e => e.2.codeId > 1)) (fun e s =>
    (s.addLoss p (s.lossRec 1 3 e.1 0 0 none)).raise 0x501 4 p (leBytes 8 e.1))

end Sys2Proof.Machine
end

