-- ==== Sys2Proof/Machine/Window.lean ====
section
/-! DEFINITION. The window limit and its coverage (R157 to R163), the admission credit, the ebb (R169 to R175, R661) and the image
slots (R175, R176, R662). -/

namespace Sys2Proof.Machine

open Sys2Proof

/-! ### The limit -/

/-- Whether W is shared with a partner's window (R158, R167). -/
def State.winPaired (s : State) : Bool := s.pl.peer = .paired || s.pl.peer = .copying || s.pl.peer = .silent

/-- F of R157 in bytes, to the nearest byte: (E_u ÷ (margin × P) − t) × B, capped at an image slot. -/
def State.flushCap (s : State) : Nat :=
  let mp := s.fld SE_WIN_PARAM 0 SE_WIN_PARAM_MARGIN * s.fld SE_WIN_PARAM 0 SE_WIN_PARAM_P_EBB_W
  let b := (s.se.bEbb.getD 0) * 10 ^ 6
  let num := b * (16000 * s.se.eu - s.fld SE_WIN_PARAM 0 SE_WIN_PARAM_T_FIXED_MS * mp)
  let den := 1000 * mp
  if den = 0 then 0 else min ((2 * num + den) / (2 * den)) (s.fld EB_GEOM 0 EB_GEOM_SLOT_GIB * 2 ^ 30)

/-- W of R158 before R159, in bytes. -/
def State.winComputed (s : State) (f : Nat) : Nat :=
  let w := if s.winPaired then min f s.pl.fPartner / 2 else f
  min (64 * 2 ^ 30) w / (256 * 2 ^ 20) * (256 * 2 ^ 20)

/-- Energy in joules that a full flush of the present limit needs with margin (R157): of W, or of 2W when paired; rounded up
and saturating, as it is while B_ebb is not measured. -/
def State.energyRequired (s : State) : Nat :=
  let mp := s.fld SE_WIN_PARAM 0 SE_WIN_PARAM_MARGIN * s.fld SE_WIN_PARAM 0 SE_WIN_PARAM_P_EBB_W
  let b := (s.se.bEbb.getD 0) * 10 ^ 6
  let win := if s.winPaired then 2 * s.se.w else s.se.w
  if b = 0 then 65535
  else min 65535 (ceilDiv (mp * (1000 * win + s.fld SE_WIN_PARAM 0 SE_WIN_PARAM_T_FIXED_MS * b)) (16000 * b))

/-- Whether the window is covered by ebb (R160). -/
def State.winCovered (s : State) (computed : Nat) : Bool :=
  s.hasEB && !s.eb.storeFault && s.eb.slots.any (·.ready) && computed ≥ 4 * 2 ^ 30

/-- Payload pages of SEALED stripes not yet WRITTEN. -/
def State.sealedPages (s : State) : Nat :=
  (s.se.stripes.map (fun e => if e.2.state = .sealed then e.2.pages else 0)).sum

/-- Payload pages of open stripes whose seal has begun. -/
def State.sealingPages (s : State) : Nat :=
  (s.se.stripes.map (fun e => if e.2.state = .opened && e.2.sealing then e.2.pages else 0)).sum

/-- Seal open stripes of owned pools, oldest first, until U less the pages of SEALED stripes is at most A (R163). -/
def State.shrinkSeals : Nat → State → State
  | 0, s => s
  | n + 1, s =>
    if s.winU ≤ s.winA + s.sealedPages + s.sealingPages then s
    else
      let open? := s.se.stripes.filter (fun e =>
        e.2.state = .opened && !e.2.sealing && !e.2.dir.isEmpty && s.ownedPools.contains (keyPool e.1))
      match pickBest (fun a b => a.2.placement < b.2.placement) open? with
      | some e => State.shrinkSeals n (s.startSeal (keyPool e.1) (keyStripe e.1))
      | none => s

/-- The state after W has come down (R161, R163): admission stops while U is above A, with the event. -/
def State.winShrunk (s : State) : State :=
  if s.winU > s.winA then
    let s : State := if s.se.stopped then s
      else State.raise { s with se := { s.se with stopped := true } } 0x503 4 noInst
    State.shrinkSeals s.se.stripes.length s
  else s

/-- APPENDs that wait for durability look again. -/
def State.tryAllAcks (s : State) : State :=
  s.each (Tab.keys s.qm.cmds) (fun id s => s.tryAck id)

/-- Recompute W (R161): lower at once, higher in steps; the first computation that uses a measured rate, or any without an ebb
store, takes effect at once and sets the starting coverage (R663). -/
def State.winRecompute (s : State) : State :=
  let f := s.flushCap
  let c := s.winComputed f
  let w := max c (4 * 2 ^ 30)
  let cover := s.winCovered c
  let first := !s.se.wComputed && (s.se.bEbb.isSome || !s.hasEB || s.eb.storeFault)
  let now := if first ∨ s.se.w = 0 ∨ w < s.se.w then w else s.se.w
  let lower := decide (now < s.se.w)
  let s := s.setFld SE_WIN_ENERGY 0 SE_WIN_ENERGY_E_USABLE (min s.se.eu 65535)
  let was := s.se.covered
  let known := s.se.coverKnown
  let s := { s with se := { s.se with f := f, w := now, wTarget := w, wComputed := s.se.wComputed || first,
                                      covered := cover, coverKnown := known || first } }
  let s : State := if !cover && ((known && was) || (first && !known)) then s.raise 0x502 5 noInst else s
  let s : State := if lower then s.winShrunk else s.noteU
  (if cover && !was then s.tryAllAcks else s).admitHeld

/-- A step up of W (R161): at most 1 GiB towards the computed limit. -/
def State.winStep (s : State) : State :=
  if s.se.w < s.se.wTarget then
    (State.noteU { s with se := { s.se with w := min s.se.wTarget (s.se.w + 2 ^ 30) } }).admitHeld
  else s

/-- A tick of the admission credit (R162). -/
def State.creditTick (s : State) : State :=
  let ticks := (s.se.freedTicks ++ [s.se.freedNow]).drop ((s.se.freedTicks.length + 1) - 10)
  let freed := ticks.sum
  State.admitHeld
    { s with se := { s.se with freedTicks := ticks, freedNow := 0, credit := min (s.se.credit + freed / 10) freed } }

/-! ### Image slots -/

/-- An image slot. -/
def State.ebSlot (s : State) (i : Nat) : EbSlot := s.eb.slots.getD i EbSlot.blank

/-- The state with an image slot set. -/
def State.setEbSlot (s : State) (i : Nat) (x : EbSlot) : State := { s with eb := { s.eb with slots := s.eb.slots.set i x } }

/-- Whether a slot holds a valid, unconsumed image. -/
def EbSlot.live (x : EbSlot) : Bool := x.image.isSome && !x.consumed

/-- The slot a new ebb goes to (R171, R175). -/
def State.ebTarget (s : State) : Option Nat :=
  let r0 := (s.ebSlot 0).ready
  let r1 := (s.ebSlot 1).ready
  if !s.hasEB || s.eb.storeFault then none
  else if r0 && r1 then some (if s.eb.seq = 0 then 0 else 1 - s.eb.seqSlot)
  else if r0 then some 0
  else if r1 then some 1
  else none

/-- Begin the erase of a slot (R176). -/
def State.ebErase (s : State) (i : Nat) : State :=
  s.setEbSlot i { s.ebSlot i with erasing := true, ready := false, image := none, consumed := false }

/-- The ebb store faults (EB_STATUS.STORE_FAULT): the event, and the coverage. -/
def State.ebFault (s : State) : State :=
  if s.eb.storeFault then s
  else (State.raise { s with eb := { s.eb with storeFault := true } } 0xC01 5 noInst).winRecompute

/-- A slot erase ends (R176, R662): the slot is ready, or the store faults. -/
def State.ebErased (s : State) (i : Nat) (ok : Bool) : State :=
  let x := s.ebSlot i
  if !x.erasing then s
  else if ok then
    (s.setEbSlot i { x with erasing := false, ready := true, programmed := false }).winRecompute
  else (s.setEbSlot i { x with erasing := false }).ebFault

/-- A program-rate measurement ends on a ready slot (R662). -/
def State.ebMeasured (s : State) (rate : Nat) : State :=
  if s.hasEB && !s.eb.storeFault && s.eb.slots.any (·.ready) then
    let s := s.setFld EB_RATE 0 EB_RATE_RATE_MBS (min rate 0xFFFF)
    State.winRecompute { s with se := { s.se with bEbb := some (min (min rate 0xFFFF) 8000) } }
  else s

/-! ### The ebb -/

/-- Bytes of the window and of the mirror region an ebb writes, in whole 64 KiB pages. -/
def State.ebBytes (s : State) : Nat × Nat :=
  (roundUp (1920 * 2 ^ 20 + (s.se.stripes.map (fun e => e.2.pages)).sum) 65536, roundUp s.mirrorBytes 65536)

/-- Enter EBB (R169): links are off, what is in flight is abandoned, an epoch in progress too (R547), and the ebb starts on a ready slot (R171,
R172). The record of R661 takes the trigger. -/
def State.startEbb (s : State) (trigger : Nat) : State :=
  if s.pw.power = .ebb ∨ s.pw.power = .off then s
  else
    { s with
      pw := { s.pw with power := .ebb, epoch := none, phyDue := false, prepStep := 0 }
      eb := { s.eb with running := some s.ebTarget, lastTrigger := trigger, lastMs := 0, lastComplete := false } }

/-- Every power domain but PD_AON is gated. -/
def State.gateAll (s : State) : State :=
  { s with pw := { s.pw with doms := (List.range 192).filterMap (fun d => if d = 191 then none else some (d, 2)) } }

/-- The bytes 0 to 127 of an ebb header (R173); the table hash of the pages is a free value (log entry 6). -/
def State.ebHeader (s : State) (slot trigger tableHash : Nat) : List Byte :=
  let b := s.ebBytes
  padTo 128 (ascii "FZEBBHDR" ++ leBytes 2 1 ++ leBytes 2 (b2n (b.2 > 0) + 2 * b2n (!s.timeSet)) ++ leBytes 4 trigger ++
    leBytes 8 (s.eb.seq + 1) ++ leBytes 8 s.devNs ++ leBytes 8 b.1 ++ leBytes 8 b.2 ++
    leBytes 4 ((b.1 + b.2) / 65536) ++ leBytes 4 slot ++ leBytes 32 tableHash ++ leBytes 32 s.sec.deviceId.toNat)

/-- What an ebb image holds. -/
def State.ebImage (s : State) (slot : Nat) (hash draw : Nat) : EbbImage :=
  let h := s.ebHeader slot s.eb.lastTrigger hash
  { seq := s.eb.seq + 1, trigger := s.eb.lastTrigger, time := s.devNs,
    tables := { pools := s.se.pools, sets := s.se.sets, stripes := s.se.stripes, bands := s.se.bands,
                pending := s.se.pending, orphans := s.qm.orphans,
                placed := s.qm.cmds.filterMap (fun e => match e.2.body with
                  | .append a => a.placed.map (fun q => (a.pool, q.1, q.2))
                  | _ => none) }
    standby := s.pl.standby, mirror := s.pl.mirror, paired := !s.pl.mirror.isEmpty, timeUnset := !s.timeSet,
    header := withCrc (padTo 4092 (h ++ Config.mldsaSign draw [] h)) }

/-- The ebb ends (R170, R173, R175): a header read back makes the image valid under the next EBB_SEQ; without one the slot only
holds programmed blocks, and none is written once channel 31 has halted with STATE ERROR (R601). Every domain but PD_AON is gated. -/
def State.endEbb (s : State) (headerRead : Bool) : State :=
  match s.eb.running with
  | none => s
  | some target =>
    let s : State := match target with
      | some i =>
        if headerRead && s.fld XM_CH_STATUS 31 XM_CH_STATUS_STATE != 5 then
          let d := s.draw Config.freeNat
          let e := d.2.draw id
          let s := e.2
          let x : EbSlot := { image := some (s.ebImage i (d.1 % 2 ^ 256) e.1), consumed := false, ready := false,
                              erasing := false, programmed := true }
          let q := s.eb.seq + 1
          let s := s.setEbSlot i x
          { s with eb := { s.eb with seq := q, seqSlot := i, lastComplete := true } }
        else s.setEbSlot i { s.ebSlot i with ready := false, programmed := true }
      | none => s
    State.gateAll { s with eb := { s.eb with running := none } }

end Sys2Proof.Machine
end

