-- ==== Sys2Proof/Machine/Recovery.lean ====
section
/-! DEFINITION. Assembly and recovery of pools (R177, R178, R185 to R192, R273, R284, R453, R468, R485, R508, R625 to R629):
descriptors adopted from labels, the tables a checkpoint supplies, and the five recovery layers. -/

namespace Sys2Proof.Machine

open Sys2Proof

/-! ### Descriptors (R284, R487) -/

/-- Policies of R372 where neither an entry nor the image sets any. -/
def Policy.default : Policy :=
  { openLimit := 8, sealMs := 200, wake := 0, adoptSlot := true, readWaitS := 120, deferS := 900, tidePeriodD := 90,
    tideWake := 1, tidePaused := false }

/-- The policies the image gives a pool when the device starts to serve it (R485). -/
def State.policyFor (s : State) (p : Nat) : Policy :=
  match s.boot.image.bind (fun i => Tab.get? i.pools p) with
  | some q => q
  | none => Policy.default

/-- Whether the device is paired (R451, R453): by its image, and only with a peer link unit. -/
def State.paired (s : State) : Bool := s.pl.pairMode && s.hasPL

/-- Whether the device owns a pool of a side (R452, R453). -/
def State.ownsSide (s : State) (side : Nat) : Bool := !s.paired || side = s.pl.side

/-- The slot where a drive of a world-wide name is now (R394). -/
def State.slotOfWwn (s : State) (wwn : Nat) : Option Nat :=
  let here := s.se.drives.filter (fun e => e.2.info.wwn = wwn)
  match here.find? (fun e => match s.slot? e.1 with
      | some x => x.present
      | none => false) with
  | some e => some e.1
  | none => here.head?.map (·.1)

/-- The slot that now holds the member a descriptor names at slot `n`. -/
def State.slotNow (s : State) (ms : List MemberEntry) (n : Nat) : Nat :=
  match ms.find? (fun e => e.slot = n) with
  | some e => (s.slotOfWwn e.wwn).getD n
  | none => n

/-- A pool of which only a descriptor is known. -/
def Pool.found (d : DescInfo) (state : PoolState) (pol : Policy) : Pool :=
  let q : Params := { k := 0, m := 0, chunk := 0, bandMiB := 0, d := 0, single := false, gen := 0 }
  { Pool.created d.side d.uuid (zeros 32) q pol d.sill d.journal 0 0 0 with
    state := state, members := d.members.map (·.slot), descSeq := d.seq }

/-- Classify the drives a descriptor names from its entries (R284): an entry's state stands, whatever the drive's own label
says; a member that now reads FAILED fails. -/
def State.classifyBy (s : State) (d : DescInfo) : State :=
  s.each d.members (fun e s =>
    match s.slotOfWwn e.wwn with
    | some n =>
      if e.state = .failed ∧ (s.memberPool n).isSome ∧ s.poolUp d.pool then s.failMember n 0
      else s.modDrive n (fun v => { v with state := e.state, pool := d.pool, classified := true })
    | none => s)

/-- Wake the sill and journal members of an owned pool in class 1 (R487). -/
def State.wakeForStart (s : State) (p : Nat) : State :=
  match s.pool? p with
  | some x =>
    let ms := ((x.sill ++ x.journal).eraseDups).filter (fun n => !s.awake n && (s.drive? n).isSome)
    let s := { s with boot := { s.boot with startWakes := s.boot.startWakes ++ ms.filter (fun n => !s.boot.startWakes.contains n) } }
    s.wake ms 1
  | none => s

/-- Adopt a descriptor with a higher DESC_SEQ than the one known (R284, R487): the pool appears as ASSEMBLING or PARTNER. -/
def State.adoptDesc (s : State) (d : DescInfo) : State :=
  let state := if s.ownsSide d.side then PoolState.assembling else .partner
  match s.pool? d.pool with
  | none =>
    let s := (s.setPool d.pool (Pool.found d state (s.policyFor d.pool))).classifyBy d
    if s.ownsSide d.side then s.wakeForStart d.pool else s
  | some x =>
    if d.seq > x.descSeq then
      let waits := x.state = .assembling || x.state = .partner
      let s := s.modPool d.pool (fun x =>
        { x with descSeq := d.seq, side := if waits then d.side else x.side, state := if waits then state else x.state,
                 members := if waits then d.members.map (fun e => s.slotNow d.members e.slot) else x.members })
      s.classifyBy d
    else s

/-! ### Loading tables -/

/-- A pool as its tables give it, at the start of its assembly (R269, R485). -/
def Pool.loaded (x : Pool) (f : Nat → Nat) (pol : Policy) : Pool :=
  { x with
    state := .assembling, policy := pol, members := x.members.map f, sill := x.sill.map f, journal := x.journal.map f,
    ckpt := none, ckptWanted := false, gather := [], jBlock := [], jWritten := [], reserveQueued := 0, giving := none,
    labelWaits := 0, protWaits := [], tideWake := none, tideWaking := false, recovery := .none,
    writesStopped := false, resynced := 0, lostStripes := 0,
    scarf := x.scarf.map (fun c =>
      { c with oldSill := c.oldSill.map f, oldJournal := c.oldJournal.map f, oldMembers := c.oldMembers.map f,
               newMembers := c.newMembers.map f, taken := c.taken.map (fun t => (f t.1, t.2)),
               state := if c.state = .committing && !c.commitMark then .copied else c.state }) }

/-- A set as its table gives it. -/
def SetRec.loaded (x : SetRec) (p : Nat) (f : Nat → Nat) (imported : Bool) : SetRec :=
  { x with pool := p, members := x.members.map f, held := false, passRunning := false, passSubs := [],
           imported := x.imported || imported,
           rebuild := x.rebuild.map (fun r => { r with failedSlot := f r.failedSlot }) }

/-- Take the tables of a pool in place of what the device held of it (R299, R628). -/
def State.loadTables (s : State) (p : Nat) (t : PoolTables) (f : Nat → Nat) (imported : Bool) : State :=
  let slots := t.pool.members.map f
  let mark := fun (x : Stripe) => if imported && x.state = .written then { x with imported := true } else x
  let sets := s.se.sets.filter (fun e => e.2.pool != p)
  let bands := s.se.bands.filter (fun e => !slots.contains (e.1 / 2 ^ 32))
  let stripes := s.se.stripes.filter (fun e => keyPool e.1 != p)
  { s with se := { s.se with
      pools := Tab.set s.se.pools p { (Pool.loaded t.pool f (s.policyFor p)) with imported := t.pool.imported || imported }
      sets := t.sets.foldl (fun a e => Tab.set a e.1 (SetRec.loaded e.2 p f imported)) sets
      stripes := t.stripes.foldl (fun a e => Tab.set a (stripeKey p (keyStripe e.1)) (mark e.2)) stripes
      bands := t.bands.foldl (fun a e => Tab.set a (bandKey (f (e.1 / 2 ^ 32)) (e.1 % 2 ^ 32)) e.2) bands } }

/-- A member that was not found anywhere. -/
def Drive.missing (p wwn : Nat) (st : MemberState) : Drive :=
  { info := { wwn := wwn, serial := [], capacity := 0, block := 0, zoned := false, zoneMiB := 0, openZones := 0,
              flash := false, sata := false, ports := 0, reserveOk := false, expander := false, spinning := false, rate := 0,
              label := none, labelSeq := 0, labelFront := 0, labelRear := 0, labelPair := 0, desc := none, foreignLevel := false },
    state := st, pool := p, linkDown := true, classified := true, ures := [], bads := [], timeouts := 0, hwErrors := 0,
    spinFails := 0, repairs := 0, cause := 0, substFor := none, labelSeq := 0, labelFront := 0, labelRear := 0, labelBack := false, labelWant := none,
    descSeq := 0, prRegistered := false, prHeld := false }

/-- Members a pool's tables name whose link is down count as LINK_DOWN from now (R206, R625), and positions of FAILED members
leave their sets DEGRADED. -/
def State.placeMembers (s : State) (p : Nat) (ms : List MemberEntry) : State :=
  let slots := match s.pool? p with
    | some x => x.members
    | none => []
  let s := s.each slots (fun n s =>
    match s.drive? n with
    | some d =>
      let up : Bool := match s.slot? n with
        | some x => x.linkUp
        | none => false
      s.modDrive n (fun v => { v with linkDown := if d.serves p then !up else v.linkDown })
    | none =>
      match ms.find? (fun e => e.slot = n) with
      | some e => { s with se := { s.se with drives := Tab.set s.se.drives n (Drive.missing p e.wwn e.state) } }
      | none => s)
  s.each (s.setsOf p) (fun e s =>
    s.each (List.range e.2.members.length) (fun q s =>
      match s.set? e.1 with
      | some x => if s.posFailed x q && !x.failedPos.contains q && setInUse x then s.degradeSet e.1 q else s
      | none => s))

/-- Take the persistent protection record of the own side (R305, R508): entries of a higher PROT_GEN lie over the table. -/
def State.takeProt (s : State) (g : Option (Nat × Nat × Tab ProtEntry)) : State :=
  match g with
  | some (gen, time, table) =>
    let s := { s with sec := { s.sec with genSeen := max s.sec.genSeen gen } }
    if gen > s.sec.gen then
      let s := { s with sec := { s.sec with gen := gen, src := 2, committed := some (gen, time, table),
                                            table := table.foldl (fun (a : Tab ProtEntry) (e : Nat × ProtEntry) => Tab.set a e.1 e.2) s.sec.table } }
      { s with sec := { s.sec with epoch := (s.sec.epoch + 1) % 2 ^ 64 } }
    else s
  | none => s

/-! ### Replay (R177) -/

/-- Mark VOID the entries of APPENDs placed but not completed (R177 step 3). -/
def State.voidPlaced (s : State) (p : Nat) (placed : List (Nat × Nat)) : State :=
  s.each placed (fun e s => s.voidEntry p e.1 e.2)

/-- Entries of a pool's window stripes whose APPEND had not completed. -/
def State.placedOpen (s : State) (p : Nat) : List (Nat × Nat) :=
  (s.stripesOf p).flatMap (fun e =>
    if e.2.state = .opened ∨ e.2.state = .sealed then
      (e.2.dir.zipIdx.filter (fun d => d.1.cmd.isSome)).map (fun d => (e.1, d.2))
    else [])

/-- Write one SEALED stripe again (R177 step 4): chunks that match are skipped, and a stripe past a zoned write pointer moves. -/
def State.rewriteSealed (s : State) (p n : Nat) (matching : List Nat) (past : Bool) : State :=
  match s.pool? p, s.stripe? p n with
  | some x, some t =>
    let s := s.modStripe p n (fun t => { t with coded := false, acked := (t.acked ++ matching).eraseDups })
    let s : State := if past then s.moveSealed p n else s
    let q := x.paramsOf t.gen
    s.ceSubmit { kind := .encode, cls := 0, pool := p, stripe := n, cmd := none, m := q.m, key := none, bytes := q.capacity }
  | _, _ => s

/-- Steps 4 and 5 of R177: SEALED stripes are written, OPEN ones stay open with their seal timers restarted, a relocation is
written again and a copy of a scarf is dropped (R259). -/
def State.replayWindow (s : State) (p : Nat) (r : RecoveryInfo) : State :=
  let s := s.each (s.setsOf p) (fun e s =>
    match e.2.openBand with
    | some b => if e.2.bandOpenLogged then s else s.journal p (.bandOpen e.1 b)
    | none => s)
  s.each (s.stripesOf p) (fun e s =>
    match e.2.state with
    | .sealed => s.rewriteSealed p e.1 (Tab.getD r.matching e.1 []) (r.past.contains e.1)
    | .opened => s.modStripe p e.1 (fun t => { t with placement := s.devNs })
    | .written =>
      match e.2.newPlace with
      | some (i, off) =>
        if e.2.relocating then s.each (s.membersOf i) (fun m s => s.driveOut m 1 (stripeKey p e.1) off)
        else s.modStripe p e.1 (fun t => { t with newPlace := none, acked := [], returning := false })
      | none => s
    | _ => s)

/-- The recovery layer of a pool ends; the pool stays ASSEMBLING until a checkpoint is written after it (R192). -/
def State.endLayer (s : State) (p layer : Nat) : State :=
  (s.modPool p (fun x => { x with recovery := .none, startLayer := layer })).startCkpt p ckRecover

/-! ### Resynchronisation (layers 3 and 4) -/

/-- Window stripes a checkpoint still shows are gone with the window: their numbers become FREE. -/
def State.dropWindow (s : State) (p : Nat) : State :=
  let inWindow := fun (t : Stripe) => t.state = StripeState.opened || t.state = StripeState.sealed
  let gone := (s.stripesOf p).filter (fun e => inWindow e.2)
  let s := { s with se := { s.se with stripes := s.se.stripes.filter (fun (e : Nat × Stripe) =>
    !(keyPool e.1 = p && inWindow e.2)) } }
  s.modPool p (fun x => { x with freed := x.freed ++ gone.map (·.1) })

/-- One stripe the resynchronisation keeps (R189, R273): WRITTEN under its number; a group of a scarf's new generation over an
uncopied stripe is its copy. -/
def State.keepFound (s : State) (p n : Nat) (t : Stripe) (repaired : Bool) : State :=
  let t := { t with state := .written, repaired := t.repaired || repaired, data := [], newPlace := none, relocating := false }
  let t := match s.stripe? p n with
    | some o => if o.state = .written && o.gen != t.gen then
        { t with scarfCopied := true, oldSet := o.set, oldOffset := o.chunkOffset, oldGen := o.gen, oldSeal := o.sealSeq }
      else t
    | none => t
  let s := s.setStripe p n t
  let s := s.modPool p (fun x =>
    { x with freed := (x.freed.filter (· ≠ n)) ++ (if n ≥ x.nextFresh then (List.range n).drop x.nextFresh else []),
             nextFresh := max x.nextFresh (n + 1) })
  match s.set? t.set, s.setParams t.set with
  | some x, some q =>
    let b := t.chunkOffset / q.bandUnits
    let fill := t.chunkOffset % q.bandUnits / chunkUnits q.chunk + 1
    if x.openBand = some b then s.modSet t.set (fun x => { x with openFill := max x.openFill fill })
    else s.each x.members (fun m s => if (s.band m b q.bandMiB).1 = .free then s.setBand m b .full t.set else s)
  | _, _ => s

/-- Bands a scan names come to their set (R187): the last is the set's OPEN one, the ones before it are FULL. -/
def State.takeScans (s : State) (x : Pool) (scans : List Scan) (found : List (FoundChunk × Scan)) : State :=
  s.each scans (fun a s =>
    match s.set? a.set with
    | some y =>
      let q := x.paramsOf y.gen
      let s : State := match y.openBand with
        | some b => if b = a.band then s else s.each y.members (fun m s => s.setBand m b .full a.set)
        | none => s
      let s := s.each y.members (fun m s => if (s.band m a.band q.bandMiB).1 = .free then s.setBand m a.band .opened a.set else s)
      let top := (found.filter (fun e => e.2.set = a.set && e.2.band = a.band)).foldl
        (fun m e => max m (e.1.off + chunkUnits q.chunk)) a.start
      s.modSet a.set (fun y => { y with openBand := some a.band, bandOpenLogged := true,
                                        openFill := (top - a.band * q.bandUnits) / chunkUnits q.chunk })
    | none => s)

/-- A kept stripe's missing or wrong chunks are written again, or the stripe is relocated on zoned members (R189). -/
def State.rewriteFound (s : State) (p : Nat) (v : Verdict) : State :=
  match s.stripe? p v.stripe with
  | some t =>
    let slots := s.membersOf t.set
    let bad := ((List.range slots.length).filter (fun q => !v.good.contains q)).map (fun q => slots.getD q 0)
    let reach := bad.filter (s.memberReadable p)
    if reach.any (fun n => match s.drive? n with
      | some d => d.info.zoned
      | none => false) then s.relocate p v.stripe
    else (s.wake reach 1).each reach (fun n s => s.driveOut n 1 (stripeKey p v.stripe) t.chunkOffset)
  | none => s

/-- One stripe's verdict is carried out (R187, R189): a kept one stands in the table, with REPAIRED where it was resynchronised. -/
def State.applyVerdict (s : State) (p : Nat) (x : Pool) (r : RecoveryInfo) (v : Verdict) : State :=
  match v.kept, v.stripeOf x (Tab.get? r.dirs v.stripe) with
  | true, some t =>
    let s := s.keepFound p v.stripe t (!v.below)
    if v.below then s
    else (s.modPool p (fun x => { x with resynced := min (x.resynced + 1) 65535 })).rewriteFound p v
  | _, _ => s

/-- Reserved logical stripe numbers: COUNT numbers along the FREE chain from FIRST (R180). -/
def Pool.reservedRun (x : Pool) : Nat → Nat → List Nat
  | 0, _ => []
  | k + 1, n => if n = 0xFFFFFFFFFF then [] else n :: Pool.reservedRun x k (Pool.nextFree x n)

/-- The loss report of a resynchronisation (R191): lost stripes, among them those OPEN or SEALED in the checkpoint and not found; lost
extents; under layer 3 reserved numbers not found; and the pool-wide entries. -/
def State.reportLoss (s : State) (p : Nat) (r : RecoveryInfo) (ckptTime : Nat) (unreadable : Bool) (lost : List Nat) (unconfirmed : List Nat) : State :=
  let s := s.each lost (fun n s => s.addLoss p (s.lossRec 1 2 n 0 0 none))
  let s := s.each r.badExtents (fun e s =>
    match (s.stripe? p e.1).bind (fun t => t.dir[e.2]?) with
    | some d => s.addLoss p (s.lossRec 0 2 e.1 d.off d.len (some d.tag))
    | none => s)
  let s := s.each (if unreadable then [] else unconfirmed) (fun n s => s.addLoss p (s.lossRec 2 2 n 0 0 none))
  let wide := fun (kind : Nat) (s : State) => s.addLoss p { s.lossRec kind 2 0 0 0 none with time := ckptTime }
  let s : State := if unreadable then wide 4 s else s
  (wide 3 s).raise 0x508 7 p (leBytes 4 lost.length)

/-- Layers 3 and 4 (R187 to R191). -/
def State.resync (s : State) (p : Nat) (r : RecoveryInfo) (unreadable : Bool) : State :=
  match s.pool? p with
  | some x =>
    let scans := s.scans p x r
    let found := s.scanned p x r scans
    let vs := verdicts found
    let names := vs.map (·.stripe)
    let inWindow := ((s.stripesOf p).filter (fun e => e.2.state = .opened || e.2.state = .sealed)).map (·.1)
    let lost := (vs.filter (fun v => !v.kept)).map (·.stripe) ++ inWindow.filter (fun n => !names.contains n)
    let reserved := (RecoveryInfo.since r x).flatMap (fun j => match j with
      | .reserve first n => Pool.reservedRun x n first
      | _ => [])
    let s := (s.dropWindow p).takeScans x scans found
    let s := s.each vs (fun v s => s.applyVerdict p x r v)
    let s := s.modPool p (fun y =>
      { y with sealSeq := found.foldl (fun m e => max m (hdrSeal e.1.header)) y.sealSeq
               appendSeq := (r.dirs.flatMap (fun e => parseDir e.2)).foldl (fun m d => max m d.seq) y.appendSeq
               lostStripes := min lost.length 65535 })
    (s.reportLoss p r (RecoveryInfo.ckpt r x).2 unreadable lost (reserved.filter (fun n => !names.contains n))).endLayer p (if unreadable then 5 else 4)
  | none => s

/-! ### The layers (R185) -/

/-- The tables the sill members' latest complete checkpoint gives (R295, R297, R299). -/
def State.tablesIn (s : State) (p : Nat) (r : RecoveryInfo) : Option PoolTables :=
  ((s.pool? p).bind (RecoveryInfo.sections r)).map (fun x => tablesOfSections (s.policyFor p) p (fun i => Tab.getD x i []))

/-- What the journal records since the checkpoint add to a pool (R294): the last JSEQ, the sequences of a CLEAN record, and the
journal members. -/
def Pool.withJournal (x : Pool) (r : RecoveryInfo) : Pool :=
  let recs := ((RecoveryInfo.records r x).getD []).filter (fun e => e.1 > x.jseq)
  recs.foldl (fun (x : Pool) (e : Nat × JRec) =>
    let x := { x with jseq := max x.jseq e.1 }
    match e.2 with
    | .clean a b => { x with sealSeq := max x.sealSeq a, appendSeq := max x.appendSeq b }
    | .members ms => { x with journal := ms }
    | _ => x) x

/-- A scarf whose commit mark is on a new-generation sill member is committed, whatever the device held of it (R269). -/
def State.settleCommit (s : State) (p : Nat) (r : RecoveryInfo) : State :=
  match s.pool? p with
  | some x =>
    match x.scarf with
    | some c =>
      if c.forward && !c.commitMark && RecoveryInfo.committed r x = some x.params.gen then
        (s.modScarf p (fun c => { c with state := .committing })).commitPoint p
      else s
    | none => s
  | none => s

/-- The pending releases of a pool as a checkpoint holds them (R300). -/
def State.takePending (s : State) (p : Nat) (l : List PendRel) : State :=
  { s with se := { s.se with pending := s.se.pending.filter (fun (q : PendRel) => q.pool != p) ++ l } }

/-- Load what the sill members supply of a pool, and place its members. -/
def State.loadPool (s : State) (p : Nat) (r : RecoveryInfo) (t : PoolTables) : State :=
  let ms := match r.desc with
    | some d => d.members
    | none => []
  let f := fun n => s.slotNow ms n
  let sections := ((s.pool? p).bind (RecoveryInfo.sections r)).getD []
  let ckpt := (s.pool? p).map (RecoveryInfo.ckpt r)
  let logs := (s.pool? p).map (RecoveryInfo.logs r)
  let s := s.loadTables p t f r.otherFamily
  let s := s.modPool p (fun x => { x with side := s.pl.side, ckptGen := (ckpt.getD (0, 0)).1, logs := logs.getD [], descSeq := match r.desc with
    | some d => max d.seq x.descSeq
    | none => x.descSeq })
  let sec := fun (i : Nat) => Tab.getD sections i []
  ((s.takePending p (pendingOf p sec)).placeMembers p ms).reportUnknown p (oddBands sec)

/-- The journal records since the checkpoint are taken in, once what they name has been scanned. -/
def State.takeJournal (s : State) (p : Nat) (r : RecoveryInfo) : State := s.modPool p (fun x => Pool.withJournal x r)

/-- The image a restore uses: valid, unconsumed, with the highest EBB_SEQ (R175). -/
def State.restoreImage (s : State) : Option EbbImage :=
  (pickBest (fun (a b : EbbImage) => b.seq < a.seq) ((s.eb.slots.filter (·.live)).filterMap (·.image)))

/-- Whether an image holds a pool as its own. -/
def EbbImage.holds (e : EbbImage) (p : Nat) : Bool :=
  match Tab.get? e.tables.pools p with
  | some x => x.state != .partner && x.state != .none
  | none => false

/-- A pool's part of an image's tables. -/
def EbbImage.tablesOf (e : EbbImage) (p : Nat) : Option PoolTables :=
  (Tab.get? e.tables.pools p).map (fun x =>
    { pool := x, sets := e.tables.sets.filter (fun y => y.2.pool = p)
      stripes := e.tables.stripes.filter (fun y => keyPool y.1 = p)
      bands := e.tables.bands.filter (fun y => x.members.contains (y.1 / 2 ^ 32)) })

/-- Pending releases and orphans of a pool as an image holds them. -/
def State.takeWaiting (s : State) (p : Nat) (e : EbbImage) : State :=
  { s with
    se := { s.se with pending := s.se.pending.filter (fun (q : PendRel) => q.pool != p) ++
                                 e.tables.pending.filter (fun (q : PendRel) => q.pool = p) }
    qm := { s.qm with orphans := s.qm.orphans.filter (fun (o : Orphan) => o.pool != p) ++
                                 e.tables.orphans.filter (fun (o : Orphan) => o.pool = p) } }

/-- Layer 1 (R177): the pool as the image and its checkpoint hold it, with pending releases and orphans. -/
def State.restorePool (s : State) (p : Nat) (r : RecoveryInfo) (e : EbbImage) (t : PoolTables) : State :=
  let s := (s.loadPool p r t).takeWaiting p e
  let placed := (e.tables.placed.filter (fun q => q.1 = p)).map (fun q => (q.2.1, q.2.2))
  let s := ((s.voidPlaced p placed).modPool p (fun x => { x with startLayer := 2 })).settleCommit p r
  ((s.replayWindow p r).takeJournal p r).endLayer p 2

/-- Layers 3 and 4, by what the journal shows. -/
def State.recoverLate (s : State) (p : Nat) (r : RecoveryInfo) : State :=
  let s := { s with se := { s.se with recoveries := Tab.erase s.se.recoveries p } }
  let unreadable : Bool := match s.pool? p with
    | some x => RecoveryInfo.journal r x = .unreadable
    | none => true
  (s.resync p r unreadable).takeJournal p r

/-- Layer 2 ends with a mirror (R177 from step 2): the mirrored stripes stand in the window. -/
def State.recoverMirror (s : State) (p : Nat) (r : RecoveryInfo) : State :=
  let s := { s with se := { s.se with recoveries := Tab.erase s.se.recoveries p } }
  let s := s.dropWindow p
  let s := s.each r.mirror (fun e s =>
    let n := keyStripe e.1
    (s.setStripe p n e.2).modPool p (fun x => { x with freed := x.freed.filter (· ≠ n), nextFresh := max x.nextFresh (n + 1) }))
  let s := s.voidPlaced p (s.placedOpen p)
  ((s.replayWindow p r).takeJournal p r).endLayer p 3

/-- Whether the retained window holds a pool's tables (R527). -/
def State.retainedPool (s : State) (p : Nat) : Bool :=
  s.pw.retained && (match s.pool? p with
    | some x => x.params.k != 0
    | none => false)

/-- Whether the device may assemble a pool now (R454, R478). -/
def State.mayAssemble (s : State) : Bool :=
  s.boot.fwReady && !s.boot.bare && !s.pw.checkDue &&
    (!s.paired || s.pl.peer = .paired || s.pl.peer = .lost)

/-- The wait of layer 2 for the partner's mirror (R186). -/
def State.awaitMirror (s : State) (p : Nat) (r : RecoveryInfo) : State :=
  let s := { s with se := { s.se with recoveries := Tab.set s.se.recoveries p r } }
  let s := s.modPool p (fun x => { x with recovery := .waitPartner })
  if s.pl.peer = .paired then s.sendFrame 0x30 [p] else s

/-- Layer 2, when the device is paired (R186), else the later layers. -/
def State.recoverSearch (s : State) (p : Nat) (r : RecoveryInfo) (t : PoolTables) : State :=
  let s := s.loadPool p r t
  if s.paired then
    s.awaitMirror p r
  else s.recoverLate p r

/-- POOL_RECOVERY (R185): the first layer whose condition holds. -/
def State.recoverPool (s : State) (p : Nat) (r : RecoveryInfo) : State :=
  let s := match r.desc with
    | some d => s.adoptDesc { d with pool := p }
    | none => s
  match s.pool? p with
  | none => s
  | some x =>
    if x.state != .assembling || x.recovery != .none || x.ckpt.isSome || !s.mayAssemble then s
    else if s.paired && s.pl.peer != .paired && r.partnerHoldsReservation then
      s.modPool p (fun x => { x with state := .partner })
    else
      let s := s.takeProt (RecoveryInfo.prot r x s.pl.side)
      if s.retainedPool p then
        let s := (s.placeMembers p []).settleCommit p r
        if RecoveryInfo.journal r x = .clean then s.endLayer p 0
        else ((s.voidPlaced p (s.placedOpen p)).replayWindow p r).endLayer p 1
      else
        match s.tablesIn p r with
        | none => s.modPool p (fun x => { x with state := .offline })
        | some t =>
          if t.pool.params.m > s.maxM ∨ s.tableBytes p + 16 * poolEntries t.pool > tableBudget then
            (s.modPool p (fun x => { x with state := .offline })).raise 0x5FF 6 p
          else if RecoveryInfo.journal r x = .clean then (((s.loadPool p r t).dropWindow p).takeJournal p r).endLayer p 0
          else
            match s.restoreImage with
            | some e =>
              (match e.holds p, e.tablesOf p with
               | true, some u => s.restorePool p r e u
               | _, _ => s.recoverSearch p r t)
            | none => s.recoverSearch p r t

/-- The wait of layer 2 ends without a mirror (R186). -/
def State.endWait (s : State) (p : Nat) : State :=
  match s.pool? p, Tab.get? s.se.recoveries p with
  | some x, some r => if x.recovery = .waitPartner then s.recoverLate p r else s
  | _, _ => s

/-! ### The end of a recovery (R176, R192) -/

/-- Consume the restored image once every pool it held has a checkpoint after the replay (R176), and erase its slot. -/
def State.consumeImage (s : State) : State :=
  match s.restoreImage with
  | some e =>
    let done := (Tab.keys e.tables.pools).all (fun p =>
      !e.holds p || s.poolUp p || s.poolState p = .partner || s.poolState p = .retiring)
    if done then
      s.each (List.range s.eb.slots.length) (fun i s =>
        let x := s.ebSlot i
        if x.live && x.image = some e then (s.setEbSlot i { x with consumed := true }).ebErase i else s)
    else s
  | none => s

/-- The checkpoint after a pool's recovery is written (R192): ONLINE or DEGRADED, with the next descriptor (R283, R453,
R628), substitutes, and what was held. -/
def State.recovered (s : State) (p : Nat) : State :=
  let s := s.modPool p (fun x => { x with state := .online })
  let s := (s.gradePool p).newDescriptor p
  let s := (s.keepReserved p).tideStart p
  (s.consumeImage.substitute).admitHeld

/-! ### POOL_RECOVER (R186, R375) -/

/-- The checks of POOL_RECOVER before it waits for its turn. -/
def State.poolRecoverPre (s : State) (c : HostCmd) : Check :=
  firstFail [onEntry0 c, layout c 0 1 [⟨8, 1, entryByte c 0 8 ≤ 63⟩], s.ownerPriv c]

/-- POOL_RECOVER in its turn: accepted while the wait of R186 runs. -/
def State.goPoolRecover (s : State) (id : Nat) (c : HostCmd) : State :=
  let p := entryByte c 0 8
  let waits : Bool := match s.pool? p with
    | some x => x.state = .assembling && x.recovery = .waitPartner
    | none => false
  s.checked id (need waits stPoolOffline) (fun s => (s.complete id stSuccess).endWait p)

/-- POOL_RECOVER (R375). -/
def State.runPoolRecover (s : State) (id : Nat) (c : HostCmd) : State :=
  s.checked id (s.poolRecoverPre c) (fun s => s.inTurn id c (fun s => s.goPoolRecover id c))

end Sys2Proof.Machine
end

