-- ==== Sys2Proof/Machine/Security.lean ====
section
/-! DEFINITION. Protection, owner sessions, key enrolment and attestation (chapter 16), and the capability registers a report
carries (R621, R622). -/

namespace Sys2Proof.Machine

open Sys2Proof

/-! ### Capability registers (R621, R622) -/

/-- The number of the ordering code in DEV_CAP_1. -/
def Variant.code : Variant → Nat
  | .fa => 0 | .fb => 1 | .fc => 2 | .ha => 3 | .la => 4

/-- The value of DEV_CAP_i (R621, R622). -/
def State.devCap (s : State) (i : Nat) : Word :=
  if i = 0 then 0x00010001#32
  else if i = 1 then BitVec.ofNat 32 (b2n s.stepB0 + 16 * Variant.code s.variant)
  else if i = 2 then
    match s.variant with
    | .fa => 0x47F#32 | .fb => 0x47E#32 | .fc => 0x47D#32 | .ha => 0x41F#32 | .la => 0x27B#32
  else if i = 3 then (if s.variant = .ha then 0x00400200#32 else 0x00400400#32)
  else 0

/-! ### Sessions (R499 to R503) -/

/-- Empty the staging buffers a session wrote (R489). -/
def State.dropStaged (s : State) : State :=
  let clear := fun (b : StageBuf) => if b.writer.isSome then StageBuf.mk [] none else b
  { s with boot := { s.boot with fwBuf := clear s.boot.fwBuf, imgBuf := clear s.boot.imgBuf } }

/-- The owner session ends; its end is recorded with its cause (R503), 0 recording nothing. -/
def State.endSession (s : State) (cause : Nat) : State :=
  match s.sec.session with
  | some _ =>
    let s := State.dropStaged { s with sec := { s.sec with session := none } }
    if cause = 0 then s else s.raise 0x102 2 noInst [BitVec.ofNat 8 cause]
  | none => s

/-- The session held on a function ends (R345, R346). -/
def State.endSessionOn (s : State) (x cause : Nat) : State := if s.hasSession x then s.endSession cause else s

/-- Whether an owner key slot is enrolled and not revoked (R501, R510). -/
def State.keyUsable (s : State) (k : Nat) : Bool := s.sec.enrolled.contains k && !s.sec.fuses.contains (2 + k)

/-- The fields of SESSION_OPEN. -/
def sessionOpenPre (c : HostCmd) : Check :=
  firstFail [onEntry0 c, layout c 0 1 ([⟨8, 1, entryByte c 0 8 ≤ 3⟩] ++ descAt c 24), descCheck c 24 128]

/-- SESSION_OPEN in its turn (R500): the challenge is written and replaces any the function holds. -/
def State.goSessionOpen (s : State) (id : Nat) (c : HostCmd) : State :=
  let d := s.draw Config.random
  let s := d.2
  let seq := s.sec.challengeSeq + 1
  let bytes := padTo 128 (ascii "FZSESCHL" ++ leBytes 1 (entryByte c 0 8) ++ leBytes 1 (fnPort c.x) ++ zeros 6 ++
    leBytes 8 seq ++ leBytes 8 s.devNs ++ leBytes 32 d.1 ++ leBytes 32 s.sec.deviceId.toNat)
  let s := { s with sec := { s.sec with challengeSeq := seq,
                                        challenges := Tab.set s.sec.challenges c.x ⟨entryByte c 0 8, bytes⟩ } }
  (s.toHost id (descOfEntry c 24).addr bytes).complete id stSuccess (leBytes 4 128)

/-- SESSION_OPEN (R500). -/
def State.runSessionOpen (s : State) (id : Nat) (c : HostCmd) : State :=
  s.checked id (sessionOpenPre c) (fun s => s.inTurn id c (fun s => s.goSessionOpen id c))

/-- A challenge is used or expires. -/
def State.dropChallenge (s : State) (x : Nat) : State :=
  { s with sec := { s.sec with challenges := Tab.erase s.sec.challenges x } }

/-- Whether the proof a function offers is good (R501). -/
def State.proofGood (s : State) (x : Nat) (sig : List Byte) : Option Challenge :=
  match Tab.get? s.sec.challenges x with
  | some h =>
    if s.keyUsable h.keySlot &&
        Config.mldsaVerify (Tab.getD s.sec.ownerKeys h.keySlot 0) (ascii "KZSES") h.bytes sig then some h else none
  | none => none

/-- SESSION_PROVE in its turn (R501, R502). -/
def State.goSessionProve (s : State) (id : Nat) (c : HostCmd) : State :=
  match c.read.data with
  | none => (s.dropChallenge c.x).complete id stHostAccessError
  | some sig =>
    match s.proofGood c.x sig with
    | some h =>
      let port := fnPort c.x
      let s := s.dropChallenge c.x
      let s : State := match s.sec.session with
        | some o => if o.port != port then
            (s.endSession 0).raise 0x101 4 noInst [BitVec.ofNat 8 o.port, BitVec.ofNat 8 port] else s
        | none => s
      let s := { s with sec := { s.sec with session := some ⟨port, h.keySlot, s.devNs⟩ } }
      s.complete id stSuccess
    | none => ((s.dropChallenge c.x).bump SEC_SESSION_FAIL 0 SEC_SESSION_FAIL_COUNT).complete id stSessionRefused

/-- The checks of SESSION_PROVE before it waits for its turn. -/
def sessionProvePre (c : HostCmd) : Check :=
  firstFail [onEntry0 c, layout c 0 1 (descAt c 24), descCheck c 24 2420]

/-- SESSION_PROVE (R501). -/
def State.runSessionProve (s : State) (id : Nat) (c : HostCmd) : State :=
  s.checked id (sessionProvePre c)
    (fun s => s.inTurn id c (fun s => s.goSessionProve id c))

/-- SESSION_CLOSE in its turn (R503). -/
def State.goSessionClose (s : State) (id : Nat) (c : HostCmd) : State :=
  if s.hasSession c.x then (s.endSession 1).complete id stSuccess else s.complete id stNoSession

/-- The checks of SESSION_CLOSE before it waits for its turn. -/
def sessionClosePre (c : HostCmd) : Check :=
  firstFail [onEntry0 c, layout c 0 1 []]

/-- SESSION_CLOSE (R503). -/
def State.runSessionClose (s : State) (id : Nat) (c : HostCmd) : State :=
  s.checked id (sessionClosePre c) (fun s => s.inTurn id c (fun s => s.goSessionClose id c))

/-! ### The protection table (R504 to R509) -/

/-- PROTECT_SET in its turn (R505). -/
def State.goProtectSet (s : State) (id : Nat) (c : HostCmd) : State :=
  let f := entryByte c 0 8 * 65 + entryByte c 0 9
  let e : ProtEntry := { quota := entryLe c 0 10 2, admin := entryLe c 0 12 4, rights := BitVec.ofNat 256 (entryLe c 0 16 32) }
  let epoch := (s.sec.epoch + 1) % 2 ^ 64
  let s := { s with sec := { s.sec with table := Tab.set s.sec.table f e, epoch := epoch, dirty := true } }
  let older := (s.qm.cmds.filter (fun k => k.2.x = f && k.1 < id && !k.2.silent)).map (·.1)
  if older.isEmpty then s.complete id stSuccess (leBytes 8 epoch) else s.setBody id (.protectSet epoch older)

/-- The checks of PROTECT_SET before it waits for its turn. -/
def State.protectSetPre (s : State) (c : HostCmd) : Check :=
  firstFail [
    onEntry0 c,
    layout c 0 1 [⟨8, 1, entryByte c 0 8 ≤ 1⟩, ⟨9, 1, entryByte c 0 9 ≤ 64⟩, anyAt 10 2,
      ⟨12, 4, entryLe c 0 12 4 ≤ 15 && (entryByte c 0 9 = 0 || entryLe c 0 12 4 = 0)⟩, anyAt 16 32],
    s.ownerPriv c]

/-- PROTECT_SET (R495, R505). -/
def State.runProtectSet (s : State) (id : Nat) (c : HostCmd) : State :=
  s.checked id (s.protectSetPre c) (fun s => s.inTurn id c (fun s => s.goProtectSet id c))

/-- PROTECT_COMMIT in its turn (R507): the record goes to the sill members of every owned pool that is up. -/
def State.goProtectCommit (s : State) (id : Nat) : State :=
  let ps := (Tab.keys s.se.pools).filter s.poolUp
  if ps.isEmpty then s.complete id stPoolOffline
  else
    let gen := s.sec.genSeen + 1
    let s := { s with sec := { s.sec with genSeen := gen, committed := some (gen, s.devNs, (List.range 130).map (fun x => (x, s.prot x))) } }
    let s := s.each ps (fun p s =>
      let ms := s.readableSill p
      ((s.modPool p (fun x => { x with protWaits := ms })).wake ms 1).writeProt p ms)
    s.setBody id (.protectCommit gen)

/-- The checks of PROTECT_COMMIT before it waits for its turn. -/
def State.protectCommitPre (s : State) (c : HostCmd) : Check :=
  firstFail [onEntry0 c, layout c 0 1 [], s.ownerPriv c]

/-- PROTECT_COMMIT (R507). -/
def State.runProtectCommit (s : State) (id : Nat) (c : HostCmd) : State :=
  s.checked id (s.protectCommitPre c)
    (fun s => s.inTurn id c (fun s => s.goProtectCommit id))

/-- Whether a pool that is up holds the record on two sill members, or on every readable one below two (R507). -/
def State.protHeld (s : State) (p : Nat) : Bool :=
  match s.pool? p with
  | some x =>
    let ms := s.readableSill p
    !s.poolUp p || ms.countP (fun n => !x.protWaits.contains n) ≥ min 2 ms.length
  | none => true

/-- A PROTECT_COMMIT ends when every pool holds its record (R507). -/
def State.protHook (s : State) : State :=
  s.each (Tab.keys s.qm.cmds) (fun id s =>
    match s.cmd? id with
    | some c =>
      match c.body with
      | .protectCommit gen =>
        if (Tab.keys s.se.pools).all s.protHeld then
          let s := { s with sec := { s.sec with gen := gen, dirty := false } }
          let s := s.each (Tab.keys s.se.pools) (fun p s => s.modPool p (fun x => { x with protWaits := [] }))
          s.complete id stSuccess (leBytes 8 gen)
        else s
      | _ => s
    | none => s)

/-- A sill member reports a protection record on stable media. -/
def State.protWritten (s : State) (p n : Nat) : State :=
  (s.modPool p (fun x => { x with protWaits := x.protWaits.filter (· ≠ n) })).protHook

/-! ### Enrolment and fuses (R512 to R514) -/

/-- The state with RESULT of SEC_ENROLL_CTL set. -/
def State.enrollResult (s : State) (r : Nat) : State := s.setFld SEC_ENROLL_CTL 0 SEC_ENROLL_CTL_RESULT r

/-- Firmware security version minimum (R510). -/
def State.svnMin (s : State) : Nat := (List.range 10).countP (fun i => s.sec.fuses.contains (6 + i))

/-- Why an operation is refused at GO, by its RESULT (R512 to R514, SEC_ENROLL_CTL). -/
def State.enrollRefusal (s : State) (port op index svn : Nat) : Option Nat :=
  if !(s.hasSession (port * 65) || (s.sec.enrolled.isEmpty && op = 1)) then some 2
  else if op > 4 then some 7
  else if op = 1 then
    if s.sec.enrolled.contains index then some 3
    else if Tab.getD s.sec.areasUsed index 0 ≥ 2 then some 9
    else none
  else if op = 2 then
    if !s.keyUsable index then some 4
    else if s.sec.imgKey = some index || !(List.range 4).any (fun k => k != index && s.keyUsable k) then some 5
    else none
  else if op = 3 then (if svn > s.boot.fwSvn ∨ svn < s.svnMin then some 6 else none)
  else if index > 1 then some 7
  else if s.boot.vendorKey = index then some 8
  else none

/-- The 1,312 bytes of SEC_ENROLL_KEY. -/
def State.enrollKey (s : State) : List Byte :=
  (List.range 328).flatMap (fun w => leBytes 4 (s.getReg (SEC_ENROLL_KEY.at w)).toNat)

/-- GO of SEC_ENROLL_CTL (R512): the operation starts or is refused, and the key registers are cleared. -/
def State.enrollGo (s : State) (port : Nat) : State :=
  let op := s.fld SEC_ENROLL_CTL 0 SEC_ENROLL_CTL_OP
  let index := s.fld SEC_ENROLL_CTL 0 SEC_ENROLL_CTL_INDEX
  let svn := s.fld SEC_ENROLL_CTL 0 SEC_ENROLL_CTL_SVN
  let key := Config.sha3 s.enrollKey
  let s := s.each (List.range 328) (fun w s => s.setReg (SEC_ENROLL_KEY.at w) 0)
  if op = 0 then s
  else
    match s.enrollRefusal port op index svn with
    | some r => s.enrollResult r
    | none => { s with sec := { s.sec with enrollBusy := some (op, index, svn, key) } }

/-- A write of SEC_ENROLL_CTL through a management function (R496, R512): its fields are set, and GO runs OP unless BUSY. -/
def State.enrollCtlWrite (s : State) (port : Nat) (v : Word) : State :=
  let a := SEC_ENROLL_CTL.at 0
  if s.gatedAt a then s.gatedEvent a true
  else
    let s := s.writeByType a v
    if SEC_ENROLL_CTL_GO.get v = 1 ∧ s.sec.enrollBusy.isNone then s.enrollGo port else s

/-- Fuses are blown; a blown fuse cannot be restored (R510). -/
def State.blow (s : State) (fs : List Nat) : State :=
  { s with sec := { s.sec with fuses := s.sec.fuses ++ fs.filter (fun f => !s.sec.fuses.contains f) } }

/-- An owner key is enrolled in a slot (R513). -/
def State.enrol (s : State) (index : Nat) (key : BitVec 256) : State :=
  { s with sec := { s.sec with enrolled := s.sec.enrolled ++ [index],
                               ownerKeys := Tab.set s.sec.ownerKeys index key } }

/-- A key's fuse area is used once more, whether or not the operation succeeds (R513). -/
def State.useArea (s : State) (index : Nat) : State :=
  { s with sec := { s.sec with areasUsed := Tab.set s.sec.areasUsed index (Tab.getD s.sec.areasUsed index 0 + 1) } }

/-- An enrolment operation finishes (R512 to R514): RESULT, the fuses, the event of a success, and the end of a session whose key
is revoked (R503). -/
def State.fuseDone (s : State) (ok : Bool) : State :=
  match s.sec.enrollBusy with
  | none => s
  | some (op, index, svn, key) =>
    let s := { s with sec := { s.sec with enrollBusy := none } }
    let s : State := if op = 1 then s.useArea index else s
    if !ok then s.enrollResult 9
    else
      let s : State :=
        if op = 1 then s.enrol index key
        else if op = 2 then s.blow [2 + index]
        else if op = 3 then s.blow ((List.range svn).map (6 + ·))
        else s.blow [index]
      let s := (s.enrollResult 1).raise 0x104 4 noInst [BitVec.ofNat 8 op, BitVec.ofNat 8 index]
      match s.sec.session with
      | some o => if op = 2 ∧ o.keySlot = index then s.endSession 5 else s
      | none => s

/-- A write of SEC_ENROLL_KEY_w (R496, R512): accepted while the device is unclaimed, then from the session holder. -/
def State.enrollKeyWrite (s : State) (port a : Nat) (v : Word) : State :=
  if s.gatedAt a then s.gatedEvent a true
  else if s.sec.enrolled.isEmpty || s.hasSession (port * 65) then s.setReg a v
  else s

/-! ### Attestation (R521) -/

/-- Bytes 0 to 383 of an attestation report (R521). -/
def State.attestBody (s : State) (c : HostCmd) : List Byte :=
  let flags := b2n (!s.timeSet) + 2 * b2n (s.hasSession c.x) + 4 * s.fld DEV_BOOT 0 DEV_BOOT_FW_FALLBACK +
    8 * s.fld DEV_BOOT 0 DEV_BOOT_IMG_FALLBACK + 16 * b2n s.boot.bare
  let entries := (List.range 130).flatMap (fun x =>
    let e := s.prot x
    withCrc (leBytes 2 x ++ leBytes 2 e.quota ++ leBytes 4 e.admin ++ leBytes 32 e.rights.toNat ++ zeros 20))
  let imgKey := match s.sec.imgKey with
    | some k => Tab.getD s.sec.ownerKeys k 0
    | none => 0
  let imgSeq := match s.boot.image with
    | some i => i.imgSeq
    | none => 0
  padTo 384 (ascii "FZATTEST" ++ leBytes 2 1 ++ leBytes 2 1 ++ leBytes 4 flags ++ leBytes 8 s.devNs ++
    entryBytes c 0 8 32 ++ leBytes 32 s.sec.deviceId.toNat ++ leBytes 32 s.sec.measRom.toNat ++
    leBytes 32 s.sec.measFw.toNat ++ leBytes 32 s.sec.measImg.toNat ++ leBytes 32 imgKey.toNat ++
    leBytes 8 s.boot.fwVersion ++ leBytes 8 imgSeq ++ leBytes 8 s.sec.gen ++ leBytes 8 s.sec.epoch ++
    leBytes 2 ((s.sec.fuses.map (2 ^ ·)).sum) ++ leBytes 1 ((s.sec.enrolled.map (2 ^ ·)).sum) ++ leBytes 1 (fnPort c.x) ++
    zeros 4 ++ (List.range 16).flatMap (fun i => leBytes 4 (s.devCap i).toNat) ++
    leBytes 32 (Config.sha3 entries).toNat)

/-- The checks of ATTEST (R521). -/
def State.attestPre (s : State) (c : HostCmd) : Check :=
  firstFail [
      onEntry0 c, layout c 0 1 ([anyAt 8 32] ++ descAt c 40), descCheck c 40 2804,
      need s.sec.identity stInternalFault]

/-- ATTEST (R520, R521): a signed report of the present state. -/
def State.runAttest (s : State) (id : Nat) (c : HostCmd) : State :=
  s.checked id (s.attestPre c) (fun s =>
    let body := s.attestBody c
    let d := s.draw (fun n => Config.mldsaSign n (ascii "KZATT") body)
    (d.2.toHost id (descOfEntry c 40).addr (body ++ padTo 2420 d.1)).complete id stSuccess (leBytes 4 2804))

end Sys2Proof.Machine
end

