-- ==== Sys2Proof/Machine/QueueCommands.lean ====
section
/-! DEFINITION. Queues made and deleted (R313 to R321), doorbells (R37 to R41, R323, R338), FUNCTION and PORT resets (R345,
R346) and the orphan list (R347, R348, R378). -/

namespace Sys2Proof.Machine

open Sys2Proof

/-! ### Making and deleting queues -/

/-- A submission queue that has read nothing. -/
def Sq.made (log2 base : Nat) (start : Word) (cq weight burst prefetch pollUs : Nat) : Sq :=
  { log2 := log2, base := base, a := start, c := start, cq := cq, weight := weight, burst := burst, prefetch := prefetch,
    pollUs := pollUs, credits := weight, slots := [] }

/-- A completion queue that holds nothing. -/
def Cq.made (log2 base : Nat) (start : Word) (vector : Option Nat) (coalCount coalUs spillLimit : Nat) : Cq :=
  { log2 := log2, base := base, vector := vector, coalCount := coalCount, coalUs := coalUs, spillLimit := spillLimit,
    pc := start, h := start, spill := [], outstanding := 0, closed := false, unsignalled := 0 }

/-- Whether `n` more spill entries can be reserved (R343). -/
def State.spillFree (s : State) (n : Nat) : Bool := s.spillReserved + n ≤ 2097152

/-- The device queue number of a local number, bound to the lowest free one at its first creation (R315); none when QUOTA or
the numbers do not allow it (R316). -/
def State.bindQueue (s : State) (x loc : Nat) : Option (Nat × State) :=
  match s.dqNum x loc with
  | some q => some (q, s)
  | none =>
    let q := Tab.firstFree s.qm.queues
    if s.queuesHeld x ≥ (s.prot x).quota ∨ q ≥ 65536 then none
    else some (q, { s with qm := { s.qm with queues := Tab.set s.qm.queues q ⟨x, loc, none, none⟩ } })

/-- The function step of R356 for commands taken on local queue 0 only (R317). -/
def State.onQueue0 (s : State) (id : Nat) : Check :=
  match s.cmd? id with
  | some c => need (c.loc = 0) stAccessDenied
  | none => none

/-- Whether the submission queue (KIND 1) or completion queue (KIND 0) of a local number exists. -/
def State.queueThere (s : State) (x loc kind : Nat) : Bool :=
  match (s.dqNum x loc).bind s.dq with
  | some d => if kind = 1 then d.sq.isSome else d.cq.isSome
  | none => false

/-- The fields of QUEUE_CREATE (R318, R319). -/
def State.createLayout (s : State) (c : HostCmd) : Check :=
  let kind := entryByte c 0 8
  let size := 2 ^ (if entryByte c 0 9 ≤ 16 then entryByte c 0 9 else 16)
  let vec := entryLe c 0 24 2
  layout c 0 1
    ([⟨8, 1, kind ≤ 1⟩, ⟨9, 1, 4 ≤ entryByte c 0 9 && entryByte c 0 9 ≤ 16⟩,
      ⟨10, 2, entryLe c 0 10 2 ≥ 1 && !s.queueThere c.x (entryLe c 0 10 2) kind⟩, ⟨12, 4, entryLe c 0 12 4 % size = 0⟩,
      ⟨16, 8, entryLe c 0 16 8 % 4096 = 0⟩] ++
      (if kind = 1 then
        [anyAt 24 2, ⟨26, 1, entryByte c 0 26 ≥ 1⟩, ⟨27, 1, 1 ≤ entryByte c 0 27 && entryByte c 0 27 ≤ 64⟩,
         ⟨28, 1, entryByte c 0 28 ≤ 64⟩, ⟨30, 2, entryLe c 0 30 2 ≤ 511⟩]
       else
        [⟨24, 2, vec = 0xFFFF || vec < s.vectorsOf c.x⟩, ⟨26, 1, entryByte c 0 26 ≥ 1⟩, ⟨28, 2, entryLe c 0 28 2 ≤ 1023⟩,
         ⟨32, 4, entryLe c 0 32 4 ≤ 65536⟩]))

/-- The device queue number of the completion queue a new submission queue names. -/
def State.fedQueue (s : State) (c : HostCmd) : Option Nat :=
  if s.queueThere c.x (entryLe c 0 24 2) 0 then s.dqNum c.x (entryLe c 0 24 2) else none

/-- Put the queue a QUEUE_CREATE describes at a device queue number. -/
def State.makeQueue (s : State) (c : HostCmd) (q : Nat) : State :=
  let log2 := entryByte c 0 9
  let base := entryLe c 0 16 8
  let start := BitVec.ofNat 32 (entryLe c 0 12 4)
  s.modDq q (fun d =>
    if entryByte c 0 8 = 1 then
      { d with sq := some (Sq.made log2 base start ((s.fedQueue c).getD 0) (entryByte c 0 26) (entryByte c 0 27)
                             (entryByte c 0 28) (entryLe c 0 30 2)) }
    else
      let v := entryLe c 0 24 2
      { d with cq := some (Cq.made log2 base start (if v = 0xFFFF then none else some v) (entryByte c 0 26)
                             (entryLe c 0 28 2) (entryLe c 0 32 4)) })

/-- The checks of QUEUE_CREATE (R315 to R319). -/
def State.queueCreatePre (s : State) (id : Nat) (c : HostCmd) : Check :=
  firstFail [
    s.onQueue0 id,
    s.createLayout c,
    need (entryByte c 0 8 = 0 || (s.fedQueue c).isSome) stNoQueue,
    need ((s.bindQueue c.x (entryLe c 0 10 2)).isSome) stQuotaExceeded,
    need (entryByte c 0 8 = 1 || s.spillFree (entryLe c 0 32 4)) stNoSpill]

/-- QUEUE_CREATE (R315 to R319). -/
def State.runQueueCreate (s : State) (id : Nat) (c : HostCmd) : State :=
  s.checked id (s.queueCreatePre id c) (fun s =>
      match s.bindQueue c.x (entryLe c 0 10 2) with
      | some (q, s) => (s.makeQueue c q).complete id stSuccess (leBytes 2 q)
      | none => s.complete id stQuotaExceeded)

/-- Whether some submission queue feeds a completion queue. -/
def State.fed (s : State) (q : Nat) : Bool :=
  s.qm.queues.any (fun e => match e.2.sq with
    | some a => a.cq = q
    | none => false)

/-- The checks of QUEUE_DELETE (R320). -/
def State.queueDeletePre (s : State) (id : Nat) (c : HostCmd) : Check :=
  firstFail [
    s.onQueue0 id,
    layout c 0 1 [⟨8, 1, entryByte c 0 8 ≤ 1⟩, ⟨10, 2, entryLe c 0 10 2 ≥ 1⟩],
    need (s.queueThere c.x (entryLe c 0 10 2) (entryByte c 0 8)) stNoQueue]

/-- QUEUE_DELETE (R320). -/
def State.runQueueDelete (s : State) (id : Nat) (c : HostCmd) : State :=
  let kind := entryByte c 0 8
  let loc := entryLe c 0 10 2
  s.checked id (s.queueDeletePre id c) (fun s =>
      match s.dqNum c.x loc with
      | some q =>
        if kind = 1 then
          let s := s.setBody id (.queueDelete q)
          (State.settle s.qm.cmds.length s).settleCtlq
        else if s.fed q then s.complete id stQueueInUse
        else (s.dropCq q).complete id stSuccess
      | none => s.complete id stNoQueue)

/-! ### The control queue (R313, R314, R321) -/

/-- The fields of KQ_CTLQ in a written word: SQ_LOG2, CQ_LOG2 and VECTOR. -/
def ctlqFields (v : Word) : Nat × Nat × Nat := (bits v.toNat 8 5, bits v.toNat 16 5, bits v.toNat 21 11)

/-- A write of KQ_CTLQ with EN = 1 (R313, R314, R316): local queue 0 is made, or EN stays 0 and the write is counted. -/
def State.enableCtlq (s : State) (x : Nat) (v : Word) : State :=
  let f := s.fn x
  if !f.present ∨ f.ctlq.toNat % 2 = 1 then s
  else
    let g := ctlqFields v
    let stored := v &&& 0xFFFF1F00#32
    let failed := (s.setFn x { f with ctlq := stored }).fnError x
    let sizes := 4 ≤ g.1 && g.1 ≤ 16 && 4 ≤ g.2.1 && g.2.1 ≤ 16
    if !sizes || g.2.2 ≥ s.vectorsOf x || !s.spillFree 64 || (s.dqNum x 0).isSome then failed
    else
      match s.bindQueue x 0 with
      | none => failed
      | some (q, s) =>
        let s := s.modDq q (fun d =>
          { d with sq := some (Sq.made g.1 f.sqBase 0 q 1 1 0 0), cq := some (Cq.made g.2.1 f.cqBase 0 (some g.2.2) 1 0 64) })
        s.setFn x { f with ctlq := stored ||| 1 }

/-- A write of KQ_CTLQ with EN = 0 (R321): ignored and counted while another local number is held, else local queue 0 is
deleted once its consumed commands have completed (R320). -/
def State.disableCtlq (s : State) (x : Nat) : State :=
  let f := s.fn x
  if s.qm.queues.any (fun e => e.2.x = x && e.2.loc != 0) then s.fnError x
  else if f.ctlq.toNat % 2 = 1 then
    (s.setFn x { f with ctlq := f.ctlq &&& 0xFFFFFFFE#32, closing := true }).settleCtlq
  else s

/-! ### Doorbells (R37 to R41, R323, R338) -/

/-- A doorbell write to a local number that is not bound (R41): counted, with one event after each read of the counter. -/
def State.strayDoorbell (s : State) (x n : Nat) : State :=
  let s := s.fnError x
  let f := s.fn x
  if f.strayArmed then (s.setFn x { f with strayArmed := false }).raise 0x401 2 x (leBytes 4 n) else s

/-- A write of DB_SQ_TAIL_n (R323, R41). -/
def State.sqTail (s : State) (x n : Nat) (t : Word) : State :=
  match s.dqNum x n with
  | none => s.strayDoorbell x n
  | some q =>
    match s.sq? q with
    | some a =>
      if idxSub t a.c ≤ a.size then
        s.modSq q (fun a => if idxSub t a.c ≥ idxSub a.a a.c then { a with a := t } else a)
      else s.fnError x
    | none => s.fnError x

/-- A write of DB_CQ_HEAD_n (R338 to R340, R344, R41). -/
def State.cqHead (s : State) (x n : Nat) (t : Word) : State :=
  match s.dqNum x n with
  | none => s.strayDoorbell x n
  | some q =>
    match s.cq? q with
    | some c =>
      if idxSub t c.h ≤ c.inRing then
        let s := s.modCq q (fun c => { c with h := t })
        let s := (State.cqRefill c.spill.length s q).breakwaterOpen q
        match s.cq? q with
        | some c => if c.inRing > 0 then s.cqSignal q else s
        | none => s
      else s.fnError x
    | none => s.fnError x

/-! ### The orphan list (R347, R348) -/

/-- Capacity of the orphan list. -/
def orphanCapacity : Nat := 262144

/-- The 64 bytes of an orphan record. -/
def Orphan.bytes (o : Orphan) : List Byte :=
  withCrc (padTo 16 o.locator ++ leBytes 32 o.tag.toNat ++ leBytes 8 o.seq ++ leBytes 4 (b2n o.copied))

/-- The orphan record of an extent, when its directory entry lives. -/
def State.orphanFor (s : State) (x : Nat) (copied : Bool) (loc : List Byte) : Option Orphan :=
  let l := locatorOf loc
  match s.stripe? l.pool l.stripe with
  | some t =>
    match t.find l.off l.len with
    | some (slot, e) =>
      if entryLive e then
        some { x := x, pool := l.pool, seq := e.seq, stripe := l.stripe, slot := slot, locator := loc, tag := e.tag,
               copied := copied }
      else none
    | none => none
  | none => none

/-- Keep an extent as an orphan, or cancel it when the list is full (R347): VOID while its stripe is OPEN, released after. -/
def State.keepOrphan (s : State) (o : Option Orphan) : State :=
  match o with
  | none => s
  | some o =>
    if s.qm.orphans.length < orphanCapacity then { s with qm := { s.qm with orphans := s.qm.orphans ++ [o] } }
    else
      let s := s.bump QM_ORPHAN_DROP 0 QM_ORPHAN_DROP_COUNT
      match s.stripe? o.pool o.stripe with
      | some t => if t.state = .opened then s.voidEntry o.pool o.stripe o.slot else (s.releaseItem (locatorOf o.locator) o.tag).2
      | none => s

/-! ### FUNCTION and PORT reset (R345, R346) -/

/-- Remove a consumed command without a completion. -/
def State.dropCmd (s : State) (id : Nat) : State := { s with qm := { s.qm with cmds := Tab.erase s.qm.cmds id } }

/-- A command goes on without a completion. -/
def State.silence (s : State) (id : Nat) : State :=
  { s with qm := { s.qm with cmds := Tab.modify s.qm.cmds id (fun c => { c with silent := true }) } }

/-- The outcome of one consumed command at a FUNCTION reset (R345). -/
def State.resetCmd (s : State) (id : Nat) : State :=
  match s.cmd? id with
  | none => s
  | some c =>
    match c.body with
    | .append a =>
      let s := s.silence id
      match a.placed with
      | some (n, _) =>
        if a.whole then
          let o := s.orphanFor c.x a.parent.isSome (locatorBytes a.pool n a.off a.len)
          let cut := s.qm.orphans.length ≥ orphanCapacity && (match s.stripe? a.pool n with
            | some t => t.state = .opened
            | none => false)
          let s := s.keepOrphan o
          if cut then s.dropCmd id else s
        else s.failAppend id stInternalFault
      | none => s.failAppend id stInternalFault
    | .copy _ _ items =>
      (s.dropCmd id).each (items.filter (fun i => i.status = some stSuccess)) (fun i s =>
        s.keepOrphan (s.orphanFor c.x true i.locator))
    | .serial h _ => if deviceWide (entryOpcode h) then s.dropCmd id else s.silence id
    | .running | .read _ | .sealWait _ _ | .flush _ _ | .queueDelete _ | .protectSet _ _ => s.dropCmd id
    | .protectCommit _ | .evClear _ | .deviceMode _ _ | .stageCommit _ _ | .poolCreate _ _ | .poolGrow _ _
    | .poolDelete _ | .poolGive _ | .scarfStart _ | .scarfCommit _ | .scarfAbort _ | .driveLabel _ _ => s.silence id

/-- APPENDs whose completions wait in the spill lists of a function become orphans (R345). -/
def State.spillOrphans (s : State) (x : Nat) : State :=
  let es := (s.qm.queues.filter (fun e => e.2.x = x)).flatMap (fun e => match e.2.cq with
    | some c => c.spill
    | none => [])
  s.each (es.filter (fun e => e.op = 1 && e.status = stSuccess)) (fun e s =>
    s.keepOrphan (s.orphanFor x false e.result))

/-- A FUNCTION reset of one function (R345). `cause` is that of the session's end (R503). -/
def State.resetFn (s : State) (x cause : Nat) : State :=
  let ids := (s.qm.cmds.filter (fun e => e.2.x = x && !e.2.silent)).map (·.1)
  let s := (s.each ids (fun id s => s.resetCmd id)).spillOrphans x
  let s := { s with qm := { s.qm with queues := s.qm.queues.filter (fun e => e.2.x != x) } }
  let f := s.fn x
  let s := s.setFn x { f with bme := false, ctlq := 0, closing := false, msixOn := false, unmasked := [], pendingVec := [] }
  s.endSessionOn x cause

/-- The virtual functions of a PF entry (R309). -/
def State.vfsOf (s : State) (x : Nat) : List Nat :=
  let b := 65 * fnPort x
  if fnEntry x = 1 then (if s.split (fnPort x) then (List.range 31).map (b + 2 + ·) else (List.range 63).map (b + 2 + ·))
  else if fnEntry x = 33 && s.split (fnPort x) then (List.range 31).map (b + 34 + ·)
  else []

/-- An FLR, of a PF with all of its virtual functions, or a clear of VF Enable, which takes the virtual functions away
(R345). -/
def State.resetFunction (s : State) (x : Nat) (cause : FnResetCause) : State :=
  let vfs := s.vfsOf x
  match cause with
  | .flr => s.each (x :: vfs) (fun y s => s.resetFn y 2)
  | .vfEnableClear =>
    s.each (if vfs.isEmpty then [x] else vfs) (fun y s =>
      let s := s.resetFn y 2
      s.setFn y { s.fn y with present := false })

/-- The functions of a port's link (R309): of the whole port when it is not split. -/
def State.linkFns (s : State) (port link : Nat) : List Nat :=
  let b := 65 * port
  if !s.split port then (List.range 65).map (b + ·)
  else if link = 0 then (List.range 33).map (b + ·)
  else (List.range 32).map (b + 33 + ·)

/-- A host link is down: QM_PORT_n shows it, and its functions are gone (R310). -/
def State.linkGone (s : State) (port link : Nat) : State :=
  let s : State := if link = 0 ∨ !s.split port then
      (((s.setFld QM_PORT port QM_PORT_UP0 0).setFld QM_PORT port QM_PORT_FLIT0 0).setFld QM_PORT port QM_PORT_RATE0 0).setFld
        QM_PORT port QM_PORT_WIDTH0 0
    else
      (((s.setFld QM_PORT port QM_PORT_UP1 0).setFld QM_PORT port QM_PORT_FLIT1 0).setFld QM_PORT port QM_PORT_RATE1 0).setFld
        QM_PORT port QM_PORT_WIDTH1 0
  s.each (s.linkFns port link) (fun x s => s.setFn x { s.fn x with present := false })

/-- A PORT reset (R346). -/
def State.resetPort (s : State) (port link : Nat) : State :=
  (s.each (s.linkFns port link) (fun x s => s.resetFn x 3)).linkGone port link

/-- A host link finishes training (R310): QM_PORT_n reports it and its functions are present. -/
def State.linkTrained (s : State) (port link rate width : Nat) (flit : Bool) : State :=
  let s : State := if link = 0 ∨ !s.split port then
      (((s.setFld QM_PORT port QM_PORT_UP0 1).setFld QM_PORT port QM_PORT_FLIT0 (b2n flit)).setFld
        QM_PORT port QM_PORT_RATE0 rate).setFld QM_PORT port QM_PORT_WIDTH0 width
    else
      (((s.setFld QM_PORT port QM_PORT_UP1 1).setFld QM_PORT port QM_PORT_FLIT1 (b2n flit)).setFld
        QM_PORT port QM_PORT_RATE1 rate).setFld QM_PORT port QM_PORT_WIDTH1 width
  s.each (s.linkFns port link) (fun x s => s.setFn x { s.fn x with present := true })

/-! ### ORPHAN_LIST and ORPHAN_SETTLE (R378) -/

/-- The function an orphan command names, or why it names none. -/
def orphanTarget (c : HostCmd) : Nat :=
  if entryByte c 0 8 = 0xFF then c.x else 65 * entryByte c 0 8 + entryByte c 0 9

/-- The function fields of an orphan command and the session they need (R378). -/
def orphanNames (c : HostCmd) : Bool :=
  (entryByte c 0 8 = 0xFF && entryByte c 0 9 = 0xFF) ||
    (fnEntry c.x = 0 && entryByte c 0 8 ≤ 1 && entryByte c 0 9 ≤ 64)

/-- Naming another function needs an owner session (R378). -/
def State.orphanPriv (s : State) (c : HostCmd) : Check :=
  if orphanTarget c = c.x then none else s.ownerPriv c

/-- Records of a function in rising pool and append sequence. -/
def State.orphansOf (s : State) (x : Nat) : List Orphan :=
  sortBy (fun a b => a.pool < b.pool || (a.pool = b.pool && a.seq ≤ b.seq)) (s.qm.orphans.filter (fun o => o.x = x))

/-- The checks of ORPHAN_LIST (R378). -/
def State.orphanListPre (s : State) (id : Nat) (c : HostCmd) : Check :=
  let cap := entryLe c 0 12 4
  firstFail [
    s.onQueue0 id,
    layout c 0 1 ([⟨8, 2, orphanNames c⟩, ⟨12, 4, 1 ≤ cap && cap ≤ 4096⟩, anyAt 16 2, anyAt 24 8] ++ descAt c 32),
    descCheck c 32 (64 * cap),
    s.orphanPriv c]

/-- ORPHAN_LIST (R378). -/
def State.runOrphanList (s : State) (id : Nat) (c : HostCmd) : State :=
  let cap := entryLe c 0 12 4
  s.checked id (s.orphanListPre id c) (fun s =>
      let p := entryLe c 0 16 2
      let q := entryLe c 0 24 8
      let l := (s.orphansOf (orphanTarget c)).filter (fun o => p < o.pool || (p = o.pool && q ≤ o.seq))
      let out := l.take cap
      let next : Nat × Nat := match (l.drop cap).head? with
        | some o => (o.pool, o.seq)
        | none => (0xFFFF, 0)
      (s.toHost id (descOfEntry c 32).addr (out.flatMap Orphan.bytes)).complete id stSuccess
        (leBytes 4 out.length ++ leBytes 2 next.1 ++ zeros 2 ++ leBytes 8 next.2))

/-- Remove an orphan record. -/
def State.dropOrphan (s : State) (o : Orphan) : State := { s with qm := { s.qm with orphans := s.qm.orphans.erase o } }

/-- Settle one item (R348, R378): 0 settled, 1 not found, 2 refused. -/
def State.settleOrphan (s : State) (x : Nat) (release : Bool) (pool seq : Nat) : Nat × State :=
  match s.qm.orphans.find? (fun o => o.x = x && o.pool = pool && o.seq = seq) with
  | none => (1, s)
  | some o =>
    if !release then (0, s.dropOrphan o)
    else if !s.hasRight x pool .release then (2, s)
    else (0, ((s.dropOrphan o).releaseItem (locatorOf o.locator) o.tag).2)

/-- The items of ORPHAN_SETTLE. -/
def settleItems (c : HostCmd) : List (Nat × Nat) :=
  (List.range (entryLe c 0 12 4)).map (fun i =>
    let b := slice (c.read.data.getD []) (16 * i) 16
    (leAt b 0 2, leAt b 8 8))

/-- Whether a reserved byte of the items is not 0 (R351). -/
def settleReserved (c : HostCmd) : Bool :=
  (List.range (entryLe c 0 12 4)).any (fun i => (slice (c.read.data.getD []) (16 * i + 2) 6).any (· ≠ 0))

/-- Items of a release that would need a pending release record. -/
def State.settlePends (s : State) (x : Nat) (items : List (Nat × Nat)) : Nat :=
  items.countP (fun i => match s.qm.orphans.find? (fun o => o.x = x && o.pool = i.1 && o.seq = i.2) with
    | some o => s.hasRight x i.1 .release && s.itemPends (locatorOf o.locator)
    | none => false)

/-- The checks of ORPHAN_SETTLE (R348, R378). -/
def State.orphanSettlePre (s : State) (id : Nat) (c : HostCmd) : Check :=
  let n := entryLe c 0 12 4
  firstFail [
    s.onQueue0 id,
    layout c 0 1 ([⟨8, 2, orphanNames c⟩, ⟨10, 1, entryByte c 0 10 ≤ 1⟩, ⟨12, 4, 1 ≤ n && n ≤ 4096⟩] ++ descAt c 16),
    descCheck c 16 (16 * n),
    need c.read.data.isSome stHostAccessError,
    if settleReserved c then some (stMalformed, 0xFFFF) else none,
    s.orphanPriv c,
    need (entryByte c 0 10 ≠ 1 || s.se.pending.length + s.settlePends (orphanTarget c) (settleItems c) ≤ releaseCapacity) stReleaseFull]

/-- ORPHAN_SETTLE (R348, R378). -/
def State.runOrphanSettle (s : State) (id : Nat) (c : HostCmd) : State :=
  let x := orphanTarget c
  let rel := decide (entryByte c 0 10 = 1)
  s.checked id (s.orphanSettlePre id c) (fun s =>
      let run := (settleItems c).foldl (fun (acc : List Nat × State) i =>
        let r := acc.2.settleOrphan x rel i.1 i.2
        (acc.1 ++ [r.1], r.2)) ([], s)
      let cnt := fun (k : Nat) => leBytes 4 (run.1.countP (· = k))
      run.2.complete id stSuccess (cnt 0 ++ cnt 1 ++ cnt 2))

end Sys2Proof.Machine
end

