-- ==== Sys2Proof/Machine/Drives.lean ====
section
/-! DEFINITION. Drive links, slots and the spin budget (chapter 12), the loss of links and members (R205 to R208), and the
reading of labels (R284, R487, R627). -/

namespace Sys2Proof.Machine

open Sys2Proof

/-! ### Slots and chains -/

/-- A slot nothing is known of. -/
def Slot.blank : Slot :=
  { present := false, pwrEn := false, pwrGood := false, pwrDis := false, powerFault := false, linkUp := false, rate := 0,
    sata := false, known := false, cond := .off, zoned := false, flash := false, single := false, noPr := false,
    unsupported := false, linkFail := false, locate := false, attempts := 0, inS := false, cls := 4,
    standbyIssued := false, wakeAfter := none }

/-- The state with a slot set. -/
def State.setSlot (s : State) (n : Nat) (x : Slot) : State := { s with dl := { s.dl with slots := Tab.set s.dl.slots n x } }

/-- Whether a chain runs in extended mode: the mode of the enclosure entry of its number (R404, R405). -/
def State.extended (s : State) (chain : Nat) : Bool :=
  match s.boot.image.bind (fun i => Tab.get? i.enclosures chain) with
  | some e => e.extended
  | none => false

/-- A slot chain. -/
def State.chain (s : State) (c : Nat) : Chain := Tab.getD s.dl.chains c ⟨false, 0, 0⟩

/-- Whether the chain of a slot has FAULT set (R407). -/
def State.chainFault (s : State) (n : Nat) : Bool := (s.chain (n / 32)).fault

/-- The spin profile of a slot (R415): that of its entry once its drive is known, else the default. -/
def State.profile (s : State) (n : Nat) : Profile :=
  let known := match s.slot? n with
    | some x => x.known
    | none => false
  let k := match known, s.slotCfg n with
    | true, some c => c.profile
    | _, _ => 0
  match s.boot.image.bind (fun i => Tab.get? i.profiles k) with
  | some p => p
  | none => if k = 1 then ⟨12, 10, 5⟩ else ⟨25, 150, 8⟩

/-- Gate the domain of a lane group when all eight of its slots are OFF, ungate it otherwise (R403). -/
def State.laneDomain (s : State) (n : Nat) : State :=
  let g := n / 8
  let off := (List.range 8).all (fun i => match s.slot? (8 * g + i) with
    | some x => x.cond = .off
    | none => true)
  if off then s.setDomain g 2 else if s.domain g = 2 then s.setDomain g 0 else s

/-! ### What a drive is doing -/

/-- Whether commands are outstanding to the drive of a slot (R399, R410). -/
def State.driveBusy (s : State) (n : Nat) : Bool :=
  s.qm.cmds.any (fun e => match e.2.body with
    | .read r => r.chunks.any (fun c => c.slot = n && !c.lost && c.got.isNone && !c.asleep)
    | _ => false) ||
  s.se.stripes.any (fun e => e.2.state = .sealed && e.2.coded && (match s.set? e.2.set with
    | some x => x.bandOpenLogged && (match x.members.idxOf? n with
      | some q => !e.2.acked.contains q
      | none => false)
    | none => false)) ||
  s.se.passes.any (fun e => (e.2.issued ++ e.2.writing).any (fun q => s.posSlot e.1 q = n)) ||
  s.se.reclaims.any (fun e => e.1 / 2 ^ 32 = n) ||
  (match s.drive? n with
   | some d => d.labelWant.isSome
   | none => false) ||
  s.se.pools.any (fun e => (e.2.ckpt.isSome && e.2.sill.contains n) ||
    (!e.2.jBlock.isEmpty && e.2.journal.contains n && !e.2.jWritten.contains n))

/-- Whether a drive is pinned (R413). -/
def State.pinned (s : State) (n : Nat) : Bool :=
  s.se.pools.any (fun e => e.2.state != .partner &&
    (e.2.journal.contains n || (e.2.ckpt.isSome && e.2.sill.contains n) ||
      (match e.2.tideWake.bind s.set? with
       | some x => x.members.contains n
       | none => false))) ||
  s.se.stripes.any (fun e => (e.2.state = .opened || e.2.state = .sealed) && (s.membersOf e.2.set).contains n) ||
  s.se.sets.any (fun e => e.2.substitutes.contains n || (e.2.passRunning && e.2.members.contains n)) ||
  (s.se.pendingHigh && s.se.pending.any (fun r => match s.stripe? r.pool r.stripe, s.pool? r.pool with
    | some t, some x =>
      let q := x.paramsOf t.gen
      (s.membersOf t.set)[chunkPos r.stripe (q.k - 1) q.w]? = some n
    | _, _ => false))

/-- Send standby commands to the awake drives of some slots that may sleep (R400, R402, R413). -/
def State.sendStandby (s : State) (slots : List Nat) : State :=
  s.each (slots.filter (fun n => s.awake n && !s.pinned n && !s.driveBusy n)) (fun n s =>
    match s.slot? n with
    | some x =>
      if x.flash || x.standbyIssued then s
      else (s.driveOut n 6 0 0).modSlot n (fun x => { x with standbyIssued := true })
    | none => s)

/-- Slots of a wake group. -/
def State.groupSlots (s : State) (g : Nat) : List Nat := (Tab.keys s.dl.slots).filter (fun n => s.wakeGroup n = g)

/-- WAKE_GROUP_IDLE_EXPIRY (R413): the whole group sleeps, or none of it. -/
def State.groupIdle (s : State) (g : Nat) : State :=
  let up := (s.groupSlots g).filter s.awake
  if up.any (fun n => s.pinned n || s.driveBusy n) then s else s.sendStandby up

/-- STANDBY_COMPLETE (R414): a wake that waited is queued. -/
def State.standbyDone (s : State) (g : Nat) : State :=
  let due := (s.groupSlots g).filter (fun n => match s.slot? n with
    | some x => x.standbyIssued
    | none => false)
  let waits := due.filterMap (fun n => (s.slot? n).bind (fun x => x.wakeAfter.map (fun c => (n, c))))
  let s := s.each due (fun n s => s.modSlot n (fun x => { x with standbyIssued := false, wakeAfter := none, cond := .standby }))
  s.each waits (fun e s => s.wake [e.1] e.2)

/-! ### Lost links and members (R205 to R207) -/

/-- The chunk reads a READ has out that can no longer come back are planned again (R206). -/
def State.readsReplan (s : State) : State :=
  s.each (Tab.keys s.qm.cmds) (fun id s =>
    match s.read? id with
    | some r =>
      let gone := fun (c : ChunkRead) => !c.lost && c.got.isNone && c.pos != replyPos && !s.posReadable r c.pos
      if r.chunks.any gone then
        (State.issueRead (s.setRead id { r with chunks := r.chunks.filter (fun c => !gone c) }) id).readReady id
      else s
    | none => s)

/-- The link of a slot is lost (R205, R206): a member is LINK_DOWN, and the passes of its sets end as their margin falls
(R216). -/
def State.linkLost (s : State) (n : Nat) : State :=
  let s := s.modSlot n (fun x => { x with linkUp := false, rate := 0, inS := false, standbyIssued := false, wakeAfter := none })
  let s := { s with dl := { s.dl with evaluate := true } }
  match s.memberPool n with
  | some _ =>
    let s := s.modDrive n (fun d => { d with linkDown := true })
    s.each ((s.setsWith n).map (·.1)) (fun i s => s.endPass i)
  | none => s

/-- Sets R207 held go on when no more than m positions are out of reach. -/
def State.unhold (s : State) : State :=
  s.each (s.se.sets.filter (fun e => e.2.held)) (fun e s =>
    let out := (List.range e.2.members.length).countP (fun q => s.posFailed e.2 q || s.posDown e.2 q)
    if out ≤ e.2.m then s.modSet e.1 (fun x => { x with held := false }) else s)

/-- The held chunk writes of a member's sets go out (R206). -/
def State.releaseWrites (s : State) (n : Nat) : State :=
  s.each (s.se.stripes.filter (fun e => e.2.state = .sealed && (s.membersOf e.2.set).contains n)) (fun e s =>
    s.issueWrites (keyPool e.1) (keyStripe e.1))

/-- A member's link is back (R206). -/
def State.linkRestored (s : State) (n : Nat) : State :=
  match s.drive? n with
  | some d =>
    if d.linkDown then
      let s := (s.modDrive n (fun d => { d with linkDown := false })).unhold
      (s.releaseWrites n).issuePasses
    else s
  | none => s

/-- The link-loss grace ends (R207): the member fails, or it is held when a set would have more than m positions out of
reach. -/
def State.graceOver (s : State) (n : Nat) : State :=
  match s.drive? n with
  | some d =>
    if d.linkDown && (s.memberPool n).isSome then
      let there : Bool := match s.slot? n with
        | some x => x.present
        | none => false
      if s.failExceeds n then
        let s := s.each ((s.setsWith n).map (·.1)) (fun i s => s.modSet i (fun x =>
          let out := (List.range x.members.length).countP (fun q => s.posFailed x q || s.posDown x q)
          if out > x.m then { x with held := true } else x))
        s.raise 0x603 6 d.pool (leBytes 2 n)
      else s.failMember n (if there then 4 else 8)
    else s
  | none => s

/-- A drive completes a command without a hardware error: timeouts and hardware errors are no longer consecutive (R205). -/
def State.driveGood (s : State) (n : Nat) : State := s.modDrive n (fun d => { d with timeouts := 0, hwErrors := 0 })

/-- What a completed command's sense data says of the drive (R205): hardware errors count over consecutive commands, a failure
prediction makes a member SUSPECT. -/
def State.driveSense (s : State) (n : Nat) (sense : Option DriveSense) : State :=
  match sense with
  | some .hardware =>
    (match s.drive? n with
     | some d =>
       let c := d.hwErrors + 1
       let s := s.modDrive n (fun d => { d with timeouts := 0, hwErrors := c })
       if (s.memberPool n).isSome ∧ c ≥ s.threshold 6 then s.failMember n 7 else s
     | none => s)
  | some .prediction =>
    let s := s.driveGood n
    if (s.memberPool n).isSome then s.suspectMember n 6 else s
  | none => s.driveGood n

/-- DRIVE_COMMAND_TIMEOUT (R205). -/
def State.commandTimeout (s : State) (n : Nat) : State :=
  let s := s.bump DL_SLOT_CMDERR n DL_SLOT_CMDERR_TIMEOUTS
  match s.drive? n with
  | some d =>
    let c := d.timeouts + 1
    (s.modDrive n (fun d => { d with timeouts := c })).judge n c (s.threshold 4) (s.threshold 5) 3
  | none => s

/-! ### Bands that go bad (R66, R389) -/

/-- A band of a member becomes BAD (R66): the set's open band there closes at its last fully written stripe, and stripes
sealed for it but not written move to a new band. -/
def State.bandBad (s : State) (n b : Nat) : State :=
  match Tab.get? s.se.bands (bandKey n b) with
  | none => s.setBand n b .bad 0
  | some v =>
    let i := v.2
    let s := s.setBand n b .bad i
    match s.set? i, s.setParams i with
    | some x, some q =>
      let wasOpen := x.openBand = some b
      let s : State := if wasOpen then
          let s := s.each x.members (fun m s => if s.band m b q.bandMiB = (.opened, i) then s.setBand m b .full i else s)
          s.modSet i (fun x => { x with openBand := none, openFill := 0, fill := 0 })
        else s
      let moves := s.se.stripes.filter (fun e => e.2.set = i && e.2.state = .sealed && e.2.chunkOffset / q.bandUnits = b)
      let s := s.each moves (fun e s => s.moveSealed (keyPool e.1) (keyStripe e.1))
      let again := s.se.stripes.filter (fun e => match e.2.newPlace with
        | some (j, o) => j = i && o / q.bandUnits = b
        | none => false)
      let s := s.each again (fun e s =>
        match s.takeOffset i q with
        | some (off, s) =>
          let p := keyPool e.1
          let k := keyStripe e.1
          let s := s.modStripe p k (fun t => { t with newPlace := some (i, off), acked := [] })
          s.each x.members (fun m s => s.driveOut m 1 e.1 off)
        | none => s.modStripe (keyPool e.1) (keyStripe e.1) (fun t => { t with newPlace := none, acked := [], relocating := false }))
      s.drainIfDead i b
    | _, _ => s

/-- DRIVE_WRITE_FAILED (R66, R205, R397): a write to a chunk failed for good, or was refused by a reservation. -/
def State.writeFailed (s : State) (p n q : Nat) (conflict : Bool) (sense : Option DriveSense) : State :=
  match s.stripe? p n with
  | none => s
  | some t =>
    let place := match t.newPlace with
      | some v => v
      | none => (t.set, t.chunkOffset)
    match s.set? place.1, s.setParams place.1 with
    | some x, some pr =>
      match x.members[q]? with
      | some d =>
        let s : State :=
          if conflict then
            (s.modPool p (fun x => { x with writesStopped := true })).raise 0xE03 6 p (leBytes 2 d)
          else if pr.bandUnits = 0 then s
          else (s.bandBad d (place.2 / pr.bandUnits)).badBandCount d
        s.driveSense d sense
      | none => s
    | _, _ => s

/-- ZONE_OFFLINE (R389): the band is BAD; chunks of an OFFLINE zone are lost, those of a READ ONLY zone stay readable and the
member moves to SUSPECT. -/
def State.zoneGone (s : State) (n b : Nat) (readOnly : Bool) : State :=
  let i := match Tab.get? s.se.bands (bandKey n b) with
    | some v => v.2
    | none => 0
  let held := (Tab.get? s.se.bands (bandKey n b)).isSome
  let s := s.bandBad n b
  if readOnly then s.suspectMember n 0
  else
    match held, s.set? i, s.setParams i with
    | true, some x, some q =>
      match x.members.idxOf? n with
      | some pos =>
        s.each (s.se.stripes.filter (fun e => e.2.set = i && e.2.chunkOffset / q.bandUnits = b && e.2.state = .written))
          (fun e s => s.chunkBad (keyPool e.1) (keyStripe e.1) pos 0)
      | none => s
    | _, _, _ => s

/-! ### Presence and power (R404 to R409) -/

/-- Slot power is lost or removed. -/
def Slot.unpowered (x : Slot) : Slot :=
  { x with pwrEn := false, pwrGood := false, pwrDis := false, cond := .off, inS := false, standbyIssued := false,
           wakeAfter := none }

/-- POWER_FAULT of a slot (R408): for a member a loss of link. -/
def State.powerFault (s : State) (n : Nat) : State :=
  match s.slot? n with
  | some x =>
    if x.pwrEn then
      let s := (s.setSlot n { x.unpowered with powerFault := true }).driveOut n 8 0 0
      (s.linkLost n).laneDomain n
    else s
  | none => s

/-- PWR_GOOD_TIMEOUT (R408). -/
def State.powerTimeout (s : State) (n : Nat) : State :=
  match s.slot? n with
  | some x => if x.pwrEn && !x.pwrGood && s.extended (n / 32) && !s.chainFault n then s.powerFault n else s
  | none => s

/-- A drive of a slot leaves the queue of the spin scheduler. -/
def State.unqueue (s : State) (n : Nat) : State := { s with dl := { s.dl with queue := s.dl.queue.filter (fun q => q.slot != n) } }

/-- PRESENCE_CHANGE (R409). Insertion powers an extended slot through spin admission; on a standard chain the slot counts as
powered (R404). Removal is a loss of link for a member. -/
def State.presence (s : State) (n : Nat) (here : Bool) : State :=
  let x := (s.slot? n).getD Slot.blank
  if n ≥ s.slotCount ∨ s.chainFault n ∨ x.present = here then s
  else if here then
    if s.extended (n / 32) then
      let s := s.setSlot n { Slot.blank with present := true, locate := x.locate }
      { s with dl := { s.dl with queue := s.dl.queue ++ [{ slot := n, cls := 4 }], evaluate := true } }
    else s.setSlot n { Slot.blank with present := true, locate := x.locate, pwrGood := true, cond := .held }
  else
    let s := (s.setSlot n { Slot.blank with linkUp := x.linkUp, locate := x.locate }).unqueue n
    let s : State := if x.pwrEn then s.driveOut n 8 0 0 else s
    let s := (s.linkLost n).laneDomain n
    match s.drive? n with
    | some d =>
      if d.state = .candidate ∨ d.state = .spare ∨ d.state = .foreign then
        { s with se := { s.se with drives := Tab.erase s.se.drives n } }
      else s
    | none => s

/-- Whether the six bits of a slot have odd parity (R405). -/
def oddParity (b : BitVec 6) : Bool := ((List.range 6).countP (fun i => b.getLsbD i)) % 2 = 1

/-- The good input of an extended slot takes effect (R405, R408). -/
def State.slotInput (s : State) (n : Nat) (b : BitVec 6) : State :=
  let s := { s with dl := { s.dl with sgpioLast := Tab.set s.dl.sgpioLast n b } }
  match s.slot? n with
  | some x =>
    if x.pwrEn && (b.getLsbD 2 || b.getLsbD 3) then s.powerFault n
    else s.setSlot n { x with pwrGood := x.present && b.getLsbD 1 }
  | none => s

/-- The lamps of a slot: ACT, LOC and ERR (R410). -/
def State.lamps (s : State) (n : Nat) : Bool × Bool × Bool :=
  let x := (s.slot? n).getD Slot.blank
  let on4 := decide (s.devNs / 125000000 % 2 = 0)
  let on1 := decide (s.devNs / 500000000 % 2 = 0)
  let st := match s.drive? n with
    | some d => some d.state
    | none => none
  let subst := s.se.sets.any (fun e => e.2.substitutes.contains n)
  (s.driveBusy n && on4,
   x.locate || (st = some .retired && on1),
   if st = some .failed || x.powerFault || x.unsupported then true else (st = some .suspect || subst) && on1)

/-- The output bits of an extended slot with their parity (R405). -/
def State.slotOutput (s : State) (n : Nat) : BitVec 6 :=
  let x := (s.slot? n).getD Slot.blank
  let l := s.lamps n
  let v := b2n l.1 + 2 * b2n l.2.1 + 4 * b2n l.2.2 + 8 * b2n x.pwrEn + 16 * b2n x.pwrDis
  let b := BitVec.ofNat 6 v
  if oddParity b then b else b ||| 0x20#6

/-- The next output frame of a chain (R404 to R406, R410): six bits a slot in extended mode, three in standard mode. -/
def State.chainOut (s : State) (c : Nat) : State :=
  let ext := s.extended c
  s.emit (.drive c 12 (b2n ext) 0 ((List.range 32).map (fun i =>
    let b := s.slotOutput (32 * c + i)
    BitVec.ofNat 8 (if ext then b.toNat else b.toNat % 8))))

/-- SGPIO_FRAME (R405 to R408). -/
def State.sgpio (s : State) (c : Nat) (inputs : List (BitVec 6)) : State :=
  if !s.extended c then s.chainOut c
  else
    let ins := inputs.take 32
    let bad := ins.countP (fun b => !oddParity b)
    let h := s.chain c
    let s := s.bump DL_CHAIN_STATUS c DL_CHAIN_STATUS_PARITY_ERRORS bad
    let badRun := if bad = 0 then 0 else h.badRun + 1
    let goodRun := if bad = 0 then h.goodRun + 1 else 0
    let fault := if h.fault then goodRun < 16 else badRun ≥ 3
    let s := { s with dl := { s.dl with chains := Tab.set s.dl.chains c ⟨fault, min badRun 3, min goodRun 16⟩ } }
    let s : State := if fault && !h.fault then s.raise 0xE02 5 noInst [BitVec.ofNat 8 c] else s
    let s : State := if fault then s
      else s.each ins.zipIdx (fun (e : BitVec 6 × Nat) (s : State) =>
        if oddParity e.1 then s.slotInput (32 * c + e.2) e.1 else s)
    s.chainOut c

/-- SLOT_POWER_OFF (R403): no loss of link. -/
def State.slotOff (s : State) (n : Nat) : State :=
  match s.slot? n with
  | some x =>
    if x.cond = .standby && s.extended (n / 32) && !s.chainFault n && s.fld DL_SPIN_PARAM 0 DL_SPIN_PARAM_OFF_MIN != 0 then
      ((s.setSlot n { x.unpowered with linkUp := false, rate := 0 }).driveOut n 8 0 0).laneDomain n
    else s
  | none => s

/-! ### Spin admission (R411 to R417) -/

/-- The measured 12 V current of an enclosure in 0.01 A, averaged over 100 ms, when there is a valid measurement (R415, R419):
the sum of its valid inputs of role 3. -/
def State.measuredBase (s : State) (e : Nat) : Option Nat :=
  let ks := (List.range 64).filter (fun k =>
    s.fld CL_AIN k CL_AIN_ROLE = 3 && s.fld CL_AIN k CL_AIN_VALID = 1 && s.fld CL_AIN k CL_AIN_ENC = e)
  if !s.hasCL || ks.isEmpty then none
  else
    let mean := fun (k : Nat) =>
      let l := Tab.getD s.cl.ainHist k []
      if l.isEmpty then (0 : Int) else l.sum / l.length
    some ((ks.map mean).sum.toNat)

/-- I_base(e) in 0.01 A, and whether it is modelled (R415). -/
def State.iBase (s : State) (e : Nat) : Nat × Bool :=
  match s.measuredBase e with
  | some v => (v, false)
  | none =>
    let fixed := match s.boot.image.bind (fun i => Tab.get? i.enclosures e) with
      | some c => c.iFixedDa
      | none => 60
    let run := ((Tab.keys s.dl.slots).filter (fun n => s.enclosure n = e && s.awake n)).map (fun n => (s.profile n).iRunDa)
    (10 * (fixed + run.sum), true)

/-- Σ I_peak over S(e) in 0.1 A (R415). -/
def State.reservedPeak (s : State) (e : Nat) : Nat :=
  ((s.dl.slots.filter (fun x => x.2.inS && x.2.present && s.enclosure x.1 = e)).map (fun x => (s.profile x.1).iPeakDa)).sum

/-- Whether an enclosure admits nothing (R416, R432). -/
def State.spinBlocked (s : State) (e : Nat) : Bool :=
  (s.hasCL && (s.cl.held.contains e || s.fld CL_ENC_STATE e CL_ENC_STATE_HOT = 1 || s.fld CL_ENC_STATE e CL_ENC_STATE_CRIT = 1)) ||
  (Tab.keys s.dl.slots).any (fun n => s.enclosure n = e && s.chainFault n) ||
  s.dl.chains.any (fun c => c.2.fault && (List.range 32).any (fun i => s.enclosure (32 * c.1 + i) = e))

/-- The test of R415 for a drive. -/
def State.spinFits (s : State) (n : Nat) : Bool :=
  let e := s.enclosure n
  (s.iBase e).1 + 10 * (s.reservedPeak e + (s.profile n).iPeakDa + s.fld DL_SPIN_PARAM 0 DL_SPIN_PARAM_I_GUARD_DA) ≤
    10 * s.fld DL_ENC_SPIN e DL_ENC_SPIN_I_MAX_DA

/-- Admit a drive: slot power where it is off, else the spin-up command of R400. -/
def State.admitSpin (s : State) (q : WakeReq) : State :=
  let s := s.unqueue q.slot
  match s.slot? q.slot with
  | some x =>
    if x.powerFault || x.linkFail || !x.present then s
    else if s.awake q.slot && !x.flash then s
    else
      let off := x.cond = .off
      let s := s.setSlot q.slot { x with pwrEn := x.pwrEn || s.extended (q.slot / 32), cond := .spinningUp, inS := true,
                                         cls := q.cls }
      if off then (s.driveOut q.slot 8 1 0).laneDomain q.slot else s.driveOut q.slot 7 0 0
  | none => s

/-- Admit an enclosure's queued drives in class order until one does not fit (R412, R415). -/
def State.admitList : List WakeReq → State → State
  | [], s => s
  | q :: qs, s => if s.spinFits q.slot then State.admitList qs (s.admitSpin q) else s

/-- Evaluate R415 in every enclosure (R416), and report what it used. -/
def State.spinAdmission (s : State) : State :=
  let s := { s with dl := { s.dl with evaluate := false } }
  let es := (s.dl.queue.map (fun q => s.enclosure q.slot)).eraseDups
  s.each es (fun e s =>
    let b := s.iBase e
    let s := s.setFld DL_ENC_SPIN e DL_ENC_SPIN_I_BASE_DA (min (b.1 / 10) 1023)
    let s := s.setFld DL_ENC_SPIN e DL_ENC_SPIN_MODELLED (b2n b.2)
    if s.spinBlocked e then s
    else
      let l := s.dl.queue.filter (fun q => s.enclosure q.slot = e)
      State.admitList ((List.range 5).flatMap (fun c => l.filter (fun q => q.cls = c))) s)

/-- Evaluate R415 when a drive was queued or left S(e) (R416). -/
def State.spinHook (s : State) : State := if s.dl.evaluate && s.pw.power = .run then s.spinAdmission else s

/-- SPIN_PEAK_EXPIRY (R415). -/
def State.peakOver (s : State) (n : Nat) : State :=
  (s.modSlot n (fun x => { x with inS := false })).spinAdmission

/-! ### Reservations (R395, R396) -/

/-- The reservation key of a device side (R395). -/
def State.reservationKey (s : State) (side : Nat) : List Byte :=
  [if side = 0 then 0x0A else 0x0B] ++ (leBytes 16 s.pl.pairUuid).take 7

/-- Register the key of a paired device on a dual-ported drive it reaches (R395). -/
def State.registerKey (s : State) (n : Nat) : State :=
  match s.slot? n with
  | some x =>
    if s.paired && !x.single && !x.noPr && x.linkUp then
      (s.driveOut n 9 0 0 (s.reservationKey s.pl.side)).modDrive n (fun d => { d with prRegistered := true })
    else s
  | none => s

/-- A member of an owned pool is reserved (R396); an unpaired device registers its key and clears every registration and
reservation before it first writes there (R453), where the drive knows them (R398). -/
def State.reserveMember (s : State) (n : Nat) : State :=
  match s.drive? n, s.slot? n with
  | some d, some x =>
    let own : Bool := match s.memberPool n with
      | some p => s.poolState p != .partner && (s.pool? p).isSome
      | none => false
    if d.prHeld || !own || x.single || x.noPr || !x.linkUp || !d.info.reserveOk then s
    else
      let s := s.modDrive n (fun d => { d with prRegistered := true, prHeld := true })
      let key := s.reservationKey s.pl.side
      let s : State := if d.prRegistered then s else s.driveOut n 9 0 0 key
      if s.paired then s.driveOut n 9 1 5 key else s.driveOut n 9 4 0 key
  | _, _ => s

/-- Members that are not reserved yet (R396, R453). -/
def State.reserveHook (s : State) : State := s.each (Tab.keys s.se.drives) (fun n s => s.reserveMember n)

/-! ### Labels (R281, R284, R487, R627) -/

/-- What the descriptors read so far say of a world-wide name, for pools whose present descriptor they are (R284). -/
def State.entryOfWwn (s : State) (wwn : Nat) : Option (Nat × MemberEntry) :=
  s.se.drives.findSome? (fun e => match e.2.info.desc with
    | some d =>
      if e.2.classified && (match s.pool? d.pool with
          | some x => x.descSeq = d.seq
          | none => false) then (d.members.find? (fun m => m.wwn = wwn)).map (fun m => (d.pool, m))
      else none
    | none => none)

/-- The state a MEMBER label of the own pair leads to once its descriptor is adopted (R208, R284). -/
def State.memberByLabel (s : State) (n : Nat) (d : Drive) : State :=
  match s.entryOfWwn d.info.wwn with
  | some (p, m) => s.modDrive n (fun v => { v with state := m.state, pool := p })
  | none =>
    let failed : Bool := match d.info.desc with
      | some k => (match s.pool? k.pool with
        | some x => x.failedWwn.contains d.info.wwn
        | none => false)
      | none => false
    if failed then s.modDrive n (fun v => { v with state := .failed, pool := (d.info.desc.map (·.pool)).getD 0 })
    else if d.state = .candidate ∨ d.state = .foreign then s.modDrive n (fun v => { v with state := .foreign })
    else s

/-- Classify a drive from its newest valid label (R9, R281, R284). -/
def State.readLabel (s : State) (n : Nat) : State :=
  match s.drive? n with
  | none => s
  | some d =>
    let seq := match d.info.desc with
      | some k => k.seq
      | none => 0
    let s := s.modDrive n (fun v =>
      { v with classified := true, labelSeq := max v.labelSeq d.info.labelSeq, descSeq := max v.descSeq seq,
               labelFront := if v.labelSeq < d.info.labelSeq then d.info.labelFront else v.labelFront,
               labelRear := if v.labelSeq < d.info.labelSeq then d.info.labelRear else v.labelRear })
    let set := fun (st : MemberState) => s.modDrive n (fun v => { v with state := st })
    if (s.memberPool n).isSome then
      match d.info.desc with
      | some k => s.adoptDesc k
      | none => s
    else if d.info.foreignLevel then set .foreign
    else
      match d.info.label with
      | none => set .candidate
      | some l =>
        if d.info.labelPair != s.pl.pairUuid then set .foreign
        else
          match l with
          | .void => set .candidate
          | .spare => set .spare
          | .member =>
            match d.info.desc with
            | some k => (s.adoptDesc k).memberByLabel n d
            | none => set .foreign

/-- Drives present whose labels have not been read. -/
def State.unread (s : State) : Bool :=
  s.dl.slots.any (fun e => e.2.present && !e.2.linkFail && !e.2.powerFault && !e.2.unsupported &&
    (match s.drive? e.1 with
     | some d => !d.classified
     | none => true))

/-- Adoption of another pair's UUID by an unpaired device that finds no drive of its own (R627). It is settled once the labels
of every drive present are read. -/
def State.adoptPair (s : State) : State :=
  if !s.boot.adoptOpen || s.paired || s.unread then s
  else
    let s := { s with boot := { s.boot with adoptOpen := false } }
    let tagged := s.se.drives.filter (fun e => e.2.info.label = some .member || e.2.info.label = some .spare)
    if tagged.any (fun e => e.2.info.labelPair = s.pl.pairUuid && !e.2.info.foreignLevel) then s
    else
      match ((tagged.filter (fun e => !e.2.info.foreignLevel)).map (fun e => e.2.info.labelPair)).eraseDups with
      | [u] =>
        let old := s.pl.pairUuid
        let s := { s with pl := { s.pl with pairUuid := u } }
        let s := s.raise 0x5FF 4 noInst ((leBytes 16 old).take 14 ++ (leBytes 16 u).take 14)
        s.each ((s.se.drives.filter (fun e => e.2.state = .foreign)).map (·.1)) (fun n s => s.readLabel n)
      | _ => s

/-- Rename the slot of a member found in another slot by its world-wide name (R394). -/
def State.moveSlot (s : State) (o n : Nat) : State :=
  let f := fun (k : Nat) => if k = o then n else k
  match s.drive? o with
  | none => s
  | some d =>
    let bands := (s.se.bands.filter (fun e => e.1 / 2 ^ 32 = o)).map (fun e => (bandKey n (e.1 % 2 ^ 32), e.2))
    let rest := s.se.bands.filter (fun e => e.1 / 2 ^ 32 != o && e.1 / 2 ^ 32 != n)
    { s with se := { s.se with
        drives := Tab.set (Tab.erase s.se.drives o) n d
        bands := bands.foldl (fun (a : Tab (BandState × Nat)) (e : Nat × (BandState × Nat)) => Tab.set a e.1 e.2) rest
        sets := s.se.sets.map (fun (e : Nat × SetRec) => (e.1, { e.2 with members := e.2.members.map f, passSubs := e.2.passSubs.map f }))
        pools := s.se.pools.map (fun (e : Nat × Pool) => (e.1,
          { e.2 with members := e.2.members.map f, sill := e.2.sill.map f, journal := e.2.journal.map f,
                     scarf := e.2.scarf.map (fun c =>
                       { c with oldSill := c.oldSill.map f, oldJournal := c.oldJournal.map f,
                                oldMembers := c.oldMembers.map f, newMembers := c.newMembers.map f }) })) } }

/-- A drive the device has not met in this slot (R393). -/
def Drive.fresh (d : DriveInfo) : Drive := { Drive.missing 0 0 .candidate with info := d, linkDown := false, classified := false }

/-- The drive found in a slot takes its record's place: the same drive again, one known from another slot, or a new one (R206,
R394, R664). A different drive in the slot of a member that is LINK_DOWN ends that member's grace; a member R207 holds keeps
the slot. -/
def State.foundDrive (s : State) (n : Nat) (d : DriveInfo) : State :=
  let same : Bool := match s.drive? n with
    | some v => v.info.wwn = d.wwn
    | none => false
  if same then (s.modDrive n (fun v => { v with info := d })).linkRestored n
  else
    let s : State := if (s.memberPool n).isSome then s.graceOver n else s
    if (s.memberPool n).isSome then s
    else
      let s : State := match s.drive? n with
        | some v => if v.state = .failed then
            s.modPool v.pool (fun x => { x with failedWwn := x.failedWwn ++ [v.info.wwn] }) else s
        | none => s
      match s.se.drives.find? (fun e => e.1 != n && e.2.info.wwn = d.wwn) with
      | some e => ((s.moveSlot e.1 n).modDrive n (fun v => { v with info := d })).linkRestored n
      | none =>
        let bands := s.se.bands.filter (fun e => e.1 / 2 ^ 32 != n)
        let s := { s with se := { s.se with drives := Tab.set s.se.drives n (Drive.fresh d), bands := bands } }
        match s.entryOfWwn d.wwn with
        | some (p, m) => s.modDrive n (fun v => { v with state := m.state, pool := p, classified := true })
        | none => s

/-- After the labels of a drive are read: the adoption of R627, and substitutes. -/
def State.labelsRead (s : State) (n : Nat) : State := ((s.readLabel n).adoptPair).substitute

/-- What a drive that has become awake gets: its descriptor (R283), its labels read (R487), and waiting I/O (R401). -/
def State.awakened (s : State) (n : Nat) (cls : Nat) : State :=
  let fresh : Bool := match s.drive? n with
    | some d => !d.classified
    | none => false
  let s : State := if fresh then s.labelsRead n else s
  let s : State := match s.drive? n with
    | some d =>
      (match s.memberPool n with
       | some p =>
         let behind : Bool := match s.pool? p with
           | some x => s.poolUp p && d.descSeq < x.descSeq && d.labelWant.isNone
           | none => false
         if behind && !s.silenced then s.writeLabel n .member else s
       | none => s)
    | none => s
  let s := { s with boot := { s.boot with startWakes := s.boot.startWakes.filter (· ≠ n) } }
  let s := (s.readsAwake n).issuePasses
  if fresh && cls = 4 then s.sendStandby [n] else s

/-- LINK_UP (R386, R387, R393 to R398, R487): identity and capacity are read, the drive found is classified, now when it needs
no wake. -/
def State.linkFound (s : State) (n : Nat) (d : DriveInfo) : State :=
  match s.slot? n with
  | none => s
  | some x =>
    if !x.present || x.linkFail || x.linkUp || s.fld DL_SLOT_CTL n DL_SLOT_CTL_MAX_RATE = 0 then s
    else if d.expander then s.setSlot n { x with unsupported := true, linkUp := false, rate := 0 }
    else
      let single := d.sata || d.ports = 1
      let wrong := d.block != 512 && d.block != 4096
      let spins := d.flash || d.spinning
      let x := { x with linkUp := true, rate := d.rate, sata := d.sata, known := true, zoned := d.zoned, flash := d.flash,
                        single := single, noPr := s.paired && !single && !d.reserveOk, unsupported := wrong, attempts := 0,
                        pwrDis := false,
                        cond := if spins then .idle else if x.cond = .off then .held else x.cond }
      let s := s.setSlot n x
      if wrong then s
      else
        let s := (s.foundDrive n d).registerKey n
        match s.drive? n with
        | some v =>
          if v.info.wwn != d.wwn then s
          else if v.classified then (if spins then s.awakened n x.cls else s)
          else if spins then s.labelsRead n
          else s.wake [n] 4
        | none => s

/-- The SAS address a lane transmits (R391): the image's base address with its low 10 bits replaced by the slot number. -/
def State.sasAddress (s : State) (n : Nat) : Nat :=
  match s.boot.image with
  | some i => i.sasBase / 1024 * 1024 + n
  | none => n

/-- LINK_BRINGUP_ATTEMPT (R392). -/
def State.bringUp (s : State) (n rate : Nat) (ok : Bool) : State :=
  match s.slot? n with
  | none => s
  | some x =>
    if !x.present || !x.pwrGood || x.linkUp || x.linkFail then s
    else
    let s := s.driveOut n 13 (s.sasAddress n) rate
    if ok then s.setSlot n { x with attempts := 0, rate := rate }
    else
      let s := s.bump DL_SLOT_PHYERR n DL_SLOT_PHYERR_RESET_PROBLEM
      let a := x.attempts + 1
      if a = 3 then
        let s := s.setSlot n { x with attempts := a, pwrDis := s.extended (n / 32) && !s.chainFault n }
        if s.extended (n / 32) then s else s.driveOut n 11 1 0
      else if a ≥ 6 then
        let s := s.setSlot n { x with attempts := 0, linkFail := true }
        let s := s.raise 0xE01 4 n
        match s.drive? n with
        | some d => if d.linkDown then s else s.linkLost n
        | none => s
      else s.setSlot n { x with attempts := a }

/-- LINK_BRINGUP_RETRY (R392): the wait between attempts ends; PWR_DIS is released. -/
def State.bringUpAgain (s : State) (n : Nat) : State := s.modSlot n (fun x => { x with pwrDis := false })

/-- LANE reset (R392, R393): the link drops and comes up again, and POWER_FAULT and LINK_FAIL clear. -/
def State.laneReset (s : State) (n : Nat) : State :=
  match s.slot? n with
  | none => s
  | some x =>
    let s := (s.setReg (DL_SLOT_PHYERR.at n) 0).setReg (DL_SLOT_CMDERR.at n) 0
    let s : State := if s.driveBusy n then s.bump DL_SLOT_CMDERR n DL_SLOT_CMDERR_RETRIES else s
    let s := s.setSlot n { x with powerFault := false, linkFail := false, attempts := 0, pwrDis := false,
                                  unsupported := false }
    let s := (if x.linkUp then s.linkLost n else s).driveOut n 11 0 0
    if x.present && !x.pwrEn && s.extended (n / 32) && !s.dl.queue.any (fun q => q.slot = n) then
      { s with dl := { s.dl with queue := s.dl.queue ++ [{ slot := n, cls := 4 }], evaluate := true } }
    else s

/-! ### Spin-ups (R401, R205) -/

/-- SPINUP_COMPLETE (R401). -/
def State.spinupDone (s : State) (n ds : Nat) : State :=
  match s.slot? n with
  | none => s
  | some x =>
    if x.cond != .spinningUp then s
    else
      let s := s.setSlot n { x with cond := .idle }
      let s := s.bumpWrap DL_SLOT_SPINS n DL_SLOT_SPINS_SPINUPS
      let s := s.setFld DL_SLOT_SPINS n DL_SLOT_SPINS_LAST_READY_DS (min ds 65535)
      let s := s.modDrive n (fun d => { d with spinFails := 0 })
      s.awakened n x.cls

/-- SPINUP_TIMEOUT (R205): the attempt failed; the wake stays wanted while the member serves. -/
def State.spinupLate (s : State) (n : Nat) : State :=
  match s.slot? n with
  | none => s
  | some x =>
    if x.cond != .spinningUp then s
    else
      let s := s.setSlot n { x with cond := .standby }
      let fails := match s.drive? n with
        | some d => d.spinFails + 1
        | none => 1
      let s := (s.modDrive n (fun d => { d with spinFails := fails })).judge n fails 1 2 5
      if (s.memberPool n).isSome ∨ fails < 2 then
        { s with dl := { s.dl with queue := s.dl.queue ++ [{ slot := n, cls := x.cls }], evaluate := true } }
      else s

end Sys2Proof.Machine
end

