-- ==== Sys2Proof/Machine/Mover.lean ====
section
/-! DEFINITION. The auxiliary mover (chapter 20): channel programs, pacing, event flags, pause and stop, bursts and bus
errors. PC, SRC, DST, REMAIN, the loop counts and STATE live in the channel's registers. -/

namespace Sys2Proof.Machine

open Sys2Proof

/-- STATE of XM_CH_n_STATUS. -/
def xmIdle : Nat := 0
def xmRun : Nat := 1
def xmWaiting : Nat := 2
def xmPaused : Nat := 3
def xmDone : Nat := 4
def xmError : Nat := 5
def xmStopped : Nat := 6

/-- The state of a mover channel. -/
def State.xmState (s : State) (n : Nat) : Nat := s.fld XM_CH_STATUS n XM_CH_STATUS_STATE

/-- The channel's program state beside its registers. -/
def State.xmChan (s : State) (n : Nat) : XmChan := Tab.getD s.xm.chans n ⟨none, [], none, [], 0⟩

/-- The state with the channel's program state set. -/
def State.setXmChan (s : State) (n : Nat) (c : XmChan) : State := { s with xm := { chans := Tab.set s.xm.chans n c } }

/-- The channel's STATE set. -/
def State.setXmState (s : State) (n v : Nat) : State := s.setFld XM_CH_STATUS n XM_CH_STATUS_STATE v

/-- The channel's SRC register set. -/
def State.setXmSrc (s : State) (n v : Nat) : State := s.setReg64 (XM_CH_SRC_LO.at n) (XM_CH_SRC_HI.at n) v

/-- The channel's DST register set. -/
def State.setXmDst (s : State) (n v : Nat) : State := s.setReg64 (XM_CH_DST_LO.at n) (XM_CH_DST_HI.at n) v

/-- PC of the channel. -/
def State.xmPc (s : State) (n : Nat) : Nat := s.reg64 (XM_CH_PC_LO.at n) (XM_CH_PC_HI.at n)

/-- PC of the channel set. -/
def State.setXmPc (s : State) (n v : Nat) : State := s.setReg64 (XM_CH_PC_LO.at n) (XM_CH_PC_HI.at n) v

/-- A loop count register of the channel set (R590). -/
def State.setXmLoop (s : State) (n k v : Nat) : State := s.setReg (XM_CH_LOOP.at2 n k) (BitVec.ofNat 32 v)

/-- The channel halts with STATE ERROR and a cause (R591, R600). -/
def State.xmFail (s : State) (n err : Nat) : State :=
  (s.setXmState n xmError).setFld XM_CH_STATUS n XM_CH_STATUS_ERR err

/-- The level of a request line (R593). -/
def State.xmLine (s : State) (l : Nat) : Bool := bit (s.fld XM_REQ 0 XM_REQ_LINES) l

/-- Whether an event flag is set (R594). -/
def State.xmFlag (s : State) (f : Nat) : Bool := bit (s.fld XM_EVENT 0 XM_EVENT_FLAGS) f

/-- An event flag set or consumed. -/
def State.setXmFlag (s : State) (f : Nat) (b : Bool) : State :=
  let w := s.fld XM_EVENT 0 XM_EVENT_FLAGS
  s.setFld XM_EVENT 0 XM_EVENT_FLAGS (if b then w ||| 2 ^ f else w &&& (0xFFFFFFFF ^^^ 2 ^ f))

/-- The channel that takes an event flag: of those waiting on it, highest priority, then lowest number (R594). -/
def State.xmFlagTaker (s : State) (f : Nat) : Option Nat :=
  let ws := (List.range 32).filter (fun n => s.xmState n = xmWaiting && (s.xmChan n).wait = some (true, f))
  ws.foldl (fun best n =>
    match best with
    | none => some n
    | some b => if s.fld XM_CH_CFG n XM_CH_CFG_PRIO > s.fld XM_CH_CFG b XM_CH_CFG_PRIO then some n else some b) none

/-- A waiting channel goes on. -/
def State.xmWake (s : State) (n : Nat) : State :=
  (s.setXmChan n { s.xmChan n with wait := none }).setXmState n xmRun

/-- Set an event flag; a channel waiting on it consumes it and goes on (R594). -/
def State.xmSignal (s : State) (f : Nat) : State :=
  match s.xmFlagTaker f with
  | some n => s.xmWake n
  | none => s.setXmFlag f true

/-- The size of an address space (R587); host spaces are 2^64. -/
def xmSpaceSize (sp : Nat) : Nat :=
  if sp = 0 then 448 * 2 ^ 30 else if sp = 1 then 192 * 2 ^ 20 else 2 ^ 64

/-- A decoded MOVE of channel `n` obeys R587 and the operand ranges of R590. -/
def State.xmMoveOk (s : State) (n : Nat) (m : Move) : Bool :=
  m.len ≥ 1 && m.srcSpace ≤ 5 && m.dstSpace ≤ 5 && m.dstSpace != 2 && m.srcSpace != 3 &&
  (m.srcSpace != 2 || ((m.src = 0x10 || m.src = 0x11) && m.len % 4 = 0 && (!m.paced || m.burst % 4 = 0))) &&
  (m.dstSpace != 3 || (n = 31 && m.dst % 4096 = 0 && m.len % 4096 = 0)) &&
  (!m.paced || (4 ≤ m.burst && m.burst ≤ 65536 && (m.line = 0 || m.line = 16 || m.line = 17))) &&
  ((m.srcSpace < 4 && m.dstSpace < 4) || s.fld XM_CH_CFG n XM_CH_CFG_ENTRY ≤ 64) &&
  (m.srcSpace = 2 || m.src + m.len ≤ xmSpaceSize m.srcSpace) && m.dst + m.len ≤ xmSpaceSize m.dstSpace

/-- SRC, DST and REMAIN describe the next byte to move, or the first byte after each range (R590, R599). -/
def State.xmShow (s : State) (n : Nat) (m : Move) : State :=
  let left := m.len - m.done
  let off := if m.down ∧ left > 0 then left - 1 else m.done
  let off := if left = 0 then m.len else off
  let s := s.setXmSrc n (if m.srcSpace = 2 then m.src else m.src + off)
  let s := s.setXmDst n (m.dst + off)
  s.setReg (XM_CH_REMAIN.at n) (BitVec.ofNat 32 left)

/-- A paced MOVE takes a request when its line is high and it has no burst in progress (R593). -/
def State.xmTake (s : State) (n : Nat) : State :=
  let c := s.xmChan n
  match c.move with
  | some m =>
    if m.paced ∧ !m.inBurst ∧ s.xmLine m.line ∧ s.xmState n = xmRun then
      s.setXmChan n { c with move := some { m with inBurst := true } }
    else s
  | none => s

/-- The bytes of an instruction that its opcode does not use, and so are reserved (R590, R591; log entry 13). -/
def xmReservedOk (op : Nat) (paced : Bool) (bs : List Byte) : Bool :=
  let z := fun (a n : Nat) => leAt bs a n = 0
  let line := leAt bs 3 1 < 32
  z 28 4 && line &&
  (if op = 1 then leAt bs 1 1 < 32 && leAt bs 2 1 < 64 && (paced || (z 3 1 && z 24 4))
   else if op = 2 then z 1 1 && z 2 1 && z 3 1 && z 8 20
   else if op = 4 then z 1 1 && leAt bs 2 1 < 2 && z 4 24
   else if op = 5 then leAt bs 1 1 < 2 && z 2 1 && z 4 24
   else if op = 6 then z 1 1 && leAt bs 2 1 < 2 && z 3 1 && z 4 4 && z 16 12
   else z 1 1 && z 2 1 && z 3 1 && z 4 24)

/-- The MOVE an instruction spells (R590); SRC_CONT and DST_CONT take the channel's registers. -/
def State.xmDecodeMove (s : State) (n : Nat) (bs : List Byte) : Move :=
  let fl := leAt bs 1 1
  let sel := leAt bs 2 1
  let src := if bit fl 3 then s.reg64 (XM_CH_SRC_LO.at n) (XM_CH_SRC_HI.at n) else leAt bs 8 8
  let dst := if bit fl 4 then s.reg64 (XM_CH_DST_LO.at n) (XM_CH_DST_HI.at n) else leAt bs 16 8
  let len := leAt bs 4 4
  let ss := bits sel 0 3
  let ds := bits sel 3 3
  { srcSpace := ss, dstSpace := ds, src := src, dst := dst, len := len, done := 0,
    down := ss = ds && ss != 2 && src ≤ dst && dst < src + len && src != dst,
    paced := bit fl 0, line := leAt bs 3 1, burst := leAt bs 24 4, half := bit fl 1, full := bit fl 2,
    inBurst := false, retryAt := false }

/-- The action of one instruction of a running channel (R590, R591); PC has moved past it. -/
def State.xmExecute (s : State) (n : Nat) (bs : List Byte) : State :=
  let op := leAt bs 0 1
  let c := s.xmChan n
  let pc := s.xmPc n
  if op > 7 then s.xmFail n 3
  else if !xmReservedOk op (bit (leAt bs 1 1) 0) bs then s.xmFail n 4
  else
    let s' := s.setXmPc n (pc + 32)
    let depth := c.loops.length
    if op = 0 then s'
    else if op = 1 then
      let m := s.xmDecodeMove n bs
      if s.xmMoveOk n m then ((s'.setXmChan n { c with move := some m }).xmShow n m).xmTake n else s.xmFail n 4
    else if op = 2 then
      if depth ≥ 4 then s.xmFail n 5
      else
        let cnt := leAt bs 4 4
        let s' := s'.setXmChan n { c with loops := c.loops ++ [(pc + 32, decide (cnt = 0))] }
        (s'.setXmLoop n depth cnt).setFld XM_CH_STATUS n XM_CH_STATUS_LOOPS (depth + 1)
    else if op = 3 then
      match c.loops.getLast? with
      | none => s.xmFail n 5
      | some (back, endless) =>
        let cnt := (s.getReg (XM_CH_LOOP.at2 n (depth - 1))).toNat - 1
        if endless then s'.setXmPc n back
        else if cnt ≠ 0 then (s'.setXmPc n back).setXmLoop n (depth - 1) cnt
        else
          let s' := s'.setXmChan n { c with loops := c.loops.dropLast }
          (s'.setXmLoop n (depth - 1) 0).setFld XM_CH_STATUS n XM_CH_STATUS_LOOPS (depth - 1)
    else if op = 4 then
      let l := leAt bs 3 1
      if leAt bs 2 1 = 0 then
        if l ≠ 0 ∧ l ≠ 16 ∧ l ≠ 17 then s.xmFail n 4
        else if s.xmLine l then s'
        else (s'.setXmChan n { c with wait := some (false, l) }).setXmState n xmWaiting
      else if s.xmFlag l then s'.setXmFlag l false
      else (s'.setXmChan n { c with wait := some (true, l) }).setXmState n xmWaiting
    else if op = 5 then
      let s' := if bit (leAt bs 1 1) 0 then s'.setFld XM_CH_STATUS n XM_CH_STATUS_SIGNALLED 1 else s'
      let s' := s'.xmSignal (leAt bs 3 1)
      if n = 31 ∧ s.pw.power = .ebb ∧ bit (leAt bs 1 1) 0 then s'.xmSignal 1 else s'
    else if op = 6 then
      if leAt bs 2 1 = 0 then s'.setXmSrc n (leAt bs 8 8) else s'.setXmDst n (leAt bs 8 8)
    else s'.setXmState n xmDone

/-- The instruction at a channel's PC (R590): from the space PROG_SPACE names, or from the firmware's program on channels 29 to 31; none
beyond the space. -/
def State.xmFetch (s : State) (n : Nat) : Option (List Byte) :=
  let c := s.xmChan n
  let pc := s.xmPc n
  if !c.program.isEmpty then c.program[(pc - c.base) / 32]?
  else
    let sram := s.fld XM_CH_CFG n XM_CH_CFG_PROG_SPACE = 1
    if pc + 32 > xmSpaceSize (if sram then 1 else 0) then none
    else some (memRead (if sram then s.sram else s.dram) pc 32)

/-- The bytes the firmware had placed at a channel's PC before it ran (log entry 150); the firmware's own programs stand outside. -/
def State.xmPlace (s : State) (n : Nat) (placed : Option (List Byte)) : State :=
  match placed with
  | some bs =>
    if !(s.xmChan n).program.isEmpty then s
    else if s.fld XM_CH_CFG n XM_CH_CFG_PROG_SPACE = 1 then { s with sram := memWrite s.sram (s.xmPc n) bs }
    else { s with dram := memWrite s.dram (s.xmPc n) bs }
  | none => s

/-- XM_INSTRUCTION (R590): a running channel with no MOVE in progress fetches and executes its next instruction; a fetch
that ends in an error response is a program fetch error. -/
def execXmInstruction (n : Nat) (failed : Bool) (placed : Option (List Byte)) (s : State) : Host.Outcome State Fault Refusal :=
  .next (s.whenMemory (fun s => if n < 32 ∧ s.xmState n = xmRun ∧ (s.xmChan n).move.isNone then
    let s := s.xmPlace n placed
    match (if failed then none else s.xmFetch n) with
    | some bs => s.xmExecute n bs
    | none => s.xmFail n 6
  else s))

/-- The 32 bytes of an instruction (R590). -/
def xmWord (op flags sel line count src dst burst : Nat) : List Byte :=
  leBytes 1 op ++ leBytes 1 flags ++ leBytes 1 sel ++ leBytes 1 line ++ leBytes 4 count ++ leBytes 8 src ++ leBytes 8 dst ++
    leBytes 4 burst ++ zeros 4

/-- A capture program of the firmware (R430, chapter 20): a loop without end that moves a stream in bursts of 1 KiB into a buffer. -/
def captureProgram (stream buffer len : Nat) : List (List Byte) :=
  [xmWord 2 0 0 0 0 0 0 0, xmWord 1 7 2 (16 + stream) len (0x10 + stream) buffer 1024, xmWord 3 0 0 0 0 0 0 0, xmWord 7 0 0 0 0 0 0 0]

/-- The ebb flush of the firmware (chapter 20): each run of occupied pages, a signal, a wait for the table and header, the table, and the
header page last. Runs are start addresses and page counts. -/
def ebbProgram (runs : List (Nat × Nat)) (table tableLen header : Nat) : List (List Byte) :=
  [xmWord 6 0 1 0 0 4096 0 0] ++ runs.map (fun r => xmWord 1 0x11 0x18 0 (r.2 * 65536) r.1 0 65536) ++
  [xmWord 5 1 0 0 0 0 0 0, xmWord 4 0 1 1 0 0 0 0, xmWord 1 0x11 0x18 0 (4096 * ceilDiv tableLen 4096) table 0 65536,
   xmWord 1 0 0x19 0 4096 header 0 0, xmWord 7 0 0 0 0 0 0 0]

/-- The firmware starts a program of its own on a channel (R430, R602), at an address the manual does not give (log entry 150). -/
def State.xmStartFw (s : State) (n : Nat) (program : List (List Byte)) : State :=
  let d := s.draw Config.freeNat
  let base := 32 * (d.1 % 2 ^ 20)
  let s := d.2.setXmChan n ⟨none, [], none, program, base⟩
  let s := (List.range 4).foldl (fun t k => t.setXmLoop n k 0) s
  let s := s.setFld XM_CH_STATUS n XM_CH_STATUS_LOOPS 0
  let s := s.setFld XM_CH_STATUS n XM_CH_STATUS_ERR 0
  let s := s.setFld XM_CH_STATUS n XM_CH_STATUS_RETRIES 0
  let s := s.setReg (XM_CH_REMAIN.at n) 0
  (s.setXmPc n base).setXmState n xmRun

/-- The firmware stops a channel (R599), unless it has halted. -/
def State.xmStopFw (s : State) (n : Nat) : State :=
  if s.xmState n = xmRun ∨ s.xmState n = xmWaiting ∨ s.xmState n = xmPaused then s.setXmState n xmStopped else s

/-- The channel's state after its present burst under CTL.PAUSE and a pending STOP (R599). -/
def State.xmSettle (s : State) (n : Nat) : State :=
  if s.fld XM_CH_CTL n XM_CH_CTL_PAUSE = 1 ∧ (s.xmState n = xmRun ∨ s.xmState n = xmWaiting) ∧
      !((s.xmChan n).move.map (·.inBurst)).getD false then s.setXmState n xmPaused
  else s

/-- A write of XM_CH_n_CTL (R590, R599): PAUSE is set or cleared; START starts the program at PC with an empty loop
stack unless the channel is active; STOP ends it in STOPPED. -/
def xmCtlWrite (n : Nat) (v : Word) (s : State) : State :=
  if n ≥ 29 then s
  else
    let st := s.xmState n
    let pause := XM_CH_CTL_PAUSE.get v
    let s := s.setFld XM_CH_CTL n XM_CH_CTL_PAUSE pause
    let s : State :=
      if XM_CH_CTL_START.get v = 1 ∧ (st = xmIdle ∨ st = xmDone ∨ st = xmError ∨ st = xmStopped) then
        let s := s.setXmChan n ⟨none, [], none, [], 0⟩
        let s := (List.range 4).foldl (fun t k => t.setXmLoop n k 0) s
        let s := s.setFld XM_CH_STATUS n XM_CH_STATUS_LOOPS 0
        let s := s.setFld XM_CH_STATUS n XM_CH_STATUS_ERR 0
        let s := s.setFld XM_CH_STATUS n XM_CH_STATUS_RETRIES 0
        let s := s.setReg (XM_CH_REMAIN.at n) 0
        s.setXmState n xmRun
      else s
    let s : State :=
      if s.xmState n = xmPaused ∧ pause = 0 then
        (s.setXmState n (if (s.xmChan n).wait.isSome then xmWaiting else xmRun)).xmTake n
      else s.xmSettle n
    if XM_CH_CTL_STOP.get v = 1 ∧ (s.xmState n = xmRun ∨ s.xmState n = xmWaiting ∨ s.xmState n = xmPaused) then
      s.setXmState n xmStopped
    else s

/-- XM START (R590): a write of CTL with START. -/
def execXmStart (port n : Nat) (v : Word) (s : State) : Host.Outcome State Fault Refusal :=
  .next (if n < 32 ∧ XM_CH_CTL_START.get v = 1 then s.hostWrite port (XM_CH_CTL.at n) (xmCtlWrite n v) else s)

/-- XM PAUSE (R599): a write of CTL that sets or clears PAUSE alone. -/
def execXmPause (port n : Nat) (v : Word) (s : State) : Host.Outcome State Fault Refusal :=
  .next (if n < 32 ∧ XM_CH_CTL_START.get v = 0 ∧ XM_CH_CTL_STOP.get v = 0 then
    s.hostWrite port (XM_CH_CTL.at n) (xmCtlWrite n v) else s)

/-- XM STOP (R599): a write of CTL with STOP. -/
def execXmStop (port n : Nat) (v : Word) (s : State) : Host.Outcome State Fault Refusal :=
  .next (if n < 32 ∧ XM_CH_CTL_STOP.get v = 1 then s.hostWrite port (XM_CH_CTL.at n) (xmCtlWrite n v) else s)

/-- A write of XM_EVENT_SET (R594): each bit written 1 sets its flag. -/
def xmEventSetWrite (v : Word) (s : State) : State :=
  s.each ((List.range 32).filter (fun f => bit v.toNat f)) (fun f s => s.xmSignal f)

/-- XM_EVENT_SET (R594). -/
def execXmEventSet (port : Nat) (v : Word) (s : State) : Host.Outcome State Fault Refusal :=
  .next (s.hostWrite port (XM_EVENT_SET.at 0) (xmEventSetWrite v))

/-- A request line's level changes (R593); a channel waiting on it or pacing a MOVE by it takes a request. -/
def State.xmSetLine (s : State) (l : Nat) (level : Bool) : State :=
  let w := s.fld XM_REQ 0 XM_REQ_LINES
  let s := s.setFld XM_REQ 0 XM_REQ_LINES (if level then w ||| 2 ^ l else w &&& (0xFFFFFFFF ^^^ 2 ^ l))
  if level then
    let s := s.each ((List.range 32).filter (fun n => s.xmState n = xmWaiting && (s.xmChan n).wait = some (false, l)))
      (fun n s => s.xmWake n)
    s.each (List.range 32) (fun n s =>
      if ((s.xmChan n).move.map (·.line)) = some l then s.xmTake n else s)
  else s

/-- XM_REQUEST_LINE (R593): lines 0, 16 and 17 are the only ones raised. -/
def execXmRequestLine (line : Nat) (level : Bool) (s : State) : Host.Outcome State Fault Refusal :=
  .next (s.whenMemory (fun s => if line = 0 ∨ line = 16 ∨ line = 17 then s.xmSetLine line level else s))

/-- `b` free bytes read from host memory (log entry 6), and the state with them drawn. -/
def State.hostBytes (s : State) (b : Nat) : List Byte × State :=
  ((List.range b).map (fun i => Config.hostByte (s.draws + i)), { s with draws := s.draws + b })

/-- The bytes of a burst read from its source (R587). -/
def State.xmSource (s : State) (sp a b : Nat) : List Byte × State :=
  if sp = 0 then (memRead s.dram a b, s)
  else if sp = 1 then (memRead s.sram a b, s)
  else if sp = 2 then
    if a = 0x10 then
      (padTo b s.cl.fifo0, State.xmSetLine { s with cl := { s.cl with fifo0 := s.cl.fifo0.drop b } } 16
        ((s.cl.fifo0.drop b).length ≥ 1024))
    else
      (padTo b s.cl.fifo1, State.xmSetLine { s with cl := { s.cl with fifo1 := s.cl.fifo1.drop b } } 17
        ((s.cl.fifo1.drop b).length ≥ 1024))
  else s.hostBytes b

/-- The bytes of a burst written to their destination: memory, the ready image slot, or host memory as CFG.ENTRY. -/
def State.xmStore (s : State) (n sp a : Nat) (bs : List Byte) : State :=
  if sp = 0 then { s with dram := memWrite s.dram a bs }
  else if sp = 1 then { s with sram := memWrite s.sram a bs }
  else if sp = 3 then s.emit (.store a bs)
  else s.emit (.hostWrite ((sp - 4) * 65 + s.fld XM_CH_CFG n XM_CH_CFG_ENTRY) a bs)

/-- A burst's writes are acknowledged (R593, R595, R599): the bytes move, HALF and FULL follow, the MOVE ends when all
LEN bytes are written. -/
def xmBurst (s : State) (n bytes : Nat) : State :=
  let c := s.xmChan n
  match c.move with
  | none => s
  | some m =>
    if n ≥ 32 ∨ (m.paced ∧ !m.inBurst) ∨ m.retryAt ∨ (s.xmState n ≠ xmRun) then s
    else
      let left := m.len - m.done
      let b := min left (if m.paced then m.burst else bytes)
      let off := if m.down then left - b else m.done
      let r := s.xmSource m.srcSpace (if m.srcSpace = 2 then m.src else m.src + off) b
      let s := r.2.xmStore n m.dstSpace (m.dst + off) r.1
      let m' := { m with done := m.done + b, inBurst := false }
      let s := s.xmShow n m'
      let s := s.setFld XM_CH_STATUS n XM_CH_STATUS_RETRIES 0
      let s : State := if m.half ∧ m.done < m.len / 2 ∧ m.len / 2 ≤ m'.done then
        s.setFld XM_CH_STATUS n XM_CH_STATUS_HALF 1 else s
      if m'.done = m.len then
        let s : State := if m.full then s.setFld XM_CH_STATUS n XM_CH_STATUS_FULL 1 else s
        (s.setXmChan n { c with move := none }).xmSettle n
      else ((s.setXmChan n { c with move := some m' }).xmSettle n).xmTake n

/-- XM_BURST_DONE (R593). -/
def execXmBurstDone (n bytes : Nat) (s : State) : Host.Outcome State Fault Refusal := .next (s.whenMemory (fun s => xmBurst s n bytes))

/-- BUS_ERROR (R600): counted and recorded; the burst is scheduled again while retries remain, a FIFO burst and a spent
one halt the channel. -/
def xmBusError (s : State) (n : Nat) (isWrite : Bool) : State :=
  let c := s.xmChan n
  match c.move with
  | none => s
  | some m =>
    if n ≥ 32 ∨ s.xmState n ≠ xmRun ∨ (m.paced ∧ !m.inBurst) then s
    else
      let err := if isWrite then 2 else 1
      let s := s.bump XM_BUSERR 0 XM_BUSERR_COUNT
      let s := s.raise 0xA01 4 n [BitVec.ofNat 8 err]
      let used := s.fld XM_CH_STATUS n XM_CH_STATUS_RETRIES
      if used < s.fld XM_CH_CFG n XM_CH_CFG_RETRY ∧ !(m.srcSpace = 2 ∧ !isWrite) then
        (s.setFld XM_CH_STATUS n XM_CH_STATUS_RETRIES (used + 1)).setXmChan n { c with move := some { m with retryAt := true } }
      else s.xmFail n err

/-- BUS_ERROR (R600). -/
def execBusError (n : Nat) (isWrite : Bool) (s : State) : Host.Outcome State Fault Refusal :=
  .next (s.whenMemory (fun s => xmBusError s n isWrite))

/-- XM_RETRY_EXPIRY (R600): 1 µs after an error the burst is issued again. -/
def execXmRetryExpiry (n : Nat) (s : State) : Host.Outcome State Fault Refusal :=
  .next (s.whenMemory (fun s => match (s.xmChan n).move with
  | some m =>
    if m.retryAt then s.setXmChan n { s.xmChan n with move := some { m with retryAt := false } } else s
  | none => s))

/-- A write of XM_CH_n_CFG: writes to channels 29 to 31 are discarded (R602); PRIO 7 becomes 6 (R597). -/
def xmCfgWrite (n : Nat) (v : Word) (s : State) : State :=
  if n ≥ 29 then s
  else
    let s := s.writeByType (XM_CH_CFG.at n) v
    if XM_CH_CFG_PRIO.get v = 7 then s.setFld XM_CH_CFG n XM_CH_CFG_PRIO 6 else s

/-- Halt a channel in a STATE; its program is lost (R597, R602). -/
def State.xmHalt (s : State) (n v : Nat) : State := (s.setXmChan n ⟨none, [], none, [], 0⟩).setXmState n v

end Sys2Proof.Machine
end

