-- ==== Sys2Proof/Machine/Climate.lean ====
section
/-! DEFINITION. The climate unit (chapter 13): inputs and sensors, loop engines, headroom and the thermal states, the
condensation hold, and the energy store. -/

namespace Sys2Proof.Machine

open Sys2Proof

/-- The number of a field read as a signed value of its width. -/
def signedOf (len v : Nat) : Int := if v < 2 ^ (len - 1) then v else (v : Int) - 2 ^ len

/-- A signed value as the bits of a field of `len` bits, saturating. -/
def satSigned (len : Nat) (v : Int) : Nat :=
  let lo : Int := -(2 ^ (len - 1) : Nat)
  let hi : Int := (2 ^ (len - 1) : Nat) - 1
  let w := max lo (min hi v)
  (if w < 0 then w + (2 ^ len : Nat) else w).toNat

/-- A signed field of a register. -/
def State.sfld (s : State) (r : Reg) (i : Nat) (f : Fld) : Int := signedOf f.len (s.fld r i f)

/-- The state with a signed field set, saturating. -/
def State.setSfld (s : State) (r : Reg) (i : Nat) (f : Fld) (v : Int) : State := s.setFld r i f (satSigned f.len v)

/-- Whether an enclosure is in HOT (R432). -/
def State.encHot (s : State) (e : Nat) : Bool := s.fld CL_ENC_STATE e CL_ENC_STATE_HOT = 1

/-! ### Inputs and sensors (R419 to R423) -/

/-- Valid analog inputs of an enclosure and role. -/
def State.validInputs (s : State) (e role : Nat) : List Int :=
  ((List.range 64).filter (fun k => s.fld CL_AIN k CL_AIN_VALID = 1 && s.fld CL_AIN k CL_AIN_ENC = e &&
    s.fld CL_AIN k CL_AIN_ROLE = role)).map (fun k => s.sfld CL_AIN k CL_AIN_VALUE)

/-- Valid sensors of an enclosure. -/
def State.validSensors (s : State) (e : Nat) : List Nat :=
  (List.range 128).filter (fun k => s.fld CL_SNS k CL_SNS_VALID = 1 && s.fld CL_SNS k CL_SNS_ENC = e)

/-- Valid air temperatures of an enclosure in 0.01 °C: inputs of role 1 and sensors (R421). -/
def State.airTemps (s : State) (e : Nat) : List Int :=
  s.validInputs e 1 ++ (s.validSensors e).map (fun k => s.sfld CL_SNS k CL_SNS_T)

/-- Profile of a sensor in the image. -/
def State.snsProfile (s : State) (k : Nat) : Nat :=
  match s.boot.image.bind (fun i => Tab.get? i.sensors k) with
  | some c => c.profile
  | none => 0

/-- The humidity of an enclosure in 0.1 %: the highest of its valid humidity sensors (R421, R433). -/
def State.humidity (s : State) (e : Nat) : Option Nat :=
  let l := ((s.validSensors e).filter (fun k => s.snsProfile k = 2)).map (fun k => s.fld CL_SNS k CL_SNS_RH)
  match l with
  | [] => none
  | a :: as => some (as.foldl max a)

/-- The highest of a list. -/
def maxInt : List Int → Option Int
  | [] => none
  | a :: as => some (as.foldl max a)

/-- The lowest of a list. -/
def minInt : List Int → Option Int
  | [] => none
  | a :: as => some (as.foldl min a)

/-- The scale of the logarithm: 20 decimals. -/
def lnOne : Nat := 10 ^ 20

/-- The natural logarithm of a positive number in units of 10⁻²⁰: the power of 2 below it, and 2 artanh z of the rest by its series. -/
def lnScaled (n : Nat) : Nat :=
  let k := (List.range 64).countP (fun i => 2 ^ (i + 1) ≤ n)
  let z := (n - 2 ^ k) * lnOne / (n + 2 ^ k)
  let sum := (List.range 24).foldl (fun (a : Nat × Nat) i => (a.1 + a.2 / (2 * i + 1), a.2 * (z * z / lnOne) / lnOne)) (0, z)
  k * 69314718055994530942 + 2 * sum.1

/-- The Magnus form of R433 in 0.01 °C, to the nearest: temperature in 0.01 °C, humidity in 0.1 %; a free value where it has none. -/
def magnus (t : Int) (rh : Nat) : Int :=
  let d := 24312 + t
  if rh = 0 ∨ d ≤ 0 then Config.dewPoint t rh
  else
    let g : Int := (lnScaled rh : Int) - lnScaled 1000 + 1762 * t * lnOne / (100 * d)
    let q : Int := 1762 * (lnOne / 100) - g
    if q ≤ 0 then Config.dewPoint t rh else (2 * 24312 * g + q) / (2 * q)

/-- The dew point of an enclosure in 0.01 °C (R433). -/
def State.dewPoint (s : State) (e : Nat) : Int :=
  match s.humidity e, maxInt (s.airTemps e) with
  | some rh, some t => magnus t rh
  | _, _ => 100 * s.fld CL_CLIM_PARAM 0 CL_CLIM_PARAM_DEW_FALLBACK_C

/-- The measurements of an enclosure as its registers show them (R431, R433). -/
def State.showEnclosure (s : State) (e : Nat) : State :=
  let ts := s.airTemps e
  let s := s.setFld CL_ENC_STATE e CL_ENC_STATE_T_VALID (b2n !ts.isEmpty)
  let s := s.setFld CL_ENC_STATE e CL_ENC_STATE_RH_VALID (b2n (s.humidity e).isSome)
  let s := s.setSfld CL_ENC_STATE e CL_ENC_STATE_DEW_DC (s.dewPoint e / 10)
  let s := s.setSfld CL_ENC_AIR e CL_ENC_AIR_T_MAX ((maxInt ts).getD 0)
  s.setSfld CL_ENC_AIR e CL_ENC_AIR_T_MIN ((minInt ts).getD 0)

/-- A bit of CL_TRIP is set (R446). -/
def State.trip (s : State) (f : Fld) : State := s.setFld CL_TRIP 0 f 1

/-- ANALOG_INPUT_UPDATE (R419): the value of a new mean code, its validity, and the history the 12 V current is averaged
over. -/
def State.ainUpdate (s : State) (k code : Nat) : State :=
  match s.boot.image.bind (fun i => Tab.get? i.ains k) with
  | none => s
  | some c =>
    let v : Int := (code * c.gain) / 65536 + c.offset
    let ok := code != 0 && code != 0xFFFF && c.min ≤ v && v ≤ c.max && c.role != 0
    let was := s.fld CL_AIN k CL_AIN_VALID = 1
    let s := s.setSfld CL_AIN k CL_AIN_VALUE v
    let s := (s.setFld CL_AIN k CL_AIN_ROLE c.role).setFld CL_AIN k CL_AIN_ENC c.enc
    let s := s.setFld CL_AIN k CL_AIN_VALID (b2n ok)
    let h := if ok then (Tab.getD s.cl.ainHist k [] ++ [v]) else []
    let s := { s with cl := { s.cl with ainHist := Tab.set s.cl.ainHist k (h.drop (h.length - 6)) } }
    let s := s.setFld CL_ENC_STATE c.enc CL_ENC_STATE_I_VALID (b2n !(s.validInputs c.enc 3).isEmpty)
    if was && !ok then s.trip CL_TRIP_SENSOR_LOST else s

/-- SENSOR_READ_DONE (R421, R422): a raw reading of the sensor's profile, or a failed read. -/
def State.sensorRead (s : State) (k : Nat) (r : Option (Int × Nat)) : State :=
  match s.boot.image.bind (fun i => Tab.get? i.sensors k) with
  | none => s
  | some c =>
    if c.profile = 0 then s
    else
      let s := s.setFld CL_SNS k CL_SNS_ENC c.enc
      match r with
      | some (t, h) =>
        let temp := if c.profile = 1 then t * 100 / 256 else t * 100 / 128
        let s := s.setSfld CL_SNS k CL_SNS_T temp
        let s := s.setFld CL_SNS k CL_SNS_RH (if c.profile = 1 then 0 else min 1000 (h * 10 / 512))
        let s := { s with cl := { s.cl with snsFails := Tab.erase s.cl.snsFails k } }
        s.setFld CL_SNS k CL_SNS_VALID 1
      | none =>
        let n := Tab.getD s.cl.snsFails k 0 + 1
        let s := { s with cl := { s.cl with snsFails := Tab.set s.cl.snsFails k (min n 3) } }
        if n ≥ 3 then
          let was := s.fld CL_SNS k CL_SNS_VALID = 1
          let s := s.setFld CL_SNS k CL_SNS_VALID 0
          if was then s.trip CL_TRIP_SENSOR_LOST else s
        else s

/-- TACH_MIN of a fan. -/
def State.tachMin (s : State) (f : Nat) : Nat :=
  match s.boot.image.bind (fun i => Tab.get? i.fans f) with
  | some c => c.tachMin
  | none => 0

/-- FAN_FAIL (R423): below TACH_MIN for 5 s at a duty of at least 30 %. -/
def State.fanFailed (s : State) (f rpm : Nat) : State :=
  let s := s.setFld CL_FAN f CL_FAN_RPM (min rpm 32767)
  if rpm < s.tachMin f ∧ s.fld CL_FAN f CL_FAN_DUTY ≥ 3000 ∧ s.fld CL_FAN f CL_FAN_FAIL = 0 then
    ((s.setFld CL_FAN f CL_FAN_FAIL 1).trip CL_TRIP_FAN_FAIL).raise 0xB01 4 noInst [BitVec.ofNat 8 f]
  else s

/-- FAN_FAIL_CLEAR (R423). -/
def State.fanBack (s : State) (f rpm : Nat) : State :=
  let s := s.setFld CL_FAN f CL_FAN_RPM (min rpm 32767)
  if rpm > s.tachMin f then s.setFld CL_FAN f CL_FAN_FAIL 0 else s

/-! ### Loop engines (R424 to R427) -/

/-- Fans an engine drives. -/
def State.engineFans (s : State) (n : Nat) : List Nat :=
  match s.boot.image with
  | some i => (i.fans.filter (fun e => e.2.engine = some n)).map (·.1)
  | none => []

/-- Heaters an engine drives. -/
def State.engineHeaters (s : State) (n : Nat) : List Nat :=
  match s.boot.image with
  | some i => (i.heaters.filter (fun e => e.2.engine = some n)).map (·.1)
  | none => []

/-- One duty step in the units of the integrators. -/
def dutyUnit : Int := 6553600

/-- Put a duty on every output of an engine. -/
def State.applyDuty (s : State) (n duty : Nat) : State :=
  let s := s.each (s.engineFans n) (fun f s => s.setFld CL_FAN f CL_FAN_DUTY duty)
  s.each (s.engineHeaters n) (fun h s => s.setFld CL_HTR h CL_HTR_DUTY duty)

/-- The state with u of an engine set and applied. -/
def State.setDuty (s : State) (n : Nat) (u : Int) : State :=
  let d := (u / dutyUnit).toNat
  let s := { s with cl := { s.cl with uPrev := Tab.set s.cl.uPrev n u } }
  (s.setFld CL_LE_STATE n CL_LE_STATE_OUT d).applyDuty n d

/-- The process value of an engine: maximum, minimum or mean of its valid inputs (R424). -/
def aggregate (agg : Nat) (xs : List Int) : Option Int :=
  if agg = 1 then minInt xs
  else if agg = 2 then (if xs.isEmpty then none else some (xs.sum / xs.length))
  else maxInt xs

/-- Awake drives of an enclosure (R424). -/
def State.awakeIn (s : State) (e : Nat) : Nat :=
  (Tab.keys s.dl.slots).countP (fun n => s.enclosure n = e && s.awake n)

/-- One period of an engine with process value `y` (R424, R425). -/
def State.enginePeriod (s : State) (n : Nat) (y : Int) : State :=
  let e := s.fld CL_LE_CFG n CL_LE_CFG_ENC
  let period : Int := s.fld CL_LE_CFG n CL_LE_CFG_PERIOD
  let heater := !(s.engineHeaters n).isEmpty
  let own := s.sfld CL_LE_SET n CL_LE_SET_SETPOINT
  let sp := if heater && s.cl.held.contains e then max own (s.dewPoint e + 700) else own
  let err := if s.fld CL_LE_CFG n CL_LE_CFG_DIR = 1 then y - sp else sp - y
  let p := s.sfld CL_LE_GAIN n CL_LE_GAIN_KP * err * 25600
  let i := Tab.getD s.cl.integ n 0
  let iNext := i + s.fld CL_LE_GAIN n CL_LE_GAIN_KI * period * err
  let src := s.fld CL_LE_CFG n CL_LE_CFG_FF_SRC
  let k := s.fld CL_LE_FF n CL_LE_FF_FF_INPUT
  let f : Int := if src = 1 then (if s.fld CL_AIN k CL_AIN_VALID = 1 then s.sfld CL_AIN k CL_AIN_VALUE else 0)
    else if src = 2 then s.awakeIn e else 0
  let raw := p + iNext + s.sfld CL_LE_FF n CL_LE_FF_KFF * f * 25600
  let lo := s.fld CL_LE_LIMIT n CL_LE_LIMIT_OUT_MIN * dutyUnit
  let hi := s.fld CL_LE_LIMIT n CL_LE_LIMIT_OUT_MAX * dutyUnit
  let uc := min hi (max lo raw)
  let i' := if raw = uc || (raw > hi && err < 0) || (raw < lo && err > 0) then iNext else i
  let prev := Tab.getD s.cl.uPrev n 0
  let step := s.fld CL_LE_SET n CL_LE_SET_RATE * period * 65536
  let fanHot := s.encHot e && !(s.engineFans n).isEmpty
  let u := if fanHot then hi else prev + min step (max (-step) (uc - prev))
  let s := { s with cl := { s.cl with integ := Tab.set s.cl.integ n i' } }
  let s := s.setFld CL_LE_STATE n CL_LE_STATE_SAT_HI (b2n (raw > hi))
  let s := s.setFld CL_LE_STATE n CL_LE_STATE_SAT_LO (b2n (raw < lo))
  let s := s.setSfld CL_LE_STATE n CL_LE_STATE_INTEG (i' / dutyUnit)
  (s.setFld CL_LE_STATE n CL_LE_STATE_FAILSAFE 0).setDuty n u

/-- LOOP_PERIOD (R424 to R427, R448): one operation of the engine. -/
def State.loopPeriod (s : State) (n : Nat) : State :=
  if !s.hasCL || n ≥ 16 || s.fld CL_LE_CFG n CL_LE_CFG_EN = 0 || s.cl.outputsOff || s.pw.power = .ebb || s.pw.power = .off then s
  else
    let e := s.fld CL_LE_CFG n CL_LE_CFG_ENC
    let role := s.fld CL_LE_CFG n CL_LE_CFG_ROLE
    let xs := if role = 1 then s.airTemps e else s.validInputs e role
    match aggregate (s.fld CL_LE_CFG n CL_LE_CFG_AGG) xs with
    | some y => s.enginePeriod n y
    | none =>
      let d := if (s.engineFans n).isEmpty then 0 else s.fld CL_LE_LIMIT n CL_LE_LIMIT_OUT_MAX
      let s := s.setFld CL_LE_STATE n CL_LE_STATE_FAILSAFE 1
      (s.setFld CL_LE_STATE n CL_LE_STATE_OUT d).applyDuty n d

/-! ### Capture (R428, R429) -/

/-- CAPTURE_SAMPLE: a sample enters its FIFO, or is dropped and counted; the stream's request line follows its fill. -/
def State.capture (s : State) (stream : Nat) (bs : List Byte) : State :=
  let on1 : Bool := match s.boot.image with
    | some i => i.stream1 != 0
    | none => false
  if stream = 0 then
    if s.cl.fifo0.length + bs.length > 4096 then s.bump CL_CAPTURE 0 CL_CAPTURE_OVERRUN_0
    else
      let s := { s with cl := { s.cl with fifo0 := s.cl.fifo0 ++ bs } }
      s.xmSetLine 16 (s.cl.fifo0.length ≥ 1024)
  else if stream = 1 ∧ on1 then
    if s.cl.fifo1.length + bs.length > 4096 then s.bump CL_CAPTURE 0 CL_CAPTURE_OVERRUN_1
    else
      let s := { s with cl := { s.cl with fifo1 := s.cl.fifo1 ++ bs } }
      s.xmSetLine 17 (s.cl.fifo1.length ≥ 1024)
  else s

/-! ### Headroom and thermal states (R431, R432) -/

/-- H(e) in 0.01 °C from the present measurements (R431). -/
def State.headroomNow (s : State) (e : Nat) : Int :=
  match maxInt (s.airTemps e) with
  | some t => 100 * (s.fld CL_CLIM_PARAM 0 CL_CLIM_PARAM_T_LIMIT_C : Int) - t
  | none => 0

/-- HEADROOM_TICK (R431, R432): H of every enclosure, and entry into HOT, whose fan engines go to OUT_MAX. -/
def State.headroomTick (s : State) : State :=
  if !s.hasCL then s
  else
    let s := s.each (List.range 32) (fun e s =>
      let h := s.headroomNow e
      let s := (s.showEnclosure e).setSfld CL_ENC_STATE e CL_ENC_STATE_HEADROOM_DC (h / 10)
      if h < 0 ∧ !s.encHot e then
        ((s.setFld CL_ENC_STATE e CL_ENC_STATE_HOT 1).trip CL_TRIP_ENC_HOT).raise 0xB02 5 e
      else s)
    s.issuePasses

/-- ENC_CRIT (R432): drives of the enclosure that are not pinned go to STANDBY. -/
def State.enterCrit (s : State) (e : Nat) : State :=
  let limit : Int := -(100 * (s.fld CL_CLIM_PARAM 0 CL_CLIM_PARAM_CRIT_MARGIN_C : Nat))
  if s.hasCL && s.headroomNow e < limit && s.encHot e && s.fld CL_ENC_STATE e CL_ENC_STATE_CRIT = 0 then
    let s := ((s.setFld CL_ENC_STATE e CL_ENC_STATE_CRIT 1).trip CL_TRIP_ENC_CRIT).raise 0xB03 6 e
    s.sendStandby ((Tab.keys s.dl.slots).filter (fun n => s.enclosure n = e))
  else s

/-- ENC_HOT_EXIT (R432): HOT is left, and CRIT with it. -/
def State.leaveHot (s : State) (e : Nat) : State :=
  if s.hasCL && s.headroomNow e ≥ 100 && s.encHot e then
    let s := (s.setFld CL_ENC_STATE e CL_ENC_STATE_HOT 0).setFld CL_ENC_STATE e CL_ENC_STATE_CRIT 0
    { s with dl := { s.dl with evaluate := true } }
  else s

/-! ### The condensation hold (R434 to R436) -/

/-- Whether an enclosure meets the condition of the hold (R434). -/
def State.damp (s : State) (e : Nat) : Bool :=
  match minInt (s.airTemps e) with
  | some t => t < s.dewPoint e + 500
  | none => true

/-- The state with the hold of an enclosure set, as CL_HOLD and CL_ENC_e_STATE show it. -/
def State.setHold (s : State) (e : Nat) (on : Bool) : State :=
  let l := s.cl.held.filter (· ≠ e)
  let s := { s with cl := { s.cl with held := if on then l ++ [e] else l } }
  let w := s.fld CL_HOLD 0 CL_HOLD_HELD
  let s := s.setFld CL_HOLD 0 CL_HOLD_HELD (if on then w ||| 2 ^ e else w &&& (0xFFFFFFFF ^^^ 2 ^ e))
  let s := s.setFld CL_ENC_STATE e CL_ENC_STATE_HOLD (b2n on)
  if on then s else { s with dl := { s.dl with evaluate := true } }

/-- HOLD_EVALUATION (R434, R436). -/
def State.evaluateHold (s : State) : State :=
  if !s.hasCL then s
  else
    s.each (List.range 32) (fun e s =>
      let s := s.showEnclosure e
      let first := !s.cl.evaluated.contains e
      let s := { s with cl := { s.cl with evaluated := if first then s.cl.evaluated ++ [e] else s.cl.evaluated } }
      if s.damp e then s.setHold e true else if first then s.setHold e false else s)

/-- HOLD_DWELL_EXPIRY (R434). -/
def State.holdOver (s : State) (e : Nat) : State :=
  if s.hasCL && e < 32 && s.cl.held.contains e && !s.damp e then s.setHold e false else s

/-- HOLD_LONG (R435). -/
def State.holdLong (s : State) (e : Nat) : State :=
  if s.hasCL && s.cl.held.contains e then (s.trip CL_TRIP_HOLD_LONG).raise 0xB04 5 e else s

/-- HUMID_HIGH (R447). -/
def State.humidHigh (s : State) (e : Nat) : State :=
  match s.humidity e with
  | some h => if s.hasCL && h > 800 then (s.trip CL_TRIP_HUMID_HIGH).raise 0xB09 4 e else s
  | none => s

/-! ### The energy store (R437 to R445) -/

/-- Charger states (R437). -/
def chgOff : Nat := 0
def chgCharge : Nat := 1
def chgFloat : Nat := 2
def chgFault : Nat := 3

/-- The state of the charger. -/
def State.charger (s : State) : Nat := s.fld CL_CHG 0 CL_CHG_STATE

/-- The charger enters a state: CHG_EN is high in every state but OFF, and CHG_SET has the duty that gives TARGET (R437, R438,
R484). -/
def State.setCharger (s : State) (v : Nat) : State :=
  let full := match s.boot.image with
    | some i => i.chgFullDv
    | none => 0
  let s := (s.setFld CL_CHG 0 CL_CHG_STATE v).setFld CL_CHG 0 CL_CHG_EN (b2n (v != chgOff))
  (s.emit (.duty "CHG_SET" (if full = 0 then 0 else s.fld CL_CHG 0 CL_CHG_TARGET_DV * 10000 / full))).emit (.pin "CHG_EN" (v != chgOff))

/-- TARGET − 0.5 V in mV. -/
def State.chargedMv (s : State) : Nat := 100 * s.fld CL_CHG 0 CL_CHG_TARGET_DV - 500

/-- The charger follows the bank voltage (R437, R438). -/
def State.followBank (s : State) (vMv : Nat) : State :=
  let st := s.charger
  if st = chgOff then s
  else if vMv ≥ s.chargedMv then s.setCharger chgFloat
  else if st = chgFault then s
  else s.setCharger chgCharge

/-- v_oc in 0.1 µV (R440). -/
def vOpen (vMv : Nat) (iMa : Int) (esr : Nat) : Int := 10000 * (vMv : Int) - iMa * esr

/-- v_floor in 0.1 µV (R440). -/
def State.vFloor (s : State) : Int :=
  let cut := s.fld CL_BANK_PARAM 0 CL_BANK_PARAM_V_CUT_DV
  let eta := s.fld CL_BANK_PARAM 0 CL_BANK_PARAM_ETA_PCT
  let p := s.fld SE_WIN_PARAM 0 SE_WIN_PARAM_P_EBB_W
  ((1000000 * cut + s.fld CL_BANK_CE 0 CL_BANK_CE_ESR * p * 1000000 / (eta * cut) : Nat) : Int)

/-- E_u in joules (R440). -/
def State.usableEnergy (s : State) (vMv : Nat) (iMa : Int) : Nat :=
  let oc := vOpen vMv iMa (s.fld CL_BANK_CE 0 CL_BANK_CE_ESR)
  let fl := s.vFloor
  if oc ≤ fl then 0
  else
    let eta : Int := s.fld CL_BANK_PARAM 0 CL_BANK_PARAM_ETA_PCT
    let c : Int := s.fld CL_BANK_CE 0 CL_BANK_CE_C_MF
    (eta * c * (oc * oc - fl * fl) / (2 * 10 ^ 19)).toNat

/-- Report an energy to the stripe engine, which applies it (R161, R441). -/
def State.reportEu (s : State) (e : Nat) : State :=
  State.winRecompute { s with cl := { s.cl with euReported := e }, se := { s.se with eu := e } }

/-- EU_COMPUTE (R437 to R441): the bank's voltage and current, the charger, the arming of the trip, E_u, and a report at once
of a fall of more than 2 %. -/
def State.euCompute (s : State) (vMv : Nat) (iMa : Int) : State :=
  if !s.hasCL then s
  else
    let s := (s.setFld CL_BANK_VI 0 CL_BANK_VI_V_MV (min vMv 65535)).setSfld CL_BANK_VI 0 CL_BANK_VI_I_MA iMa
    let s := s.followBank vMv
    let s : State := if vMv > 100 * s.fld CL_BANK_PARAM 0 CL_BANK_PARAM_V_TRIP_DV + 1000 && s.pw.power != .ebb then
        s.setFld CL_STATUS 0 CL_STATUS_TRIP_ARMED 1 else s
    let e := min 65535 (s.usableEnergy vMv iMa)
    let s := s.setFld CL_BANK_EU 0 CL_BANK_EU_E_U e
    if 100 * e < 98 * s.cl.euReported && s.cl.testV0.isNone && !s.cl.testWait then s.reportEu e else s

/-- EU_REPORT (R441): once a second; during a test the report of R443 step 2 stands. -/
def State.euReport (s : State) : State :=
  if !s.hasCL || s.cl.testWait || s.cl.testV0.isSome then s else s.reportEu (s.fld CL_BANK_EU 0 CL_BANK_EU_E_U)

/-- CHARGER_FAULT (R437, R438). -/
def State.chargerFails (s : State) : State :=
  if s.hasCL && s.charger = chgCharge && s.fld CL_BANK_VI 0 CL_BANK_VI_V_MV < s.chargedMv then
    ((s.setCharger chgFault).trip CL_TRIP_CHARGER_FAULT).raise 0xB05 5 noInst
  else s

/-- Heater outputs marked TEST_LOAD (R442). -/
def State.testLoads (s : State) : List Nat :=
  match s.boot.image with
  | some i => (i.heaters.filter (fun e => e.2.testLoad)).map (·.1)
  | none => []

/-- The test load is switched. -/
def State.switchLoad (s : State) (on : Bool) : State :=
  let s := s.each s.testLoads (fun h s => s.setFld CL_HTR h CL_HTR_DUTY (if on then 10000 else 0))
  s.setFld CL_CHG 0 CL_CHG_TEST (b2n on)

/-- A running test ends (R443 step 5, R445, R449): the test load is off, and the capture of channel 30 stops (R430, chapter 20). -/
def State.dropTest (s : State) : State :=
  let s : State := if s.cl.testV0.isSome then s.xmStopFw 30 else s
  let s := { s with cl := { s.cl with testV0 := none, testWait := false } }
  (s.switchLoad false).setFld CL_STATUS 0 CL_STATUS_TEST_RUN 0

/-- The climate unit in EBB (R445, R448): outputs at 0, the charger OFF, a running test discarded, the trip disarmed (R439). -/
def State.climateEbb (s : State) : State :=
  if !s.hasCL || s.pw.power != .ebb then s
  else
    let s := s.dropTest
    let s := s.each (List.range 32) (fun f s => s.setFld CL_FAN f CL_FAN_DUTY 0)
    let s := s.each (List.range 16) (fun h s => s.setFld CL_HTR h CL_HTR_DUTY 0)
    (s.setCharger chgOff).setFld CL_STATUS 0 CL_STATUS_TRIP_ARMED 0

/-- VBANK_TRIP (R439, R445): the armed comparator starts the ebb. -/
def State.bankTrip (s : State) : State :=
  if s.hasCL && s.fld CL_STATUS 0 CL_STATUS_TRIP_ARMED = 1 then
    (((s.trip CL_TRIP_VBANK_TRIP).raise 0xB0A 6 noInst).startEbb 2).climateEbb
  else s

/-- P_test in joules from the bank's open-circuit voltage (R442), rounded up. -/
def State.testEnergy (s : State) : Nat :=
  let v := (vOpen (s.fld CL_BANK_VI 0 CL_BANK_VI_V_MV) (s.sfld CL_BANK_VI 0 CL_BANK_VI_I_MA)
    (s.fld CL_BANK_CE 0 CL_BANK_CE_ESR)).toNat
  let r := s.fld CL_TEST_PARAM 0 CL_TEST_PARAM_R_LOAD_DO
  if r = 0 then 0 else ceilDiv (v * v * s.fld CL_TEST_PARAM 0 CL_TEST_PARAM_PULSE_10MS) (r * 10 ^ 15)

/-- Ten minutes in nanoseconds. -/
def tenMinutes : Nat := 600 * 10 ^ 9

/-- PULSE_TEST_START (R442, R443 steps 1 and 2). -/
def State.testStart (s : State) : State :=
  let soon : Bool := match s.cl.lastStart with
    | some t => s.devNs < t + tenMinutes
    | none => false
  let e := s.fld CL_BANK_EU 0 CL_BANK_EU_E_U
  if s.hasCL && s.charger = chgFloat && (s.pw.power = .run || s.pw.power = .harbour) && !s.testLoads.isEmpty &&
      e ≥ s.testEnergy + s.energyRequired && !soon && !s.cl.testWait && s.cl.testV0.isNone then
    let s := (s.setCharger chgOff).setFld CL_STATUS 0 CL_STATUS_TEST_RUN 1
    let s := { s with cl := { s.cl with testWait := true, lastStart := some s.devNs } }
    s.reportEu (e - s.testEnergy)
  else s

/-- The trace buffer of the test capture (R430, chapter 20). -/
def traceBuffer : Nat := 0x6C00100000

/-- Stream 1 runs when the image enables it (R430): channel 29 fills a ring in region 3 whose place and length the manual does not
give (log entry 150). -/
def State.startStream1 (s : State) : State :=
  match s.boot.image with
  | some i =>
    if s.hasCL && i.stream1 != 0 then
      let d := s.draw Config.freeNat
      let e := d.2.draw Config.freeNat
      e.2.xmStartFw 29 (captureProgram 1 (0x6C00000000 + 4096 * (d.1 % 2 ^ 20)) (1024 * (1 + e.1 % 2 ^ 16)))
    else s
  | none => s

/-- PULSE_TEST_ONSET (R443 steps 3 and 4): channel 30 captures stream 0 from before the load is on (R430, chapter 20). -/
def State.testOnset (s : State) (v0 : Nat) : State :=
  if s.cl.testWait then
    let s := s.xmStartFw 30 (captureProgram 0 traceBuffer 65536)
    State.switchLoad { s with cl := { s.cl with testWait := false, testV0 := some v0 } } true
  else s

/-- ESR in 0.1 mΩ and C in mF of a fit (R443 step 7). -/
def fitResults (v0 : Nat) (f : PulseFit) : Nat × Nat :=
  (if f.iMa = 0 then 0 else (v0 - f.v1Mv) * 10000 / f.iMa, if f.sMvPerS = 0 then 0 else f.iMa * 1000 / f.sMvPerS)

/-- Whether a test is rejected (R444). -/
def State.testRejected (s : State) (v0 : Nat) (f : PulseFit) : Bool :=
  let r := s.fld CL_TEST_PARAM 0 CL_TEST_PARAM_R_LOAD_DO
  let c := (fitResults v0 f).2
  let name := s.fld CL_BANK_NAMEPLATE 0 CL_BANK_NAMEPLATE_C_MF
  f.residualMv > 50 || f.iMa = 0 || f.sMvPerS = 0 || f.v1Mv > v0 || 5 * f.iMa * r > 6 * 10 * v0 ||
    5 * f.iMa * r < 4 * 10 * v0 || 4 * c < name || c > 4 * name

/-- PULSE_TEST_END (R443 steps 5 to 7, R444). -/
def State.testEnd (s : State) (f : PulseFit) : State :=
  match s.cl.testV0 with
  | none => s
  | some v0 =>
    let s := s.dropTest.setCharger chgCharge
    if s.testRejected v0 f then s.raise 0xB07 3 noInst
    else
      let r := fitResults v0 f
      let s := (s.setFld CL_BANK_CE 0 CL_BANK_CE_C_MF (min r.2 65535)).setFld CL_BANK_CE 0 CL_BANK_CE_ESR (min r.1 65535)
      let s := { s with cl := { s.cl with lastTest := some s.devNs } }
      let s := s.setFld CL_STATUS 0 CL_STATUS_BANK_MEASURED 1
      if 10 * r.2 < 8 * s.fld CL_BANK_NAMEPLATE 0 CL_BANK_NAMEPLATE_C_MF ∨
          r.1 > 2 * s.fld CL_BANK_NAMEPLATE 0 CL_BANK_NAMEPLATE_ESR then
        (s.trip CL_TRIP_BANK_AGED).raise 0xB06 4 noInst
      else s

/-- TEST_POSTPONED (R442). -/
def State.testPostponed (s : State) : State :=
  if s.hasCL then (s.trip CL_TRIP_TEST_POSTPONED).raise 0xB08 4 noInst else s

/-- TEST_AGE_H: whole hours since the last accepted test. -/
def State.testAge (s : State) : Nat :=
  match s.cl.lastTest with
  | some t => min 0xFFFE ((s.devNs - t) / (3600 * 10 ^ 9))
  | none => 0xFFFF

/-! ### UNIT reset (R449) -/

/-- A UNIT reset of CL: failsafe outputs, engines from i = 0 and the output they find, every enclosure held again. -/
def State.clReset (s : State) : State :=
  let s := s.dropTest
  let duty := match s.boot.image with
    | some i => i.failsafeDuty
    | none => 0
  let s := s.each (List.range 32) (fun f s => s.setFld CL_FAN f CL_FAN_DUTY duty)
  let s := s.each (List.range 16) (fun h s => s.setFld CL_HTR h CL_HTR_DUTY 0)
  let s := s.setReg (CL_TRIP.at 0) 0
  let s := s.each (List.range 128) (fun k s => s.setFld CL_SNS k CL_SNS_VALID 0)
  let s := s.each (List.range 64) (fun k s => s.setFld CL_AIN k CL_AIN_VALID 0)
  let s := s.each (List.range 32) (fun e s => s.setReg (CL_ENC_STATE.at e) 0)
  let s := s.each (List.range 32) (fun e s => s.setHold e true)
  let us := (List.range 16).map (fun n =>
    (n, if (s.engineFans n).isEmpty then (0 : Int) else (duty : Int) * dutyUnit))
  { s with cl := { s.cl with integ := [], uPrev := us, snsFails := [], ainHist := [], fifo0 := [], fifo1 := [],
                             evaluated := [], outputsOff := true } }

end Sys2Proof.Machine
end

