-- ==== Sys2Proof/Machine/Memory.lean ====
section
/-! DEFINITION. The memory controller (chapter 18): address mapping, in-line ECC results, row activation limits,
refresh, training, the diagnostic helper and frequency changes. -/

namespace Sys2Proof.Machine

open Sys2Proof

/-- The four regions of R553: base and size in GiB, and grain in bytes. -/
def mcRegions : List (Nat × Nat × Nat) := [(0, 64, 4096), (64, 64, 4096), (128, 304, 256), (432, 16, 1024)]

/-- The region of a device address (R553), with its base in bytes and its grain. -/
def mcRegionOf (a : Nat) : Option (Nat × Nat) :=
  (mcRegions.find? (fun r => r.1 * 2 ^ 30 ≤ a && a < (r.1 + r.2.1) * 2 ^ 30)).map (fun r => (r.1 * 2 ^ 30, r.2.2))

/-- The channel and channel-local address of a device address (R553). -/
def mcMap (a : Nat) : Option (Nat × Nat) :=
  (mcRegionOf a).map (fun r =>
    let q := (a - r.1) / r.2
    ((q ^^^ (q / 64) ^^^ (q / 4096)) % 64, r.1 / 64 + q / 64 * r.2 + (a - r.1) % r.2))

/-- Row, column and bank of a channel-local address (R554). -/
def mcCell (l : Nat) : Nat × Nat × Nat :=
  let row := l / 32768
  (row, l % 2048, (l / 2048 % 16) ^^^ (row % 16) ^^^ (row / 16 % 16))

/-- The local address of the check bytes of a data block (R549). -/
def mcCheckAddr (l : Nat) : Nat := 0x1C0000000 + 8 * (l / 64)

/-- DRAM_READ_COMPLETE (R551): a corrected error is counted; an uncorrectable one is counted, its local address kept and
an event recorded. The error response to the requester is the row's own end. -/
def dramReadDone (s : State) (ch l : Nat) (e : EccResult) : State :=
  if ch ≥ 64 then s
  else
    match e with
    | .clean => s
    | .corrected => s.bump MC_CH_ECC ch MC_CH_ECC_CE
    | .uncorrectable =>
      let s := s.bump MC_CH_ECC ch MC_CH_ECC_UE
      let s := s.setReg64 (MC_CH_UE_ADDR_LO.at ch) (MC_CH_UE_ADDR_HI.at ch) l
      s.raise 0x801 6 ch (leBytes 8 l)

/-- DRAM_READ_COMPLETE (R551). -/
def execDramReadComplete (ch laddr _port : Nat) (e : EccResult) (s : State) : Host.Outcome State Fault Refusal :=
  .next (s.whenMemory (fun s => dramReadDone s ch laddr e))

/-- Whether a port is throttled on some bank (R559). -/
def State.portThrottled (s : State) (port : Nat) : Bool := s.mc.throttles.any (fun t => t.2.2 = port)

/-- Bring MC_PORT_p_STAT.THROTTLED in line with the throttles that run. -/
def State.showThrottle (s : State) (port : Nat) : State :=
  s.setFld MC_PORT_STAT port MC_PORT_STAT_THROTTLED (b2n (s.portThrottled port))

/-- ROW_LIMIT (R558): a refresh-management command, the event, and a throttle of the port; port 0 is never throttled
(R559). -/
def execRowLimit (ch bank row port : Nat) (s : State) : Host.Outcome State Fault Refusal :=
  .next (s.whenMemory (fun s => if ch ≥ 64 ∨ bank ≥ 16 ∨ port ≥ 12 ∨ row ≥ 2 ^ 18 then s
  else
    let s := s.bump MC_CH_ACT ch MC_CH_ACT_RFM
    let s := s.raise 0x802 3 ch [BitVec.ofNat 8 bank, BitVec.ofNat 8 port]
    if port = 0 then s
    else
      let s := s.bump MC_CH_ACT ch MC_CH_ACT_THROTTLES
      let ts := if s.mc.throttles.contains (ch, bank, port) then s.mc.throttles
        else s.mc.throttles ++ [(ch, bank, port)]
      State.showThrottle { s with mc := { s.mc with throttles := ts } } port))

/-- THROTTLE_EXPIRY (R559): THROTTLE_US after it began, the port's throttle on the bank ends. -/
def execThrottleExpiry (ch bank port : Nat) (s : State) : Host.Outcome State Fault Refusal :=
  .next (s.whenMemory (fun s => if s.mc.throttles.contains (ch, bank, port) then
    State.showThrottle { s with mc := { s.mc with throttles := s.mc.throttles.filter (· ≠ (ch, bank, port)) } } port
  else s))

/-- The refresh rate a temperature calls for (R560): 0 normal, 1 doubled, 2 quadrupled. -/
def refreshFor (temp : Int) : Nat := if temp > 105 then 2 else if temp > 85 then 1 else 0

/-- Queue a channel for retraining (R563); a channel already queued or being trained stays once. -/
def State.queueRetrain (s : State) (ch : Nat) : State :=
  let s := s.setFld MC_RETRAIN 0 MC_RETRAIN_BUSY 1
  if s.mc.retrain.contains ch ∨ s.mc.step.map (·.1) = some ch then s
  else { s with mc := { s.mc with retrain := s.mc.retrain ++ [ch] } }

/-- Start the next queued retraining at step 3 when none runs (R563). -/
def State.startRetrain (s : State) : State :=
  match s.mc.step, s.mc.retrain with
  | none, ch :: rest =>
    State.setFld { s with mc := { s.mc with step := some (ch, 3), retrain := rest } } MC_CH_STATUS ch MC_CH_STATUS_STATE 3
  | _, _ => s

/-- DRAM_TEMP_POLL (R560, R563): the refresh rate rises at once and falls one step after two successive cooler readings;
above 105 °C an event; a drift of DRIFT_C since the last training queues a retraining. -/
def dramTempPolled (s : State) (ch : Nat) (temp : Int) : State :=
  if ch ≥ 64 then s
  else
    let s := s.setFld MC_CH_STATUS ch MC_CH_STATUS_TEMP_C (BitVec.ofInt 8 temp).toNat
    let cur := s.fld MC_CH_STATUS ch MC_CH_STATUS_REFRESH
    let want := refreshFor temp
    let s : State :=
      if want ≥ cur then
        { (s.setFld MC_CH_STATUS ch MC_CH_STATUS_REFRESH want) with mc := { s.mc with cooler := Tab.erase s.mc.cooler ch } }
      else if Tab.getD s.mc.cooler ch 0 = 0 then { s with mc := { s.mc with cooler := Tab.set s.mc.cooler ch 1 } }
      else
        { (s.setFld MC_CH_STATUS ch MC_CH_STATUS_REFRESH (cur - 1)) with
          mc := { s.mc with cooler := Tab.erase s.mc.cooler ch } }
    let s : State := if want = 2 ∧ cur ≠ 2 then s.raise 0x803 5 ch else s
    match Tab.get? s.mc.trainedAt ch with
    | some t0 =>
      if (temp - t0).natAbs ≥ s.fld MC_RETRAIN 0 MC_RETRAIN_DRIFT_C then (s.queueRetrain ch).startRetrain else s
    | none => { s with mc := { s.mc with trainedAt := Tab.set s.mc.trainedAt ch temp } }

/-- DRAM_TEMP_POLL (R560). -/
def execDramTempPoll (ch : Nat) (temp : Int) (s : State) : Host.Outcome State Fault Refusal :=
  .next (s.whenMemory (fun s => dramTempPolled s ch temp))

/-- CHANNEL_POWER_DOWN (R561): an ACTIVE channel idle for 128 cycles enters power-down. -/
def execChannelPowerDown (ch : Nat) (s : State) : Host.Outcome State Fault Refusal :=
  .next (s.whenMemory (fun s => if ch < 64 ∧ s.fld MC_CH_STATUS ch MC_CH_STATUS_STATE = 0 then
    s.setFld MC_CH_STATUS ch MC_CH_STATUS_STATE 1 else s))

/-- Clamp a written value to a field's range. -/
def clampTo (lo hi v : Nat) : Nat := max lo (min hi v)

/-- A write of MC_RETRAIN (R563): CHANNEL and DRIFT_C are set, DRIFT_C clamped to 5 to 60; GO queues CHANNEL. -/
def mcRetrainWrite (v : Word) (s : State) : State :=
  let s := s.setFld MC_RETRAIN 0 MC_RETRAIN_CHANNEL (MC_RETRAIN_CHANNEL.get v)
  let s := s.setFld MC_RETRAIN 0 MC_RETRAIN_DRIFT_C (clampTo 5 60 (MC_RETRAIN_DRIFT_C.get v))
  if MC_RETRAIN_GO.get v = 1 then (s.queueRetrain (MC_RETRAIN_CHANNEL.get v)).startRetrain else s

/-- MC_RETRAIN_GO (R563). -/
def execMcRetrainGo (port : Nat) (v : Word) (s : State) : Host.Outcome State Fault Refusal :=
  .next (s.hostWrite port (MC_RETRAIN.at 0) (mcRetrainWrite v))

/-- One step of the running retraining ends (R563): steps 3 to 6, then the channel is trained at the current point and
temperature; a failed step ends it. BUSY clears when nothing runs or waits. -/
def retrainStepped (s : State) (ch : Nat) (pass : Bool) : State :=
  match s.mc.step with
  | some (c, n) =>
    if c ≠ ch then s
    else
      let point := s.fld MC_FREQ 0 MC_FREQ_CURRENT
      let s := s.setFld MC_CH_TRAIN ch MC_CH_TRAIN_STEP n
      let s := s.setFld MC_CH_TRAIN ch MC_CH_TRAIN_POINT point
      let s := s.setFld MC_CH_TRAIN ch MC_CH_TRAIN_PASS (b2n (pass && n = 6))
      let s := s.setFld MC_CH_STATUS ch MC_CH_STATUS_STATE 0
      if s.mc.discard then
        { s with mc := { s.mc with step := none, discard := false, retrain := ch :: s.mc.retrain } }
      else if pass ∧ n < 6 then { s with mc := { s.mc with step := some (ch, n + 1) } }
      else
        let t : Int := (BitVec.ofNat 8 (s.fld MC_CH_STATUS ch MC_CH_STATUS_TEMP_C)).toInt
        let s := { s with mc := { s.mc with step := none, trainedAt := Tab.set s.mc.trainedAt ch t } }
        if s.mc.retrain.isEmpty then s.setFld MC_RETRAIN 0 MC_RETRAIN_BUSY 0 else s.startRetrain
  | none => s

/-- RETRAIN_STEP_DONE (R563). -/
def execRetrainStepDone (ch : Nat) (pass : Bool) (s : State) : Host.Outcome State Fault Refusal :=
  .next (s.whenMemory (fun s => retrainStepped s ch pass))

/-- A write of DIAG_CTL (R565): OP and PATTERN are set; GO starts OP, clearing the result, unless BUSY or OP is 0. -/
def mcDiagWrite (ch : Nat) (v : Word) (s : State) : State :=
  let busy := s.fld MC_CH_DIAG_CTL ch MC_CH_DIAG_CTL_BUSY = 1
  let s := s.setFld MC_CH_DIAG_CTL ch MC_CH_DIAG_CTL_OP (MC_CH_DIAG_CTL_OP.get v)
  let s := s.setFld MC_CH_DIAG_CTL ch MC_CH_DIAG_CTL_PATTERN (MC_CH_DIAG_CTL_PATTERN.get v)
  if MC_CH_DIAG_CTL_GO.get v = 1 ∧ !busy ∧ MC_CH_DIAG_CTL_OP.get v ≠ 0 then
    (s.setReg (MC_CH_DIAG_RESULT.at ch) 0).setFld MC_CH_DIAG_CTL ch MC_CH_DIAG_CTL_BUSY 1
  else s

/-- MC_DIAG_GO (R565). -/
def execMcDiagGo (port ch : Nat) (v : Word) (s : State) : Host.Outcome State Fault Refusal :=
  .next (if ch < 64 then s.hostWrite port (MC_CH_DIAG_CTL.at ch) (mcDiagWrite ch v) else s)

/-- MC_DIAG_DONE (R565): a running helper reports failing DQ bits and a saturating count of failing beats. -/
def execMcDiagDone (ch dqFail errors : Nat) (s : State) : Host.Outcome State Fault Refusal :=
  .next (s.whenMemory (fun s => if ch < 64 ∧ s.fld MC_CH_DIAG_CTL ch MC_CH_DIAG_CTL_BUSY = 1 then
    let s := s.setFld MC_CH_DIAG_CTL ch MC_CH_DIAG_CTL_BUSY 0
    let s := s.setFld MC_CH_DIAG_RESULT ch MC_CH_DIAG_RESULT_DQ_FAIL dqFail
    s.setFld MC_CH_DIAG_RESULT ch MC_CH_DIAG_RESULT_ERRORS (min errors 0xFFFF)
  else s))

end Sys2Proof.Machine
end

