-- ==== Sys2Proof/Machine/Standby.lean ====
section
/-! DEFINITION. The standby copies of the partner's pools (R463): their sections, the tables they give, and deltas. -/

namespace Sys2Proof.Machine

open Sys2Proof

/-! ### Sections of a standby copy (R297, R463) -/

/-- The bytes of a standby section. -/
def State.section (s : State) (p sect : Nat) : List Host.Cell := Tab.getD s.pl.sections (16 * p + sect) []

/-- The tables of a pool as the sections of its standby copy give them (R463). -/
def State.standbyTables (s : State) (p : Nat) : PoolTables := tablesOfSections (s.policyFor p) p (s.section p)

/-- The standby tables of a pool are formed again from its sections. -/
def State.refreshStandby (s : State) (p : Nat) : State :=
  { s with pl := { s.pl with standby := Tab.set s.pl.standby p (s.standbyTables p) } }

/-- A frame of a standby copy (R460, R463, R461 step 3): the first bytes of a section replace the section. -/
def State.takeSection (s : State) (p sect off : Nat) (bytes : List Byte) : State :=
  let old := if off = 0 then [] else s.section p sect
  let m := memWrite old off bytes
  State.refreshStandby { s with pl := { s.pl with sections := Tab.set s.pl.sections (16 * p + sect) m } } p

/-- A delta of the partner applies to the standby copy (R463); one of a stripe that a scarf has copied gives its new placement beside the
old one (R254). -/
def State.applyDelta (s : State) (r : DeltaRec) : State :=
  match r with
  | .stripe p n entry =>
    let m := memWrite (s.section p 4) (16 * n) (padTo 16 entry)
    let new := parseStripe (padTo 16 entry)
    let k := stripeKey p n
    let laid := fun (o : Stripe) =>
      if new.scarfCopied && o.gen != new.gen then
        { new with dir := o.dir, oldSet := o.set, oldOffset := o.chunkOffset, oldGen := o.gen, oldSeal := o.sealSeq }
      else
        { new with dir := o.dir, oldSet := o.oldSet, oldOffset := o.oldOffset, oldGen := o.oldGen, oldSeal := o.oldSeal
                   fromScarf := o.fromScarf }
    let put := fun (t : PoolTables) =>
      if new.state = StripeState.free then { t with stripes := Tab.erase t.stripes k }
      else { t with stripes := Tab.set t.stripes k (match Tab.get? t.stripes k with
        | some o => laid o
        | none => { new with fromScarf := new.scarfCopied }) }
    { s with pl := { s.pl with sections := Tab.set s.pl.sections (16 * p + 4) m
                               standby := Tab.modify s.pl.standby p put } }
  | .band slot band state set =>
    let hit := s.pl.standby.filter (fun e => e.2.pool.members.contains slot)
    s.each (Tab.keys hit) (fun p s =>
      { s with pl := { s.pl with standby := Tab.modify s.pl.standby p (fun t =>
          { t with bands := if state = .free then Tab.erase t.bands (bandKey slot band)
                            else Tab.set t.bands (bandKey slot band) (state, set) }) } })

end Sys2Proof.Machine
end

