-- ==== Sys2Proof/Machine/Peer.lean ====
section
/-! DEFINITION. The peer link (chapter 14): forming the pair, mirroring on both sides, silence, resolution, takeover and giveback.
Frames are given by their fields; every frame the device sends goes to the trace (log entry 7). -/

namespace Sys2Proof.Machine

open Sys2Proof

/-- The other side. -/
def otherSide (side : Nat) : Nat := 1 - side

/-- Bit p for each pool p of a list. -/
def poolMask (ps : List Nat) : Nat := (ps.map (fun p => 2 ^ p)).sum

/-! ### Leaving and entering peer states -/

/-- Commands that give a pool end with NOT_PAIRED when the partner is lost before GIVE_DONE (R469). -/
def State.endGives (s : State) : State :=
  let s := { s with se := { s.se with pools := s.se.pools.map (fun (e : Nat × Pool) => (e.1, { e.2 with giving := none })) }
                    pl := { s.pl with giveSent := [] } }
  s.each (Tab.keys s.qm.cmds) (fun id s =>
    match s.cmd? id with
    | some c => match c.body with
      | .poolGive _ => s.complete id stNotPaired
      | _ => s
    | none => s)

/-- CLAIMs without a reply are dropped: the steps that sent them wait for the peer state (R464). -/
def State.dropClaims (s : State) : State :=
  let s := { s with pl := { s.pl with claims := [] } }
  { s with qm := { s.qm with cmds := s.qm.cmds.map (fun (e : Nat × Cmd) => match e.2.body with
      | .serial c 2 => (e.1, { e.2 with body := .serial c 1 })
      | _ => e) } }

/-- Writes the silence rules held go on (R466, R467): chunks, journal blocks, checkpoints, labels and records. -/
def State.releaseHeld (s : State) : State :=
  s.each s.ownedPools (fun p s =>
    let s := s.each ((s.stripesOf p).filter (fun e => e.2.state = .sealed)) (fun e s => s.issueWrites p e.1)
    let s := s.sendBlock p
    match s.pool? p with
    | some x =>
      let s : State := if x.ckpt.isSome then s.writeCkpt p else s
      let s := s.writeProt p x.protWaits
      s.each x.members (fun n s => match s.drive? n with
        | some d =>
          if d.labelWant = some .member then s.writeLabel n .member
          else if d.descSeq < x.descSeq ∧ s.awake n ∧ d.serves p then s.writeLabel n .member else s
        | none => s)
    | none => s)

/-- The device enters PAIRED: what was held goes on, and pools that wait for the partner's mirror ask for it (R185). -/
def State.enterPaired (s : State) : State :=
  let s := { s with pl := { s.pl with peer := .paired, fromPair := false, resolving := false } }
  let s := (s.releaseHeld.winRecompute).tryAllAcks
  s.each (Tab.keys s.se.pools) (fun p s =>
    match s.pool? p with
    | some x => if x.recovery = .waitPartner then s.sendFrame 0x30 [p] else s
    | none => s)

/-! ### HELLO (R462) -/

/-- Whether the device owns pools, as OWNS_POOLS says. -/
def State.ownsPools (s : State) : Bool := !s.ownedPools.isEmpty

/-- Send HELLO (R460, R462). -/
def State.sendHello (s : State) : State :=
  s.sendFrame 0x01 [1, 1, s.pl.side, b2n s.ownsPools, s.pl.pairUuid, s.se.f] (leBytes 32 s.sec.deviceId.toNat)

/-- PEER_LINK_TRAINED (R455, R462): the link is up and HELLO goes out. SILENT lasts until a HEARTBEAT, a HELLO or resolution. -/
def State.peerTrained (s : State) (rate width : Nat) : State :=
  if !s.hasPL then s
  else
    let s := { s with pl := { s.pl with linkUp := true, rate := if rate = 5 then 5 else 6, width := if width = 8 then 8 else 16 } }
    if !s.paired then s
    else
      let keep : Bool := match s.pl.peer with
        | .paired | .lost => true
        | .training | .hello | .copying => s.pl.fromPair
        | _ => false
      let s : State := if s.pl.peer = .silent then s
        else { s with pl := { s.pl with peer := .hello, fromPair := keep } }
      (s.endGives.dropClaims).sendHello

/-- The standby copy and the window copy go to the partner (R168, R463); COPYING lasts until the partner confirms the last
frame, which covers the APPENDs whose entries are complete by now. -/
def State.sendCopies (s : State) : State :=
  let s := { s with pl := { s.pl with peer := .copying } }
  let s := s.each s.ownedPools (fun p s => match s.pool? p with
    | some x =>
      if x.params.k = 0 then s
      else
        let old : Bool := !Pool.marked x false || x.scarf.isNone
        let s := s.each (Pool.sectionTypes (Pool.recorded x)) (fun i s => s.sendFrame 0x17 [p, i, 0] (s.sectionBytes p x old i))
        s.each ((s.stripesOf p).filter (fun e => e.2.scarfCopied)) (fun e s => s.sendM 0x13 [p, e.1])
    | none => s)
  let s := s.sendM 0x18 [0]
  let s := s.each (s.se.stripes.filter (fun e => e.2.pages > 0)) (fun e s =>
    s.each (List.range (e.2.pages / 4096)) (fun u s => s.sendM 0x18 [keyPool e.1, keyStripe e.1, u]))
  let hashed := s.qm.cmds.filter (fun (e : Nat × Cmd) => match e.2.body with
    | .append a => (match a.placed with
      | some (n, slot) => (match s.stripe? a.pool n with
        | some t => (match t.dir[slot]? with
          | some d => d.hash.isSome
          | none => false)
        | none => false)
      | none => false)
    | _ => false)
  let waits := hashed.foldl (fun (t : Tab Nat) (e : Nat × Cmd) => Tab.set t e.1 s.pl.mseqSent) s.pl.appendMseq
  { s with pl := { s.pl with copyEnd := s.pl.mseqSent, appendMseq := waits } }

/-- The pair does not form (R462): CONFLICT, with an event that names the failed condition. -/
def State.conflict (s : State) : State :=
  let d := s.draw Config.freeNat
  let s := d.2
  let s := { s with pl := { s.pl with peer := .conflict, fromPair := false } }
  (s.endGives.dropClaims).raise 0xD03 6 noInst [BitVec.ofNat 8 d.1]

/-- HELLO (R462, R463): the pair forms and the copies start, or CONFLICT. -/
def State.hello (s : State) (h : HelloFrame) : State :=
  if !s.paired || s.pl.peer = .unpaired then s
  else
    let mine := s.ownsPools
    let ok := h.side != s.pl.side && 1 ≥ h.protoMin && h.protoMax ≥ 1 &&
      (h.pairUuid = s.pl.pairUuid || (mine != h.ownsPools))
    if !ok then s.conflict
    else
      let keep : Bool := match s.pl.peer with
        | .paired | .lost | .silent => true
        | _ => s.pl.fromPair
      let adopt := !mine && h.pairUuid != s.pl.pairUuid
      let s : State := if adopt then
          let s := { s with pl := { s.pl with pairUuid := h.pairUuid } }
          s.each (Tab.keys s.se.drives) (fun n s => s.registerKey n)
        else s
      let s := { s with pl := { s.pl with fromPair := keep, resolving := false, fPartner := h.flushCap, mseqSent := 0,
                                          mseqConfirmed := 0, mseqApplied := 0, lag := [], appendMseq := [],
                                          discardM := false, giveWaits := [] } }
      (s.endGives.dropClaims.sendCopies.winRecompute).tryAllAcks

/-! ### The mirror, as its sender (R461, R465) -/

/-- MIR_CONFIRM (R465): APPENDs it covers complete; the confirmation of the whole copy ends COPYING (R461, R463). -/
def State.mirConfirm (s : State) (q : Nat) : State :=
  if q > s.pl.mseqSent ∨ q < s.pl.mseqConfirmed then s
  else
    let s := { s with pl := { s.pl with mseqConfirmed := q, lag := s.pl.lag.filter (fun (e : Nat × Nat) => e.1 > q) } }
    if s.pl.peer = .copying ∧ q ≥ s.pl.copyEnd then s.enterPaired else s.tryAllAcks

/-- MIR_RESYNC (R461): the mirror is formed again, MSEQ going on from the frame reported. -/
def State.mirResync (s : State) (q : Nat) : State :=
  if s.pl.peer = .paired ∨ s.pl.peer = .copying then
    let keep := s.pl.peer = .paired || s.pl.fromPair
    let s := { s with pl := { s.pl with fromPair := keep, mseqSent := q, mseqConfirmed := min q s.pl.mseqConfirmed, lag := [],
                                        appendMseq := [] } }
    ((s.sendCopies).raise 0xDFF 4 noInst).tryAllAcks
  else s

/-! ### The mirror, as its receiver (R164 to R166, R460, R461) -/

/-- A frame is discarded (R460): counted; a discarded M frame asks for a mirror resynchronisation (R461). -/
def State.frameBad (s : State) (isM : Bool) : State :=
  let s := s.bump PL_BAD_FRAME 0 PL_BAD_FRAME_COUNT
  if isM ∧ !s.pl.discardM then
    let s := { s with pl := { s.pl with discardM := true } }
    (s.sendFrame 0x19 [s.pl.mseqApplied]).raise 0xDFF 4 noInst
  else s

/-- A GIVE_REQ is answered once its MSEQ is applied (R469); a pool whose m exceeds MAX_M is refused (R626). -/
def State.answerGives (s : State) : State :=
  s.each (s.pl.giveWaits.filter (fun e => e.2 ≤ s.pl.mseqApplied)) (fun e s =>
    let big := match Tab.get? s.pl.standby e.1 with
      | some t => decide (t.pool.params.m > s.maxM)
      | none => false
    let s := { s with pl := { s.pl with giveWaits := s.pl.giveWaits.filter (· ≠ e) } }
    s.sendFrame 0x21 [e.1, b2n big])

/-- Apply an M frame in MSEQ order and confirm it (R165, R465); after a discarded one, only the next in order is taken, and it
begins a new copy of the mirror (R461). -/
def State.applyM (s : State) (mseq : Nat) (act : State → State) : State :=
  if !s.mirrors ∨ mseq ≠ s.pl.mseqApplied + 1 then s
  else
    let s : State := if s.pl.discardM then
        { s with pl := { s.pl with discardM := false, mirror := [], mirrorRaw := [], mirPending := [], mirLedger := [] } }
      else s
    let s := act s
    let s := { s with pl := { s.pl with mseqApplied := mseq } }
    (s.sendFrame 0x16 [mseq]).answerGives

/-- The state with a mirrored stripe changed; a stripe not yet mirrored is an open one of its pool's generation. -/
def State.modMirror (s : State) (p n : Nat) (f : Stripe → Stripe) : State :=
  let k := stripeKey p n
  let gen := match Tab.get? s.pl.standby p with
    | some t => t.pool.params.gen
    | none => 0
  let t := Tab.getD s.pl.mirror k (Stripe.fresh gen 0 s.devNs 0 false false)
  let of := if s.pl.mirrorOf.contains p then s.pl.mirrorOf else s.pl.mirrorOf ++ [p]
  { s with pl := { s.pl with mirror := Tab.set s.pl.mirror k (f t), mirrorOf := of } }

/-- MIR_PAYLOAD (R164): payload bytes at an offset of the extent that starts at a unit. -/
def State.mirPayload (s : State) (p n unit off : Nat) (bytes : List Byte) : State :=
  s.modMirror p n (fun t =>
    { t with data := memWrite t.data (unit * 4096 + off) bytes
             nextUnit := max t.nextUnit (ceilDiv (unit * 4096 + off + bytes.length) 4096) })

/-- MIR_DIRENT (R164): a directory entry, its hash final; places before it whose entry has not come are open. -/
def State.mirDirent (s : State) (p n slot : Nat) (entry : List Byte) : State :=
  s.modMirror p n (fun t =>
    let e := parseDirEnt entry
    let dir := t.dir ++ List.replicate (slot + 1 - t.dir.length) DirEnt.placeholder
    { t with dir := dir.set slot e, nextUnit := max t.nextUnit (e.off + ceilDiv e.len 4096) })

/-- MIR_SEAL (R164). -/
def State.mirSeal (s : State) (p n seq off set : Nat) : State :=
  s.modMirror p n (fun t => { t with state := .sealed, sealSeq := seq, chunkOffset := off, set := set, sealTime := s.devNs })

/-- MIR_DELTA (R463). -/
def State.mirDelta (s : State) (rs : List DeltaRec) : State := s.each rs (fun r s => s.applyDelta r)

/-- MIR_RELEASE (R164): pending release records, or ledger entries, which also mark the mirrored or standby stripe. -/
def State.mirRelease (s : State) (p kind : Nat) (rs : List (List Byte)) : State :=
  s.each rs (fun r s =>
    if kind = 0 then { s with pl := { s.pl with mirPending := s.pl.mirPending ++ [{ parsePend r with pool := p }] } }
    else { s with pl := { s.pl with mirLedger := Tab.set s.pl.mirLedger (stripeKey p (leAt r 0 8)) r } })

/-- MIR_RETIRE (R166): the stripe's mirror pages are freed; the standby copy keeps its directory. -/
def State.mirRetire (s : State) (p n : Nat) : State :=
  let k := stripeKey p n
  let dir := match Tab.get? s.pl.mirror k with
    | some t => t.dir
    | none => []
  { s with pl := { s.pl with mirror := Tab.erase s.pl.mirror k
                             standby := Tab.modify s.pl.standby p (fun t =>
                               { t with stripes := Tab.modify t.stripes k (fun x => { x with dir := dir }) }) } }

/-- WINDOW_COPY (R168): bytes of the partner's window; once its control structures are whole, the window stripes they show stand
in the mirror. -/
def State.takeWindow (s : State) (off : Nat) (bytes : List Byte) (held : Tab (Tab Stripe)) : State :=
  let s := { s with pl := { s.pl with mirrorRaw := memWrite s.pl.mirrorRaw off bytes } }
  s.each held (fun e s =>
    let rest := s.pl.mirror.filter (fun (x : Nat × Stripe) => keyPool x.1 != e.1)
    let all := e.2.foldl (fun (a : Tab Stripe) (x : Nat × Stripe) => Tab.set a (stripeKey e.1 (keyStripe x.1)) x.2) rest
    { s with pl := { s.pl with mirror := all, mirrorOf := (s.pl.mirrorOf.filter (· ≠ e.1)) ++ [e.1] } })

/-- The device discards its mirror region (R528). -/
def State.dropMirror (s : State) : State :=
  { s with pl := { s.pl with mirror := [], mirrorRaw := [], mirrorOf := [], mirPending := [], mirLedger := [] } }

/-- PULL_REQ (R185, R528): the mirror of the pool, or RESULT 1. -/
def State.answerPull (s : State) (p : Nat) : State :=
  if s.pl.mirrorOf.contains p then
    let s := s.each (s.pl.mirror.filter (fun e => keyPool e.1 = p)) (fun e s =>
      s.sendFrame 0x31 [p, keyStripe e.1, e.2.nextUnit])
    s.sendFrame 0x32 [p, 0]
  else s.sendFrame 0x32 [p, 1]

/-- PULL_DATA (R185): bytes of the mirror go back into the window. -/
def State.takePull (s : State) (off : Nat) (bytes : List Byte) : State :=
  { s with pl := { s.pl with pull := memWrite s.pl.pull off bytes } }

/-- PULL_END (R185): recovery goes on from the pulled mirror, or with the next layer. -/
def State.endPull (s : State) (p : Nat) (noMirror : Bool) : State :=
  let s := { s with pl := { s.pl with pull := [] } }
  match s.pool? p, Tab.get? s.se.recoveries p with
  | some x, some r =>
    if x.recovery != .waitPartner then s
    else if noMirror then s.recoverLate p r
    else s.recoverMirror p r
  | _, _ => s

/-! ### Ownership -/

/-- What the device holds of a pool's tables goes: the pool is the partner's. -/
def State.dropTables (s : State) (p : Nat) : State :=
  let sets := s.se.sets.filter (fun e => e.2.pool != p)
  let ms := match s.pool? p with
    | some x => x.members
    | none => []
  let s := { s with se := { s.se with
      sets := sets, stripes := s.se.stripes.filter (fun (e : Nat × Stripe) => keyPool e.1 != p)
      bands := s.se.bands.filter (fun (e : Nat × (BandState × Nat)) => !ms.contains (e.1 / 2 ^ 32))
      pending := s.se.pending.filter (fun (r : PendRel) => r.pool != p)
      dirCache := s.se.dirCache.filter (fun (e : Nat × Nat) => e.1 != p)
      passes := s.se.passes.filter (fun (e : Nat × Pass) => sets.any (fun (x : Nat × SetRec) => x.1 = e.1)) } }
  let s := { s with ce := { s.ce with queue := s.ce.queue.filter (fun (j : CeJob) => j.pool != p) } }
  s.modPool p (fun x => { x with
    state := .partner, giving := none, ckpt := none, ckptWanted := false, gather := [], jBlock := [], jWritten := [],
    recovery := .none, tideWake := none, tideWaking := false })

/-- A pool moves to PARTNER (R467, R469): commands on it end with POOL_OFFLINE. -/
def State.cedePool (s : State) (p : Nat) : State :=
  let s := { s with se := { s.se with recoveries := Tab.erase s.se.recoveries p } }
  ((s.endOnPool p).dropTables p).noteU

/-- The tables of a pool the device gives become its standby copy of it, and its window stripes the mirror (R469). -/
def State.toStandby (s : State) (p : Nat) : State :=
  match s.pool? p with
  | some x =>
    let inWin := fun (t : Stripe) => t.state = StripeState.opened || t.state = StripeState.sealed
    let mine := s.se.stripes.filter (fun e => keyPool e.1 = p)
    let t : PoolTables :=
      { pool := { x with state := .partner }, sets := s.se.sets.filter (fun e => e.2.pool = p)
        stripes := mine.filter (fun e => !inWin e.2), bands := s.se.bands.filter (fun e => x.members.contains (e.1 / 2 ^ 32)) }
    let m := (mine.filter (fun e => inWin e.2)).foldl (fun (a : Tab Stripe) (e : Nat × Stripe) => Tab.set a e.1 e.2) s.pl.mirror
    { s with pl := { s.pl with standby := Tab.set s.pl.standby p t, mirror := m
                               mirrorOf := (s.pl.mirrorOf.filter (· ≠ p)) ++ [p]
                               mirPending := s.pl.mirPending ++ s.se.pending.filter (fun (r : PendRel) => r.pool = p) } }
  | none => s

/-- Nothing more is known of a pool than its standby copy says. -/
def RecoveryInfo.blank : RecoveryInfo :=
  { sill := [], desc := none, mirror := [], matching := [], past := [], chunks := [], dirs := [], badExtents := [], otherFamily := false, partnerHoldsReservation := false }

/-- A mirrored stripe as it stands in the window of a new owner: ranges no entry covers hold zeros (R133). -/
def Stripe.takenOver (t : Stripe) (now : Nat) : Stripe :=
  { t with
    placement := now
    data := t.data.filter (fun c => t.dir.any (fun e =>
      !e.void && e.cmd.isNone && e.off * 4096 ≤ c.1 && c.1 < e.off * 4096 + e.len)) }

/-- Take a pool of the partner from the standby tables and the mirror (R467 step 5, R469 step 5): it is assembled from them, and
R177 goes on from step 3. -/
def State.takePool (s : State) (p : Nat) : State :=
  match Tab.get? s.pl.standby p with
  | some t =>
    let ms := t.pool.members.map (fun n =>
      ({ slot := n, wwn := match s.drive? n with
          | some d => d.info.wwn
          | none => 0
         state := .active } : MemberEntry))
    let waits := pendingOf p (s.section p)
    let s := s.loadTables p t id false
    let d := s.draw Config.freeNat
    let s := d.2.modPool p (fun x => { x with side := s.pl.side, logs := (Pool.logsOf x (x.sill ++ x.journal)).foldl (fun (a : Tab SillLog) (e : Nat × Nat) =>
      Tab.set a (logKey e.1 e.2) { seq := d.1, pos := d.1, last := d.1, done := d.1, keep := d.1 }) [] })
    let s := s.each ms (fun e s => s.modDrive e.slot (fun d =>
      if d.state = .candidate ∨ d.state = .spare ∨ d.pool != p then { d with state := .active, pool := p, classified := true } else d))
    let s := s.placeMembers p ms
    let mine := s.pl.mirror.filter (fun e => keyPool e.1 = p)
    let s := s.each mine (fun e s =>
      (s.setStripe p (keyStripe e.1) (Stripe.takenOver e.2 s.devNs)).modPool p (fun x =>
        { x with freed := x.freed.filter (· ≠ keyStripe e.1), nextFresh := max x.nextFresh (keyStripe e.1 + 1)
                 sealSeq := max x.sealSeq e.2.sealSeq, appendSeq := e.2.dir.foldl (fun m d => max m d.seq) x.appendSeq }))
    let s := s.each (s.pl.mirLedger.filter (fun e => keyPool e.1 = p)) (fun e s =>
      s.modStripe p (keyStripe e.1) (fun t => t.applyLedger e.2))
    let s := { s with
      se := { s.se with pending := s.se.pending ++ waits ++ s.pl.mirPending.filter (fun (r : PendRel) => r.pool = p) }
      pl := { s.pl with
        standby := Tab.erase s.pl.standby p, sections := s.pl.sections.filter (fun (e : Nat × List Host.Cell) => e.1 / 16 != p)
        mirror := s.pl.mirror.filter (fun (e : Nat × Stripe) => keyPool e.1 != p), mirrorOf := s.pl.mirrorOf.filter (· ≠ p)
        mirPending := s.pl.mirPending.filter (fun (r : PendRel) => r.pool != p)
        mirLedger := s.pl.mirLedger.filter (fun (e : Nat × List Byte) => keyPool e.1 != p) } }
    let s := s.each (s.stripesOf p) (fun e s =>
      let open_ := (e.2.dir.zipIdx.filter (fun d => d.1.cmd.isSome)).map (·.2)
      s.each open_ (fun i s => s.voidEntry p e.1 i))
    let s := (s.replayWindow p RecoveryInfo.blank).endLayer p 0
    s.each ms (fun e s => s.modDrive e.slot (fun d => { d with prHeld := false }))
  | none => s

/-! ### Heartbeat and silence (R466) -/

/-- HEARTBEAT_SEND: every 1 ms while paired. -/
def State.sendHeartbeat (s : State) : State :=
  if s.pl.peer = .paired ∨ s.pl.peer = .copying ∨ s.pl.peer = .silent then
    s.sendFrame 0x02 [s.devNs, s.se.f, poolMask s.ownedPools, s.pl.mseqSent]
  else s

/-- HEARTBEAT: the partner's F and pools; one that arrives before resolution starts ends SILENT. -/
def State.heartbeat (s : State) (f : Nat) (owned : BitVec 64) : State :=
  if !s.paired then s
  else
    let s := s.setReg64 (PL_PEER_OWNED_LO.at 0) (PL_PEER_OWNED_HI.at 0) owned.toNat
    let s := { s with pl := { s.pl with fPartner := f } }
    if s.pl.peer = .silent ∧ !s.pl.resolving then s.enterPaired
    else if s.pl.peer = .paired ∨ s.pl.peer = .copying then s.winRecompute
    else s

/-- PEER_SILENT: no HEARTBEAT for LOSS_MS. -/
def State.peerSilent (s : State) : State :=
  if !s.paired then s
  else match s.pl.peer with
    | .paired | .copying | .hello | .training =>
      { s with pl := { s.pl with peer := .silent, resolving := false, linkUp := s.pl.linkUp } }
    | _ => s

/-! ### Resolution (R467, R626) -/

/-- RESOLUTION_START: READ KEYS on the journal members of every pool the device owns. -/
def State.startResolution (s : State) : State :=
  if s.pl.peer = .silent ∧ !s.pl.resolving then
    let s := { s with pl := { s.pl with resolving := true } }
    let ms := (s.ownedPools.flatMap (fun p => match s.pool? p with
      | some x => x.journal
      | none => [])).eraseDups
    s.each ms (fun n s => s.driveOut n 9 2 0)
  else s

/-- Pools the partner owns that this device would take: those whose m it can serve (R626). -/
def State.partnerPools (s : State) : List Nat :=
  (s.pl.standby.filter (fun e => e.2.pool.params.m ≤ s.maxM)).map (·.1)

/-- PREEMPT goes to the reachable members of the partner's pools, journal members first (R396, R467 step 3). -/
def State.preempt (s : State) : State :=
  let s := s.each (s.pl.standby.filter (fun e => e.2.pool.params.m > s.maxM)) (fun e s => s.raise 0xDFF 6 e.1)
  let reach := fun (n : Nat) => match s.slot? n with
    | some x => x.linkUp
    | none => false
  s.each s.partnerPools (fun p s =>
    match Tab.get? s.pl.standby p with
    | some t =>
      let ms := (t.pool.journal ++ t.pool.members).eraseDups
      s.each (ms.filter reach) (fun n s => s.driveOut n 9 3 5 (s.reservationKey (otherSide s.pl.side)))
    | none => s)

/-- RESERVATION_KEYS_READ: FENCED when the own key is missing (step 2), else the PREEMPTs (step 3). -/
def State.keysRead (s : State) (ownKey : Bool) : State :=
  if s.pl.peer = .silent ∧ s.pl.resolving then
    if ownKey then s.preempt
    else
      let s := { s with pl := { s.pl with peer := .fenced, resolving := false, fromPair := false } }
      let s := (s.endGives.dropClaims).each s.ownedPools (fun p s => s.cedePool p)
      let s := { s with pl := { s.pl with standby := [], sections := [] } }
      (s.dropMirror.winRecompute).raise 0xD02 6 noInst
  else s

/-- PREEMPT_COMPLETE: LOST; what was held goes on, and the partner's pools are taken (steps 4 to 6). -/
def State.preempted (s : State) : State :=
  if s.pl.peer = .silent ∧ s.pl.resolving then
    let s := { s with pl := { s.pl with peer := .lost, resolving := false, fromPair := false, appendMseq := [], lag := [] } }
    let s := s.bumpWrap PL_HANDOVERS 0 PL_HANDOVERS_TAKEOVERS
    let s := (s.endGives.dropClaims).raise 0xD01 6 noInst
    let s := s.releaseHeld.winRecompute
    let s := s.each s.partnerPools (fun p s => s.takePool p)
    (s.tryAllAcks.substitute).admitHeld
  else s

/-! ### CLAIM (R464) -/

/-- Whether a drive or identifier a CLAIM names is refused: taken, or itself claimed; a claim of side A wins over a pending one
of side B. -/
def State.claimRefused (s : State) (pool : Nat) (slots : List Nat) : Bool :=
  let yields := s.pl.side = 1
  let pend := if yields then [] else s.pl.claims
  (pool != 0xFF && (s.poolState pool != .none || (s.pool? pool).isSome || pend.any (fun c => c.pool = pool))) ||
  slots.any (fun n => (s.memberPool n).isSome || s.pl.taken.contains n || pend.any (fun c => c.slots.contains n))

/-- A received CLAIM is granted or refused. -/
def State.claimIn (s : State) (pool id : Nat) (slots : List Nat) : State :=
  if !s.mirrors then s else s.sendFrame 0x04 [pool, id, b2n (s.claimRefused pool slots)]

/-! ### Giveback (R469) -/

/-- A pool that is being given has no open stripe and no placed APPEND left: GIVE_REQ goes out (steps 1 and 2). -/
def State.giveHook (s : State) : State :=
  s.each (s.se.pools.filter (fun e => e.2.giving.isSome && !s.pl.giveSent.contains e.1)) (fun e s =>
    let p := e.1
    let busy := s.qm.cmds.any (fun c => match c.2.body with
      | .append a => a.pool = p
      | _ => false)
    if busy || (s.openOf p).any (fun t => !t.2.dir.isEmpty) then s
    else
      let s := { s with pl := { s.pl with giveSent := s.pl.giveSent ++ [p] } }
      s.sendFrame 0x20 [p, s.pl.mseqSent])

/-- A given pool has left, or was refused: its POOL_GIVE completes with the last one. A refused pool is marked by 64 + p; the
status of a refusal is not stated. -/
def State.giveEnded (s : State) (id p : Nat) (refused : Bool) : State :=
  match s.cmd? id with
  | some c => match c.body with
    | .poolGive ps =>
      let ps := (ps.filter (· ≠ p)) ++ (if refused then [64 + p] else [])
      let s := s.setBody id (.poolGive ps)
      if ps.any (· < 64) then s
      else if ps.isEmpty then s.complete id stSuccess
      else
        let d := s.draw Config.freeNat
        d.2.complete id (d.1 % 2 ^ 16)
    | _ => s
  | none => s

/-- GIVE_READY: the owner writes a descriptor naming the partner, moves the pool to PARTNER and sends GIVE_DONE (step 4); a
refusal leaves the pool with its owner (R626). -/
def State.giveReady (s : State) (p : Nat) (refused : Bool) : State :=
  match (s.pool? p).bind (·.giving) with
  | some id =>
    if !s.pl.giveSent.contains p then s
    else
      let s := { s with pl := { s.pl with giveSent := s.pl.giveSent.filter (· ≠ p) } }
      if refused then (s.modPool p (fun x => { x with giving := none })).giveEnded id p true
      else
        let s := s.modPool p (fun x => { x with side := otherSide s.pl.side })
        let s := s.newDescriptor p
        let seq := match s.pool? p with
          | some x => x.descSeq
          | none => 0
        let s := (s.toStandby p).cedePool p
        (s.sendFrame 0x22 [p, seq]).giveEnded id p false
  | none => s

/-- GIVE_REQ: answered when its MSEQ is applied (step 3). -/
def State.giveReq (s : State) (p mseq : Nat) : State :=
  if !s.mirrors then s
  else State.answerGives { s with pl := { s.pl with giveWaits := s.pl.giveWaits ++ [(p, mseq)] } }

/-- GIVE_DONE: the pool is taken without fencing (step 5). -/
def State.giveDone (s : State) (p descSeq : Nat) : State :=
  if s.pl.peer = .paired ∧ (Tab.get? s.pl.standby p).isSome then
    let s := (s.takePool p).bumpWrap PL_HANDOVERS 0 PL_HANDOVERS_GIVEBACKS
    (s.modPool p (fun x => { x with descSeq := max x.descSeq descSeq })).winRecompute
  else s

/-- The checks of POOL_GIVE before it waits for its turn. -/
def State.poolGivePre (s : State) (c : HostCmd) : Check :=
  let p := entryByte c 0 8
  firstFail [onEntry0 c, layout c 0 1 [⟨8, 1, p ≤ 63 || p = 0xFF⟩], s.ownerPriv c, need s.hasPL stUnitAbsent]

/-- POOL_GIVE in its turn (R469 step 1): the pools' open stripes are sealed; APPENDs not yet placed end with POOL_OFFLINE. -/
def State.goPoolGive (s : State) (id : Nat) (c : HostCmd) : State :=
  let p := entryByte c 0 8
  let ps := if p = 0xFF then s.ownedPools.filter (fun q => s.poolUp q) else [p]
  s.checked id (firstFail [
      need (ps.all (fun q => s.poolUp q && (match s.pool? q with
        | some x => x.giving.isNone
        | none => false))) stPoolOffline,
      need (decide (s.pl.peer = .paired)) stNotPaired])
    (fun s =>
      let s := s.setBody id (.poolGive ps)
      if ps.isEmpty then s.complete id stSuccess
      else
        s.each ps (fun q s =>
          let s := s.modPool q (fun x => { x with giving := some id })
          let s := s.each (Tab.keys s.qm.cmds) (fun i s => match s.append? i with
            | some a => if a.pool = q ∧ a.placed.isNone then s.failAppend i stPoolOffline else s
            | none => s)
          s.sealPool q))

/-- POOL_GIVE (R375, R469). -/
def State.runPoolGive (s : State) (id : Nat) (c : HostCmd) : State :=
  s.checked id (s.poolGivePre c) (fun s => s.inTurn id c (fun s => s.goPoolGive id c))

/-! ### Flits (R457, R458) -/

/-- A replay from ACK + 1 (R457). -/
def State.replay (s : State) : State :=
  (s.bump PL_REPLAY 0 PL_REPLAY_COUNT).emit (.peer 0xFE [(s.pl.flitAcked + 1) % 2 ^ 24] [])

/-- FLIT_NAK: the partner asks for a replay. -/
def State.flitNak (s : State) (ack : Nat) : State :=
  if s.hasPL then State.replay { s with pl := { s.pl with flitAcked := ack % 2 ^ 24 } } else s

/-- PEER_FLIT_CRC_FAIL: the flit is discarded and NAK goes out. -/
def State.flitCrcFail (s : State) : State := if s.hasPL then s.emit (.peer 0xFF [] []) else s

/-- PEER_RETRAIN: the link trains again; flits not acknowledged are kept (R458). -/
def State.retrain (s : State) : State :=
  { s with pl := { s.pl with linkUp := false, rate := 0, width := 0 } }

/-- PEER_RETRAIN_DONE: the link is up again and flits are replayed. -/
def State.retrainDone (s : State) (rate width : Nat) : State :=
  if s.hasPL then
    { s with pl := { s.pl with linkUp := true, rate := if rate = 5 then 5 else 6, width := if width = 8 then 8 else 16 } }
  else s

end Sys2Proof.Machine
end

