-- ==== Sys2Proof/Machine/Modes.lean ====
section
/-! DEFINITION. Mode epochs (R544 to R547), DEVICE_MODE and entry to HARBOUR (R532, R534), POOL_SET (R373) and the memory operating
point (R566, R567). -/

namespace Sys2Proof.Machine

open Sys2Proof

/-! ### Units of an epoch -/

/-- The units of R34 by their register base ÷ 0x1_0000; the management controller has no base and reports as DEV. -/
def unitBases : List Nat := [0x00, 0x01, 0x02, 0x04, 0x08, 0x10, 0x20, 0x30, 0x34, 0x40, 0x50, 0x60, 0x70, 0x78, 0x80, 0x100]

/-- The bit of a unit in PW_UNIT_RESET, when it takes a UNIT reset. -/
def unitBit (base : Nat) : Option Nat :=
  match base with
  | 0x08 => some 0
  | 0x30 => some 1
  | 0x34 => some 2
  | 0x50 => some 3
  | 0x60 => some 4
  | 0x70 => some 5
  | 0x78 => some 6
  | 0x80 => some 7
  | _ => none

/-- Whether a unit is present, powered and in no UNIT reset, so that it takes part in an epoch (R544, R547). -/
def State.unitTakesPart (s : State) (base : Nat) : Bool :=
  let a := base * 0x10000
  let gated := if base = 0x100 then (List.range 4).all (fun d => s.domain (128 + d) ≥ 2) else s.gatedAt a
  !s.absentAt a && !gated &&
  (match unitBit base with
   | some b => !s.pw.unitBusy.contains b
   | none => true)

/-- The units an epoch asks. -/
def State.epochUnits (s : State) : List Nat := unitBases.filter (fun b => s.unitTakesPart b)

/-! ### The end of an epoch -/

/-- The memory operating point after an epoch for it (R566): RESULT, and the point when it was committed. -/
def State.freqEnded (s : State) (result : Nat) (point : Option Nat) : State :=
  let s := (s.setFld MC_FREQ 0 MC_FREQ_BUSY 0).setFld MC_FREQ 0 MC_FREQ_RESULT result
  match point with
  | some p => s.setFld MC_FREQ 0 MC_FREQ_CURRENT p
  | none => s

/-- ABORT (R546): every unit returns to the old mode; `result` 2 is no answer, 3 a refusal. -/
def State.abortEpoch (s : State) (unit result : Nat) : State :=
  match s.pw.epoch with
  | some k =>
    let s := { s with pw := { s.pw with epoch := none, modeResult := result, modeUnit := unit } }
    let s := s.raise 0x201 4 noInst (leBytes 8 k.e)
    match k.kind with
    | .poolSet _ => match k.cmd with
      | some id => s.complete id stModeRollback [] unit
      | none => s
    | .freq p =>
      let untrained := s.fld MC_FREQ 0 MC_FREQ_TRAINED / 2 ^ p % 2 = 0
      { (s.freqEnded (if untrained then 2 else 3) none) with mc := { s.mc with discard := false } }
    | .harbour =>
      let s := { s with pw := { s.pw with power := .run, prepStep := 0, harbourCmd := none, record := false } }
      match k.cmd with
      | some id => s.complete id stModeRollback [] unit
      | none => s
  | none => s

/-- Start a mode epoch (R544 step 1): PREPARE goes to every unit that is present and powered. The memory controller refuses a
point that is not trained (R566). -/
def State.startEpoch (s : State) (kind : EpochKind) (cmd : Option Nat) : State :=
  let e := s.pw.epochTried + 1
  let k : Epoch := { e := e, kind := kind, cmd := cmd, waiting := s.epochUnits, committed := false, switched := [] }
  let s := { s with pw := { s.pw with epoch := some k, epochTried := e, modeLast := e, modeUnit := 0 } }
  match kind with
  | .freq p =>
    if s.fld MC_FREQ 0 MC_FREQ_TRAINED / 2 ^ p % 2 = 0 then s.abortEpoch 0x40 3
    else { s with mc := { s.mc with discard := s.mc.step.isSome } }
  | _ => s

/-- Every unit has switched (R544 step 5): DEV_MODE_EPOCH is the epoch and the initiating command completes. -/
def State.commitEpoch (s : State) (k : Epoch) : State :=
  let s := { s with pw := { s.pw with epoch := none, epochDone := k.e, modeResult := 1 } }
  match k.kind with
  | .poolSet c =>
    let s := s.applyPoolSet c
    match k.cmd with
    | some id => s.complete id stSuccess
    | none => s
  | .freq p => (s.freqEnded 1 (some p)).startRetrain
  | .harbour =>
    let s := { s with pw := { s.pw with prepStep := 0, harbourCmd := none, phyDue := true } }
    match k.cmd with
    | some id => s.complete id stSuccess (leBytes 8 k.e)
    | none => s

/-- A unit answers ACK to PREPARE (R544): the last one lets COMMIT go out. -/
def State.epochAck (s : State) (unit : Nat) : State :=
  match s.pw.epoch with
  | some k =>
    if k.committed ∨ !k.waiting.contains unit then s
    else
      let w := k.waiting.filter (· ≠ unit)
      let acked := k.switched ++ [unit]
      let k := if w.isEmpty then { k with waiting := acked, switched := [], committed := true }
               else { k with waiting := w, switched := acked }
      { s with pw := { s.pw with epoch := some k } }
  | none => s

/-- A unit refuses PREPARE (R546). -/
def State.epochRefused (s : State) (unit : Nat) : State :=
  match s.pw.epoch with
  | some k => if k.committed then s else s.abortEpoch unit 3
  | none => s

/-- 100 ms pass without every answer (R546). -/
def State.epochTimeout (s : State) : State :=
  match s.pw.epoch with
  | some k => if k.committed then s else s.abortEpoch (k.waiting.headD 0) 2
  | none => s

/-- A unit has switched after COMMIT (R544 steps 4 and 5). -/
def State.epochSwitched (s : State) (unit : Nat) : State :=
  match s.pw.epoch with
  | some k =>
    if !k.committed ∨ !k.waiting.contains unit then s
    else
      let k := { k with waiting := k.waiting.filter (· ≠ unit), switched := k.switched ++ [unit] }
      if k.waiting.isEmpty then s.commitEpoch k else { s with pw := { s.pw with epoch := some k } }
  | none => s

/-! ### What starts an epoch -/

/-- A write of MC_FREQ (R566): TARGET is set, and a point other than the current one waits for its epoch; ignored while BUSY. -/
def mcFreqWrite (v : Word) (s : State) : State :=
  if s.fld MC_FREQ 0 MC_FREQ_BUSY = 1 then s
  else
    let p := MC_FREQ_TARGET.get v
    let s := s.setFld MC_FREQ 0 MC_FREQ_TARGET p
    if p = s.fld MC_FREQ 0 MC_FREQ_CURRENT then s
    else
      let s := s.setFld MC_FREQ 0 MC_FREQ_BUSY 1
      if s.pw.epoch.isNone then s.startEpoch (.freq p) none else s

/-- POOL_SET in its turn (R373, R544). -/
def State.goPoolSet (s : State) (id : Nat) (c : HostCmd) : State :=
  s.checked id (s.poolCheck (entryByte c 0 8)) (fun s =>
    if s.pw.epoch.isSome then s.setBody id (.serial c 0)
    else (s.setBody id (.serial c 3)).startEpoch (.poolSet c) (some id))

/-- POOL_SET (R373). -/
def State.runPoolSet (s : State) (id : Nat) (c : HostCmd) : State :=
  s.checked id (s.poolSetPre c) (fun s => s.inTurn id c (fun s => s.goPoolSet id c))

/-- The checks of DEVICE_MODE before it waits for its turn (R379). -/
def State.deviceModePre (s : State) (c : HostCmd) : Check :=
  firstFail [onEntry0 c, layout c 0 1 [⟨8, 1, entryByte c 0 8 ≤ 2⟩], s.ownerPriv c]

/-- Whether HARBOUR is refused (R532): a PAIRED device that owns a pool, or a set of margin 0 in an owned pool. -/
def State.harbourRefused (s : State) : Bool :=
  (s.pl.peer = .paired && s.ownsPools) ||
  s.se.sets.any (fun e => setInUse e.2 && s.ownedPools.contains e.2.pool && s.margin e.2 = 0)

/-- DEVICE_MODE in its turn: MODE 0 changes nothing (R534); MODE 1 begins the preparation of HARBOUR (R532); MODE 2 completes and
begins that of a WARM reset (R523). -/
def State.goDeviceMode (s : State) (id : Nat) (c : HostCmd) : State :=
  match entryByte c 0 8 with
  | 0 => s.complete id stSuccess (leBytes 8 s.pw.epochDone)
  | 1 =>
    s.checked id (need (!s.harbourRefused) stPoolState) (fun s =>
      let s := s.setBody id (.deviceMode 1 0)
      { s with pw := { s.pw with power := .harbourPrep, harbourCmd := some id, prepStep := 1 } })
  | _ =>
    let s := s.complete id stSuccess (leBytes 8 s.pw.epochDone)
    { s with pw := { s.pw with power := .warmPrep, warmKind := some 2 } }

/-- DEVICE_MODE (R532, R534, R523). -/
def State.runDeviceMode (s : State) (id : Nat) (c : HostCmd) : State :=
  s.checked id (s.deviceModePre c) (fun s => s.inTurn id c (fun s => s.goDeviceMode id c))

/-! ### The preparation of HARBOUR (R532) -/

/-- Whether every consumed command but the one that asks for HARBOUR has completed. -/
def State.quiet (s : State) : Bool := s.qm.cmds.all (fun e => s.pw.harbourCmd = some e.1)

/-- Whether a pool's CLEAN record is on the journal and nothing of it waits. -/
def State.poolAtRest (s : State) (p : Nat) : Bool :=
  match s.pool? p with
  | some x => x.ckpt.isNone && x.gather.isEmpty && x.jBlock.isEmpty
  | none => true

/-- Owned pools that are up. -/
def State.upPools (s : State) : List Nat := s.ownedPools.filter (fun p => s.poolUp p)

/-- One look at the preparation: 1 commands complete, 2 stripes are sealed and WRITTEN, 3 checkpoints, 4 CLEAN records, 5 drives
go to STANDBY, 6 the epoch. -/
def State.harbourHook (s : State) : State :=
  if s.pw.power != .harbourPrep then s
  else
    let go := fun (n : Nat) (s : State) => { s with pw := { s.pw with prepStep := n } }
    match s.pw.prepStep with
    | 1 =>
      if s.quiet then go 2 (s.each (s.se.stripes.filter (fun e => e.2.state = .opened && !e.2.dir.isEmpty)) (fun e s =>
        s.startSeal (keyPool e.1) (keyStripe e.1))) else s
    | 2 =>
      if s.se.stripes.any (fun e => (e.2.state = .opened && !e.2.dir.isEmpty) || e.2.state = .sealed) then s
      else go 3 (s.each s.upPools (fun p s => s.startCkpt p ckOrderly))
    | 3 =>
      if s.upPools.any (fun p => match s.pool? p with
          | some x => x.ckpt.isSome
          | none => false) then s
      else
        go 4 (s.each s.upPools (fun p s => match s.pool? p with
          | some x => (s.journal p (.clean x.sealSeq x.appendSeq)).sendBlock p
          | none => s))
    | 4 =>
      if s.upPools.all (fun p => s.poolAtRest p) then
        let s := s.dropMirror
        let s := { s with pw := { s.pw with record := true } }
        go 5 (s.each ((Tab.keys s.dl.slots).filter (fun n => s.awake n)) (fun n s => match s.slot? n with
          | some x => if x.flash || x.standbyIssued then s
            else (s.driveOut n 6 0 0).modSlot n (fun x => { x with standbyIssued := true })
          | none => s))
      else s
    | 5 =>
      if s.dl.slots.any (fun e => e.2.standbyIssued) ∨ s.pw.epoch.isSome then s
      else (go 6 s).startEpoch .harbour s.pw.harbourCmd
    | _ => s

/-- Epochs that waited for another one (R544). -/
def State.epochHook (s : State) : State :=
  if s.pw.epoch.isNone ∧ s.fld MC_FREQ 0 MC_FREQ_BUSY = 1 then
    s.startEpoch (.freq (s.fld MC_FREQ 0 MC_FREQ_TARGET)) none
  else s

/-- The host ports act as in a PORT reset, and drive and peer links go down (R532 step 7). -/
def State.harbourLinks (s : State) : State :=
  let s := s.each [0, 1] (fun port s =>
    let s := s.resetPort port 0
    if s.split port then s.resetPort port 1 else s)
  let s := s.each (Tab.keys s.dl.slots) (fun n s => s.modSlot n (fun x => { x with linkUp := false, rate := 0 }))
  { s with pl := { PlUnit.reset with
      peer := if s.paired then .training else .unpaired, pairMode := s.pl.pairMode, side := s.pl.side, pairUuid := s.pl.pairUuid } }

/-- The DRAM enters self-refresh (R532 step 8). -/
def State.harbourMemory (s : State) : State :=
  s.each (List.range 64) (fun ch s =>
    (s.setFld MC_CH_STATUS ch MC_CH_STATUS_STATE 2).setFld MC_CH_STATUS ch MC_CH_STATUS_SR_HELD 1)

/-- Every domain HARBOUR does not keep is gated, and what it held is gone (R532 step 8). -/
def State.harbourGate (s : State) : State :=
  let keep := fun (d : Nat) => (135 ≤ d && d ≤ 150) || d = 179 || d = 185 || d = 188 || d = 189 || d = 190 || d = 191
  let doms := (List.range 192).filterMap (fun d => if keep d then none else some (d, 2))
  { s with
    pw := { s.pw with power := .harbour, phyDue := false, doms := doms, idleGated := [], ungating := [] }
    sec := { s.sec with session := none, challenges := [] }
    boot := { s.boot with fwBuf := ⟨[], none⟩, imgBuf := ⟨[], none⟩ }
    mdc := MdcUnit.reset
    se := { s.se with dirCache := [] }
    ce := CeUnit.reset }

/-- HARBOUR_PHY_DOWN (R532 steps 7 and 8): the host ports act as in a PORT reset, drive and peer links go down, the DRAM enters
self-refresh and every domain HARBOUR does not keep is gated. -/
def State.harbourDown (s : State) : State :=
  if !s.pw.phyDue then s else s.harbourLinks.harbourMemory.harbourGate

end Sys2Proof.Machine
end

