-- ==== Sys2Proof/Machine/RegView.lean ====
section
/-! DEFINITION. What registers read: stored values, and the values the device computes from its state when they are read (chapters
02 to 22); latched high halves (R23), read-and-clear fields, and the queue capability (R313). -/

namespace Sys2Proof.Machine

open Sys2Proof

/-- A word with the given fields over a base value. -/
def pack (base : Word) (vs : List (Fld × Nat)) : Word := vs.foldl (fun w v => v.1.put w v.2) base

/-- A value limited to a field's width (saturating counts). -/
def Fld.sat (f : Fld) (v : Nat) : Fld × Nat := (f, min v (2 ^ f.len - 1))

/-- The low and high half of a 64-bit value. -/
def lowHalf (v : Nat) : Word := BitVec.ofNat 32 v
/-- The high half of a 64-bit value. -/
def highHalf (v : Nat) : Word := BitVec.ofNat 32 (v / 2 ^ 32)

/-- The word at byte `4 w` of a digest. -/
def digestWord (h : BitVec 256) (w : Nat) : Word := BitVec.ofNat 32 (h.toNat / 2 ^ (32 * w))

/-! ### SE -/

/-- A pool as either side of the pair knows it. -/
def State.poolSeen (s : State) (p : Nat) : Option Pool :=
  match s.pool? p with
  | some x => some x
  | none => (Tab.get? s.pl.standby p).map (fun t => { t.pool with state := .partner })

/-- The set records of a pool, as either side knows them. -/
def State.setsSeen (s : State) (p : Nat) : List (Nat × SetRec) :=
  match s.pool? p with
  | some _ => s.setsOf p
  | none => match Tab.get? s.pl.standby p with
    | some t => t.sets
    | none => []

/-- The group tolerance of a pool (R49). -/
def State.groupTol (s : State) (p : Nat) (x : Pool) : Nat :=
  let g := ((s.setsSeen p).filter (fun e => setInUse e.2)).foldl (fun (g : Nat) (e : Nat × SetRec) =>
    e.2.members.foldl (fun (g : Nat) (n : Nat) => max g (e.2.members.countP (fun o => s.failGroup o = s.failGroup n))) g) 0
  if g = 0 then 0 else x.params.m / g

/-- Whether a failed member still has bands to rebuild. -/
def State.failedLeft (s : State) (p n : Nat) : Bool :=
  (s.setsOf p).any (fun e => setInUse e.2 &&
    (e.2.rebuild.any (fun r => r.failedSlot = n) || e.2.failedPos.any (fun q => e.2.members.getD q 1024 = n)))

/-- Members of a pool in given states. -/
def State.membersIn (s : State) (p : Nat) (st : MemberState → Bool) : List Nat :=
  (s.se.drives.filter (fun e => e.2.pool = p && st e.2.state)).map (·.1)

/-- Chunk volume in GiB still to be written by the open rebuild records of a pool, rounded up. -/
def State.rebuildLeft (s : State) (p : Nat) : Nat :=
  let bytes := (s.setsOf p).map (fun e => match s.setParams e.1 with
    | some q => (e.2.rebuild.map (fun r => (s.rebuildOffsets e.1 q r.cursor).length)).sum * chunkBytes q.chunk
    | none => 0)
  ceilDiv bytes.sum (2 ^ 30)

/-- Set-bands of a pool in DRAINED state. -/
def State.drainedBands (s : State) (p : Nat) : Nat :=
  ((s.setsOf p).map (fun e =>
    ((s.se.bands.filter (fun b => b.2 = (.drained, e.1))).map (fun b => b.1 % 2 ^ 32)).eraseDups.length)).sum

/-- The tide state of a pool: the highest value that applies. -/
def State.tideState (s : State) (p : Nat) (x : Pool) : Nat :=
  if x.policy.tidePaused then 5
  else if x.tideLate then 4
  else if x.tideWaking then 3
  else if Pool.tideRuns x then 2
  else if s.poolUp p && x.roundOver then 1
  else 0

/-- Stripes still to be copied or returned by a scarf. -/
def State.scarfLeft (s : State) (p : Nat) (c : Scarf) : Nat :=
  match c.state with
  | .copying | .stalled =>
    (s.stripesOf p).countP (fun e => e.2.gen = c.old.gen && !e.2.scarfCopied &&
      (e.2.state = .opened || e.2.state = .sealed || e.2.state = .written)) + c.recopy.length
  | .aborting => (s.returnSet p).length
  | _ => 0

/-- The registers of one pool. -/
def State.viewPool (s : State) (r : Reg) (p : Nat) : Option Word :=
  match s.poolSeen p with
  | none => some 0
  | some x =>
    let q := x.params
    if r = SE_POOL_STATE then some (pack 0
      [(SE_POOL_STATE_STATE, poolCode x.state), (SE_POOL_STATE_SIDE, x.side), (SE_POOL_STATE_SCARF, b2n x.scarf.isSome),
       (SE_POOL_STATE_SINGLE, b2n q.single), (SE_POOL_STATE_GROUP_TOL, s.groupTol p x)])
    else if r = SE_POOL_CODE then some (pack 0
      [(SE_POOL_CODE_K, q.k), (SE_POOL_CODE_M, q.m), (SE_POOL_CODE_CHUNK, q.chunk), (SE_POOL_CODE_LAYOUT_GEN, q.gen)])
    else if r = SE_POOL_BAND then some (pack 0
      [(SE_POOL_BAND_BAND_MIB, q.bandMiB), (SE_POOL_BAND_D, q.d),
       (SE_POOL_BAND_ZONED, b2n (x.members.any (fun n => match s.drive? n with
         | some d => d.info.zoned
         | none => false)))])
    else if r = SE_POOL_MEMBERS then some (pack 0
      [(SE_POOL_MEMBERS_MEMBERS, (s.membersIn p (fun t => t = .active || t = .suspect || t = .retiring)).length),
       (SE_POOL_MEMBERS_FAILED, ((s.membersIn p (fun t => t = .failed)).filter (s.failedLeft p)).length)])
    else if r = SE_POOL_APPEND then some (pack 0
      [(SE_POOL_APPEND_OPEN_LIMIT, x.policy.openLimit), (SE_POOL_APPEND_SEAL_MS, x.policy.sealMs)])
    else if r = SE_POOL_OPEN then some (pack 0
      [(SE_POOL_OPEN_OPEN, (s.openOf p).length),
       Fld.sat SE_POOL_OPEN_SEALED ((s.stripesOf p).countP (fun e => e.2.state = .sealed))])
    else if r = SE_POOL_SEAL_SEQ_LO then some (lowHalf x.sealSeq)
    else if r = SE_POOL_SEAL_SEQ_HI then some (highHalf x.sealSeq)
    else if r = SE_POOL_APPEND_SEQ_LO then some (lowHalf x.appendSeq)
    else if r = SE_POOL_APPEND_SEQ_HI then some (highHalf x.appendSeq)
    else if r = SE_POOL_PENDING then some (pack 0 [(SE_POOL_PENDING_RELEASES, s.se.pending.countP (fun e => e.pool = p))])
    else if r = SE_POOL_DRAINED then some (pack 0 [(SE_POOL_DRAINED_BANDS, s.drainedBands p)])
    else if r = SE_POOL_JOURNAL then some (pack 0
      [(SE_POOL_JOURNAL_MEMBER_0, x.journal.getD 0 0), (SE_POOL_JOURNAL_MEMBER_1, x.journal.getD 1 0),
       (SE_POOL_JOURNAL_MEMBER_2, x.journal.getD 2 0)])
    else if r = SE_POOL_JSTAT then some (pack 0
      [(SE_POOL_JSTAT_READY, ((List.range 3).map (fun i => match x.journal[i]? with
          | some n => if s.memberReadable p n then 2 ^ i else 0
          | none => 0)).sum),
       (SE_POOL_JSTAT_OPEN_BANDS, x.jBandsSince)])
    else if r = SE_POOL_CKPT then some (lowHalf x.ckptGen)
    else if r = SE_POOL_RESYNC then some (pack 0
      [Fld.sat SE_POOL_RESYNC_RESYNCED x.resynced, Fld.sat SE_POOL_RESYNC_LOST x.lostStripes])
    else if r = SE_POOL_READPOL then some (pack 0
      [(SE_POOL_READPOL_WAKE, x.policy.wake), (SE_POOL_READPOL_ADOPT_SLOT, b2n x.policy.adoptSlot),
       (SE_POOL_READPOL_READ_WAIT_S, x.policy.readWaitS), (SE_POOL_READPOL_DEFER_S, x.policy.deferS)])
    else if r = SE_POOL_RBSETS then some (pack 0
      [Fld.sat SE_POOL_RBSETS_DEGRADED ((s.setsSeen p).countP (fun e => e.2.state = .degraded)),
       Fld.sat SE_POOL_RBSETS_REBUILDING ((s.setsSeen p).countP (fun e => e.2.state = .rebuilding))])
    else if r = SE_POOL_RBLEFT then some (lowHalf (s.rebuildLeft p))
    else if r = SE_POOL_LOSS then some (pack 0
      [(SE_POOL_LOSS_RECORDS, x.loss.length), (SE_POOL_LOSS_OVERFLOW, b2n x.lossOverflow)])
    else if r = SE_POOL_TIDECFG then some (pack 0
      [(SE_POOL_TIDECFG_PERIOD_D, x.policy.tidePeriodD), (SE_POOL_TIDECFG_WAKE, x.policy.tideWake),
       (SE_POOL_TIDECFG_PAUSED, b2n x.policy.tidePaused)])
    else if r = SE_POOL_TIDESTAT then some (pack 0
      [(SE_POOL_TIDESTAT_STATE, s.tideState p x), (SE_POOL_TIDESTAT_MARK, x.tideMark)])
    else if r = SE_POOL_TIDEROUND then some (lowHalf x.round)
    else if r = SE_POOL_TIDEDAYS then some (pack 0
      [Fld.sat SE_POOL_TIDEDAYS_ELAPSED_D (if Pool.tideRuns x then (s.devNs - x.roundStart) / dayNs else 0),
       Fld.sat SE_POOL_TIDEDAYS_LAST_D x.lastDays])
    else if r = SE_POOL_SCARF then some (pack 0
      [(SE_POOL_SCARF_STATE, match x.scarf with
          | some c => scarfCode c.state
          | none => 0),
       (SE_POOL_SCARF_BROKEN_HOLD, b2n (s.brokenHold p))])
    else match x.scarf with
      | none => if r = SE_POOL_SCARFOLD ∨ r = SE_POOL_SCARFLEFT ∨ r = SE_POOL_SCARFNEW then some 0 else none
      | some c =>
        if r = SE_POOL_SCARFOLD then
          let o := x.oldParams
          some (pack 0 [(SE_POOL_SCARFOLD_K, o.k), (SE_POOL_SCARFOLD_M, o.m), (SE_POOL_SCARFOLD_CHUNK, o.chunk),
                        (SE_POOL_SCARFOLD_LAYOUT_GEN, o.gen)])
        else if r = SE_POOL_SCARFLEFT then some (lowHalf (s.scarfLeft p c))
        else if r = SE_POOL_SCARFNEW then
          some (lowHalf ((s.stripesOf p).countP (fun e => e.2.fromScarf && e.2.state != .released && e.2.state != .free)))
        else none

/-- The registers of one slot's member. -/
def State.viewMember (s : State) (r : Reg) (n : Nat) : Option Word :=
  let d := (s.drive? n).getD (Drive.missing 0 0 .candidate)
  let here := (s.drive? n).isSome
  if r = SE_MEMBER then some (pack 0
    [(SE_MEMBER_STATE, if here then memberCode d.state else 0), (SE_MEMBER_LINK_DOWN, b2n (here && d.linkDown)),
     (SE_MEMBER_ASLEEP, b2n (match s.slot? n with
        | some x => x.cond = .standby
        | none => false)),
     (SE_MEMBER_SUBSTITUTE, b2n (s.se.sets.any (fun e => e.2.substitutes.contains n))),
     (SE_MEMBER_POOL, d.pool), (SE_MEMBER_FAILURE_GROUP, s.failGroup n), (SE_MEMBER_WAKE_GROUP, s.wakeGroup n)])
  else if r = SE_MEMBER_ERR then some (pack 0
    [Fld.sat SE_MEMBER_ERR_URE_24H (s.within24 d.ures).length, Fld.sat SE_MEMBER_ERR_WFAIL_24H (s.within24 d.bads).length,
     Fld.sat SE_MEMBER_ERR_TIMEOUTS d.timeouts, Fld.sat SE_MEMBER_ERR_REPAIRS d.repairs])
  else if r = SE_MEMBER_CAUSE then some (pack 0 [(SE_MEMBER_CAUSE_CAUSE, d.cause)])
  else none

/-- SE_WIN_STATUS.ADMIT under R162 and R163. -/
def State.admitZone (s : State) : Nat :=
  if s.se.stopped then 3
  else if s.winU ≥ s.winA then 2
  else if 4 * s.winU > 3 * s.winA then 1
  else 0

/-- The lowest margin of the sets that have rebuild records; 7 when there are none. -/
def State.minMargin (s : State) : Nat :=
  (s.se.sets.filter (fun e => !e.2.rebuild.isEmpty)).foldl (fun (m : Nat) (e : Nat × SetRec) => min m (s.margin e.2)) 7

/-- The device-wide registers of SE. -/
def State.viewSe (s : State) (r : Reg) (w : Word) : Word :=
  let mib := fun (b : Nat) => ceilDiv b (2 ^ 20)
  if r = SE_TABLE_USED_LO then lowHalf (s.tableBytes 64)
  else if r = SE_TABLE_USED_HI then highHalf (s.tableBytes 64)
  else if r = SE_SETS_USED then lowHalf s.setIndices.eraseDups.length
  else if r = SE_OPEN_STRIPES then pack w [(SE_OPEN_STRIPES_COUNT, s.openCount)]
  else if r = SE_RELEASE_PENDING then pack w [Fld.sat SE_RELEASE_PENDING_COUNT s.se.pending.length]
  else if r = SE_LEDGER_USED then pack w [Fld.sat SE_LEDGER_USED_COUNT s.ledgerUsed]
  else if r = SE_WIN_LIMIT then pack w
    [(SE_WIN_LIMIT_LIMIT, s.se.w / 2 ^ 28), Fld.sat SE_WIN_LIMIT_FLUSH_CAP (s.se.f / 2 ^ 28)]
  else if r = SE_WIN_USED then pack w [Fld.sat SE_WIN_USED_U_MIB (mib s.winU)]
  else if r = SE_WIN_MIRROR then pack w [Fld.sat SE_WIN_MIRROR_MIRROR_MIB (mib s.mirrorBytes)]
  else if r = SE_WIN_STATUS then pack w
    [(SE_WIN_STATUS_EBB_COVER, b2n s.se.covered), (SE_WIN_STATUS_MIRROR_ACTIVE, b2n (s.pl.peer = .paired)),
     (SE_WIN_STATUS_ADMIT, s.admitZone), (SE_WIN_STATUS_DELTA_FULL, b2n s.se.deltaFull),
     (SE_WIN_STATUS_MIRROR_COPY, b2n (s.pl.peer = .copying)),
     (SE_WIN_STATUS_START_LAYER, s.ownedPools.foldl (fun (m : Nat) (p : Nat) => match s.pool? p with
        | some x => max m x.startLayer
        | none => m) 0)]
  else if r = SE_WIN_ENERGY then pack w [(SE_WIN_ENERGY_E_REQUIRED, s.energyRequired)]
  else if r = SE_RB_STATUS then pack w
    [(SE_RB_STATUS_PASSES, s.se.sets.countP (fun e => e.2.passRunning)), (SE_RB_STATUS_MIN_MARGIN, s.minMargin)]
  else if r = SE_RB_QUEUED then pack w
    [(SE_RB_QUEUED_SETS, s.se.sets.countP (fun e => !e.2.rebuild.isEmpty && !e.2.passRunning))]
  else w

/-! ### CE, EB, QM and QC -/

/-- The registers of CE and EB. -/
def State.viewEngines (s : State) (r : Reg) (w : Word) : Word :=
  if r = CE_CAP then pack w [(CE_CAP_MAX_M, s.maxM)]
  else if r = CE_STATUS then pack w
    [(CE_STATUS_BUSY, ((Tab.keys s.ce.running).map (2 ^ ·)).sum), (CE_STATUS_MATRIX_BUSY, b2n s.ce.inverting.isSome),
     Fld.sat CE_STATUS_QUEUED s.ce.queue.length]
  else if r = EB_STATUS then pack w
    [(EB_STATUS_SLOT0_IMAGE, b2n (s.ebSlot 0).live), (EB_STATUS_SLOT1_IMAGE, b2n (s.ebSlot 1).live),
     (EB_STATUS_SLOT0_READY, b2n (s.ebSlot 0).ready), (EB_STATUS_SLOT1_READY, b2n (s.ebSlot 1).ready),
     (EB_STATUS_ERASING, b2n ((s.ebSlot 0).erasing || (s.ebSlot 1).erasing)), (EB_STATUS_STORE_FAULT, b2n s.eb.storeFault)]
  else if r = EB_SEQ_LO then lowHalf s.eb.seq
  else if r = EB_SEQ_HI then highHalf s.eb.seq
  else if r = EB_LAST then pack w
    [(EB_LAST_DURATION_MS, s.eb.lastMs), (EB_LAST_TRIGGER, s.eb.lastTrigger), (EB_LAST_COMPLETE, b2n s.eb.lastComplete)]
  else w

/-- The device-wide and per-function registers of QM. -/
def State.viewQm (s : State) (r : Reg) (i : Nat) (w : Word) : Word :=
  if r = QM_SPILL_RESERVED then pack w [(QM_SPILL_RESERVED_ENTRIES, s.spillReserved)]
  else if r = QM_SPILL_USED then pack w [(QM_SPILL_USED_ENTRIES, s.spillUsed)]
  else if r = QM_INFLIGHT then pack w [(QM_INFLIGHT_COUNT, s.inflight)]
  else if r = QM_ORPHANS then pack w [(QM_ORPHANS_COUNT, s.qm.orphans.length)]
  else if r = QM_FN_STATE then
    let f := s.fn i
    pack w [(QM_FN_STATE_QUEUES, s.queuesHeld i), (QM_FN_STATE_CTLQ, b2n (s.dqNum i 0).isSome),
            (QM_FN_STATE_IN_RESET, b2n f.inReset), (QM_FN_STATE_BME, b2n f.bme), (QM_FN_STATE_PRESENT, b2n f.present)]
  else if r = QM_FN_ORPHANS then pack w [(QM_FN_ORPHANS_COUNT, (s.orphansOf i).length)]
  else w

/-- The context window of a device queue number. -/
def State.viewQc (s : State) (r : Reg) (q : Nat) (w : Word) : Word :=
  match s.dq q with
  | none => w
  | some d =>
    if r = QC_OWNER then pack w
      [(QC_OWNER_SQ_VALID, b2n d.sq.isSome), (QC_OWNER_CQ_VALID, b2n d.cq.isSome), (QC_OWNER_PORT, fnPort d.x),
       (QC_OWNER_ENTRY, fnEntry d.x), (QC_OWNER_LOCAL, d.loc)]
    else if r = QC_SQ_CFG ∨ r = QC_SQ_ARB ∨ r = QC_SQ_TAIL ∨ r = QC_SQ_HEAD then
      match d.sq with
      | none => w
      | some a =>
        if r = QC_SQ_CFG then pack w [(QC_SQ_CFG_SIZE_LOG2, a.log2), (QC_SQ_CFG_CQ, a.cq)]
        else if r = QC_SQ_ARB then pack w
          [(QC_SQ_ARB_WEIGHT, a.weight), (QC_SQ_ARB_BURST, a.burst), (QC_SQ_ARB_PREFETCH, a.prefetch), (QC_SQ_ARB_POLL_US, a.pollUs)]
        else if r = QC_SQ_TAIL then a.a
        else a.c
    else
      match d.cq with
      | none => w
      | some c =>
        if r = QC_CQ_CFG then pack w
          [(QC_CQ_CFG_SIZE_LOG2, c.log2), (QC_CQ_CFG_VECTOR, c.vector.getD 0), (QC_CQ_CFG_NO_VECTOR, b2n c.vector.isNone)]
        else if r = QC_CQ_COAL then pack w [(QC_CQ_COAL_COUNT, c.coalCount), (QC_CQ_COAL_US, c.coalUs)]
        else if r = QC_CQ_TAIL then c.pc
        else if r = QC_CQ_HEAD then c.h
        else if r = QC_CQ_SPILL_LIMIT then pack w [(QC_CQ_SPILL_LIMIT_L, c.spillLimit)]
        else if r = QC_CQ_SPILL_USED then pack w
          [(QC_CQ_SPILL_USED_S, c.spill.length), (QC_CQ_SPILL_USED_CLOSED, b2n c.closed)]
        else if r = QC_CQ_OUTSTANDING then pack w [(QC_CQ_OUTSTANDING_O, c.outstanding)]
        else w

/-! ### DL, CL and PL -/

/-- Slots of a die. -/
def dieSlots (s : State) (d : Nat) : List (Nat × Slot) := s.dl.slots.filter (fun e => e.1 / 256 = d)

/-- PROTO, RATE and COND of DL_SLOT_n_STATUS. -/
def Cond.code : Cond → Nat
  | .off => 0 | .held => 1 | .spinningUp => 2 | .standby => 3 | .idle => 4 | .active => 5

/-- The registers of DL. -/
def State.viewDl (s : State) (r : Reg) (i j : Nat) (w : Word) : Word :=
  if r = DL_DIE_STATUS then pack w
    [(DL_DIE_STATUS_LINKS_UP, (dieSlots s i).countP (fun e => e.2.linkUp)),
     (DL_DIE_STATUS_POWERED, (dieSlots s i).countP (fun e => e.2.pwrEn || (e.2.present && !s.extended (e.1 / 32))))]
  else if r = DL_CHAIN_STATUS then pack w
    [(DL_CHAIN_STATUS_EXTENDED, b2n (s.extended (8 * i + j))), (DL_CHAIN_STATUS_FAULT, b2n (s.chain (8 * i + j)).fault)]
  else if r = DL_ENC_SPIN then pack w
    [Fld.sat DL_ENC_SPIN_RESERVED_DA (s.reservedPeak i), (DL_ENC_SPIN_BLOCKED, b2n (s.spinBlocked i))]
  else if r = DL_ENC_QUEUE then pack w
    [(DL_ENC_QUEUE_SPINNING, s.dl.slots.countP (fun e => e.2.cond = .spinningUp && s.enclosure e.1 = i)),
     (DL_ENC_QUEUE_WAITING, s.dl.queue.countP (fun e => s.enclosure e.slot = i))]
  else if r = DL_SLOT_STATUS then
    let x := (s.slot? i).getD Slot.blank
    pack w
      [(DL_SLOT_STATUS_PRESENT, b2n x.present), (DL_SLOT_STATUS_PWR_EN, b2n x.pwrEn), (DL_SLOT_STATUS_PWR_GOOD, b2n x.pwrGood),
       (DL_SLOT_STATUS_POWER_FAULT, b2n x.powerFault),
       (DL_SLOT_STATUS_PROTO, if x.linkUp then (if x.sata then 2 else 1) else 0), (DL_SLOT_STATUS_RATE, x.rate),
       (DL_SLOT_STATUS_COND, Cond.code x.cond), (DL_SLOT_STATUS_ZONED, b2n x.zoned), (DL_SLOT_STATUS_FLASH, b2n x.flash),
       (DL_SLOT_STATUS_SINGLE, b2n x.single), (DL_SLOT_STATUS_NO_PR, b2n x.noPr),
       (DL_SLOT_STATUS_UNSUPPORTED, b2n x.unsupported), (DL_SLOT_STATUS_LINK_FAIL, b2n x.linkFail),
       (DL_SLOT_STATUS_QUEUED, b2n (s.dl.queue.any (fun e => e.slot = i))), (DL_SLOT_STATUS_LOCATE, b2n x.locate),
       (DL_SLOT_STATUS_ENCLOSURE, s.enclosure i)]
  else w

/-- PL_STATUS.PEER. -/
def peerCode : PeerState → Nat
  | .unpaired => 0 | .training => 1 | .hello => 2 | .copying => 3 | .paired => 4 | .silent => 5 | .lost => 6 | .fenced => 7
  | .conflict => 8

/-- The registers of PL and CL. -/
def State.viewPeer (s : State) (r : Reg) (i : Nat) (w : Word) : Word :=
  if r = PL_STATUS then pack w
    [(PL_STATUS_PEER, peerCode s.pl.peer), (PL_STATUS_SIDE, s.pl.side), (PL_STATUS_PAIR_MODE, b2n s.pl.pairMode),
     (PL_STATUS_LINK_UP, b2n s.pl.linkUp), (PL_STATUS_RATE, s.pl.rate), (PL_STATUS_WIDTH, s.pl.width)]
  else if r = PL_MIRROR_LAG then pack w [Fld.sat PL_MIRROR_LAG_KIB (ceilDiv (s.pl.lag.map (·.2)).sum 1024)]
  else if r = CL_BANK_EU then pack w [(CL_BANK_EU_TEST_AGE_H, s.testAge)]
  else if r = CL_ENC_STATE then pack w [(CL_ENC_STATE_HOLD, s.fld CL_HOLD 0 CL_HOLD_HELD / 2 ^ i)]
  else w

/-! ### DEV, SEC, PW and EV -/

/-- DEV_START.PHASE. -/
def State.startPhase (s : State) : Nat :=
  if !s.boot.fwReady then s.boot.phase
  else if s.boot.bare then 4
  else if s.ownedPools.any (fun p => s.poolState p = .assembling) || !s.boot.startWakes.isEmpty then 5
  else 6

/-- KQ_STATUS.POOLS_ASSEMBLED (R488). -/
def State.poolsAssembled (s : State) : Bool := s.startPhase = 6

/-- The registers of DEV. -/
def State.viewDev (s : State) (r : Reg) (a : Nat) (w : Word) : Word :=
  if r = DEV_TIME_LO then lowHalf s.devNs
  else if r = DEV_TIME_HI then highHalf s.devNs
  else if r = DEV_STATUS then pack w
    [(DEV_STATUS_TIME_SET, b2n s.timeSet), (DEV_STATUS_FW_READY, b2n s.boot.fwReady),
     (DEV_STATUS_CC_ON, ((List.range 4).map (fun c => if s.boot.fwReady && s.domain (179 + c) = 0 then 2 ^ c else 0)).sum),
     (DEV_STATUS_CC_GATED, ((List.range 4).map (fun c => if s.pw.idleGated.contains (179 + c) then 2 ^ c else 0)).sum)]
  else if 0x40 ≤ a && a < 0x80 then s.devCap ((a - 0x40) / 4)
  else if r = DEV_STAGE then pack w
    [(DEV_STAGE_FW_BUF, b2n (!s.boot.fwBuf.data.isEmpty)), (DEV_STAGE_IMG_BUF, b2n (!s.boot.imgBuf.data.isEmpty)),
     (DEV_STAGE_BUSY, b2n s.boot.stage.isSome)]
  else if r = DEV_START then pack w [(DEV_START_PHASE, s.startPhase)]
  else if r = DEV_MODE_EPOCH_LO then lowHalf s.pw.epochDone
  else if r = DEV_MODE_EPOCH_HI then highHalf s.pw.epochDone
  else if r = DEV_MODE_STATUS then pack w
    [(DEV_MODE_STATUS_LAST, s.pw.modeLast), (DEV_MODE_STATUS_RESULT, s.pw.modeResult),
     (DEV_MODE_STATUS_BUSY, b2n s.pw.epoch.isSome), (DEV_MODE_STATUS_UNIT, s.pw.modeUnit)]
  else w

/-- The registers of SEC. -/
def State.viewSec (s : State) (r : Reg) (i j : Nat) (w : Word) : Word :=
  let fuses := fun (lo n : Nat) => ((List.range n).map (fun k => if s.sec.fuses.contains (lo + k) then 2 ^ k else 0)).sum
  if r = SEC_STATE then pack w
    [(SEC_STATE_ENROLLED, ((List.range 4).map (fun k => if s.sec.enrolled.contains k then 2 ^ k else 0)).sum),
     (SEC_STATE_REVOKED, fuses 2 4), (SEC_STATE_VENDOR_REVOKED, fuses 0 2), (SEC_STATE_SVN_MIN, s.svnMin),
     (SEC_STATE_UNCLAIMED, b2n s.sec.enrolled.isEmpty), (SEC_STATE_IDENTITY, b2n s.sec.identity),
     (SEC_STATE_FW_SVN, s.boot.fwSvn)]
  else if r = SEC_SESSION then
    match s.sec.session with
    | some o => pack w
      [(SEC_SESSION_ACTIVE, 1), (SEC_SESSION_PORT, o.port), (SEC_SESSION_KEY_SLOT, o.keySlot),
       Fld.sat SEC_SESSION_IDLE_MIN ((s.devNs - o.lastOwner) / (60 * 10 ^ 9))]
    | none => w
  else if r = SEC_PROT_EPOCH_LO then lowHalf s.sec.epoch
  else if r = SEC_PROT_EPOCH_HI then highHalf s.sec.epoch
  else if r = SEC_PROT_GEN_LO then lowHalf s.sec.gen
  else if r = SEC_PROT_GEN_HI then highHalf s.sec.gen
  else if r = SEC_PROT_SRC then pack w [(SEC_PROT_SRC_SOURCE, s.sec.src), (SEC_PROT_SRC_DIRTY, b2n s.sec.dirty)]
  else if r = SEC_ENROLL_CTL then pack w [(SEC_ENROLL_CTL_BUSY, b2n s.sec.enrollBusy.isSome)]
  else if r = SEC_OWNER_HASH then digestWord (if s.sec.enrolled.contains i then Tab.getD s.sec.ownerKeys i 0 else 0) j
  else if r = SEC_MEAS then
    digestWord (match i with
      | 0 => s.sec.measRom
      | 1 => s.sec.measFw
      | 2 => s.sec.measImg
      | _ => s.sec.deviceId) j
  else if r = SEC_CERT_LEN then pack w [(SEC_CERT_LEN_BYTES, s.sec.cert.length)]
  else if r = SEC_CERT then BitVec.ofNat 32 (leAt s.sec.cert (4 * i) 4)
  else w

/-- PW_STATE.POWER: SLACK is RUN with a domain idle-gated (R531). -/
def State.powerCode (s : State) : Nat :=
  match s.pw.power with
  | .harbourPrep => 2
  | .harbourExit => 3
  | _ => if s.pw.idleGated.isEmpty then 0 else 1

/-- The registers of PW. -/
def State.viewPw (s : State) (r : Reg) (i : Nat) (w : Word) : Word :=
  if r = PW_STATE then pack w
    [(PW_STATE_POWER, s.powerCode), (PW_STATE_LAST_RESET, s.pw.lastReset), (PW_STATE_RETAINED, b2n s.pw.retained),
     (PW_STATE_RECORD, b2n s.pw.record)]
  else if r = PW_UNIT_BUSY then pack w
    [(PW_UNIT_BUSY_BUSY, ((List.range 12).map (fun u =>
      if s.pw.unitBusy.contains u || s.pw.unitWaiting.contains u then 2 ^ u else 0)).sum)]
  else if r = PW_CLK_STATUS then pack w
    [(PW_CLK_STATUS_LOCKED, ((List.range 12).map (fun c => if s.pw.unlocked.contains c then 0 else 2 ^ c)).sum),
     (PW_CLK_STATUS_AON_FALLBACK, b2n s.pw.aonFallback)]
  else if r = PW_PD_STATE then BitVec.ofNat 32 ((List.range 16).map (fun j => s.domain (16 * i + j) * 4 ^ j)).sum
  else w

/-- Records held: in the log region, and in the ring. -/
def EvUnit.held (e : EvUnit) : List EvRecord := e.log ++ e.ring

/-- The lowest SEQ held, or the next one. -/
def EvUnit.oldest (e : EvUnit) : Nat :=
  match e.held with
  | [] => e.seq + 1
  | r :: rs => rs.foldl (fun (m : Nat) (x : EvRecord) => min m x.seq) r.seq

/-- Capacity of the log region in records (R610). -/
def logCapacity : Nat := 1048576

/-- The registers of EV. -/
def State.viewEv (s : State) (r : Reg) (w : Word) : Word :=
  if r = EV_CAP then (if s.hasEB then w else pack w [(EV_CAP_LOG_LOG2, 0)])
  else if r = EV_STATUS then pack w
    [(EV_STATUS_STORE_FAULT, b2n s.ev.storeFault), (EV_STATUS_NO_STORE, b2n (!s.hasEB)),
     (EV_STATUS_CLEARING, b2n s.ev.clearing), (EV_STATUS_FULL, b2n (s.ev.log.length ≥ logCapacity)),
     (EV_STATUS_SCANNING, b2n s.ev.scanning), (EV_STATUS_RING_PENDING, s.ev.ring.length)]
  else if r = EV_SEQ_LO then lowHalf s.ev.seq
  else if r = EV_SEQ_HI then highHalf s.ev.seq
  else if r = EV_OLDEST_LO then lowHalf s.ev.oldest
  else if r = EV_OLDEST_HI then highHalf s.ev.oldest
  else if r = EV_COUNT then pack w [(EV_COUNT_RECORDS, min s.ev.held.length logCapacity)]
  else w

/-! ### Reads -/

/-- The value of the register at a BAR0 offset, without the side effects of a read (R5, R33, R605). -/
def State.regView (s : State) (a : Nat) : Word :=
  if s.absentAt a || s.gatedAt a then 0
  else
    let w := s.getReg a
    match regLookup a with
    | none => 0
    | some (r, i, j) =>
      if a < 0x10000 then s.viewDev r a w
      else if a < 0x40000 then s.viewSec r i j w
      else if a < 0x80000 then s.viewPw r i w
      else if a < 0x100000 then s.viewEv r w
      else if a < 0x200000 then s.viewQm r i w
      else if a < 0x201000 then s.viewSe r w
      else if a < 0x210000 then (s.viewPool r i).getD w
      else if a < 0x300000 then (s.viewMember r i).getD w
      else if a < 0x400000 then s.viewEngines r w
      else if a < 0x700000 then w
      else if a < 0x780000 then s.viewPeer r i w
      else if a < 0x800000 then s.viewEngines r w
      else if a < 0x1000000 then s.viewPeer r i w
      else if a < 0x2000000 then s.viewDl r i j w
      else s.viewQc r i w

/-- The registers whose low half latches the high half that follows it (R23). -/
def latchingLow : List Reg :=
  [SE_TABLE_USED_LO, SE_POOL_SEAL_SEQ_LO, SE_POOL_APPEND_SEQ_LO, CE_CL_BYTES_LO, EB_SEQ_LO, PL_PEER_OWNED_LO, DEV_IMG_SEQ_LO,
   SEC_PROT_EPOCH_LO, SEC_PROT_GEN_LO, DEV_MODE_EPOCH_LO, MC_CH_UE_ADDR_LO, XM_CH_PC_LO, XM_CH_SRC_LO, XM_CH_DST_LO, EV_SEQ_LO,
   EV_OLDEST_LO, DEV_TIME_LO]

/-- A register word with its read-and-clear fields cleared. -/
def clearRc (fs : List Fld) (w : Word) : Word := fs.foldl (fun w f => if f.acc = .rc then f.put w 0 else w) w

/-- A host read of the register at a BAR0 offset: the value, and what the read does (R5, R20, R23, R33, R36). -/
def State.readReg (s : State) (a : Nat) : Word × State :=
  if s.absentAt a then (0, s)
  else if s.gatedAt a then (0, s.gatedEvent a false)
  else
    match regLookup a with
    | none => (0, s.regAccessEvent a false)
    | some (r, _, _) =>
      let v := (Tab.get? s.latch a).getD (s.regView a)
      let s := { s with latch := Tab.erase s.latch a }
      let s : State := if latchingLow.contains r then { s with latch := Tab.set s.latch (a + 4) (s.regView (a + 4)) } else s
      (v, s.setReg a (clearRc r.fields (s.getReg a)))

/-- A register of a function's queue capability (R313). -/
def State.capView (s : State) (x off : Nat) : Word :=
  let f := s.fn x
  let active := (s.dqNum x 0).isSome
  if off = 0x0C then
    BitVec.ofNat 32 (b2n s.boot.fwReady + 2 * b2n s.poolsAssembled + 4 * b2n active + 65536 * (s.prot x).quota)
  else if off = 0x10 then f.ctlq
  else if off = 0x14 then lowHalf f.sqBase
  else if off = 0x18 then highHalf f.sqBase
  else if off = 0x1C then lowHalf f.cqBase
  else if off = 0x20 then highHalf f.cqBase
  else 0

end Sys2Proof.Machine
end

