-- ==== Sys2Proof/Machine/Events.lean ====
section
/-! DEFINITION. The event recorder (chapter 21): the formation of records, the standby ring, the log region, clearing, store
faults and notification. -/

namespace Sys2Proof.Machine

open Sys2Proof

/-! ### Records (R603) -/

/-- The 256 bytes of an event record (R603). -/
def EvRecord.bytes (r : EvRecord) : List Byte :=
  let snap := r.snapshot.flatMap (fun (e : Nat × Word) => leBytes 4 e.1 ++ leBytes 4 e.2.toNat)
  withCrc (padTo 252 (leBytes 2 r.code ++ leBytes 1 (r.sev + 8 * b2n r.timeUnset + 16 * b2n r.standby) ++
    leBytes 1 r.snapshot.length ++ leBytes 4 r.suppressed ++ leBytes 8 r.seq ++ leBytes 8 r.time ++ leBytes 4 r.lost ++
    leBytes 4 r.inst ++ padTo 28 r.detail ++ snap))

/-- The snapshot of a code: at most 24 registers, read without side effects (R605; log entry 12). -/
def State.snapshot (s : State) (code : Nat) : List (Nat × Word) :=
  ((Config.snapshotRegs code).take 24).map (fun a => (a, s.regView a))

/-- The record of an event under the next SEQ, with the counts it carries (R603, R604, R608, R609). -/
def State.newRecord (s : State) (e : RaisedEvent) : EvRecord :=
  { code := e.code, sev := e.sev, timeUnset := !s.timeSet, standby := s.ev.storeFault,
    suppressed := Tab.getD s.ev.suppressed e.code 0, seq := s.ev.seq + 1, time := e.time, lost := s.ev.lostNow,
    inst := e.inst, detail := padTo 28 e.detail, snapshot := s.snapshot e.code }

/-- Ports whose notification a record of a severity calls for (R618). -/
def State.notified (s : State) (sev : Nat) (always : Bool) : List Nat :=
  [0, 1].filter (fun p => s.fld EV_NOTIFY p EV_NOTIFY_EN = 1 && (always || sev ≥ s.fld EV_NOTIFY p EV_NOTIFY_MIN_SEV))

/-- SEQ, the counts and the notification after a record of an event is formed. -/
def State.recordFormed (s : State) (e : RaisedEvent) (always : Bool) : State :=
  let due := s.notified e.sev always
  { s with ev := { s.ev with seq := s.ev.seq + 1, lostNow := 0, suppressed := Tab.erase s.ev.suppressed e.code,
                             notifyDue := (s.ev.notifyDue ++ due).eraseDups } }

/-- Records with one more, under R610: when `cap` are held, it replaces the one of lowest SEQ among those of severity at or below
its own; none when it is dropped. -/
def keepRecord (cap : Nat) (held : List EvRecord) (r : EvRecord) : Option (List EvRecord) :=
  if held.length < cap then some (held ++ [r])
  else
    match held.find? (fun x => x.sev ≤ r.sev) with
    | some x => some (held.erase x ++ [r])
    | none => none

/-- A record dropped under R610. -/
def State.dropRecord (s : State) : State :=
  let s := s.bump EV_DROPPED 0 EV_DROPPED_COUNT
  { s with ev := { s.ev with lostNow := min (s.ev.lostNow + 1) 0xFFFFFFFF } }

/-- A record enters the standby ring (R610). -/
def State.toRing (s : State) (r : EvRecord) : State :=
  match keepRecord 256 s.ev.ring r with
  | some ring => { s with ev := { s.ev with ring := ring } }
  | none => s.dropRecord

/-- A record enters the log region (R610). -/
def State.toLog (s : State) (r : EvRecord) : State :=
  match keepRecord logCapacity s.ev.log r with
  | some log => { s with ev := { s.ev with log := log } }
  | none => s.dropRecord

/-- Form the record of an event and place it in the ring (R603, R605). -/
def State.formNow (s : State) (e : RaisedEvent) (always : Bool) : State :=
  let r := s.newRecord e
  (s.recordFormed e always).toRing r

/-- The recorder forms the record of the oldest event of the intake FIFO. -/
def State.formRecord (s : State) : State :=
  match s.ev.fifo with
  | [] => s
  | e :: es =>
    if s.ev.resetting then s
    else State.formNow { s with ev := { s.ev with fifo := es } } e false

/-! ### The log region -/

/-- Whether the recorder can program the log region now. -/
def State.logOpen (s : State) : Bool :=
  s.hasEB && !s.ev.storeFault && !s.ev.clearing && !s.ev.scanning && !s.ev.resetting

/-- Move the oldest `n` records of the ring to the log region. -/
def State.ringOut (s : State) (n : Nat) : State :=
  let rs := s.ev.ring.take n
  let s := { s with ev := { s.ev with ring := s.ev.ring.drop n } }
  s.each rs (fun r s => s.toLog r)

/-- A page of 16 records is programmed (R610): its records leave the ring. -/
def State.logWritten (s : State) : State := if s.logOpen then s.ringOut 16 else s

/-- The whole ring goes to the log region, when the device has one that works (R613, R523). -/
def State.ringSaved (s : State) : State :=
  if s.hasEB && !s.ev.storeFault && !s.ev.clearing then s.ringOut 256 else s

/-- The store faults (R611). -/
def State.evStoreFault (s : State) : State :=
  if s.ev.storeFault ∨ !s.hasEB then s
  else
    let s := { s with ev := { s.ev with storeFault := true } }
    s.formNow ⟨0x302, 6, noInst, [], s.devNs⟩ true

/-- The ring is copied into the region in SEQ order, STORE_BACK follows, and STORE_FAULT clears (R611). -/
def State.copiedBack (s : State) : State :=
  let n := s.ev.ring.length
  let s := s.ringOut 256
  let s := { s with ev := { s.ev with storeFault := false, backWait := false } }
  s.formNow ⟨0x303, 3, noInst, leBytes 4 n, s.devNs⟩ false

/-- The store returns (R611): a waiting erase comes first (R616). -/
def State.evStoreBack (s : State) : State :=
  if !s.ev.storeFault then s
  else if s.ev.clearing then { s with ev := { s.ev with backWait := true } }
  else s.copiedBack

/-! ### Start, scan and reset -/

/-- The scan ends (R614). -/
def State.scanDone (s : State) : State := { s with ev := { s.ev with scanning := false } }

/-- A UNIT reset of EV (R617): counters are reset, the FIFO's entries are lost, every bucket is full, and the region is scanned
again. -/
def State.evReset (s : State) : State :=
  let s := ((s.setReg (EV_LOST.at 0) 0).setReg (EV_DROPPED.at 0) 0).setReg (EV_SUPPRESSED.at 0) 0
  let s := s.each s.ev.fifo (fun _ s => s.evLose)
  { s with ev := { s.ev with fifo := [], tokens := [], resetting := true, scanning := s.hasEB } }

/-- A code's bucket gains one token (R606). -/
def State.refillToken (s : State) (code : Nat) : State :=
  let full := s.burst (codeSev code)
  let n := s.tokens code (codeSev code) + 1
  { s with ev := { s.ev with tokens := if n ≥ full then Tab.erase s.ev.tokens code else Tab.set s.ev.tokens code n } }

/-- The notification of a port, when one is due (R618). -/
def State.notifyTick (s : State) (port : Nat) : State :=
  if !s.ev.notifyDue.contains port then s
  else
    let s := { s with ev := { s.ev with notifyDue := s.ev.notifyDue.filter (· ≠ port) } }
    s.sendMsix (port * 65) (s.fld EV_NOTIFY port EV_NOTIFY_VECTOR)

/-! ### EV_READ and EV_CLEAR (R615, R616) -/

/-- The held records from a SEQ on, in increasing SEQ. -/
def EvUnit.recordsFrom (e : EvUnit) (seq : Nat) : List EvRecord :=
  (sortBy (fun a b => a.seq ≤ b.seq) e.held).filter (fun r => r.seq ≥ seq)

/-- The checks of EV_READ (R380). -/
def State.evReadPre (s : State) (c : HostCmd) : Check :=
  let max := entryLe c 0 16 4
  firstFail [onEntry0 c,
    layout c 0 1 ([anyAt 8 8, ⟨16, 4, 1 ≤ max ∧ max ≤ 4096⟩] ++ descAt c 24), descCheck c 24 (256 * max), s.operatorPriv c 1]

/-- EV_READ (R615). -/
def State.runEvRead (s : State) (id : Nat) (c : HostCmd) : State :=
  let max := entryLe c 0 16 4
  let from_ := entryLe c 0 8 8
  s.checked id (s.evReadPre c) (fun s =>
    let rs := (s.ev.recordsFrom from_).take max
    let next := match rs.getLast? with
      | some r => r.seq + 1
      | none => from_
    let s := s.toHost id (descOfEntry c 24).addr (rs.flatMap EvRecord.bytes)
    s.complete id stSuccess (leBytes 4 rs.length ++ zeros 4 ++ leBytes 8 next))

/-- EV_CLEAR in its turn (R616): the CLEARED record takes the next SEQ at once, the ring is discarded and the region erased. On a
device without a region the record stays in the ring and the command completes. -/
def State.goEvClear (s : State) (id : Nat) : State :=
  let held := s.ev.held
  let first := s.ev.oldest
  let last := held.foldl (fun (m : Nat) (r : EvRecord) => Nat.max m r.seq) 0
  let port := match s.cmd? id with
    | some c => fnPort c.x
    | none => 0
  let key := match s.sec.session with
    | some o => o.keySlot
    | none => 0
  let e : RaisedEvent := ⟨0x301, 4, noInst, leBytes 8 first ++ leBytes 8 last ++ leBytes 1 port ++ leBytes 1 key, s.devNs⟩
  let r := s.newRecord e
  let s := s.recordFormed e false
  if s.hasEB then
    State.setBody { s with ev := { s.ev with ring := [], clearing := true, cleared := some r } } id (.evClear r.seq)
  else State.complete { s with ev := { s.ev with ring := [r], log := [] } } id stSuccess (leBytes 8 r.seq)

/-- The checks of EV_CLEAR before it waits for its turn (R379). -/
def State.evClearPre (s : State) (c : HostCmd) : Check :=
  firstFail [onEntry0 c, layout c 0 1 [], s.ownerPriv c]

/-- EV_CLEAR (R616). -/
def State.runEvClear (s : State) (id : Nat) (c : HostCmd) : State :=
  s.checked id (s.evClearPre c) (fun s =>
    s.inTurn id c (fun s => s.goEvClear id))

/-- The erase of the region ends (R616): the CLEARED record is written first, and the command completes with its SEQ. It cannot
end while the store is away. -/
def State.eraseDone (s : State) : State :=
  if !s.ev.clearing ∨ (s.ev.storeFault ∧ !s.ev.backWait) then s
  else
    let s := match s.ev.cleared with
      | some r => { s with ev := { s.ev with log := [r], clearing := false, cleared := none } }
      | none => { s with ev := { s.ev with log := [], clearing := false } }
    let s := s.each s.qm.cmds (fun (e : Nat × Cmd) (s : State) => match e.2.body with
      | .evClear q => s.complete e.1 stSuccess (leBytes 8 q)
      | _ => s)
    if s.ev.backWait then s.copiedBack else s

end Sys2Proof.Machine
end

