-- ==== Sys2Proof/Machine/Boot.lean ====
section
/-! DEFINITION. Starts (chapter 15): the choice of firmware and image, the image applied to the registers and units, the bare start,
and what COLD and WARM resets keep (R522 to R529). -/

namespace Sys2Proof.Machine

open Sys2Proof

/-! ### The image on the registers (R482, R483) -/

/-- A register word with the masked bits of a value. -/
def maskWord (w : Word) (mask v : Nat) : Word :=
  let m := BitVec.ofNat 32 mask
  (w &&& ~~~m) ||| (BitVec.ofNat 32 v &&& m)

/-- A signed value as the bits of a field. -/
def signedBits (len : Nat) (v : Int) : Nat := (v % (2 ^ len : Int)).toNat

/-- The REGISTERS section over the registers at `lo ≤ offset < hi`, in image order (R483). -/
def State.imageEntries (s : State) (i : Image) (lo hi : Nat) : State :=
  s.each (i.registers.filter (fun e => lo ≤ e.1 && e.1 < hi)) (fun e s =>
    s.setReg e.1 (maskWord (s.getReg e.1) e.2.1 e.2.2))

/-- What ENCLOSURES and SLOTS put into the registers of the drive links; absent entries take the defaults of R482. -/
def State.imageDl (s : State) (i : Image) : State :=
  let s := s.each (List.range 32) (fun e s =>
    s.setFld DL_ENC_SPIN e DL_ENC_SPIN_I_MAX_DA (match Tab.get? i.enclosures e with
      | some c => c.iMaxDa
      | none => 300))
  s.each i.slots (fun (e : Nat × SlotCfg) (s : State) =>
    if e.1 ≥ s.slotCount then s
    else (s.setFld DL_SLOT_CTL e.1 DL_SLOT_CTL_MAX_RATE e.2.maxRate).setFld DL_SLOT_CTL e.1 DL_SLOT_CTL_PROFILE e.2.profile)

/-- What CLIMATE_IO and LOOPS put into the registers of the climate unit (R484). -/
def State.imageCl (s : State) (i : Image) : State :=
  if !s.hasCL then s
  else
    let s := s.each i.ains (fun (e : Nat × AinCfg) (s : State) =>
      (s.setFld CL_AIN e.1 CL_AIN_ROLE e.2.role).setFld CL_AIN e.1 CL_AIN_ENC e.2.enc)
    let s := s.each i.sensors (fun (e : Nat × SnsCfg) (s : State) => s.setFld CL_SNS e.1 CL_SNS_ENC e.2.enc)
    let s := s.each i.heaters (fun (e : Nat × HtrCfg) (s : State) => s.setFld CL_HTR e.1 CL_HTR_TEST_LOAD (b2n e.2.testLoad))
    let s := s.each i.loops (fun (e : Nat × List Nat) (s : State) =>
      let put := fun (r : Reg) (k : Nat) (s : State) => s.setReg (r.at e.1) (BitVec.ofNat 32 (e.2.getD k 0))
      put CL_LE_LIMIT 4 (put CL_LE_FF 3 (put CL_LE_GAIN 2 (put CL_LE_SET 1 (put CL_LE_CFG 0 s)))))
    s.setFld CL_CHG 0 CL_CHG_TARGET_DV i.chgTargetDv

/-- The image's values of the registers at `lo ≤ offset < hi` (R529, R530). -/
def State.imageSpan (s : State) (lo hi : Nat) : State :=
  match s.boot.image with
  | none => s
  | some i =>
    let s := s.imageEntries i lo hi
    let s := if lo ≤ 0x700000 ∧ 0x780000 ≤ hi then s.imageCl i else s
    if lo ≤ 0x1000000 ∧ 0x1440000 ≤ hi then s.imageDl i else s

/-- Registers at `lo ≤ offset < hi` back at their reset values. -/
def State.clearSpan (s : State) (lo hi : Nat) : State :=
  { s with regs := s.regs.filter (fun e => !(lo ≤ e.1 && e.1 < hi)) }

/-! ### What runs (R475, R476) -/

/-- The slot taken of two, and the reason reported for each: the preferred slot when it passes, else the other; a slot not
examined reports 0xFF. -/
def chooseSlot (pref r0 r1 : Nat) : Option Nat × Nat × Nat :=
  let first := if pref = 0 then r0 else r1
  let other := if pref = 0 then r1 else r0
  if first = 0 then (some pref, if pref = 0 then (0, 0xFF) else (0xFF, 0))
  else (if other = 0 then some (1 - pref) else none, r0, r1)

/-- DEV_BOOT, DEV_BOOT_REASON, DEV_IMG_FAULT and DEV_IMG_SEQ of a start. -/
def State.bootRegs (s : State) (b : BootInfo) (fwPref imgPref : Nat) (fw img : Option Nat × Nat × Nat) (seq : Nat) : State :=
  let w := pack 0
    [(DEV_BOOT_FW_SLOT, fw.1.getD 0), (DEV_BOOT_FW_FALLBACK, b2n (fw.1 = some (1 - fwPref))),
     (DEV_BOOT_IMG_SLOT, img.1.getD 2), (DEV_BOOT_IMG_FALLBACK, b2n (img.1 = some (1 - imgPref))),
     (DEV_BOOT_DIR_VALID, b2n b.dirValid)]
  let reasons := pack 0
    [(DEV_BOOT_REASON_FW0, fw.2.1), (DEV_BOOT_REASON_FW1, fw.2.2), (DEV_BOOT_REASON_IMG0, img.2.1),
     (DEV_BOOT_REASON_IMG1, img.2.2)]
  let lists := fun (r : Nat) => r = 8 || r = 9 || r = 10
  let fault := if lists img.2.1 || lists img.2.2 then
      pack 0 [(DEV_IMG_FAULT_TYPE, b.imgFaultType), Fld.sat DEV_IMG_FAULT_BYTE b.imgFaultByte]
    else 0
  let s := ((s.setReg (DEV_BOOT.at 0) w).setReg (DEV_BOOT_REASON.at 0) reasons).setReg (DEV_IMG_FAULT.at 0) fault
  let s := s.setReg64 (DEV_IMG_SEQ_LO.at 0) (DEV_IMG_SEQ_HI.at 0) seq
  s.setReg (DEV_START.at 0) (pack 0 [Fld.sat DEV_START_READY_MS b.readyMs])

/-- The protection table of a start (R498, R508): the image's PROTECT section, else the defaults; epoch 1 (R504). -/
def State.startTable (s : State) : State :=
  let t := s.boot.image.bind (·.protect)
  { s with sec := { s.sec with table := t.getD [], src := if t.isSome then 0 else 1, epoch := 1, gen := 0, genSeen := 0,
                               dirty := false } }

/-- Domains gated whenever the device runs: PD_PLK when unpaired, PD_BOOT after FW_READY (R536). -/
def State.runGates (s : State) : State :=
  let s := s.setDomain 187 2
  if s.hasPL && !s.paired then s.setDomain 134 2 else s

/-- The state that follows the choice of image: side, pairing, tables and the units that the image configures (R451, R453, R478,
R482, R486). -/
def State.configure (s : State) : State :=
  let mode := match s.boot.image with
    | some i => i.pairMode && s.hasPL
    | none => false
  let s := { s with pl := { s.pl with pairMode := mode, peer := if mode then .training else .unpaired } }
  let s := (s.startTable.imageSpan 0 0x10000000).runGates
  match s.boot.image with
  | some i =>
    if s.hasCL then (if s.charger = chgOff then s.setCharger chgCharge else s)
    else { s with se := { s.se with eu := i.fixedEu } }
  | none =>
    if s.hasCL then
      let s := s.each (List.range 32) (fun f s => s.setFld CL_FAN f CL_FAN_DUTY 10000)
      (s.each (List.range 16) (fun h s => s.setFld CL_HTR h CL_HTR_DUTY 0)).setCharger chgOff
    else s

/-- The events of a start: START first, then what the start found (R451, R476, R478, R520, R562, R614). -/
def State.startEvents (s : State) (b : BootInfo) : State :=
  let boot := s.getReg (DEV_BOOT.at 0)
  let s := s.raise 0x001 1 noInst ([BitVec.ofNat 8 s.pw.lastReset, 0, 0, 0] ++ leBytes 4 boot.toNat)
  let s := if s.fld DEV_BOOT 0 DEV_BOOT_IMG_FALLBACK = 1 then s.raise 0x004 5 noInst else s
  let s := if s.boot.bare then s.raise 0x005 6 noInst else s
  let s : State := match s.boot.image with
    | some i => if i.side != s.pl.side then s.raise 0x006 5 noInst else s
    | none => s
  if b.identityOk then s else s.raise 0x105 6 noInst

/-- The firmware starts on a prepared state (R475 to R478, R486): it takes an image and configures the units, up to FW_READY; no
passing firmware leaves the device in the ROM. -/
def State.startFirmware (s : State) (b : BootInfo) : State :=
  let fwPref := if b.dirValid then b.fwPref % 2 else 0
  let imgPref := if b.dirValid then b.imgPref % 2 else 0
  let full := [25165824, 25165824, 4194304, 4194304]
  let fw := chooseSlot fwPref b.fwReason0 b.fwReason1
  let s := { s with
    pl := { s.pl with side := b.sideSel % 2 }
    boot := { BootUnit.reset with fwPref := fwPref, imgPref := imgPref, lens := if b.dirValid then b.lens else full } }
  match fw.1 with
  | none =>
    let s := s.bootRegs b fwPref imgPref fw (none, 0xFF, 0xFF) 0
    { s with boot := { s.boot with romHeld := true, imgSlot := 2 } }
  | some f =>
    let img := chooseSlot imgPref b.imgReason0 b.imgReason1
    let image := img.1.bind (fun n => if n = 0 then b.image0 else b.image1)
    let img : Option Nat × Nat × Nat := if image.isNone then (none, img.2.1, img.2.2) else img
    let s := s.bootRegs b fwPref imgPref fw img (match image with
      | some i => i.imgSeq
      | none => 0)
    let s := { s with
      boot := { s.boot with fwSlot := f, imgSlot := img.1.getD 2, bare := image.isNone, image := image, fwSvn := b.fwSvn,
                            fwVersion := b.fwVersion, vendorKey := b.vendorKey, fwReady := true, adoptOpen := true, phase := 4 }
      sec := { s.sec with identity := b.identityOk, measRom := b.measRom, measFw := b.measFw,
                          measImg := match image with
                            | some i => i.headerHash
                            | none => 0
                          imgKey := match image with
                            | some i => some i.keySlot
                            | none => none } }
    ((s.configure).startStream1).startEvents b

/-! ### COLD reset (R522, R529) -/

/-- The image slots of the ebb store as a start finds them (R175, R176). -/
def State.scanSlots (s : State) : State :=
  let s := s.each (List.range s.eb.slots.length) (fun i s =>
    let x := s.ebSlot i
    if x.live then s.setEbSlot i { x with erasing := false, ready := false }
    else if x.programmed then s.ebErase i
    else s.setEbSlot i { x with erasing := false, ready := true })
  let seqs := (List.range s.eb.slots.length).filterMap (fun i => (s.ebSlot i).image.map (fun e => (e.seq, i)))
  let best := seqs.foldl (fun (a : Nat × Nat) (e : Nat × Nat) => if e.1 > a.1 then e else a) (0, 0)
  { s with eb := { s.eb with seq := best.1, seqSlot := best.2 } }

/-- What is kept across a COLD reset (R529): the log region, the ebb store's images and last record, fuses and enrolled keys, and
the identity; everything else is at its reset value. -/
def State.coldKeep (s : State) : State :=
  { State.reset with
    pending := s.pending, variant := s.variant, stepB0 := s.stepB0, draws := s.draws, out := s.out
    ev := { EvUnit.reset with log := s.ev.log, scanning := s.hasEB,
                              seq := s.ev.log.foldl (fun (m : Nat) (r : EvRecord) => max m r.seq) 0 }
    eb := { EbUnit.reset with slots := s.eb.slots, lastTrigger := s.eb.lastTrigger, lastMs := s.eb.lastMs,
                              lastComplete := s.eb.lastComplete }
    sec := { SecUnit.reset with ownerKeys := s.sec.ownerKeys, areasUsed := s.sec.areasUsed, enrolled := s.sec.enrolled,
                                fuses := s.sec.fuses, deviceId := s.sec.deviceId, cert := s.sec.cert }
    pl := { PlUnit.reset with pairUuid := s.pl.pairUuid } }

/-- The operating points the training at COLD reset leaves (R562). -/
def State.trainMemory (s : State) (trained : Nat) : State :=
  let p := ([3, 2, 1].find? (fun p => bit trained p)).getD 0
  let s := s.setReg (MC_FREQ.at 0) (pack 0
    [(MC_FREQ_CURRENT, p), (MC_FREQ_TARGET, p), (MC_FREQ_TRAINED, trained)])
  s.each (List.range 64) (fun ch s =>
    s.setReg (MC_CH_TRAIN.at ch) (pack 0 [(MC_CH_TRAIN_STEP, 6), (MC_CH_TRAIN_POINT, p), (MC_CH_TRAIN_PASS, 1)]))

/-- The bank's values before the first accepted test (R440): c is 0.7 times, esr 2 times the nameplate's. -/
def State.nameplateBank (s : State) : State :=
  if !s.hasCL then s
  else
    (s.setFld CL_BANK_CE 0 CL_BANK_CE_C_MF (s.fld CL_BANK_NAMEPLATE 0 CL_BANK_NAMEPLATE_C_MF * 7 / 10)).setFld CL_BANK_CE 0 CL_BANK_CE_ESR
      (min 0xFFFF (2 * s.fld CL_BANK_NAMEPLATE 0 CL_BANK_NAMEPLATE_ESR))

/-- Lane groups are gated while all their slots are OFF (R403). -/
def State.gateLanes (s : State) : State := s.each (List.range (s.slotCount / 8)) (fun g s => s.laneDomain (8 * g))

/-- What a restored image holds of the partner's pools (R177, R178). -/
def State.restoreMirror (s : State) : State :=
  match s.restoreImage with
  | some e =>
    if e.paired then
      { s with pl := { s.pl with standby := e.standby, mirror := e.mirror,
                                 mirrorOf := (e.mirror.map (fun m => keyPool m.1)).eraseDups } }
    else s
  | none => s

/-- Every loop engine starts from the output it finds (R449). -/
def State.findOutputs (s : State) : State :=
  let duty := fun (n : Nat) => match s.engineFans n with
    | f :: _ => (s.fld CL_FAN f CL_FAN_DUTY : Int) * dutyUnit
    | [] => 0
  { s with cl := { s.cl with uPrev := (List.range 16).map (fun n => (n, duty n)) } }

/-- COLD reset (R522, R486): the straps are sampled (R639), the device starts from blank state; with TEST_MODE high it stays in
reset. -/
def State.coldStart (s : State) (kind : Nat) (b : BootInfo) : State :=
  let s := s.coldKeep
  let s := { s with pw := { s.pw with lastReset := kind } }
  if b.testMode then { s with pw := { s.pw with power := .inReset } }
  else
    let s := (s.setFld QM_PORT 0 QM_PORT_SPLIT (b2n b.haSplit)).setFld QM_PORT 1 QM_PORT_SPLIT (b2n b.hbSplit)
    let s : State := if s.hasCL then s.each (List.range 32) (fun f s => s.setFld CL_FAN f CL_FAN_DUTY 10000) else s
    let s : State := if s.pl.pairUuid = 0 then
        let u := s.newUuid
        { u.2 with pl := { u.2.pl with pairUuid := u.1 } }
      else s
    let s := s.startFirmware b
    if s.boot.romHeld then s
    else
      let s := (s.trainMemory b.trained).nameplateBank
      let s := if bit b.trained 3 then s else s.raise 0x804 5 noInst [3]
      let s := (s.setFld EB_GEOM 0 EB_GEOM_SLOT_GIB b.slotGib).setFld EB_GEOM 0 EB_GEOM_TARGETS b.targets
      let s := if s.hasEB then s.scanSlots.restoreMirror else s
      s.gateLanes.findOutputs.winRecompute

/-! ### WARM reset (R523, R529) -/

/-- A slot after a WARM reset: power and condition are kept, the link is lost. -/
def Slot.warm (x : Slot) : Slot :=
  { x with linkUp := false, rate := 0, linkFail := false, attempts := 0, inS := false, cls := 4,
           standbyIssued := false, wakeAfter := none, powerFault := x.powerFault }

/-- A drive after a WARM reset: what is known of it and its label stand; counts begin again. -/
def Drive.warm (d : Drive) : Drive :=
  { d with linkDown := d.state = .active || d.state = .suspect || d.state = .retiring, ures := [], bads := [],
           timeouts := 0, hwErrors := 0, spinFails := 0, labelWant := none, labelBack := false, prRegistered := false,
           prHeld := false }

/-- The stripe engine after a WARM reset: its tables, the window, releases and ledger stay until the retention check; work in
progress is lost. -/
def State.warmSe (s : State) : SeUnit :=
  let se := s.se
  { SeUnit.reset with
    pools := se.pools.map (fun e => (e.1, if e.2.state = .partner then e.2 else Pool.loaded e.2 id e.2.policy))
    sets := se.sets.map (fun e => (e.1, SetRec.loaded e.2 e.2.pool id false))
    stripes := se.stripes
    bands := se.bands
    drives := se.drives.map (fun e => (e.1, Drive.warm e.2))
    pending := se.pending
    bEbb := se.bEbb
    eu := se.eu }

/-- Registers kept across a WARM reset: those of PW; the bank's values, the charger and the fan duties (R449, R644); MC_FREQ,
EB_GEOM and EB_RATE for what their units keep (R564, R662), and the split straps. -/
def warmRegs (rs : List (Nat × Word)) : List (Nat × Word) :=
  let kept := [MC_FREQ.at 0, EB_GEOM.at 0, EB_RATE.at 0, QM_PORT.at 0, QM_PORT.at 1, CL_STATUS.at 0, CL_BANK_VI.at 0,
    CL_BANK_CE.at 0, CL_BANK_EU.at 0, CL_CHG.at 0] ++ (List.range 32).map CL_FAN.at
  rs.filter (fun e => (0x40000 ≤ e.1 && e.1 < 0x80000) || kept.contains e.1)

/-- What is kept across a WARM reset, and what the retention check decides about later (R523, R529). -/
def State.warmKeep (s : State) : State :=
  { State.reset with
    pending := s.pending, variant := s.variant, stepB0 := s.stepB0, draws := s.draws, out := s.out
    devNs := s.devNs, devFrac := s.devFrac, timeSet := s.timeSet, dram := s.dram
    regs := warmRegs s.regs
    ev := { s.ev with tokens := [], scanning := s.hasEB, resetting := false, notifyDue := [] }
    eb := { s.eb with running := none }
    sec := { SecUnit.reset with ownerKeys := s.sec.ownerKeys, areasUsed := s.sec.areasUsed, enrolled := s.sec.enrolled,
                                fuses := s.sec.fuses, deviceId := s.sec.deviceId, cert := s.sec.cert, kept := some s.sec.table }
    qm := { QmUnit.reset with orphans := s.qm.orphans }
    pl := { PlUnit.reset with pairUuid := s.pl.pairUuid }
    dl := { DlUnit.reset with slots := s.dl.slots.map (fun e => (e.1, Slot.warm e.2)), chains := s.dl.chains }
    cl := { ClUnit.reset with lastTest := s.cl.lastTest, lastStart := s.cl.lastStart, euReported := s.cl.euReported }
    mc := { McUnit.reset with trainedAt := s.mc.trainedAt }
    se := s.warmSe
    pw := { PwUnit.reset with doms := s.pw.doms.filter (fun e => !s.pw.idleGated.contains e.1), record := s.pw.record,
                              resetN := s.pw.resetN, aonFallback := s.pw.aonFallback, unlocked := s.pw.unlocked } }

/-- Every channel leaves self-refresh and is retrained with steps 3 to 6 (R564). -/
def State.wakeMemory (s : State) : State :=
  let s := s.each (List.range 64) (fun ch s =>
    ((s.setFld MC_CH_STATUS ch MC_CH_STATUS_STATE 0).setFld MC_CH_STATUS ch MC_CH_STATUS_SR_HELD 1).queueRetrain ch)
  s.startRetrain

/-- The device leaves a WARM reset (R486, R523, R527): it starts again over the retained DRAM, and the retention check is due. -/
def State.warmStart (s : State) (kind : Nat) (record : Bool) (b : BootInfo) : State :=
  let b := { b with sideSel := s.pl.side }
  let s := s.warmKeep
  let freq := s.getReg (MC_FREQ.at 0)
  let s := { s with pw := { s.pw with lastReset := kind, record := record } }
  let s := (s.setReg (MC_FREQ.at 0) (pack 0
    [(MC_FREQ_CURRENT, MC_FREQ_CURRENT.get freq), (MC_FREQ_TARGET, MC_FREQ_CURRENT.get freq), (MC_FREQ_TRAINED, MC_FREQ_TRAINED.get freq)]))
  let s := s.each [0, 1] (fun p s => s.setReg (QM_PORT.at p) (pack 0 [(QM_PORT_SPLIT, s.fld QM_PORT p QM_PORT_SPLIT)]))
  let s := s.startFirmware b
  if s.boot.romHeld then s
  else
    let s := s.each s.se.pools (fun (e : Nat × Pool) (s : State) => s.modPool e.1 (fun x => { x with policy := s.policyFor e.1 }))
    let s : State := if s.hasCL then s.dropTest else s
    let s := s.findOutputs
    let s := { s.wakeMemory with pw := { s.wakeMemory.pw with checkDue := true } }
    let s := s.each (s.ownedPools.filter (fun p => s.poolState p = .assembling)) (fun p s => s.wakeForStart p)
    s.winRecompute

/-! ### The retention check (R526, R527) -/

/-- A pool of which nothing but its descriptor is known any more. -/
def Pool.forget (x : Pool) : Pool :=
  { (Pool.found { pool := 0, side := x.side, seq := x.descSeq, uuid := x.uuid, sill := x.sill, journal := x.journal, members := [] }
      x.state x.policy) with members := x.members }

/-- The DRAM contents are discarded (R527). -/
def State.discardDram (s : State) : State :=
  { s with
    dram := []
    qm := { s.qm with orphans := [] }
    se := { s.se with
      pools := s.se.pools.map (fun e => (e.1, if e.2.state = .partner then e.2 else Pool.forget e.2))
      sets := [], stripes := [], bands := [], pending := [] }
    sec := { s.sec with kept := none } }

/-- The retained table is laid over the image's (R508). -/
def State.layTable (s : State) : State :=
  match s.sec.kept with
  | some t => { s with sec := { s.sec with table := t.foldl (fun a e => Tab.set a e.1 e.2) s.sec.table, kept := none, src := 3 } }
  | none => s

/-- The retention check ends (R526, R527). Without a record, the CRC of the window header stands in its place and the device
records the event. -/
def State.retentionDone (s : State) (srHeld eccOk recordOk : Bool) : State :=
  if !s.pw.checkDue then s
  else
    let s := if s.pw.record then s else s.raise 0x204 5 noInst
    let pass := srHeld && eccOk && recordOk
    let s := { s with pw := { s.pw with checkDue := false, retained := pass, power := .run } }
    let s := if pass then s.layTable else s.discardDram
    s.winRecompute.admitHeld

end Sys2Proof.Machine
end

