-- ==== Sys2Proof/Machine/MetaCache.lean ====
section
/-! DEFINITION. The metadata cache (chapter 19): lookup, fills, replacement, the victim buffer, prefetch streams, errors
and way disable, and the range maintenance engine. It is write-through, so no data is held here. -/

namespace Sys2Proof.Machine

open Sys2Proof

/-- Whether a device address lies in regions 2 and 3 (R568). -/
def mdcCached (a : Nat) : Bool := 128 * 2 ^ 30 ≤ a && a < 448 * 2 ^ 30

/-- The set of a device address: bits [20:7] (R569). -/
def mdcSet (a : Nat) : Nat := a / 128 % 16384

/-- The line of a device address. -/
def mdcLine (a : Nat) : Nat := a / 128 * 128

/-- Ways disabled by MDC_WAY_DIS or MDC_WAY_OFF (R579). -/
def State.mdcOff (s : State) (w : Nat) : Bool :=
  bit (s.fld MDC_WAY_DIS 0 MDC_WAY_DIS_DIS) w || bit (s.fld MDC_WAY_OFF 0 MDC_WAY_OFF_OFF) w

/-- Whether the maintenance operation in progress covers a line allocated by a class (R581, R582). -/
def Maint.covers (m : Maint) (line cls : Nat) : Bool :=
  if m.op = 1 then m.base ≤ line && line < m.base + 128 * m.lines
  else if m.op = 2 then true
  else cls = m.cls

/-- Whether a line is covered by the operation in progress. -/
def State.mdcCovered (s : State) (line cls : Nat) : Bool :=
  match s.mdc.maint with
  | some m => m.covers line cls
  | none => false

/-- The way of the cache that holds a line. -/
def State.mdcWay? (s : State) (line : Nat) : Option Nat :=
  (List.range 16).find? (fun w => (Tab.get? s.mdc.ways (16 * mdcSet line + w)).map (·.line) = some line &&
    !s.mdcOff w)

/-- The ways into which a class may allocate (R571). -/
def State.mdcAllowed (s : State) (cls : Nat) : List Nat :=
  (List.range 16).filter (fun w => bit (s.fld MDC_CLASS_MASK cls MDC_CLASS_MASK_MASK) w && !s.mdcOff w)

/-- The way an allocation takes and whether the pointer moves (R572): the lowest invalid allowed way, else the first
allowed way at or after the round-robin pointer. -/
def State.mdcVictim (s : State) (set cls : Nat) : Option (Nat × Bool) :=
  let allowed := s.mdcAllowed cls
  match allowed.find? (fun w => (Tab.get? s.mdc.ways (16 * set + w)).isNone) with
  | some w => some (w, false)
  | none =>
    let p := Tab.getD s.mdc.rr set 0
    match (allowed.filter (· ≥ p)) ++ (allowed.filter (· < p)) with
    | w :: _ => some (w, true)
    | [] => none

/-- A displaced line goes to the victim buffer of 64 lines, oldest out (R573), or to the eviction slot (R574). -/
def State.mdcDisplace (s : State) (l : CacheLine) : State :=
  if s.fld MDC_CTL 0 MDC_CTL_HERITAGE = 1 then { s with mdc := { s.mdc with evict := some l } }
  else
    let v := s.mdc.victim ++ [l]
    { s with mdc := { s.mdc with victim := v.drop (v.length - 64) } }

/-- Install a line for its class (R571, R572); a class with no way keeps nothing. -/
def State.mdcInstall (s : State) (l : CacheLine) : State :=
  let set := mdcSet l.line
  match s.mdcVictim set l.cls with
  | none => s
  | some (w, move) =>
    let old := Tab.get? s.mdc.ways (16 * set + w)
    let s := { s with mdc := { s.mdc with ways := Tab.set s.mdc.ways (16 * set + w) l } }
    let s : State := if move then { s with mdc := { s.mdc with rr := Tab.set s.mdc.rr set ((w + 1) % 16) } } else s
    match old with
    | some o => s.mdcDisplace o
    | none => s

/-- MDC_STATUS.FILLS shows the fills in flight (saturating). -/
def State.mdcShowFills (s : State) : State :=
  s.setFld MDC_STATUS 0 MDC_STATUS_FILLS (min s.mdc.fills.length 255)

/-- MDC_STATUS.NO_WAYS follows the ways; the event of R580 at the change to all disabled. -/
def State.mdcShowWays (s : State) : State :=
  let all := (List.range 16).all s.mdcOff
  let was := s.fld MDC_STATUS 0 MDC_STATUS_NO_WAYS = 1
  let s := s.setFld MDC_STATUS 0 MDC_STATUS_NO_WAYS (b2n all)
  if all && !was then s.raise 0x902 5 noInst else s

/-- The lines of a way dropped without moving to the victim buffer (R579). -/
def State.mdcDropWay (s : State) (w : Nat) : State :=
  { s with mdc := { s.mdc with ways := s.mdc.ways.filter (fun p => p.1 % 16 ≠ w) } }

/-- One error of a way (R578, R579): counted over the last 60 minutes; at the limit the way is disabled. -/
def State.mdcWayError (s : State) (w : Nat) : State :=
  let recent := (s.mdc.wayErrs ++ [(w, s.devNs)]).filter (fun p => s.devNs < p.2 + 3600000000000)
  let n := (recent.filter (fun p => p.1 = w)).length
  let s := { s with mdc := { s.mdc with wayErrs := recent } }
  let s := s.setFld MDC_WAY_ERR w MDC_WAY_ERR_COUNT (min n 255)
  if n ≥ max 1 (s.fld MDC_CTL 0 MDC_CTL_WAY_ERR_LIMIT) && !bit (s.fld MDC_WAY_DIS 0 MDC_WAY_DIS_DIS) w then
    let s := s.mdcDropWay w
    let s := s.setFld MDC_WAY_DIS 0 MDC_WAY_DIS_DIS (s.fld MDC_WAY_DIS 0 MDC_WAY_DIS_DIS ||| 2 ^ w)
    (s.raise 0x901 4 w).mdcShowWays
  else s

/-- The error a lookup or fill meets (R578): a corrected one is counted; any other also drops the line so that it
counts as a miss. -/
def State.mdcError (s : State) (a : Nat) (e : CacheError) : State :=
  match e with
  | .none => s
  | .corrected w => if w < 16 then (s.bump MDC_ERR 0 MDC_ERR_CORRECTED).mdcWayError w else s
  | .refilled w =>
    if w < 16 then
      let s := s.bump MDC_ERR 0 MDC_ERR_REFILLED
      let s := { s with mdc := { s.mdc with ways := Tab.erase s.mdc.ways (16 * mdcSet a + w) } }
      s.mdcWayError w
    else s

/-- One prefetch fill (R577): none outside regions 2 and 3, into a covered line, or for a line present or in flight. -/
def State.mdcPrefetchOne (s : State) (line : Int) (cls : Nat) : State :=
  let l := line.toNat * 128
  if line < 0 ∨ !mdcCached l ∨ s.mdcCovered l cls ∨ (s.mdcWay? l).isSome ∨ s.mdc.victim.any (·.line = l) ∨
      s.mdc.fills.any (·.line = l) then s
  else
    let s := s.bump MDC_PF 0 MDC_PF_ISSUED
    { s with mdc := { s.mdc with fills := s.mdc.fills ++ [⟨l, cls, false, false, false, true⟩] } }

/-- The fills a trained stream issues ahead of its latest access (R577). -/
def State.mdcPrefetch (s : State) (t : Stream) : State :=
  if t.run < 2 ∨ s.fld MDC_CTL 0 MDC_CTL_PF_EN = 0 ∨ s.fld MDC_CLASS_MASK t.cls MDC_CLASS_MASK_PF = 0 then s
  else s.each ((List.range (max 1 (s.fld MDC_CTL 0 MDC_CTL_PF_DEPTH))).map (fun (j : Nat) => t.last + t.stride * (Int.ofNat j + 1)))
    (fun line s => s.mdcPrefetchOne line t.cls)

/-- A miss moves its identity's stream (R577): strides of 1 to 64 lines train it; the table keeps 64, least recent out. -/
def State.mdcTrain (s : State) (a : CacheAccess) : State :=
  let line : Int := a.addr / 128
  let region := if a.addr < 432 * 2 ^ 30 then 2 else 3
  let same := fun (t : Stream) => t.port = a.port && t.cls = a.cls && t.region = region
  let t : Stream :=
    match s.mdc.streams.find? same with
    | some t =>
      let d := line - t.last
      if d = t.stride ∧ d ≠ 0 then { t with last := line, run := t.run + 1 }
      else if 1 ≤ d.natAbs ∧ d.natAbs ≤ 64 then { t with last := line, stride := d, run := 1 }
      else { t with last := line, stride := 0, run := 0 }
    | none => ⟨a.port, a.cls, region, line, 0, 0⟩
  let rest := s.mdc.streams.filter (fun u => !same u)
  let s := { s with mdc := { s.mdc with streams := (t :: rest).take 64 } }
  s.mdcPrefetch t

/-- A block of the fill of a line arrives; with both, the line is installed unless covered, disabled or bypassed
(R575, R582, R584). -/
def State.mdcBlock (s : State) (line block : Nat) : State :=
  match s.mdc.fills.find? (·.line = line) with
  | none => s
  | some f =>
    let f := if block = 0 then { f with got0 := true } else { f with got1 := true }
    let rest := s.mdc.fills.filter (fun g => g.line ≠ line)
    if f.got0 && f.got1 then
      let s := State.mdcShowFills { s with mdc := { s.mdc with fills := rest } }
      if f.invalid || s.mdcCovered line f.cls || s.fld MDC_CTL 0 MDC_CTL_EN = 0 then s
      else s.mdcInstall ⟨line, f.cls, f.prefetched⟩
    else State.mdcShowFills { s with mdc := { s.mdc with fills := rest ++ [f] } }

/-- A lookup hits way `w` (R575): counted; a prefetched line counts as used once. -/
def State.mdcHit (s : State) (line w : Nat) : State :=
  let key := 16 * mdcSet line + w
  let s := s.bump MDC_HIT 0 MDC_HIT_COUNT
  match Tab.get? s.mdc.ways key with
  | some l =>
    if l.prefetched then
      let s := s.bump MDC_PF 0 MDC_PF_USED
      { s with mdc := { s.mdc with ways := Tab.set s.mdc.ways key { l with prefetched := false } } }
    else s
  | none => s

/-- An access of the cache and the block of its fill that returns (R575 to R578, R582, R584). A hit takes the line, a
victim hit moves it back (a write leaves it, R573), a miss starts the one fill of the line and trains its stream; a
write miss allocates nothing (R576). -/
def mdcAccess (s : State) (a : CacheAccess) (block : Nat) (e : CacheError) : State :=
  let line := mdcLine a.addr
  if !mdcCached a.addr ∨ a.cls ≥ 16 then s
  else
    let s := s.mdcError a.addr e
    if s.mdc.fills.any (·.line = line) then s.mdcBlock line block
    else if s.fld MDC_CTL 0 MDC_CTL_EN = 0 then s
    else
      let covered := s.mdcCovered line a.cls
      match (if covered then none else s.mdcWay? line) with
      | some w => s.mdcHit line w
      | none =>
        match (if covered then none else s.mdc.victim.find? (·.line = line)) with
        | some l =>
          let s := s.bump MDC_VB_HIT 0 MDC_VB_HIT_COUNT
          if a.isWrite then s
          else
            let s := { s with mdc := { s.mdc with victim := s.mdc.victim.filter (fun m => m.line ≠ line) } }
            s.mdcInstall l
        | none =>
          let s := s.bump MDC_MISS 0 MDC_MISS_COUNT
          if a.isWrite then s
          else
            let f : CacheFill := ⟨line, a.cls, false, false, covered, false⟩
            let s := { s with mdc := { s.mdc with fills := s.mdc.fills ++ [f] } }
            (s.mdcTrain a).mdcBlock line block

/-- MDC_FILL_RETURN (R575). -/
def execMdcFillReturn (a : CacheAccess) (block : Nat) (e : CacheError) (s : State) : Host.Outcome State Fault Refusal :=
  .next (s.whenUnit 3 (fun s => mdcAccess s a block e))

/-- Drop every line an operation covers, in the arrays and the victim buffer; fills in flight into it are installed
invalid (R581, R582). -/
def State.mdcInvalidate (s : State) (m : Maint) : State :=
  { s with mdc := { s.mdc with
      ways := s.mdc.ways.filter (fun p => !m.covers p.2.line p.2.cls)
      victim := s.mdc.victim.filter (fun l => !m.covers l.line l.cls)
      fills := s.mdc.fills.map (fun f => if m.covers f.line f.cls then { f with invalid := true } else f) } }

/-- The maintenance operation with OP taken as `op`, from the registers of R581. -/
def State.mdcOperation (s : State) (op cls : Nat) : Maint :=
  ⟨op, s.reg64 (MDC_MAINT_BASE_LO.at 0) (MDC_MAINT_BASE_HI.at 0), s.fld MDC_MAINT_LINES 0 MDC_MAINT_LINES_LINES, cls⟩

/-- A write of MDC_MAINT_CTL (R581): OP and CLASS are set; GO starts the operation, ignored while one runs or with OP 0.
A RANGE of no lines completes at once. -/
def mdcMaintWrite (v : Word) (s : State) : State :=
  let op := MDC_MAINT_CTL_OP.get v
  let cls := MDC_MAINT_CTL_CLASS.get v
  let s := s.setFld MDC_MAINT_CTL 0 MDC_MAINT_CTL_OP op
  let s := s.setFld MDC_MAINT_CTL 0 MDC_MAINT_CTL_CLASS cls
  if MDC_MAINT_CTL_GO.get v = 0 ∨ op = 0 ∨ s.mdc.maint.isSome then s
  else
    let m := s.mdcOperation op cls
    if op = 1 ∧ m.lines = 0 then s
    else
      let s := s.mdcInvalidate m
      State.setFld { s with mdc := { s.mdc with maint := some m } } MDC_STATUS 0 MDC_STATUS_MAINT_BUSY 1

/-- A MAINT GO row of a named OP: the write takes effect when `v` spells GO with that OP. -/
def mdcMaintRow (op port : Nat) (v : Word) (s : State) : State :=
  if MDC_MAINT_CTL_OP.get v = op then s.hostWrite port (MDC_MAINT_CTL.at 0) (mdcMaintWrite v) else s

/-- RANGE (R581). -/
def execMdcRange (port : Nat) (v : Word) (s : State) : Host.Outcome State Fault Refusal := .next (mdcMaintRow 1 port v s)

/-- ALL (R581). -/
def execMdcAll (port : Nat) (v : Word) (s : State) : Host.Outcome State Fault Refusal := .next (mdcMaintRow 2 port v s)

/-- CLASS (R581). -/
def execMdcClass (port : Nat) (v : Word) (s : State) : Host.Outcome State Fault Refusal := .next (mdcMaintRow 3 port v s)

/-- MAINT_DONE (R583, R585): the operation ends once no fill in flight when it began is left in it; an ALL clears
STALE. -/
def execMaintDone (s : State) : Host.Outcome State Fault Refusal :=
  .next (s.whenUnit 3 (fun s => match s.mdc.maint with
  | some m =>
    if s.mdc.fills.any (fun f => m.covers f.line f.cls && f.invalid) then s
    else
      let s := State.setFld { s with mdc := { s.mdc with maint := none } } MDC_STATUS 0 MDC_STATUS_MAINT_BUSY 0
      if m.op = 2 then s.setFld MDC_STATUS 0 MDC_STATUS_STALE 0 else s
  | none => s))

/-- A write of MDC_CTL (R574, R584, R585): clearing EN sets STALE; setting it over STALE is an event; entering heritage
mode drops the victim buffer. -/
def mdcCtlWrite (v : Word) (s : State) : State :=
  let was := s.fld MDC_CTL 0 MDC_CTL_EN
  let her := s.fld MDC_CTL 0 MDC_CTL_HERITAGE
  let s := s.writeByType (MDC_CTL.at 0) v
  let now := MDC_CTL_EN.get v
  let s : State := if was = 1 ∧ now = 0 then s.setFld MDC_STATUS 0 MDC_STATUS_STALE 1 else s
  let s : State := if was = 0 ∧ now = 1 ∧ s.fld MDC_STATUS 0 MDC_STATUS_STALE = 1 then s.raise 0x903 6 noInst else s
  if her = 0 ∧ MDC_CTL_HERITAGE.get v = 1 then { s with mdc := { s.mdc with victim := [] } }
  else if her = 1 ∧ MDC_CTL_HERITAGE.get v = 0 then { s with mdc := { s.mdc with evict := none } }
  else s

/-- MDC_CTL_WRITE (R584). -/
def execMdcCtlWrite (port : Nat) (v : Word) (s : State) : Host.Outcome State Fault Refusal :=
  .next (s.hostWrite port (MDC_CTL.at 0) (mdcCtlWrite v))

/-- The effect of a write of MDC_WAY_DIS or MDC_WAY_OFF on the arrays: a way that is disabled loses its lines. -/
def mdcWayWrite (a : Nat) (v : Word) (s : State) : State :=
  let s := s.writeByType a v
  let s := s.each ((List.range 16).filter s.mdcOff) (fun w s => s.mdcDropWay w)
  s.mdcShowWays

/-- The contents of the cache lost when PD_MDC is gated, or invalidated by a UNIT reset (R586). -/
def State.mdcLose (s : State) : State :=
  State.mdcShowFills { s with mdc := { s.mdc with ways := [], rr := [], victim := [], evict := none, fills := [], streams := [] } }

end Sys2Proof.Machine
end

