-- ==== Sys2Proof/Machine/Power.lean ====
section
/-! DEFINITION. Resets and power (chapters 17 and 23): WARM preparation and reset, HARBOUR, entry to EBB and the starts that follow,
OFF, UNIT resets, gating of domains, clocks and die temperatures. -/

namespace Sys2Proof.Machine

open Sys2Proof

/-- Whether the climate unit and the security unit act: as `up`, and in HARBOUR (R448, R532). -/
def State.plantUp (s : State) : Bool := s.up || (s.boot.fwReady && s.pw.power = .harbour)

/-! ### WARM reset (R523, R524) -/

/-- Every event in the intake is recorded. -/
def State.formAll (s : State) : State := s.each s.ev.fifo (fun _ s => s.formRecord)

/-- The reset itself. With `record`, preparation had ended: the retention record is in the window and the ring in the log region.
The device leaves reset at once, or at the rise of RESET_N. -/
def State.warmReset (s : State) (kind : Nat) (record : Bool) (b : BootInfo) : State :=
  let s := s.formAll
  let s := if record then s.ringSaved else s
  if s.pw.resetN then s.warmStart kind record b
  else
    { s with pw := { s.pw with power := .inReset, warmKind := some kind, boot := some b, record := record }
             boot := { s.boot with fwReady := false } }

/-- WARM_RESET: RESET_N low for 10 µs starts the preparation; a preparation that DEVICE_MODE began ends, and the reset follows.
RESET_N has no effect in EBB (R643). -/
def State.warmRequest (s : State) (b : BootInfo) : State :=
  match s.pw.power with
  | .warmPrep => if s.pw.resetN then s.warmReset (s.pw.warmKind.getD 2) true b else s
  | .ebb | .off | .inReset => s
  | _ => { s with pw := { s.pw with power := .warmPrep, warmKind := some 1, boot := some b, resetN := false, epoch := none,
                                    phyDue := false, prepStep := 0 } }

/-- WARM_PREP_TIMEOUT (R524): the reset proceeds without a record. -/
def State.prepTimeout (s : State) (b : BootInfo) : State :=
  if s.pw.power = .warmPrep then s.warmReset 3 false b else s

/-- RESET_N rises (R523): the device leaves reset at the later of this moment and the end of preparation. -/
def State.resetRise (s : State) : State :=
  let was := s.pw.resetN
  let s := { s with pw := { s.pw with resetN := true } }
  match s.pw.power, s.pw.boot, s.pw.warmKind with
  | .warmPrep, some b, some k => if was then s else s.warmReset k true b
  | .inReset, some b, some k => s.warmStart k s.pw.record b
  | _, _, _ => s

/-- A WARM reset without preparation (R543, R545). -/
def State.warmNow (s : State) (b : BootInfo) : State := s.warmReset 3 false b

/-! ### EBB and OFF -/

/-- Domains that are gated in EBB (R536). -/
def ebbGated (d : Nat) : Bool :=
  d ≤ 134 || (151 ≤ d && d ≤ 158) || (160 ≤ d && d ≤ 178) || d = 183 || d = 185 || d = 187

/-- The firmware starts the ebb flush on channel 31 from SRAM (R171, chapter 20): the occupied pages of the window and the mirror in
runs, the page table of 40 bytes a page (R173), and the header; nothing when no slot is ready (R172). Where a run, the table and the header stand the manual leaves open
(log entry 150). -/
def State.startFlush (s : State) : State :=
  match s.eb.running with
  | some (some _) =>
    let pages := (s.ebBytes.1 + s.ebBytes.2) / 65536
    let r := (List.range (ceilDiv pages 65535)).foldl (fun (a : List (Nat × Nat) × State) i =>
      let d := a.2.draw Config.freeNat
      (a.1 ++ [(65536 * (d.1 % 2 ^ 21), min 65535 (pages - 65535 * i))], d.2)) ([], s)
    let t := r.2.draw Config.freeNat
    let h := t.2.draw Config.freeNat
    (h.2.setFld XM_CH_CFG 31 XM_CH_CFG_PROG_SPACE 1).xmStartFw 31
      (ebbProgram r.1 (0x6C00000000 + 4096 * (t.1 % 2 ^ 20)) (40 * pages) (4096 * (h.1 % 49152)))
  | _ => s

/-- The ebb path (R535, R536, R597): channels are out of self-refresh without retraining, the domains of the path are on and the
others gated, and of the mover only channel 31 runs. -/
def State.ebbPath (s : State) : State :=
  if s.pw.power != .ebb then s
  else
    let s := s.each ((List.range 64).filter (fun ch => s.fld MC_CH_STATUS ch MC_CH_STATUS_STATE = 2)) (fun ch s =>
      s.setFld MC_CH_STATUS ch MC_CH_STATUS_STATE 0)
    let s := s.each (List.range 31) (fun n s => s.xmHalt n xmStopped)
    let s := s.startFlush
    { s with pw := { s.pw with doms := ((List.range 192).filter ebbGated).map (fun d => (d, 2)), idleGated := [], ungating := [] } }

/-- Entry to EBB (R169, R448, R613). -/
def State.enterEbb (s : State) (trigger : Nat) : State := ((s.startEbb trigger).climateEbb).ebbPath

/-- VBANK_TRIP (R439, R169, R613): what is recorded by then is written to the log region before the mover starts. -/
def State.tripEbb (s : State) : State :=
  let was := s.pw.power
  let t := s.bankTrip
  if was != .ebb && t.pw.power = .ebb then t.formAll.ringSaved.ebbPath else t

/-- PWRFAIL_N low for 2 µs (R169, R642): from the rise of PWRGD to FW_READY the device is held in reset instead; a WARM reset,
its preparation and the retention check after it give way to the ebb (R525). -/
def State.powerFail (s : State) : State :=
  match s.pw.power with
  | .ebb | .off => s
  | .inReset => if s.pw.boot.isSome then s.ringSaved.enterEbb 1 else s
  | _ =>
    if s.boot.fwReady then s.formAll.ringSaved.enterEbb 1
    else { s with pw := { s.pw with power := .inReset, boot := none, warmKind := none } }

/-- PWRFAIL_N high for 2 s (R170, R642): after an ebb, or while it held the device in reset. -/
def State.powerBack (s : State) (b : BootInfo) : State :=
  match s.pw.power with
  | .ebb => if s.eb.running.isNone then s.coldStart 4 b else s
  | .inReset => if s.pw.boot.isNone then s.coldStart 0 b else s
  | _ => s

/-- The device is without power or stopped: only what survives a COLD reset is left (R529, R641). -/
def State.goOff (s : State) : State :=
  let k := s.coldKeep
  { k with pw := { PwUnit.reset with power := .off } }

/-- PWRGD falls (R641): ignored in EBB. -/
def State.powerLost (s : State) : State := if s.pw.power = .ebb then s else s.goOff

/-- The rails go, or the bank is empty (R640): an ebb in progress ends without a header; without VAON its record is lost too. -/
def State.suppliesGone (s : State) (vaon : Bool) : State :=
  let s : State := match s.eb.running with
    | some (some i) => s.setEbSlot i { s.ebSlot i with ready := false, image := none, programmed := true }
    | _ => s
  let s := s.goOff
  if vaon then { s with eb := { s.eb with lastTrigger := 0, lastMs := 0, lastComplete := false } } else s

/-- PWRGD rises (R522, R639). -/
def State.powerGood (s : State) (b : BootInfo) : State :=
  if s.pw.power = .ebb ∧ s.eb.running.isSome then s else s.coldStart 0 b

/-! ### HARBOUR (R533) -/

/-- Domains an owner request keeps off (R539). -/
def State.requestedOff (s : State) : List Nat :=
  let on := fun (f : Fld) (base n : Nat) => (List.range n).filterMap (fun i =>
    if bit (s.fld PW_PD_REQ 0 f) i then some (base + i) else none)
  on PW_PD_REQ_CE 152 7 ++ on PW_PD_REQ_HE 160 3 ++ on PW_PD_REQ_LD 128 4

/-- Leave HARBOUR (R533): domains are ungated, the DRAM leaves self-refresh, and the retention check is due; links train as at a WARM
reset and pools are ASSEMBLING until the check has ended (R527). -/
def State.leaveHarbour (s : State) : State :=
  if s.pw.power != .harbour then s
  else
    let off := s.requestedOff.map (fun d => (d, 2))
    let s := { s with
      pw := { s.pw with power := .harbourExit, doms := off.foldl (fun (t : Tab Nat) (e : Nat × Nat) => Tab.set t e.1 e.2) [], checkDue := true }
      boot := { s.boot with fwReady := true, adoptOpen := false }
      dl := { s.dl with slots := s.dl.slots.map (fun (e : Nat × Slot) => (e.1, Slot.warm e.2)), queue := [] }
      se := { s.se with
        pools := s.se.pools.map (fun (e : Nat × Pool) => (e.1, if e.2.state = PoolState.partner then e.2 else Pool.loaded e.2 id e.2.policy))
        drives := s.se.drives.map (fun (e : Nat × Drive) => (e.1, Drive.warm e.2)) } }
    s.runGates.gateLanes.wakeMemory

/-- HARBOUR_EXIT: HBR_WAKE_N, or PERST_N while PERST_EXIT is 1. -/
def State.harbourExit (s : State) (byPerst : Bool) : State :=
  if byPerst ∧ s.fld PW_HARBOUR_CTL 0 PW_HARBOUR_CTL_PERST_EXIT = 0 then s else s.leaveHarbour

/-- HARBOUR_TIMER: a TIMER_MIN of 0 means no timer. -/
def State.harbourTimer (s : State) : State :=
  if s.fld PW_HARBOUR_CTL 0 PW_HARBOUR_CTL_TIMER_MIN = 0 then s else s.leaveHarbour

/-! ### UNIT resets (R530) -/

/-- The power domain of a unit by its bit in PW_UNIT_RESET. -/
def unitDomain (u : Nat) : Nat :=
  match u with
  | 0 => 189 | 1 => 151 | 2 => 159 | 3 => 183 | 4 => 184 | 5 => 185 | 6 => 186 | 7 => 134
  | _ => 128 + (u - 8)

/-- Whether a unit is absent, or its reset is ignored now: EB in EBB, and PL of an unpaired device has no link to retrain. -/
def State.unitIgnored (s : State) (u : Nat) : Bool :=
  u ≥ 12 || s.domain (unitDomain u) = 3 || (u = 6 && s.pw.power = .ebb)

/-- The mover halts: programs and events are lost, the levels of its request lines stand (R602). -/
def State.xmReset (s : State) : State :=
  let lines := s.getReg (XM_REQ.at 0)
  let s := (s.clearSpan 0x600000 0x700000).setReg (XM_REQ.at 0) lines
  { s with xm := { chans := [] } }

/-- The links of a die drop, its counters start again (R530); a member's grace starts (R206). -/
def State.dieReset (s : State) (d : Nat) : State :=
  let s := s.each ((Tab.keys s.dl.slots).filter (fun n => n / 256 = d)) (fun n s =>
    let up : Bool := match s.slot? n with
      | some x => x.linkUp
      | none => false
    let s := s.modSlot n (fun x => { x with linkFail := false, attempts := 0 })
    (if up then s.linkLost n else s).driveOut n 11 0 0)
  let s := (s.clearSpan (0x1000000 + 0x100000 * d) (0x1100000 + 0x100000 * d)).clearSpan (0x1400000 + 0x10000 * d)
    (0x1408000 + 0x10000 * d)
  s.imageSpan 0x1000000 0x1440000

/-- What a UNIT reset does at once; registers of the unit take their image values (R529). -/
def State.unitEffect (s : State) (u : Nat) : State :=
  match u with
  | 0 => s.evReset
  | 1 => s.ceReset.imageSpan 0x300000 0x340000
  | 2 => s
  | 3 =>
    let s := (s.clearSpan 0x500000 0x600000).mdcLose
    { s with mdc := { s.mdc with maint := none, wayErrs := [] } }
  | 4 => s.xmReset
  | 5 => (s.clReset.setReg (CL_CAPTURE.at 0) 0).imageSpan 0x700000 0x780000
  | 6 => s
  | 7 =>
    let s := ((s.setReg (PL_REPLAY.at 0) 0).setReg (PL_FEC.at 0) 0).setReg (PL_BAD_FRAME.at 0) 0
    s.retrain.imageSpan 0x800000 0x1000000
  | _ => s.dieReset (u - 8)

/-- A UNIT reset is requested (R530): it waits while a mode epoch runs; a gated unit is ungated first. -/
def State.unitReset (s : State) (u : Nat) : State :=
  if s.unitIgnored u ∨ s.pw.unitBusy.contains u ∨ s.pw.unitWaiting.contains u then s
  else if s.pw.epoch.isSome then { s with pw := { s.pw with unitWaiting := s.pw.unitWaiting ++ [u] } }
  else
    let s := { s with pw := { s.pw with unitBusy := s.pw.unitBusy ++ [u],
                                        idleGated := s.pw.idleGated.filter (· ≠ unitDomain u) } }
    (s.setDomain (unitDomain u) 0).unitEffect u

/-- A UNIT reset ends (R530): the bit clears; CL's engines start from the outputs they find, and EV takes events again. -/
def State.unitResetDone (s : State) (u : Nat) : State :=
  if !s.pw.unitBusy.contains u then s
  else
    let s := { s with pw := { s.pw with unitBusy := s.pw.unitBusy.filter (· ≠ u),
                                        unlocked := s.pw.unlocked.filter (fun c => c + 4 != u) } }
    match u with
    | 0 => { s with ev := { s.ev with resetting := false } }
    | 5 => State.findOutputs { s with cl := { s.cl with outputsOff := false } }
    | _ => s

/-- UNIT resets that waited for an epoch start when it has ended (R530). -/
def State.unitHook (s : State) : State :=
  if s.pw.epoch.isSome then s
  else
    let us := s.pw.unitWaiting
    State.each { s with pw := { s.pw with unitWaiting := [] } } us (fun u s => s.unitReset u)

/-! ### Domains (R531, R536 to R539) -/

/-- Domains SLACK gates when idle. -/
def slackDomain (d : Nat) : Bool :=
  (152 ≤ d && d ≤ 158) || (160 ≤ d && d ≤ 162) || (164 ≤ d && d ≤ 178) || (180 ≤ d && d ≤ 182)

/-- SLACK gates an idle domain (R531); a cluster with a job is not idle. -/
def State.idleGate (s : State) (d : Nat) : State :=
  let busy := 151 ≤ d && d ≤ 158 && (Tab.get? s.ce.running (d - 151)).isSome
  if s.pw.power = .run ∧ s.fld PW_SLACK_CTL 0 PW_SLACK_CTL_EN = 1 ∧ slackDomain d ∧ s.domain d = 0 ∧ !busy then
    State.setDomain { s with pw := { s.pw with idleGated := s.pw.idleGated ++ [d] } } d 2
  else s

/-- An idle-gated domain has been ungated; a coding job that waited for it may go on. -/
def State.ungated (s : State) (d : Nat) : State :=
  if !s.pw.idleGated.contains d then s
  else
    let s := { s with
      pw := { s.pw with idleGated := s.pw.idleGated.filter (· ≠ d), ungating := s.pw.ungating.filter (· ≠ d) }
      ce := { s.ce with waitDomain := if s.ce.waitDomain = some d then none else s.ce.waitDomain } }
    s.setDomain d 0

/-- A write of PW_SLACK_CTL (R531). -/
def slackWrite (v : Word) (s : State) : State :=
  let s := s.setFld PW_SLACK_CTL 0 PW_SLACK_CTL_EN (PW_SLACK_CTL_EN.get v)
  if PW_SLACK_CTL_EN.get v = 1 then s else s.each s.pw.idleGated (fun d s => s.ungated d)

/-- An owner request for a domain: off through DRAIN, on again at once; power on cancels a drain (R537, R538). -/
def State.domainRequest (s : State) (d : Nat) (off : Bool) : State :=
  if s.domain d = 3 then s
  else if off then
    if s.domain d = 0 then s.setDomain d 1
    else { s with pw := { s.pw with idleGated := s.pw.idleGated.filter (· ≠ d), ungating := s.pw.ungating.filter (· ≠ d) } }
  else if s.pw.idleGated.contains d then s
  else s.setDomain d 0

/-- A write of PW_PD_REQ (R539): PD_PLK is ignored with an event while the peer state is not UNPAIRED; while it is UNPAIRED the
domain is gated in any case (R536). -/
def pdRequestWrite (v : Word) (s : State) : State :=
  let was := s.requestedOff
  let plk := PW_PD_REQ_PLK.get v = 1
  let refused := plk && s.pl.peer != .unpaired
  let w := PW_PD_REQ.fields.foldl (fun w f => f.put w (f.get v)) 0
  let s := s.setReg (PW_PD_REQ.at 0) (if refused then PW_PD_REQ_PLK.put w 0 else w)
  let s := if refused then s.raise 0x205 2 noInst else s
  let now := s.requestedOff
  let s := s.each (now.filter (fun d => !was.contains d)) (fun d s => s.domainRequest d true)
  s.each (was.filter (fun d => !now.contains d)) (fun d s => s.domainRequest d false)

/-- A domain in DRAIN gates (R537 to R539): a job that still runs on a gated cluster moves to another one, and gating PD_LD_d
drops every link of die d. -/
def State.drained (s : State) (d : Nat) : State :=
  if s.domain d != 1 then s
  else
    let s := s.setDomain d 2
    let s : State := if 151 ≤ d ∧ d ≤ 158 then
        match Tab.get? s.ce.running (d - 151) with
        | some j =>
          let s := s.ceDrop (d - 151)
          { s with ce := { s.ce with queue := j :: s.ce.queue } }
        | none => s
      else s
    if 128 ≤ d ∧ d ≤ 131 then
      s.each ((Tab.keys s.dl.slots).filter (fun n => n / 256 = d - 128)) (fun n s =>
        let up : Bool := match s.slot? n with
          | some x => x.linkUp
          | none => false
        if up then s.linkLost n else s)
    else s

/-! ### Clocks (R543) -/

/-- No AON edge for 1 ms. -/
def State.aonLost (s : State) : State :=
  if s.pw.aonFallback then s else State.raise { s with pw := { s.pw with aonFallback := true } } 0x203 4 noInst

/-- A PLL loses lock: clocks in the order of PW_CLK_STATUS. -/
def State.lockLost (s : State) (c : Nat) (b : BootInfo) : State :=
  let mark := fun (s : State) =>
    { s with pw := { s.pw with unlocked := if s.pw.unlocked.contains c then s.pw.unlocked else s.pw.unlocked ++ [c] } }
  match c with
  | 1 => ((mark s).resetPort 0 0).resetPort 0 1
  | 2 => ((mark s).resetPort 1 0).resetPort 1 1
  | 3 => if s.hasPL then (mark s).retrain else s
  | 4 | 5 | 6 | 7 => if s.domain (124 + c) = 3 then s else (mark s).unitReset (c + 4)
  | 0 | 8 | 9 | 10 => if c = 10 ∧ !s.hasEB then s else s.warmNow b
  | _ => s

/-- A clock that a link has trained with is locked again. -/
def State.relocked (s : State) (c : Nat) : State :=
  { s with pw := { s.pw with unlocked := s.pw.unlocked.filter (· ≠ c) } }

/-! ### Die temperatures (R654) -/

/-- A reading of the die sensors: THERM_TRIP_N is driven at 120 °C and released when every die is below 110 °C; at 130 °C the device
stops as when PWRGD falls. -/
def State.dieTemps (s : State) (temps : List (Option Int)) : State :=
  let at_ := fun (k : Nat) => if 1 ≤ k && k ≤ 4 && s.domain (127 + k) = 3 then none else (temps.getD k none)
  let all := (List.range 6).filterMap at_
  if all.any (fun t => t ≥ 130) then s.powerLost
  else
    let hot := all.any (fun t => t ≥ 120)
    let trip := hot || (s.pw.thermTrip && all.any (fun t => t ≥ 110))
    let s := s.each (List.range 6) (fun k s =>
      let was := s.fld DEV_TEMP k DEV_TEMP_TRIP
      s.setReg (DEV_TEMP.at k) (match at_ k with
        | some t => pack 0
          [(DEV_TEMP_TEMP_C, signedBits 8 t), (DEV_TEMP_VALID, 1), (DEV_TEMP_TRIP, b2n (trip && (was = 1 || t ≥ 120)))]
        | none => pack 0 [(DEV_TEMP_TRIP, b2n (trip && was = 1))]))
    let started := trip && !s.pw.thermTrip
    let ended := !trip && s.pw.thermTrip
    let s := { s with pw := { s.pw with thermTrip := trip } }
    let s := if started then (s.raise 0x0FF 6 noInst).emit (.pin "THERM_TRIP_N" false) else s
    if ended then s.emit (.pin "THERM_TRIP_N" true) else s

end Sys2Proof.Machine
end

