-- ==== Sys2Proof/Machine/DeviceCommands.lean ====
section
/-! DEFINITION. The device commands of chapter 11 that no other chapter's file holds: TIME_SET (R15 to R17), TELEMETRY_GET (R380,
R381), and the staging of firmware and images (R489 to R492). -/

namespace Sys2Proof.Machine

open Sys2Proof

/-! ### TIME_SET -/

/-- TIME_SET in its turn (R15, R16). -/
def State.goTimeSet (s : State) (id : Nat) (c : HostCmd) : State :=
  let old := s.devNs
  let new := entryLe c 0 8 8
  let wasUnset := !s.timeSet
  let s := { s with devNs := new, devFrac := 0, timeSet := true }
  let s := if new < old then s.raise 0x002 4 noInst (leBytes 8 old ++ leBytes 8 new) else s
  s.complete id stSuccess (leBytes 8 old ++ leBytes 1 (b2n wasUnset))

/-- The checks of TIME_SET before it waits for its turn (R379). -/
def State.timeSetPre (s : State) (c : HostCmd) : Check :=
  firstFail [onEntry0 c, layout c 0 1 [anyAt 8 8], s.ownerPriv c]

/-- TIME_SET (R379). -/
def State.runTimeSet (s : State) (id : Nat) (c : HostCmd) : State :=
  s.checked id (s.timeSetPre c)
    (fun s => s.inTurn id c (fun s => s.goTimeSet id c))

/-! ### Telemetry pages -/

/-- The band map a device holds for a pool: its own, or the standby copy's for a pool of the partner. -/
def State.bandsSeen (s : State) (p : Nat) : Tab (BandState × Nat) :=
  match s.pool? p, Tab.get? s.pl.standby p with
  | none, some t => t.bands
  | _, _ => s.se.bands

/-- The FREE band offsets of a member between its two label bands. -/
def State.freeOffsets (s : State) (p n bandMiB : Nat) : List Nat :=
  match s.drive? n with
  | some d =>
    let map := s.bandsSeen p
    (List.range (d.info.bands bandMiB - 1)).filter (fun b =>
      0 < b && (Tab.getD map (bandKey n b) (BandState.free, 0)).1 = .free)
  | none => []

/-- The stripes of a pool as the device knows them. -/
def State.stripesSeen (s : State) (p : Nat) : List Stripe :=
  match s.pool? p, Tab.get? s.pl.standby p with
  | none, some t => t.stripes.map (·.2)
  | _, _ => (s.stripesOf p).map (·.2)

/-- Members of a pool in ACTIVE, SUSPECT or RETIRING state (R381). -/
def State.servingSeen (s : State) (p : Nat) (x : Pool) : List Nat :=
  x.members.filter (fun n => match s.drive? n with
    | some d => d.pool = p && (d.state = .active || d.state = .suspect || d.state = .retiring)
    | none => false)

/-- FREE bands no set holding their member can draw (R61). -/
def State.strandedOf (s : State) (p : Nat) (x : Pool) : Nat :=
  let free := (s.servingSeen p x).map (fun n => (n, s.freeOffsets p n x.params.bandMiB))
  let sets := (s.setsSeen p).filter (fun e => setInUse e.2)
  let has := fun (n b : Nat) => free.any (fun e => e.1 = n && e.2.contains b)
  (free.map (fun e => e.2.countP (fun b =>
    !sets.any (fun t => t.2.members.contains e.1 && t.2.members.all (fun n => has n b))))).sum

/-- The head of a telemetry page (R380). -/
def State.pageHead (s : State) (page param len : Nat) : List Byte :=
  withCrc (leBytes 1 page ++ leBytes 1 1 ++ leBytes 2 param ++ zeros 4 ++ leBytes 8 len ++ leBytes 8 s.devNs ++ zeros 4)

/-- The POOL page (R381). -/
def State.poolPage (s : State) (p : Nat) (x : Pool) : List Byte :=
  let ts := s.stripesSeen p
  let n := fun (st : StripeState) => leBytes 8 (ts.countP (fun t => t.state = st))
  let free := ((s.servingSeen p x).map (fun m => (s.freeOffsets p m x.params.bandMiB).length)).sum
  s.pageHead 1 p 160 ++ leBytes 16 x.uuid ++ leBytes 1 (poolCode x.state) ++ leBytes 1 x.params.k ++ leBytes 1 x.params.m ++
    leBytes 1 x.params.chunk ++ zeros 4 ++ n .written ++ n .released ++ n .broken ++ leBytes 8 free ++
    leBytes 8 (s.strandedOf p x) ++ leBytes 8 (s.capacityOf x.members) ++ leBytes 8 x.tableEntries ++ padTo 32 x.name ++ zeros 16

/-- The LOSS page (R228, R301, R381). -/
def State.lossPage (s : State) (p : Nat) (x : Pool) : List Byte :=
  s.pageHead 2 p (48 + 64 * x.loss.length) ++ leBytes 8 x.lossFirst ++ leBytes 4 x.loss.length ++ leBytes 4 (b2n x.lossOverflow) ++
    x.loss.flatMap (lossBytes p)

/-- The checks of TELEMETRY_GET (R380). -/
def State.telemetryPre (s : State) (c : HostCmd) : Check :=
  let page := entryByte c 0 8
  firstFail [onEntry0 c,
    layout c 0 1 ([⟨8, 1, page = 1 || page = 2⟩, ⟨10, 2, entryLe c 0 10 2 ≤ 63⟩, anyAt 16 8] ++ descAt c 24),
    need (!(descOfEntry c 24).crosses) stBadDescriptor, s.operatorPriv c 0]

/-- TELEMETRY_GET (R380, R381): the page is formed whole, and what BUF has room for goes out from OFFSET on. -/
def State.runTelemetryGet (s : State) (id : Nat) (c : HostCmd) : State :=
  let page := entryByte c 0 8
  let p := entryLe c 0 10 2
  let off := entryLe c 0 16 8
  let d := descOfEntry c 24
  s.checked id (s.telemetryPre c) (fun s =>
    match s.poolSeen p with
    | some x =>
      if x.state = .none then s.complete id stPoolOffline
      else
        let bytes := if page = 1 then s.poolPage p x else s.lossPage p x
        let out := (bytes.drop off).take d.len
        (s.toHost id d.addr out).complete id stSuccess (leBytes 8 bytes.length ++ leBytes 4 out.length)
    | none => s.complete id stPoolOffline)

/-! ### Staging -/

/-- Bytes of a staging buffer. -/
def stageSize (target : Nat) : Nat := if target = 0 then 25165824 else 4194304

/-- The staging buffer of a target. -/
def State.stageBuf (s : State) (target : Nat) : StageBuf := if target = 0 then s.boot.fwBuf else s.boot.imgBuf

/-- Replace the staging buffer of a target. -/
def State.setStageBuf (s : State) (target : Nat) (b : StageBuf) : State :=
  { s with boot := if target = 0 then { s.boot with fwBuf := b } else { s.boot with imgBuf := b } }

/-- STAGE_WRITE in its turn (R489). -/
def State.goStageWrite (s : State) (id : Nat) (c : HostCmd) : State :=
  match c.read.data with
  | none => s.complete id stHostAccessError
  | some bs =>
    let target := entryByte c 0 8
    let off := entryLe c 0 16 8
    let b := s.stageBuf target
    let old := if b.writer = some (fnPort c.x) then b.data else []
    let bytes := padTo (descOfEntry c 24).len bs
    let data := bytes.zipIdx.foldl (fun (t : Tab Byte) (e : Byte × Nat) => Tab.set t (off + e.2) e.1) old
    (s.setStageBuf target ⟨data, some (fnPort c.x)⟩).complete id stSuccess

/-- The checks of STAGE_WRITE before it waits for its turn (R489). -/
def State.stageWritePre (s : State) (c : HostCmd) : Check :=
  let target := entryByte c 0 8
  let d := descOfEntry c 24
  firstFail [onEntry0 c,
    layout c 0 1 ([⟨8, 1, target ≤ 1⟩, ⟨16, 8, entryLe c 0 16 8 + d.len ≤ stageSize target⟩] ++ descAt c 24),
    need (!d.crosses) stBadDescriptor, s.ownerPriv c]

/-- STAGE_WRITE (R379, R489). -/
def State.runStageWrite (s : State) (id : Nat) (c : HostCmd) : State :=
  s.checked id (s.stageWritePre c)
    (fun s => s.inTurn id c (fun s => s.goStageWrite id c))

/-- The slot of a target that was not taken at the last start (R490); after a bare start, the one the preference does not name. -/
def State.otherSlot (s : State) (target : Nat) : Nat :=
  if target = 0 then 1 - s.boot.fwSlot
  else if s.boot.imgSlot ≤ 1 then 1 - s.boot.imgSlot
  else 1 - s.boot.imgPref

/-- The directory names a slot of a target and its length (R474). -/
def State.writeDirectory (s : State) (target slot : Nat) (len : Option Nat) : State :=
  let lens := match len with
    | some n => s.boot.lens.set (2 * target + slot) n
    | none => s.boot.lens
  { s with boot := if target = 0 then { s.boot with fwPref := slot, lens := lens } else { s.boot with imgPref := slot, lens := lens } }

/-- A STAGE_COMMIT of a target ends: its buffer is emptied (R489). -/
def State.endStage (s : State) (id target status slot : Nat) : State :=
  let s := s.setStageBuf target ⟨[], none⟩
  if status = stSuccess then s.complete id stSuccess (leBytes 1 slot) else s.complete id status

/-- The refusal reason of a slot in DEV_BOOT_REASON. -/
def State.setReason (s : State) (target slot reason : Nat) : State :=
  let f := match target, slot with
    | 0, 0 => DEV_BOOT_REASON_FW0
    | 0, _ => DEV_BOOT_REASON_FW1
    | _, 0 => DEV_BOOT_REASON_IMG0
    | _, _ => DEV_BOOT_REASON_IMG1
  s.setFld DEV_BOOT_REASON 0 f reason

/-- STAGE_COMMIT in its turn (R490, R491): `verdict` is the refusal reason that verification of the staged bytes gives, 0 for
none. The flash is ungated while it runs (R536). -/
def State.goStageCommit (s : State) (id : Nat) (c : HostCmd) (verdict : Nat) : State :=
  let target := entryByte c 0 8
  let len := entryLe c 0 16 8
  if len = 0 then
    let slot := 1 - (if target = 0 then s.boot.fwPref else s.boot.imgPref)
    if s.boot.lens.getD (2 * target + slot) 0 = 0 then s.complete id stStageInvalid
    else (s.writeDirectory target slot none).complete id stSuccess (leBytes 1 slot)
  else
    let slot := s.otherSlot target
    if verdict ≠ 0 then (s.setReason target slot verdict).endStage id target stStageInvalid slot
    else
      let s := s.setDomain 187 0
      let s := { s with boot := { s.boot with stage := some { target := target, slot := slot, len := len, cmd := id } } }
      s.setBody id (.stageCommit target slot)

/-- The checks of STAGE_COMMIT before it waits for its turn (R490). -/
def State.stageCommitPre (s : State) (c : HostCmd) : Check :=
  let target := entryByte c 0 8
  firstFail [onEntry0 c,
    layout c 0 1 [⟨8, 1, target ≤ 1⟩, ⟨16, 8, entryLe c 0 16 8 ≤ stageSize target⟩], s.ownerPriv c]

/-- STAGE_COMMIT (R379, R490). A commit that waits its turn keeps its verdict. -/
def State.runStageCommit (s : State) (id : Nat) (c : HostCmd) (verdict : Nat) : State :=
  s.checked id (s.stageCommitPre c)
    (fun s => if s.blocked id c then s.setBody id (.serial c (16 + verdict)) else s.goStageCommit id c verdict)

/-- Erasing, programming and read-back end (R490): the directory is written and the command completes, or it was a failure. -/
def State.flashDone (s : State) (ok : Bool) : State :=
  match s.boot.stage with
  | some r =>
    let s := { s with boot := { s.boot with stage := none } }
    let s := s.setDomain 187 2
    if ok then (s.writeDirectory r.target r.slot (some r.len)).endStage r.cmd r.target stSuccess r.slot
    else
      -- the erased slot no longer holds what the directory describes; the directory itself is unchanged
      s.endStage r.cmd r.target stStageInvalid r.slot
  | none => s

end Sys2Proof.Machine
end

