-- ==== Sys2Proof/Machine/Finish.lean ====
section
/-! DEFINITION. A consumed command given to what executes it (R360, R361), commands that wait for their turn (R85, R382), and what
every step leaves settled: waits whose condition the step met. -/

namespace Sys2Proof.Machine

open Sys2Proof

/-! ### Execution by opcode -/

/-- Opcodes under OWNER privilege (R360). -/
def ownerOp (op : Nat) : Bool :=
  (0x20 ≤ op && op ≤ 0x26) || (0x28 ≤ op && op ≤ 0x2A) || [0x30, 0x40, 0x43, 0x44, 0x45, 0x46, 0x53, 0x54].contains op

/-- Whether an entry is taken under OWNER privilege: DRIVE_SET with LOCATE is OPERATOR's (R377). -/
def ownerEntry (c : HostCmd) : Bool := ownerOp (entryOpcode c) && !(entryOpcode c = 0x30 && entryByte c 0 10 = 6)

/-- Execute a consumed entry (R356, R360, R361). The outcomes of COPY_FORWARD's reads and of a staged content's verification come
with their own commands; here they are free (log entry 6). -/
def State.runCommand (s : State) (id : Nat) (c : HostCmd) : State :=
  let s := if ownerEntry c && s.hasSession c.x then s.renewSession else s
  match entryOpcode c with
  | 0x01 => s.runAppend id c
  | 0x02 => s.runRead id c
  | 0x03 => s.runRelease id c
  | 0x04 => s.runCopy id c []
  | 0x05 => s.runSeal id c
  | 0x06 => s.runFlush id c
  | 0x07 => s.runQuery id c
  | 0x20 => s.runPoolCreate id c
  | 0x21 => s.runPoolGrow id c
  | 0x22 => s.runPoolSet id c
  | 0x23 => s.runPoolDelete id c
  | 0x24 => s.runPoolRecover id c
  | 0x25 => s.runLossClear id c
  | 0x26 => s.runPoolGive id c
  | 0x28 => s.runScarfStart id c
  | 0x29 => s.runScarfCommit id c
  | 0x2A => s.runScarfAbort id c
  | 0x30 => s.runDriveSet id c
  | 0x40 => s.runTimeSet id c
  | 0x41 => s.runTelemetryGet id c
  | 0x42 => s.runEvRead id c
  | 0x43 => s.runEvClear id c
  | 0x44 => s.runDeviceMode id c
  | 0x45 => s.runStageWrite id c
  | 0x46 =>
    let d := s.draw Config.freeNat
    d.2.runStageCommit id c (d.1 % 11)
  | 0x50 => s.runSessionOpen id c
  | 0x51 => s.runSessionProve id c
  | 0x52 => s.runSessionClose id c
  | 0x53 => s.runProtectSet id c
  | 0x54 => s.runProtectCommit id c
  | 0x55 => s.runAttest id c
  | 0x70 => s.runQueueCreate id c
  | 0x71 => s.runQueueDelete id c
  | 0x72 => s.runOrphanList id c
  | 0x73 => s.runOrphanSettle id c
  | _ => s.complete id stBadOpcode

/-- Consume the entry a command row carries from its queue (R329, R331) and execute it: an entry of another opcode, of a queue
that does not exist or of one that may not be consumed now changes nothing. SLOTS of 0 or above 16 consumes one slot. -/
def State.hostCommand (s : State) (op : Nat) (c : HostCmd) (run : State → Nat → State) : State :=
  match s.dqNum c.x c.sq with
  | some q =>
    if entryOpcode c = op ∧ s.canConsume q then
      let n := entrySlots c
      if n = 0 ∨ n > 16 then
        let r := s.consume q 1 (entryCid c) op
        r.2.complete r.1 stMalformedLength
      else
        let r := s.consume q n (entryCid c) op
        let s := if ownerEntry c && r.2.hasSession c.x then r.2.renewSession else r.2
        run s r.1
    else s
  | none => s

/-! ### Waiting for a turn -/

/-- A command that waited starts its step (R85, R382, R464); `granted` when the partner granted its CLAIM. -/
def State.takeTurn (s : State) (id : Nat) (c : HostCmd) (granted : Bool) (verdict : Nat) : State :=
  match entryOpcode c with
  | 0x20 => s.goPoolCreate id c granted
  | 0x21 => s.goPoolGrow id c granted
  | 0x22 => s.goPoolSet id c
  | 0x23 => s.goPoolDelete id c
  | 0x24 => s.goPoolRecover id c
  | 0x25 => s.goLossClear id c
  | 0x26 => s.goPoolGive id c
  | 0x28 => s.goScarfStart id c granted
  | 0x29 => s.goScarfCommit id c
  | 0x2A => s.goScarfAbort id c
  | 0x30 => s.goDriveSet id c granted
  | 0x40 => s.goTimeSet id c
  | 0x43 => s.goEvClear id
  | 0x44 => s.goDeviceMode id c
  | 0x45 => s.goStageWrite id c
  | 0x46 => s.goStageCommit id c verdict
  | 0x50 => s.goSessionOpen id c
  | 0x51 => s.goSessionProve id c
  | 0x52 => s.goSessionClose id c
  | 0x53 => s.goProtectSet id c
  | 0x54 => s.goProtectCommit id
  | _ => s.complete id stBadOpcode

/-- Commands that wait start when nothing before them is left, in the order in which they were consumed. In `.serial c v`, `v` is 0
or 16 + a verdict: it waits its turn; 1: it waits for a peer state that lets it take drives; 2: its CLAIM is out; 3: its epoch runs. -/
def State.drainSerial (s : State) : State :=
  s.each (Tab.keys s.qm.cmds) (fun id s =>
    match s.cmd? id with
    | some k =>
      match k.body with
      | .serial c v =>
        if v = 2 ∨ v = 3 then s
        else if v = 1 then (if s.claimFree ∨ s.pl.peer = .paired then s.takeTurn id c false 0 else s)
        else if s.blocked id c ∨ (entryOpcode c = 0x22 ∧ s.pw.epoch.isSome) then s
        else s.takeTurn id c false (v - 16)
      | _ => s
    | none => s)

/-! ### The end of a step -/

/-- Slots whose class 1 wake of the start has ended leave its list (R488). -/
def State.wakesDone (s : State) : State :=
  { s with boot := { s.boot with startWakes := s.boot.startWakes.filter (fun n => !s.awake n) } }

/-- Everything that waits for a condition looks once. -/
def State.settleOnce (s : State) : State :=
  let s := s.settleReads.readsReplan.flushHook
  let s := (State.settle s.qm.cmds.length s).settleCtlq
  let s := s.labelHook.retireHook.scarfHook.protHook.mediaHook.reserveHook
  let s := s.giveHook.harbourHook.epochHook.unitHook
  s.drainSerial.spinHook.wakesDone

/-- Looks in a row, for waits that end one another. -/
def State.settleRounds : Nat → State → State
  | 0, s => s
  | n + 1, s => State.settleRounds n s.settleOnce

/-- What every step ends with. -/
def State.finish (s : State) : State := State.settleRounds 8 s

/-- An event that the device acts on while it runs. -/
def State.whenUp (s : State) (act : State → State) : State := if s.up then (act s).finish else s

/-- An event of the climate, security or event unit, on which the device acts in HARBOUR too (R448, R532). -/
def State.whenPlant (s : State) (act : State → State) : State := if s.plantUp then (act s).finish else s

/-- A consumed command of a host. -/
def State.hostRow (s : State) (op : Nat) (c : HostCmd) (run : State → Nat → State) : State :=
  s.whenUp (fun s => s.hostCommand op c run)

end Sys2Proof.Machine
end

