-- ==== Sys2Proof/Machine/AppendRows.lean ====
section
/-! DEFINITION. The command rows of chapters 04 and 02: APPEND, SEAL, FLUSH, COPY_FORWARD, RELEASE, the seal of stripes, their
chunk writes, and the hash engine's results. -/

namespace Sys2Proof.Machine

open Sys2Proof

/-- The digest of an APPEND is known (R129, R164): it stands in the directory entry, the entry goes to the partner, and the APPEND
completes if nothing else holds it. -/
def State.appendHashed (s : State) (id : Nat) (digest : BitVec 256) : State :=
  match s.append? id with
  | some a =>
    match a.placed with
    | some (n, slot) =>
      let s := s.modEntry a.pool n slot (fun e => if e.cmd = some id then { e with hash := some digest } else e)
      match (s.stripe? a.pool n).bind (fun t => t.dir[slot]?) with
      | some e =>
        let sent := s.mirrors
        let s := s.sendM 0x11 [a.pool, n, slot] (dirEntryBytes [] e)
        let s : State := if sent then
            { s with pl := { s.pl with appendMseq := Tab.set s.pl.appendMseq id s.pl.mseqSent } } else s
        s.tryAck id
      | none => s
    | none => s
  | none => s

/-- The header hash of a chunk is known (R137, R285): its write goes out when the band's BAND_OPEN record is on stable media. -/
def State.chunkHashed (s : State) (p n q : Nat) : State :=
  match s.stripe? p n with
  | some t =>
    match s.set? t.set with
    | some x =>
      if t.state = .sealed && t.coded && x.bandOpenLogged && s.mayWrite p && !t.acked.contains q then s.writeChunk p n q else s
    | none => s
  | none => s

/-- A hash engine job ends (R236) and its user gets the digest. -/
def State.hashDone (s : State) (job : Nat) : State :=
  match Tab.get? s.se.hashJobs job with
  | some j =>
    let s := { s with se := { s.se with hashJobs := Tab.erase s.se.hashJobs job } }
    match j.user with
    | .append id => s.appendHashed id j.digest
    | .chunk p n q => s.chunkHashed p n q
    | .read id => s.readHashed id j.digest
  | none => s

/-- A member reports a chunk on stable media (R154, R223, R258): of a SEALED stripe, or of the placement a stripe moves to. -/
def State.chunkAcked (s : State) (p n q : Nat) : State :=
  match s.stripe? p n with
  | some t =>
    let place := match t.newPlace with
      | some v => v.1
      | none => t.set
    match (s.membersOf place)[q]? with
    | some d =>
      let s := s.driveGood d
      let ack := fun (s : State) => s.modStripe p n (fun t => { t with acked := if t.acked.contains q then t.acked else t.acked ++ [q] })
      if t.newPlace.isSome then (ack s).switchPlace p n
      else if t.state = .sealed && t.coded && !s.chunkHashing p n q then (ack s).writeDone p n
      else s
    | none => s
  | none => s

/-! ### Rows -/

/-- APPEND (R116). -/
def execAppend (c : HostCmd) (s : State) : Host.Outcome State Fault Refusal :=
  .next (s.hostRow 0x01 c (fun s id => s.runAppend id c))

/-- APPEND_ADMIT (R117). -/
def execAppendAdmit (s : State) : Host.Outcome State Fault Refusal := .next (s.whenUp (fun s => s.admitHeld))

/-- PAYLOAD_ARRIVAL (R129). -/
def execPayloadArrival (id off : Nat) (bytes : List Byte) (s : State) : Host.Outcome State Fault Refusal :=
  .next (s.whenUp (fun s => s.payloadIn id off bytes))

/-- HOST_ACCESS_ERROR (R355, R133): an APPEND fails, and a READ that has not answered ends. Other commands meet their errors when
they are consumed. -/
def execHostAccessError (id : Nat) (s : State) : Host.Outcome State Fault Refusal :=
  .next (s.whenUp (fun s => match s.cmd? id with
    | some c => match c.body with
      | .append a => if a.parent.isNone && !a.whole then (s.failAppend id stHostAccessError).admitHeld else s
      | .read _ => s.complete id stHostAccessError
      | _ => s
    | none => s))

/-- APPEND_TRANSFER_DONE (R129 to R132). -/
def execAppendTransferDone (id : Nat) (s : State) : Host.Outcome State Fault Refusal := .next (s.whenUp (fun s => s.tryAck id))

/-- SEAL_TIMER_EXPIRY (R134): SEAL_MS after the first placement of an open stripe. -/
def execSealTimerExpiry (pool stripe : Nat) (s : State) : Host.Outcome State Fault Refusal :=
  .next (s.whenUp (fun s => match s.stripe? pool stripe with
    | some t => if t.dir.isEmpty then s else s.startSeal pool stripe
    | none => s))

/-- STRIPE_SEAL (R137). -/
def execStripeSeal (pool stripe : Nat) (s : State) : Host.Outcome State Fault Refusal :=
  .next (s.whenUp (fun s => s.sealStripe pool stripe))

/-- HASH_JOB_COMPLETE (R236): no job ends while the hash engine is reset (R530). -/
def execHashJobComplete (job : Nat) (s : State) : Host.Outcome State Fault Refusal :=
  .next (s.whenUp (fun s => if s.pw.unitBusy.contains 2 then s else s.hashDone job))

/-- CHUNK_WRITE_ACK (R154). -/
def execChunkWriteAck (pool stripe pos : Nat) (s : State) : Host.Outcome State Fault Refusal :=
  .next (s.whenUp (fun s => s.chunkAcked pool stripe pos))

/-- DRIVE_WRITE_FAILED (R66, R205, R397). -/
def execDriveWriteFailed (pool stripe pos : Nat) (conflict : Bool) (sense : Option DriveSense) (s : State) : Host.Outcome State Fault Refusal :=
  .next (s.whenUp (fun s => s.writeFailed pool stripe pos conflict sense))

/-- SEAL (R140). -/
def execSealCommand (c : HostCmd) (s : State) : Host.Outcome State Fault Refusal :=
  .next (s.hostRow 0x05 c (fun s id => s.runSeal id c))

/-- FLUSH (R141). -/
def execFlush (c : HostCmd) (s : State) : Host.Outcome State Fault Refusal :=
  .next (s.hostRow 0x06 c (fun s id => s.runFlush id c))

/-- RELEASE (R367). -/
def execRelease (c : HostCmd) (s : State) : Host.Outcome State Fault Refusal :=
  .next (s.hostRow 0x03 c (fun s id => s.runRelease id c))

/-- PENDING_RELEASE_RESOLVE (R145). -/
def execPendingReleaseResolve (pool stripe : Nat) (s : State) : Host.Outcome State Fault Refusal :=
  .next (s.whenUp (fun s => if s.canResolve pool stripe then s.resolvePending pool stripe else s))

/-- COPY_FORWARD (R149). -/
def execCopyForward (c : HostCmd) (sources : List SourceRead) (s : State) : Host.Outcome State Fault Refusal :=
  .next (s.hostRow 0x04 c (fun s id => s.runCopy id c sources))

/-- QUERY_LOCATOR (R366). -/
def execQueryLocator (c : HostCmd) (s : State) : Host.Outcome State Fault Refusal :=
  .next (s.hostRow 0x07 c (fun s id => s.runQuery id c))

end Sys2Proof.Machine
end

