-- ==== Sys2Proof/Machine/ClimateRows.lean ====
section
/-! DEFINITION. The command rows of chapter 13: sensors, fans and loop engines, headroom, the condensation hold, the capacitor bank and its tests. -/

namespace Sys2Proof.Machine

open Sys2Proof

/-- ANALOG_INPUT_UPDATE (R419). -/
def execAnalogInputUpdate (k code : Nat) (s : State) : Host.Outcome State Fault Refusal :=
  .next (s.whenPlant (fun s => s.ainUpdate k code))

/-- SENSOR_READ_DONE (R422). -/
def execSensorReadDone (k : Nat) (r : Option (Int × Nat)) (s : State) : Host.Outcome State Fault Refusal :=
  .next (s.whenPlant (fun s => s.sensorRead k r))

/-- FAN_FAIL (R423). -/
def execFanFail (f rpm : Nat) (s : State) : Host.Outcome State Fault Refusal :=
  .next (s.whenPlant (fun s => s.fanFailed f rpm))

/-- FAN_FAIL_CLEAR (R423). -/
def execFanFailClear (f rpm : Nat) (s : State) : Host.Outcome State Fault Refusal :=
  .next (s.whenPlant (fun s => s.fanBack f rpm))

/-- LOOP_PERIOD (R424). -/
def execLoopPeriod (n : Nat) (s : State) : Host.Outcome State Fault Refusal :=
  .next (s.whenPlant (fun s => s.loopPeriod n))

/-- CAPTURE_SAMPLE (R429). -/
def execCaptureSample (stream : Nat) (sample : List Byte) (s : State) : Host.Outcome State Fault Refusal :=
  .next (s.whenPlant (fun s => s.capture stream sample))

/-- HEADROOM_TICK (R431). -/
def execHeadroomTick (s : State) : Host.Outcome State Fault Refusal :=
  .next (s.whenPlant (fun s => s.headroomTick))

/-- ENC_CRIT (R432). -/
def execEncCrit (e : Nat) (s : State) : Host.Outcome State Fault Refusal :=
  .next (s.whenPlant (fun s => s.enterCrit e))

/-- ENC_HOT_EXIT (R432). -/
def execEncHotExit (e : Nat) (s : State) : Host.Outcome State Fault Refusal :=
  .next (s.whenPlant (fun s => s.leaveHot e))

/-- HOLD_EVALUATION (R436). -/
def execHoldEvaluation (s : State) : Host.Outcome State Fault Refusal :=
  .next (s.whenPlant (fun s => s.evaluateHold))

/-- HOLD_DWELL_EXPIRY (R434). -/
def execHoldDwellExpiry (e : Nat) (s : State) : Host.Outcome State Fault Refusal :=
  .next (s.whenPlant (fun s => s.holdOver e))

/-- HOLD_LONG (R435). -/
def execHoldLong (e : Nat) (s : State) : Host.Outcome State Fault Refusal :=
  .next (s.whenPlant (fun s => s.holdLong e))

/-- HUMID_HIGH (R447). -/
def execHumidHigh (e : Nat) (s : State) : Host.Outcome State Fault Refusal :=
  .next (s.whenPlant (fun s => s.humidHigh e))

/-- CHARGER_FAULT (R438). -/
def execChargerFault (s : State) : Host.Outcome State Fault Refusal :=
  .next (s.whenPlant (fun s => s.chargerFails))

/-- EU_COMPUTE (R440). -/
def execEuCompute (vMv : Nat) (iMa : Int) (s : State) : Host.Outcome State Fault Refusal :=
  .next (s.whenPlant (fun s => s.euCompute vMv iMa))

/-- EU_REPORT (R441). -/
def execEuReport (s : State) : Host.Outcome State Fault Refusal :=
  .next (s.whenPlant (fun s => s.euReport))

/-- VBANK_TRIP (R439). -/
def execVbankTrip (s : State) : Host.Outcome State Fault Refusal :=
  .next (if s.plantUp then
      let t := s.tripEbb
      if t.pw.power = .ebb then t else t.finish
    else s)

/-- PULSE_TEST_START (R442). -/
def execPulseTestStart (s : State) : Host.Outcome State Fault Refusal :=
  .next (s.whenPlant (fun s => s.testStart))

/-- PULSE_TEST_ONSET (R443). -/
def execPulseTestOnset (v0Mv : Nat) (s : State) : Host.Outcome State Fault Refusal :=
  .next (s.whenPlant (fun s => s.testOnset v0Mv))

/-- PULSE_TEST_END (R443). -/
def execPulseTestEnd (fit : PulseFit) (s : State) : Host.Outcome State Fault Refusal :=
  .next (s.whenPlant (fun s => s.testEnd fit))

/-- TEST_POSTPONED (R442). -/
def execTestPostponed (s : State) : Host.Outcome State Fault Refusal :=
  .next (s.whenPlant (fun s => s.testPostponed))

end Sys2Proof.Machine
end

