-- ==== Sys2Proof/Machine/DeviceRows.lean ====
section
/-! DEFINITION. The command rows of chapters 10, 15, 16 and 22 about the device: time, telemetry, modes, staging, sessions, enrolment, attestation and the event recorder. -/

namespace Sys2Proof.Machine

open Sys2Proof

/-- TIME_SET (R15). -/
def execTimeSet (c : HostCmd) (s : State) : Host.Outcome State Fault Refusal :=
  .next (s.hostRow 0x40 c (fun s id => s.runTimeSet id c))

/-- TELEMETRY_GET (R380). -/
def execTelemetryGet (c : HostCmd) (s : State) : Host.Outcome State Fault Refusal :=
  .next (s.hostRow 0x41 c (fun s id => s.runTelemetryGet id c))

/-- EV_READ (R615). -/
def execEvRead (c : HostCmd) (s : State) : Host.Outcome State Fault Refusal :=
  .next (s.hostRow 0x42 c (fun s id => s.runEvRead id c))

/-- EV_CLEAR (R616). -/
def execEvClear (c : HostCmd) (s : State) : Host.Outcome State Fault Refusal :=
  .next (s.hostRow 0x43 c (fun s id => s.runEvClear id c))

/-- DEVICE_MODE (R532). -/
def execDeviceMode (c : HostCmd) (s : State) : Host.Outcome State Fault Refusal :=
  .next (s.hostRow 0x44 c (fun s id => s.runDeviceMode id c))

/-- STAGE_WRITE (R489). -/
def execStageWrite (c : HostCmd) (s : State) : Host.Outcome State Fault Refusal :=
  .next (s.hostRow 0x45 c (fun s id => s.runStageWrite id c))

/-- STAGE_COMMIT (R490); `verdict` is what the verification of the staged content finds. -/
def execStageCommit (c : HostCmd) (verdict : Nat) (s : State) : Host.Outcome State Fault Refusal :=
  .next (s.hostRow 0x46 c (fun s id => s.runStageCommit id c verdict))

/-- FLASH_PROGRAM_DONE (R490). -/
def execFlashProgramDone (ok : Bool) (s : State) : Host.Outcome State Fault Refusal :=
  .next (s.whenUp (fun s => s.flashDone ok))

/-! ### Sessions, protection, attestation and enrolment -/

/-- SESSION_OPEN (R500). -/
def execSessionOpen (c : HostCmd) (s : State) : Host.Outcome State Fault Refusal :=
  .next (s.hostRow 0x50 c (fun s id => s.runSessionOpen id c))

/-- SESSION_PROVE (R501). -/
def execSessionProve (c : HostCmd) (s : State) : Host.Outcome State Fault Refusal :=
  .next (s.hostRow 0x51 c (fun s id => s.runSessionProve id c))

/-- SESSION_CLOSE (R503). -/
def execSessionClose (c : HostCmd) (s : State) : Host.Outcome State Fault Refusal :=
  .next (s.hostRow 0x52 c (fun s id => s.runSessionClose id c))

/-- PROTECT_SET (R505). -/
def execProtectSet (c : HostCmd) (s : State) : Host.Outcome State Fault Refusal :=
  .next (s.hostRow 0x53 c (fun s id => s.runProtectSet id c))

/-- PROTECT_COMMIT (R507). -/
def execProtectCommit (c : HostCmd) (s : State) : Host.Outcome State Fault Refusal :=
  .next (s.hostRow 0x54 c (fun s id => s.runProtectCommit id c))

/-- ATTEST (R521). -/
def execAttest (c : HostCmd) (s : State) : Host.Outcome State Fault Refusal :=
  .next (s.hostRow 0x55 c (fun s id => s.runAttest id c))

/-- CHALLENGE_EXPIRY (R500). -/
def execChallengeExpiry (x : Nat) (s : State) : Host.Outcome State Fault Refusal :=
  .next (s.whenUp (fun s => s.dropChallenge x))

/-- SESSION_IDLE_EXPIRY (R503). -/
def execSessionIdleExpiry (s : State) : Host.Outcome State Fault Refusal :=
  .next (s.whenUp (fun s => s.endSession 4))

/-- The enrolment rows: a write of SEC_ENROLL_CTL with GO and the row's OP (R511). -/
def enrollRow (op port : Nat) (v : Word) (s : State) : State :=
  s.whenPlant (fun s =>
    if SEC_ENROLL_CTL_OP.get v = op ∧ SEC_ENROLL_CTL_GO.get v = 1 then s.enrollCtlWrite port v else s)

/-- ENROLL (R513). -/
def execEnroll (port : Nat) (v : Word) (s : State) : Host.Outcome State Fault Refusal :=
  .next (enrollRow 1 port v s)

/-- REVOKE_OWNER (R514). -/
def execRevokeOwner (port : Nat) (v : Word) (s : State) : Host.Outcome State Fault Refusal :=
  .next (enrollRow 2 port v s)

/-- RAISE_SVN (R514). -/
def execRaiseSvn (port : Nat) (v : Word) (s : State) : Host.Outcome State Fault Refusal :=
  .next (enrollRow 3 port v s)

/-- REVOKE_VENDOR (R514). -/
def execRevokeVendor (port : Nat) (v : Word) (s : State) : Host.Outcome State Fault Refusal :=
  .next (enrollRow 4 port v s)

/-- FUSE_OP (R512). -/
def execFuseOp (ok : Bool) (s : State) : Host.Outcome State Fault Refusal :=
  .next (s.whenPlant (fun s => s.fuseDone ok))

/-! ### The event recorder -/

/-- EVENT_RAISE (R606). -/
def execEventRaise (e : RaisedEvent) (s : State) : Host.Outcome State Fault Refusal :=
  .next (s.whenPlant (fun s => s.raiseEvent e))

/-- EV_RECORD_FORM (R603). -/
def execEvRecordForm (s : State) : Host.Outcome State Fault Refusal :=
  .next (s.whenPlant (fun s => s.formRecord))

/-- EV_LOG_WRITE_DONE (R610). -/
def execEvLogWriteDone (s : State) : Host.Outcome State Fault Refusal :=
  .next (s.whenPlant (fun s => s.logWritten))

/-- EV_TOKEN_REFILL (R606). -/
def execEvTokenRefill (code : Nat) (s : State) : Host.Outcome State Fault Refusal :=
  .next (s.whenPlant (fun s => s.refillToken code))

/-- EV_NOTIFY_TICK (R618). -/
def execEvNotifyTick (port : Nat) (s : State) : Host.Outcome State Fault Refusal :=
  .next (s.whenPlant (fun s => s.notifyTick port))

/-- EV_SCAN_DONE (R614). -/
def execEvScanDone (s : State) : Host.Outcome State Fault Refusal :=
  .next (s.whenPlant (fun s => s.scanDone))

/-- EV_CLEAR_ERASE_DONE (R616). -/
def execEvClearEraseDone (s : State) : Host.Outcome State Fault Refusal :=
  .next (s.whenPlant (fun s => s.eraseDone))

/-- STORE_FAULT (R611). -/
def execStoreFault (s : State) : Host.Outcome State Fault Refusal :=
  .next (s.whenPlant (fun s => s.evStoreFault))

/-- STORE_BACK (R611). -/
def execStoreBack (s : State) : Host.Outcome State Fault Refusal :=
  .next (s.whenPlant (fun s => s.evStoreBack))

end Sys2Proof.Machine
end

