-- ==== Sys2Proof/Machine/DriveRows.lean ====
section
/-! DEFINITION. The command rows of chapters 11 and 12 about drives: presence, power, links, spin-up and standby. -/

namespace Sys2Proof.Machine

open Sys2Proof

/-- An event of a drive or of the peer link: a bare start brings neither up (R488). -/
def State.whenLinked (s : State) (act : State → State) : State := s.whenUp (fun s => if s.boot.bare then s else act s)

/-- An event of a slot the device has. -/
def State.whenSlot (s : State) (n : Nat) (act : State → State) : State :=
  s.whenLinked (fun s => if n < s.slotCount then act s else s)

/-- PRESENCE_CHANGE (R409). -/
def execPresenceChange (slot : Nat) (present : Bool) (s : State) : Host.Outcome State Fault Refusal :=
  .next (s.whenSlot slot (fun s => s.presence slot present))

/-- SGPIO_FRAME (R405). -/
def execSgpioFrame (chain : Nat) (inputs : List (BitVec 6)) (s : State) : Host.Outcome State Fault Refusal :=
  .next (s.whenSlot (32 * chain) (fun s => s.sgpio chain inputs))

/-- PWR_GOOD_TIMEOUT (R408). -/
def execPwrGoodTimeout (slot : Nat) (s : State) : Host.Outcome State Fault Refusal :=
  .next (s.whenSlot slot (fun s => s.powerTimeout slot))

/-- LINK_BRINGUP_ATTEMPT (R392). -/
def execLinkBringupAttempt (slot rate : Nat) (ok : Bool) (s : State) : Host.Outcome State Fault Refusal :=
  .next (s.whenSlot slot (fun s => s.bringUp slot rate ok))

/-- LINK_BRINGUP_RETRY (R392). -/
def execLinkBringupRetry (slot : Nat) (s : State) : Host.Outcome State Fault Refusal :=
  .next (s.whenSlot slot (fun s => s.bringUpAgain slot))

/-- LINK_UP (R393). -/
def execLinkUp (slot : Nat) (d : DriveInfo) (s : State) : Host.Outcome State Fault Refusal :=
  .next (s.whenSlot slot (fun s => s.linkFound slot d))

/-- SPIN_ADMISSION_TICK (R416). -/
def execSpinAdmissionTick (s : State) : Host.Outcome State Fault Refusal :=
  .next (s.whenLinked (fun s => s.spinAdmission))

/-- SPIN_PEAK_EXPIRY (R415). -/
def execSpinPeakExpiry (slot : Nat) (s : State) : Host.Outcome State Fault Refusal :=
  .next (s.whenSlot slot (fun s => s.peakOver slot))

/-- SPINUP_COMPLETE (R401). -/
def execSpinupComplete (slot durationDs : Nat) (s : State) : Host.Outcome State Fault Refusal :=
  .next (s.whenSlot slot (fun s => s.spinupDone slot durationDs))

/-- SPINUP_TIMEOUT (R205). -/
def execSpinupTimeout (slot : Nat) (s : State) : Host.Outcome State Fault Refusal :=
  .next (s.whenSlot slot (fun s => s.spinupLate slot))

/-- WAKE_GROUP_IDLE_EXPIRY (R413). -/
def execWakeGroupIdleExpiry (group : Nat) (s : State) : Host.Outcome State Fault Refusal :=
  .next (s.whenLinked (fun s => s.groupIdle group))

/-- STANDBY_COMPLETE (R414). -/
def execStandbyComplete (group : Nat) (s : State) : Host.Outcome State Fault Refusal :=
  .next (s.whenLinked (fun s => s.standbyDone group))

/-- SLOT_POWER_OFF (R403). -/
def execSlotPowerOff (slot : Nat) (s : State) : Host.Outcome State Fault Refusal :=
  .next (s.whenSlot slot (fun s => s.slotOff slot))

end Sys2Proof.Machine
end

