-- ==== Sys2Proof/Machine/PeerRows.lean ====
section
/-! DEFINITION. The command rows of chapter 14: the peer link, mirroring, silence and resolution, CLAIM, giveback and pulling the mirror. -/

namespace Sys2Proof.Machine

open Sys2Proof

/-- The CLAIM of substitution is answered (R209, R464): granted drives are this device's to assign. -/
def State.substReply (s : State) (slots : List Nat) (refused : Bool) : State :=
  if refused then s
  else
    let s := State.substitute { s with pl := { s.pl with taken := s.pl.taken ++ slots } }
    { s with pl := { s.pl with taken := s.pl.taken.filter (fun n => (s.memberPool n).isNone) } }

/-- CLAIM_REPLY (R464): the step that waits goes on; a refused creation ends with POOL_EXISTS, a refused drive with DRIVE_STATE. -/
def State.claimAnswered (s : State) (pool claimId : Nat) (refused : Bool) : State :=
  match s.pl.claims.find? (fun k => k.pool = pool && k.id = claimId) with
  | none => s
  | some k =>
    let s := { s with pl := { s.pl with claims := s.pl.claims.filter (· ≠ k) } }
    if k.cmd = substClaim then s.substReply k.slots refused
    else match s.cmd? k.cmd with
      | some q => match q.body with
        | .serial c 2 =>
          if !refused then s.takeTurn k.cmd c true 0
          else if entryOpcode c = 0x20 then s.complete k.cmd stPoolExists
          else s.complete k.cmd stDriveState [] (match k.slots with
            | [n] => n
            | _ => noDetail)
        | _ => s
      | none => s

/-- PEER_LINK_TRAINED (R462). -/
def execPeerLinkTrained (rate width : Nat) (s : State) : Host.Outcome State Fault Refusal :=
  .next (s.whenLinked (fun s => (s.peerTrained rate width).relocked 3))

/-- HELLO (R462). -/
def execPeerHello (h : HelloFrame) (s : State) : Host.Outcome State Fault Refusal :=
  .next (s.whenLinked (fun s => s.hello h))

/-- HEARTBEAT (R466). No rule makes the receiver act on the last MSEQ sent. -/
def execHeartbeat (f : Nat) (owned : BitVec 64) (_lastMseq : Nat) (s : State) : Host.Outcome State Fault Refusal :=
  .next (s.whenLinked (fun s => s.heartbeat f owned))

/-- HEARTBEAT_SEND (R466). -/
def execHeartbeatSend (s : State) : Host.Outcome State Fault Refusal :=
  .next (s.whenLinked (fun s => s.sendHeartbeat))

/-- PEER_SILENT (R466). -/
def execPeerSilent (s : State) : Host.Outcome State Fault Refusal :=
  .next (s.whenLinked (fun s => s.peerSilent))

/-- RESOLUTION_START (R467). -/
def execResolutionStart (s : State) : Host.Outcome State Fault Refusal :=
  .next (s.whenLinked (fun s => s.startResolution))

/-- RESERVATION_KEYS_READ (R467). -/
def execReservationKeysRead (ownKeyOnAll : Bool) (s : State) : Host.Outcome State Fault Refusal :=
  .next (s.whenLinked (fun s => s.keysRead ownKeyOnAll))

/-- PREEMPT_COMPLETE (R467). -/
def execPreemptComplete (s : State) : Host.Outcome State Fault Refusal :=
  .next (s.whenLinked (fun s => s.preempted))

/-- CLAIM (R464). -/
def execClaim (pool claimId : Nat) (slots : List Nat) (s : State) : Host.Outcome State Fault Refusal :=
  .next (s.whenLinked (fun s => s.claimIn pool claimId slots))

/-- CLAIM_REPLY (R464). -/
def execClaimReply (pool claimId : Nat) (refused : Bool) (s : State) : Host.Outcome State Fault Refusal :=
  .next (s.whenLinked (fun s => s.claimAnswered pool claimId refused))

/-- MIR_PAYLOAD (R164). -/
def execMirPayload (mseq pool stripe unit off : Nat) (bytes : List Byte) (s : State) : Host.Outcome State Fault Refusal :=
  .next (s.whenLinked (fun s => s.applyM mseq (fun s => s.mirPayload pool stripe unit off bytes)))

/-- MIR_DIRENT (R164). -/
def execMirDirent (mseq pool stripe slot : Nat) (entry : List Byte) (s : State) : Host.Outcome State Fault Refusal :=
  .next (s.whenLinked (fun s => s.applyM mseq (fun s => s.mirDirent pool stripe slot entry)))

/-- MIR_SEAL (R164). -/
def execMirSeal (mseq pool stripe sealSeq chunkOffset set : Nat) (s : State) : Host.Outcome State Fault Refusal :=
  .next (s.whenLinked (fun s => s.applyM mseq (fun s => s.mirSeal pool stripe sealSeq chunkOffset set)))

/-- MIR_DELTA (R463). -/
def execMirDelta (mseq : Nat) (records : List DeltaRec) (s : State) : Host.Outcome State Fault Refusal :=
  .next (s.whenLinked (fun s => s.applyM mseq (fun s => s.mirDelta records)))

/-- MIR_RELEASE (R164). -/
def execMirRelease (mseq pool kind : Nat) (records : List (List Byte)) (s : State) : Host.Outcome State Fault Refusal :=
  .next (s.whenLinked (fun s => s.applyM mseq (fun s => s.mirRelease pool kind records)))

/-- MIR_RETIRE (R166). -/
def execMirRetire (mseq pool stripe : Nat) (s : State) : Host.Outcome State Fault Refusal :=
  .next (s.whenLinked (fun s => s.applyM mseq (fun s => s.mirRetire pool stripe)))

/-- MIR_CONFIRM (R465). -/
def execMirConfirm (mseq : Nat) (s : State) : Host.Outcome State Fault Refusal :=
  .next (s.whenLinked (fun s => s.mirConfirm mseq))

/-- STANDBY_COPY (R463). -/
def execStandbyCopy (pool sect off : Nat) (bytes : List Byte) (s : State) : Host.Outcome State Fault Refusal :=
  .next (s.whenLinked (fun s => s.takeSection pool sect off bytes))

/-- WINDOW_COPY (R168). -/
def execWindowCopy (mseq off : Nat) (bytes : List Byte) (held : Tab (Tab Stripe)) (s : State) : Host.Outcome State Fault Refusal :=
  .next (s.whenLinked (fun s => s.applyM mseq (fun s => s.takeWindow off bytes held)))

/-- MIR_RESYNC (R461). -/
def execMirResync (mseq : Nat) (s : State) : Host.Outcome State Fault Refusal :=
  .next (s.whenLinked (fun s => s.mirResync mseq))

/-- PEER_FRAME_BAD (R460). -/
def execPeerFrameBad (isM : Bool) (s : State) : Host.Outcome State Fault Refusal :=
  .next (s.whenLinked (fun s => s.frameBad isM))

/-- GIVE_REQ (R469). -/
def execGiveReq (pool lastMseq : Nat) (s : State) : Host.Outcome State Fault Refusal :=
  .next (s.whenLinked (fun s => s.giveReq pool lastMseq))

/-- GIVE_READY (R469). -/
def execGiveReady (pool : Nat) (refused : Bool) (s : State) : Host.Outcome State Fault Refusal :=
  .next (s.whenLinked (fun s => s.giveReady pool refused))

/-- GIVE_DONE (R469). -/
def execGiveDone (pool descSeq : Nat) (s : State) : Host.Outcome State Fault Refusal :=
  .next (s.whenLinked (fun s => s.giveDone pool descSeq))

/-- PULL_REQ (R528). -/
def execPullReq (pool : Nat) (s : State) : Host.Outcome State Fault Refusal :=
  .next (s.whenLinked (fun s => s.answerPull pool))

/-- PULL_DATA (R185). -/
def execPullData (off : Nat) (bytes : List Byte) (s : State) : Host.Outcome State Fault Refusal :=
  .next (s.whenLinked (fun s => s.takePull off bytes))

/-- PULL_END (R185). -/
def execPullEnd (pool : Nat) (noMirror : Bool) (s : State) : Host.Outcome State Fault Refusal :=
  .next (s.whenLinked (fun s => s.endPull pool noMirror))

/-- FLIT_NAK (R457). -/
def execFlitNak (ack : Nat) (s : State) : Host.Outcome State Fault Refusal :=
  .next (s.whenLinked (fun s => s.flitNak ack))

/-- REPLAY_TIMEOUT (R457). -/
def execReplayTimeout (s : State) : Host.Outcome State Fault Refusal :=
  .next (s.whenLinked (fun s => s.replay))

/-- PEER_RETRAIN (R458). -/
def execPeerRetrain (s : State) : Host.Outcome State Fault Refusal :=
  .next (s.whenLinked (fun s => s.retrain))

/-- PEER_RETRAIN_DONE (R458). -/
def execPeerRetrainDone (rate width : Nat) (s : State) : Host.Outcome State Fault Refusal :=
  .next (s.whenLinked (fun s => (s.retrainDone rate width).relocked 3))

/-- PEER_FLIT_CRC_FAIL (R457). -/
def execPeerFlitCrcFail (s : State) : Host.Outcome State Fault Refusal :=
  .next (s.whenLinked (fun s => s.flitCrcFail))

end Sys2Proof.Machine
end

