-- ==== Sys2Proof/Machine/PoolRows.lean ====
section
/-! DEFINITION. The command rows of chapters 02, 05, 08 and 09: pools, the protected window, the journal and checkpoints, recovery,
scarfs, and labels. -/

namespace Sys2Proof.Machine

open Sys2Proof

/-- A checkpoint completes on the sill bands (R155), and whatever it was written for goes on. -/
def State.checkpointWritten (s : State) (p : Nat) : State :=
  match (s.pool? p).bind (·.ckpt) with
  | some c =>
    let s := s.ckptDone p c
    if c.reason = ckCreate then s.createDone p
    else if c.reason = ckRecover then s.recovered p
    else if c.reason = ckScarf then s.scarfBegun p
    else if c.reason = ckCommit then s.commitPoint p
    else if c.reason = ckAbort then s.abortPoint p
    else s
  | none => s

/-- A sill member reports a record on stable media: the journal block it was to write (R181), or a protection record (R507). -/
def State.sillWritten (s : State) (p n : Nat) : State :=
  let s := s.driveGood n
  match s.pool? p with
  | some x =>
    if !x.jBlock.isEmpty && (s.readableJournal p).contains n && !x.jWritten.contains n then s.blockWritten p n
    else s.protWritten p n
  | none => s

/-! ### Pools -/

/-- POOL_CREATE (R83). -/
def execPoolCreate (c : HostCmd) (s : State) : Host.Outcome State Fault Refusal :=
  .next (s.hostRow 0x20 c (fun s id => s.runPoolCreate id c))

/-- POOL_GROW (R86). -/
def execPoolGrow (c : HostCmd) (s : State) : Host.Outcome State Fault Refusal :=
  .next (s.hostRow 0x21 c (fun s id => s.runPoolGrow id c))

/-- POOL_SET (R373). -/
def execPoolSet (c : HostCmd) (s : State) : Host.Outcome State Fault Refusal :=
  .next (s.hostRow 0x22 c (fun s id => s.runPoolSet id c))

/-- POOL_DELETE (R91). -/
def execPoolDelete (c : HostCmd) (s : State) : Host.Outcome State Fault Refusal :=
  .next (s.hostRow 0x23 c (fun s id => s.runPoolDelete id c))

/-- POOL_RECOVER (R375). -/
def execPoolRecover (c : HostCmd) (s : State) : Host.Outcome State Fault Refusal :=
  .next (s.hostRow 0x24 c (fun s id => s.runPoolRecover id c))

/-- LOSS_CLEAR (R376). -/
def execLossClear (c : HostCmd) (s : State) : Host.Outcome State Fault Refusal :=
  .next (s.hostRow 0x25 c (fun s id => s.runLossClear id c))

/-- POOL_GIVE (R469). -/
def execPoolGive (c : HostCmd) (s : State) : Host.Outcome State Fault Refusal :=
  .next (s.hostRow 0x26 c (fun s id => s.runPoolGive id c))

/-- DRIVE_SET (R377). -/
def execDriveSet (c : HostCmd) (s : State) : Host.Outcome State Fault Refusal :=
  .next (s.hostRow 0x30 c (fun s id => s.runDriveSet id c))

/-- RETIRE_COPY_COMPLETE (R89). -/
def execRetireCopyComplete (slot band : Nat) (s : State) : Host.Outcome State Fault Refusal :=
  .next (s.whenUp (fun s => s.retireCopied slot band))

/-- LABEL_WRITE_DONE (R280). -/
def execLabelWriteDone (slot : Nat) (ok : Bool) (s : State) : Host.Outcome State Fault Refusal :=
  .next (s.whenUp (fun s =>
    let wanted : Bool := match s.drive? slot with
      | some d => d.labelWant.isSome
      | none => false
    let t := (if ok then s.driveGood slot else s).labelDone slot ok
    if wanted && !ok then t.scarfLabelFailed slot else t))

/-! ### Journal and checkpoints -/

/-- RECLAIM_ACTION_DONE (R660). -/
def execReclaimActionDone (slot band : Nat) (ok : Bool) (s : State) : Host.Outcome State Fault Refusal :=
  .next (s.whenUp (fun s => s.reclaimDone slot band ok))

/-- RECLAIM_RETRY (R660). -/
def execReclaimRetry (slot band : Nat) (s : State) : Host.Outcome State Fault Refusal :=
  .next (s.whenUp (fun s => s.reclaimRetry slot band))

/-- CHECKPOINT_COMPLETE (R155). -/
def execCheckpointComplete (pool : Nat) (s : State) : Host.Outcome State Fault Refusal :=
  .next (s.whenUp (fun s => s.checkpointWritten pool))

/-- CHECKPOINT_TIMER (R155): the period of a pool the device owns is over and a checkpoint starts. -/
def execCheckpointTimer (pool : Nat) (s : State) : Host.Outcome State Fault Refusal :=
  .next (s.whenUp (fun s => if s.poolUp pool then s.startCkpt pool ckPlain else s))

/-- JOURNAL_GATHER_EXPIRY (R182): after 1 ms of gathering, a block is written to the journal members. -/
def execJournalGatherExpiry (pool : Nat) (s : State) : Host.Outcome State Fault Refusal :=
  .next (s.whenUp (fun s => s.sendBlock pool))

/-- JOURNAL_FILL_TIMER (R180). -/
def execJournalFillTimer (set : Nat) (s : State) : Host.Outcome State Fault Refusal :=
  .next (s.whenUp (fun s => s.fillTimer set))

/-- SILL_RECORD_WRITTEN (R181, R507). -/
def execSillRecordWritten (pool slot : Nat) (s : State) : Host.Outcome State Fault Refusal :=
  .next (s.whenUp (fun s => s.sillWritten pool slot))

/-! ### The protected window -/

/-- WINDOW_RECOMPUTE (R161). -/
def execWindowRecompute (s : State) : Host.Outcome State Fault Refusal := .next (s.whenUp (fun s => s.winRecompute))

/-- WINDOW_STEP_UP (R161). -/
def execWindowStepUp (s : State) : Host.Outcome State Fault Refusal := .next (s.whenUp (fun s => s.winStep))

/-- ADMIT_CREDIT_TICK (R162). -/
def execAdmitCreditTick (s : State) : Host.Outcome State Fault Refusal := .next (s.whenUp (fun s => s.creditTick))

/-- EB_RATE_MEASURED (R662). -/
def execEbRateMeasured (rateMBs : Nat) (s : State) : Host.Outcome State Fault Refusal :=
  .next (s.whenUp (fun s => s.ebMeasured rateMBs))

/-- SLOT_ERASE_DONE (R176). -/
def execSlotEraseDone (slot : Nat) (ok : Bool) (s : State) : Host.Outcome State Fault Refusal :=
  .next (s.whenUp (fun s => if slot < 2 then s.ebErased slot ok else s))

/-! ### Recovery -/

/-- POOL_RECOVERY (R185): a pool that is ASSEMBLING. -/
def execPoolRecovery (pool : Nat) (r : RecoveryInfo) (s : State) : Host.Outcome State Fault Refusal :=
  .next (s.whenUp (fun s => s.recoverPool pool r))

/-- PARTNER_WAIT_EXPIRY (R186). -/
def execPartnerWaitExpiry (pool : Nat) (s : State) : Host.Outcome State Fault Refusal :=
  .next (s.whenUp (fun s => s.endWait pool))

/-! ### Scarfs -/

/-- SCARF_START (R253). -/
def execScarfStart (c : HostCmd) (s : State) : Host.Outcome State Fault Refusal :=
  .next (s.hostRow 0x28 c (fun s id => s.runScarfStart id c))

/-- SCARF_COPY_STRIPE (R258). -/
def execScarfCopyStripe (pool stripe : Nat) (lost : List Nat) (s : State) : Host.Outcome State Fault Refusal :=
  .next (s.whenUp (fun s => s.copyStripe pool stripe lost))

/-- SCARF_COMMIT (R268). -/
def execScarfCommit (c : HostCmd) (s : State) : Host.Outcome State Fault Refusal :=
  .next (s.hostRow 0x29 c (fun s id => s.runScarfCommit id c))

/-- SCARF_OLD_RECLAIM (R268). -/
def execScarfOldReclaim (pool : Nat) (s : State) : Host.Outcome State Fault Refusal :=
  .next (s.whenUp (fun s => s.oldReclaim pool))

/-- SCARF_ABORT (R271). -/
def execScarfAbort (c : HostCmd) (s : State) : Host.Outcome State Fault Refusal :=
  .next (s.hostRow 0x2A c (fun s id => s.runScarfAbort id c))

end Sys2Proof.Machine
end

