-- ==== Sys2Proof/Machine/PowerRows.lean ====
section
/-! DEFINITION. The command rows of chapters 06, 17 and 23: the ebb, resets and starts, HARBOUR, UNIT resets, power domains, mode epochs, clocks and temperatures. -/

namespace Sys2Proof.Machine

open Sys2Proof

/-- An event of power or reset: it acts in every power state, and what waits is looked at when the device runs after it. -/
def State.anyTime (s : State) (act : State → State) : State :=
  let t := act s
  if t.up then t.finish else t

/-! ### The ebb -/

/-- EBB_ENTRY (R169). -/
def execEbbEntry (s : State) : Host.Outcome State Fault Refusal :=
  .next (s.anyTime (fun s => s.powerFail))

/-- EBB_LAST_UPDATE (R661): another millisecond of a running ebb. -/
def execEbbLastUpdate (s : State) : Host.Outcome State Fault Refusal :=
  .next (if s.eb.running.isSome then { s with eb := { s.eb with lastMs := min (s.eb.lastMs + 1) 0xFFFF } } else s)

/-- EBB_END (R170). -/
def execEbbEnd (headerRead : Bool) (s : State) : Host.Outcome State Fault Refusal :=
  .next (s.anyTime (fun s => s.endEbb headerRead))

/-- EBB_RESTART (R170). -/
def execEbbRestart (b : BootInfo) (s : State) : Host.Outcome State Fault Refusal :=
  .next (s.anyTime (fun s => s.powerBack b))

/-! ### Resets and starts -/

/-- COLD_RESET (R522). -/
def execColdReset (b : BootInfo) (s : State) : Host.Outcome State Fault Refusal :=
  .next (s.anyTime (fun s => s.powerGood b))

/-- WARM_RESET (R523). -/
def execWarmReset (b : BootInfo) (s : State) : Host.Outcome State Fault Refusal :=
  .next (s.anyTime (fun s => s.warmRequest b))

/-- WARM_PREP_TIMEOUT (R524). -/
def execWarmPrepTimeout (b : BootInfo) (s : State) : Host.Outcome State Fault Refusal :=
  .next (s.anyTime (fun s => s.prepTimeout b))

/-- RESET_N_RISE (R523). -/
def execResetNRise (s : State) : Host.Outcome State Fault Refusal :=
  .next (s.anyTime (fun s => s.resetRise))

/-- RETENTION_CHECK_DONE (R527). -/
def execRetentionCheckDone (srHeld eccOk recordOk : Bool) (s : State) : Host.Outcome State Fault Refusal :=
  .next (s.anyTime (fun s => s.retentionDone srHeld eccOk recordOk))

/-- PWRGD_FALL (R641). -/
def execPwrgdFall (s : State) : Host.Outcome State Fault Refusal :=
  .next (s.anyTime (fun s => s.powerLost))

/-- SUPPLIES_REMOVED (R640). -/
def execSuppliesRemoved (vaon : Bool) (s : State) : Host.Outcome State Fault Refusal :=
  .next (s.anyTime (fun s => s.suppliesGone vaon))

/-! ### HARBOUR -/

/-- HARBOUR_PHY_DOWN (R532). -/
def execHarbourPhyDown (s : State) : Host.Outcome State Fault Refusal :=
  .next (s.anyTime (fun s => s.harbourDown))

/-- HARBOUR_EXIT (R533). -/
def execHarbourExit (byPerst : Bool) (s : State) : Host.Outcome State Fault Refusal :=
  .next (s.anyTime (fun s => s.harbourExit byPerst))

/-- HARBOUR_TIMER (R533). -/
def execHarbourTimer (s : State) : Host.Outcome State Fault Refusal :=
  .next (s.anyTime (fun s => s.harbourTimer))

/-! ### UNIT resets: a write of the unit's bit of PW_UNIT_RESET (R530) -/

/-- UNIT_RESET_EV (R617). -/
def execUnitResetEv (s : State) : Host.Outcome State Fault Refusal :=
  .next (s.whenUp (fun s => s.unitReset 0))

/-- UNIT_RESET_CE (R113). -/
def execUnitResetCe (s : State) : Host.Outcome State Fault Refusal :=
  .next (s.whenUp (fun s => s.unitReset 1))

/-- UNIT_RESET_HE (R530). -/
def execUnitResetHe (s : State) : Host.Outcome State Fault Refusal :=
  .next (s.whenUp (fun s => s.unitReset 2))

/-- UNIT_RESET_MDC (R586). -/
def execUnitResetMdc (s : State) : Host.Outcome State Fault Refusal :=
  .next (s.whenUp (fun s => s.unitReset 3))

/-- UNIT_RESET_XM (R602). -/
def execUnitResetXm (s : State) : Host.Outcome State Fault Refusal :=
  .next (s.whenUp (fun s => s.unitReset 4))

/-- UNIT_RESET_CL (R449). -/
def execUnitResetCl (s : State) : Host.Outcome State Fault Refusal :=
  .next (s.whenUp (fun s => s.unitReset 5))

/-- UNIT_RESET_EB (R530). -/
def execUnitResetEb (s : State) : Host.Outcome State Fault Refusal :=
  .next (s.whenUp (fun s => s.unitReset 6))

/-- UNIT_RESET_PL (R530). -/
def execUnitResetPl (s : State) : Host.Outcome State Fault Refusal :=
  .next (s.whenUp (fun s => s.unitReset 7))

/-- UNIT_RESET_DL (R530). -/
def execUnitResetDl (die : Nat) (s : State) : Host.Outcome State Fault Refusal :=
  .next (s.whenUp (fun s => if die < 4 then s.unitReset (8 + die) else s))

/-- UNIT_RESET_COMPLETE (R530). -/
def execUnitResetComplete (unit : Nat) (s : State) : Host.Outcome State Fault Refusal :=
  .next (s.whenUp (fun s => s.unitResetDone unit))

/-! ### Power domains -/

/-- SLACK_IDLE_GATE (R531). -/
def execSlackIdleGate (dom : Nat) (s : State) : Host.Outcome State Fault Refusal :=
  .next (s.whenUp (fun s => s.idleGate dom))

/-- DOMAIN_UNGATE_DONE (R531). -/
def execDomainUngateDone (dom : Nat) (s : State) : Host.Outcome State Fault Refusal :=
  .next (s.whenUp (fun s => s.ungated dom))

/-- DOMAIN_DRAIN_EXPIRY (R537). -/
def execDomainDrainExpiry (dom : Nat) (s : State) : Host.Outcome State Fault Refusal :=
  .next (s.whenUp (fun s => s.drained dom))

/-- DRAIN_COMPLETE (R537). -/
def execDrainComplete (dom : Nat) (s : State) : Host.Outcome State Fault Refusal :=
  .next (s.whenUp (fun s => s.drained dom))

/-! ### Mode epochs -/

/-- MODE_EPOCH_ACK (R544). -/
def execModeEpochAck (unit : Nat) (s : State) : Host.Outcome State Fault Refusal :=
  .next (s.whenUp (fun s => s.epochAck unit))

/-- MODE_ROLLBACK (R546). -/
def execModeRollback (unit : Nat) (s : State) : Host.Outcome State Fault Refusal :=
  .next (s.whenUp (fun s => s.epochRefused unit))

/-- MODE_EPOCH_TIMEOUT (R546). -/
def execModeEpochTimeout (s : State) : Host.Outcome State Fault Refusal :=
  .next (s.whenUp (fun s => s.epochTimeout))

/-- MODE_SWITCH_DONE (R544). -/
def execModeSwitchDone (unit : Nat) (s : State) : Host.Outcome State Fault Refusal :=
  .next (s.whenUp (fun s => s.epochSwitched unit))

/-- A unit did not switch: an event, and a WARM reset without preparation (R545). -/
def State.epochStuck (s : State) (b : BootInfo) : State :=
  match s.pw.epoch with
  | some k =>
    if k.committed then
      let s := s.raise 0x202 6 noInst (leBytes 8 k.e)
      State.warmNow { s with pw := { s.pw with epoch := none } } b
    else s
  | none => s

/-- MODE_STUCK (R545). -/
def execModeStuck (b : BootInfo) (s : State) : Host.Outcome State Fault Refusal :=
  .next (s.anyTime (fun s => if s.up then s.epochStuck b else s))

/-! ### Clocks and temperatures -/

/-- AON_FALLBACK (R543). -/
def execAonFallback (s : State) : Host.Outcome State Fault Refusal :=
  .next (s.whenPlant (fun s => s.aonLost))

/-- PLL_LOCK_LOSS (R543). -/
def execPllLockLoss (clock : Nat) (b : BootInfo) (s : State) : Host.Outcome State Fault Refusal :=
  .next (s.anyTime (fun s => if s.up then s.lockLost clock b else s))

/-- DIE_TEMP_READ (R654). -/
def execDieTempRead (temps : List (Option Int)) (s : State) : Host.Outcome State Fault Refusal :=
  .next (s.anyTime (fun s => if s.plantUp then s.dieTemps temps else s))

end Sys2Proof.Machine
end

