-- ==== Sys2Proof/Machine/RegisterCommands.lean ====
section
/-! DEFINITION. Register writes and reads through BAR0 and the queue capability (R19 to R25, R313), and their command rows. -/

namespace Sys2Proof.Machine

open Sys2Proof

/-! ### 64-bit pairs (R22) -/

/-- A write of the low half of a pair is held until the high half is written. -/
def State.stageLow (s : State) (lo : Nat) (v : Word) : State := { s with staged := Tab.set s.staged lo v }

/-- A write of the high half sets both halves; without a held low half the low register keeps its value. -/
def State.writePair (s : State) (lo hi : Nat) (v : Word) : State :=
  let s := match Tab.get? s.staged lo with
    | some w => s.writeByType lo w
    | none => s
  let s := s.writeByType hi v
  { s with staged := Tab.erase s.staged lo }

/-! ### Registers with an effect of their own -/

/-- A write of QC_N_SQ_ARB (R335): WEIGHT and BURST, clamped. -/
def qcArbSet (q : Nat) (v : Word) (s : State) : State :=
  s.modSq q (fun a => { a with weight := max 1 (QC_SQ_ARB_WEIGHT.get v), burst := clampTo 1 64 (QC_SQ_ARB_BURST.get v) })

/-- A write of QC_N_CQ_COAL: COAL_COUNT, where 0 sets 1, and COAL_US. -/
def qcCoalSet (q : Nat) (v : Word) (s : State) : State :=
  s.modCq q (fun c => { c with coalCount := max 1 (QC_CQ_COAL_COUNT.get v), coalUs := QC_CQ_COAL_US.get v })

/-- A write of PW_UNIT_RESET (R530). -/
def unitResetWrite (v : Word) (s : State) : State :=
  let w := PW_UNIT_RESET_RESET.get v
  s.each ((List.range 12).filter (fun u => bit w u)) (fun u s => s.unitReset u)

/-- A write of XM_CH_n_PC, in effect while the channel neither runs, waits nor is paused. -/
def xmPcWrite (n : Nat) (hi : Bool) (v : Word) (s : State) : State :=
  let st := s.xmState n
  if st = xmRun ∨ st = xmWaiting ∨ st = xmPaused then s
  else if hi then s.writePair (XM_CH_PC_LO.at n) (XM_CH_PC_HI.at n) v
  else s.stageLow (XM_CH_PC_LO.at n) v

/-- What a permitted write of the register of table `r`, instance `i`, at `a` does. -/
def State.regEffect (s : State) (r : Reg) (i a : Nat) (v : Word) : State :=
  if r = CE_CTL then ceCtlWrite v s
  else if r = CE_CLUSTER_EN then ceEnWrite v s
  else if r = QC_SQ_ARB then qcArbSet i v s
  else if r = QC_CQ_COAL then qcCoalSet i v s
  else if r = DL_SLOT_CTL then (if DL_SLOT_CTL_LANE_RESET.get v = 1 then s.laneReset i else s)
  else if r = PW_UNIT_RESET then unitResetWrite v s
  else if r = PW_SLACK_CTL then slackWrite v s
  else if r = PW_PD_REQ then pdRequestWrite v s
  else if r = MC_FREQ then mcFreqWrite v s
  else if r = MC_RETRAIN then mcRetrainWrite v s
  else if r = MC_ACT_PARAM then
    (s.writeByType a v).setFld MC_ACT_PARAM 0 MC_ACT_PARAM_ROW_LIMIT (clampTo 256 16384 (MC_ACT_PARAM_ROW_LIMIT.get v))
  else if r = MC_PORT_TARGET then
    (if i = 0 then s else s.setFld MC_PORT_TARGET i MC_PORT_TARGET_TARGET_NS (max 100 (MC_PORT_TARGET_TARGET_NS.get v)))
  else if r = MC_CH_DIAG_CTL then mcDiagWrite i v s
  else if r = MDC_CTL then mdcCtlWrite v s
  else if r = MDC_WAY_DIS ∨ r = MDC_WAY_OFF then mdcWayWrite a v s
  else if r = MDC_MAINT_CTL then mdcMaintWrite v s
  else if r = MDC_MAINT_BASE_LO then s.stageLow a v
  else if r = MDC_MAINT_BASE_HI then s.writePair (MDC_MAINT_BASE_LO.at 0) a v
  else if r = XM_EVENT_SET then xmEventSetWrite v s
  else if r = XM_CH_CTL then xmCtlWrite i v s
  else if r = XM_CH_CFG then xmCfgWrite i v s
  else if r = XM_CH_PC_LO then xmPcWrite i false v s
  else if r = XM_CH_PC_HI then xmPcWrite i true v s
  else s.writeByType a v

/-- A host's 32-bit write at a BAR0 offset (R5, R19, R20, R33, R36, R496). -/
def State.barWrite (s : State) (port a : Nat) (v : Word) : State :=
  if a % 4 ≠ 0 then s.regAccessEvent a true
  else
    match regLookup a with
    | none => if s.absentAt a then s else if s.gatedAt a then s.gatedEvent a true else s.regAccessEvent a true
    | some (r, i, _) =>
      if r = SEC_ENROLL_CTL then s.enrollCtlWrite port v
      else if r = SEC_ENROLL_KEY then s.enrollKeyWrite port a v
      else s.hostWrite port a (fun s => s.regEffect r i a v)

/-- A host's 32-bit write in the queue capability of a function (R313): KQ_CTLQ and the base registers, which take effect with
their high halves. While KQ_CTLQ.EN is 1, only a write of EN = 0 does anything. -/
def State.capWrite (s : State) (x off : Nat) (v : Word) : State :=
  let f := s.fn x
  let on := f.ctlq.toNat % 2 = 1
  if off = 0x10 then
    if v.toNat % 2 = 1 then s.enableCtlq x v
    else
      let s := s.disableCtlq x
      if on then s else s.setFn x { s.fn x with ctlq := v &&& 0xFFFF1F00#32 }
  else if on then s
  else if off = 0x14 then s.setFn x { f with sqBaseLow := v &&& 0xFFFFF000#32 }
  else if off = 0x18 then s.setFn x { f with sqBase := f.sqBaseLow.toNat + 2 ^ 32 * v.toNat }
  else if off = 0x1C then s.setFn x { f with cqBaseLow := v &&& 0xFFFFF000#32 }
  else if off = 0x20 then s.setFn x { f with cqBase := f.cqBaseLow.toNat + 2 ^ 32 * v.toNat }
  else s

/-- A host's read of a BAR0 register: what it returns goes out, and a read of QM_FN_x_ERR arms the event of R41 again. -/
def State.hostRead (s : State) (a : Nat) : State :=
  let r := s.readReg a
  let s := r.2.emit (.regRead a r.1)
  match regLookup a with
  | some (t, x, _) =>
    if t = QM_FN_ERR ∧ !s.absentAt a ∧ !s.gatedAt a then s.setFn x { s.fn x with strayArmed := true } else s
  | none => s

/-- REGISTER_WRITE (R19, R22, R24 to R26). -/
def execRegisterWrite (t : RegTarget) (v : Word) (s : State) : Host.Outcome State Fault Refusal :=
  .next (s.whenUp (fun s => match t with
    | .bar0 port off => s.barWrite port off v
    | .cap x off => s.capWrite x off v))

/-- REG_ACCESS (R20): an access that is not an aligned 32-bit one, or hits no register, has no effect, reads 0 and is an event.
Of a proper access the row tells no written value, so only a read acts. -/
def execRegAccess (_port off size : Nat) (isWrite : Bool) (s : State) : Host.Outcome State Fault Refusal :=
  .next (s.whenUp (fun s =>
    if off % 4 ≠ 0 ∨ size ≠ 4 then
      let s := s.regAccessEvent off isWrite
      if isWrite then s else s.emit (.regRead off 0)
    else if isWrite then
      match regLookup off with
      | some _ => s
      | none => if s.absentAt off then s else if s.gatedAt off then s.gatedEvent off true else s.regAccessEvent off true
    else s.hostRead off))

/-- LATCHED_LOW_HALF_READ (R23). -/
def execLatchedLowHalfRead (off : Nat) (s : State) : Host.Outcome State Fault Refusal :=
  .next (s.whenUp (fun s => if off % 4 = 0 then s.hostRead off else s.regAccessEvent off false))

/-- ERROR_COUNTER_READ (R41). -/
def execErrorCounterRead (x : Nat) (s : State) : Host.Outcome State Fault Refusal :=
  .next (s.whenUp (fun s => if x < 130 then s.hostRead (QM_FN_ERR.at x) else s))

/-! ### Rows of registers with an effect of their own -/

/-- QC_ARB_WRITE (R335). -/
def execQcArbWrite (port q : Nat) (v : Word) (s : State) : Host.Outcome State Fault Refusal :=
  .next (s.whenUp (fun s => if q < 65536 then s.hostWrite port (QC_SQ_ARB.at q) (qcArbSet q v) else s))

/-- CTLQ_ENABLE (R313): a write of KQ_CTLQ with EN = 1. -/
def execCtlqEnable (x : Nat) (v : Word) (s : State) : Host.Outcome State Fault Refusal :=
  .next (s.whenUp (fun s => s.enableCtlq x v))

/-- CTLQ_DISABLE (R321): a write of KQ_CTLQ with EN = 0. -/
def execCtlqDisable (x : Nat) (s : State) : Host.Outcome State Fault Refusal :=
  .next (s.whenUp (fun s => s.disableCtlq x))

/-- PW_SLACK_CTL_WRITE (R531). -/
def execPwSlackCtlWrite (port : Nat) (v : Word) (s : State) : Host.Outcome State Fault Refusal :=
  .next (s.whenUp (fun s => s.hostWrite port (PW_SLACK_CTL.at 0) (slackWrite v)))

/-- PD_REQUEST (R539). -/
def execPdRequest (port : Nat) (v : Word) (s : State) : Host.Outcome State Fault Refusal :=
  .next (s.whenUp (fun s => s.hostWrite port (PW_PD_REQ.at 0) (pdRequestWrite v)))

/-- MC_FREQ_TARGET_WRITE (R566). -/
def execMcFreqTargetWrite (port : Nat) (v : Word) (s : State) : Host.Outcome State Fault Refusal :=
  .next (s.whenUp (fun s => s.hostWrite port (MC_FREQ.at 0) (mcFreqWrite v)))

/-- LANE_RESET (R393): a write of 1 to DL_SLOT_n_CTL.LANE_RESET. -/
def execLaneReset (port slot : Nat) (s : State) : Host.Outcome State Fault Refusal :=
  .next (s.whenUp (fun s => if slot < 1024 then s.hostWrite port (DL_SLOT_CTL.at slot) (fun s => s.laneReset slot) else s))

end Sys2Proof.Machine
end

