-- ==== Sys2Proof/Machine/QueueRows.lean ====
section
/-! DEFINITION. The command rows of chapter 10: doorbells, the fetch of submission entries and its arbitration (R324 to R335, R658),
interrupts, queue and orphan commands, function and port resets. -/

namespace Sys2Proof.Machine

open Sys2Proof

/-! ### Slots of a submission ring -/

/-- Whether the slot at an index has been read with a valid lap mark (R325). -/
def Sq.slotValid (a : Sq) (i : Word) : Bool :=
  match Tab.get? a.slots i.toNat with
  | some bs => decide (leAt bs 63 1 % 2 = (i.toNat / a.size + 1) % 2)
  | none => false

/-- The contents read at the `n`-th index from C. -/
def Sq.slotAt (a : Sq) (n : Nat) : List Byte := (Tab.get? a.slots (a.c + BitVec.ofNat 32 n).toNat).getD []

/-- The indices announced and not consumed. -/
def Sq.announced (a : Sq) : Nat := idxSub a.a a.c

/-- SLOTS of the entry at C, when its first slot is valid. -/
def Sq.entrySlots (a : Sq) : Option Nat := if a.slotValid a.c then some (leAt (a.slotAt 0) 1 1) else none

/-- Offsets from C whose slots are not valid yet, among `n`. -/
def Sq.missing (a : Sq) (n : Nat) : List Nat := (List.range n).filter (fun i => !a.slotValid (a.c + BitVec.ofNat 32 i))

/-- How many slots the ready entry at C consumes (R327, R329, R330): its SLOTS when all are valid, or one when an announced SLOTS is
0 or above 16; none when no entry is ready. -/
def Sq.ready (a : Sq) : Option Nat :=
  match a.entrySlots with
  | none => none
  | some n =>
    if n = 0 ∨ n > 16 then (if a.announced > 0 then some 1 else none)
    else if n ≤ a.size && (a.missing n).isEmpty then some n else none

/-- Read the slots at offsets from C of a submission ring. -/
def State.readSlots (s : State) (q : Nat) (offsets : List Nat) : State :=
  match s.dq q, s.sq? q with
  | some d, some a =>
    s.each offsets (fun i s => s.emit (.hostRead d.x (a.base + 64 * ((a.c.toNat + i) % a.size)) 64))
  | _, _ => s

/-- The reads of slots that became announced. -/
def State.readAnnounced (old s : State) (x n : Nat) : State :=
  match s.dqNum x n with
  | some q =>
    match s.sq? q, old.sq? q with
    | some a, some b =>
      s.readSlots q ((List.range a.announced).filter (fun i =>
        i ≥ b.announced && (Tab.get? a.slots (a.c + BitVec.ofNat 32 i).toNat).isNone))
    | _, _ => s
  | none => s

/-! ### Arbitration (R333 to R335) -/

/-- Consume and execute the entry at C of a queue that may be consumed. -/
def State.consumeNext (s : State) (q : Nat) (read : HostRead) : State :=
  match s.dq q, s.sq? q with
  | some d, some a =>
    match a.ready with
    | some n =>
      let c : HostCmd := { x := d.x, sq := d.loc, slots := (List.range n).map a.slotAt, read := read }
      let r := s.consume q n (entryCid c) (entryOpcode c)
      if entrySlots c = 0 ∨ entrySlots c > 16 then r.2.complete r.1 stMalformedLength else r.2.runCommand r.1 c
    | none => s
  | _, _ => s

/-- Whether a queue has an entry the device may consume now (R334, R342). -/
def State.eligible (s : State) (q : Nat) : Bool :=
  s.canConsume q && (match s.sq? q with
    | some a => a.ready.isSome
    | none => false)

/-- The tier of a submission queue: 0 for entry 0 and local queue 0, else 1 (R333). -/
def State.tierOf (s : State) (q : Nat) : Nat :=
  match s.dq q with
  | some d => if fnEntry d.x = 0 ∨ d.loc = 0 then 0 else 1
  | none => 1

/-- The port of a submission queue. -/
def State.portOf (s : State) (q : Nat) : Nat :=
  match s.dq q with
  | some d => fnPort d.x
  | none => 2

/-- The eligible submission queues of a tier of a port, in rising device queue number. -/
def State.eligibleIn (s : State) (port tier : Nat) : List Nat :=
  (Tab.keys s.qm.queues).filter (fun q => s.portOf q = port && s.tierOf q = tier && s.eligible q)

/-- Consume up to `n` ready entries of the visited queue, each with what its host memory reads return. -/
def State.visitGo : Nat → State → Nat → Nat → List HostRead → State
  | 0, s, _, _, _ => s
  | n + 1, s, key, q, reads =>
    if s.eligible q then
      let s := s.consumeNext q (reads.headD {})
      let s := s.modSq q (fun a => { a with credits := a.credits - 1 })
      let s := { s with qm := { s.qm with visit := Tab.set s.qm.visit key (q, n) } }
      State.visitGo n s key q (reads.drop 1)
    else s

/-- A visit of the arbiter of a port (R333): the first tier with an eligible queue, the next such queue with credit after the last
one visited; when none has credit a new round gives each its WEIGHT. -/
def State.arbVisit (s : State) (port : Nat) (reads : List HostRead) : State :=
  let tier := if (s.eligibleIn port 0).isEmpty then 1 else 0
  let qs := s.eligibleIn port tier
  let key := 2 * port + tier
  let hasCredit := fun (s : State) (q : Nat) => match s.sq? q with
    | some a => decide (a.credits > 0)
    | none => false
  let s := if qs.any (hasCredit s) then s
    else s.each qs (fun q s => s.modSq q (fun a => { a with credits := a.weight }))
  let open_ := qs.filter (hasCredit s)
  let last := (Tab.getD s.qm.visit key (0, 0)).1
  match ((open_.filter (fun q => q > last)) ++ open_).head? with
  | some q =>
    match s.sq? q with
    | some a =>
      let n := min a.burst a.credits
      let s := { s with qm := { s.qm with visit := Tab.set s.qm.visit key (q, n) } }
      State.visitGo n s key q reads
    | none => s
  | none => s

/-- Go on with the visit that is open on a queue. -/
def State.visitOn (s : State) (q : Nat) (reads : List HostRead) : State :=
  let key := 2 * s.portOf q + s.tierOf q
  match Tab.get? s.qm.visit key with
  | some (v, n) => if v = q then State.visitGo n s key q reads else s
  | none => s

/-- A slot read returns (R327, R330, R658): an answer that is an error counts and finds no content; a slot beyond the announced
tail is kept only with a valid lap mark, and only where the device may have read it. -/
def State.slotBack (s : State) (q : Nat) (idx : Word) (slot : Option (List Byte)) : State :=
  match s.dq q, s.sq? q with
  | some d, some a =>
    match slot with
    | none => s.fnError d.x
    | some bs =>
      let off := idxSub idx a.c
      if off ≥ a.size then s
      else
        let b := { a with slots := Tab.set a.slots idx.toNat (padTo 64 bs) }
        if off < a.announced ∨ (b.slotValid idx ∧ (off < a.prefetch ∨ a.pollUs > 0)) then s.modSq q (fun _ => b) else s
  | _, _ => s

/-- The reads that complete the entry at C, when its first slot is valid. -/
def State.readEntry (s : State) (q : Nat) : State :=
  match s.sq? q with
  | some a =>
    match a.entrySlots with
    | some n => if 1 ≤ n ∧ n ≤ 16 then s.readSlots q (a.missing (min n a.size)) else s
    | none => s
  | none => s

/-- Offsets of announced slots that were read with an invalid lap mark or not at all. -/
def Sq.waiting (a : Sq) : List Nat := a.missing a.announced

/-! ### Rows -/

/-- DB_SQ_TAIL_WRITE (R323, R40): another size than 32 bits is discarded and counted. -/
def execDbSqTailWrite (x n size : Nat) (v : Word) (s : State) : Host.Outcome State Fault Refusal :=
  .next (s.whenUp (fun s => if size = 4 then State.readAnnounced s (s.sqTail x n v) x n else s.fnError x))

/-- DB_CQ_HEAD_WRITE (R338, R40). -/
def execDbCqHeadWrite (x n size : Nat) (v : Word) (s : State) : Host.Outcome State Fault Refusal :=
  .next (s.whenUp (fun s => if size = 4 then s.cqHead x n v else s.fnError x))

/-- DOORBELL_PAIR_WRITE (R39): the tail, then the head; one that is not aligned is discarded and counted (R40). -/
def execDoorbellPairWrite (x n : Nat) (aligned : Bool) (tail head : Word) (s : State) : Host.Outcome State Fault Refusal :=
  .next (s.whenUp (fun s =>
    if aligned then (State.readAnnounced s (s.sqTail x n tail) x n).cqHead x n head else s.fnError x))

/-- SQ_FETCH (R333). -/
def execSqFetch (port : Nat) (reads : List HostRead) (s : State) : Host.Outcome State Fault Refusal :=
  .next (s.whenUp (fun s => s.arbVisit port reads))

/-- SQ_SLOT_READ (R327): the slot is taken in, the rest of its entry is read, and a visit that is open on the queue goes on. -/
def execSqSlotRead (q : Nat) (idx : Word) (slot : Option (List Byte)) (reads : List HostRead) (s : State) :
    Host.Outcome State Fault Refusal :=
  .next (s.whenUp (fun s =>
    let t := s.slotBack q idx slot
    let t := match s.sq? q with
      | some a => if idx = a.c then t.readEntry q else t
      | none => t
    t.visitOn q reads))

/-- SLOT_RECHECK (R328): the first announced slot without a valid lap mark is read again. -/
def execSlotRecheck (q : Nat) (s : State) : Host.Outcome State Fault Refusal :=
  .next (s.whenUp (fun s => match s.sq? q with
    | some a => s.readSlots q (a.waiting.take 1)
    | none => s))

/-- SLOT_LAP_TIMEOUT (R328, R658): the first announced slot without a valid lap mark is one of the entry at C. -/
def execSlotLapTimeout (q : Nat) (s : State) : Host.Outcome State Fault Refusal :=
  .next (s.whenUp (fun s => match s.sq? q with
    | some a =>
      if !s.canConsume q then s
      else
        let cid := leAt (a.slotAt 0) 4 4
        let op := leAt (a.slotAt 0) 0 1
        match a.waiting.head? with
        | some 0 =>
          let r := s.consume q 1 cid op
          r.2.complete r.1 stMalformedLength
        | some i =>
          match a.entrySlots with
          | some n =>
            if i < n ∧ n ≤ 16 then
              let r := s.consume q n cid op
              r.2.complete r.1 stMalformed [] (64 * i + 63)
            else s
          | none => s
        | none => s
    | none => s))

/-- SQ_POLL (R330): max(PREFETCH, 1) slots from C are read, and the rest of an entry whose first slot is valid. -/
def execSqPoll (q : Nat) (s : State) : Host.Outcome State Fault Refusal :=
  .next (s.whenUp (fun s => match s.sq? q with
    | some a =>
      if a.pollUs = 0 then s
      else
        let n := min a.size (max a.prefetch 1)
        let k := match a.entrySlots with
          | some m => if m ≤ 16 then max n (min m a.size) else n
          | none => n
        s.readSlots q (a.missing k)
    | none => s))

/-- CQ_COAL_TIMER (R340). -/
def execCqCoalTimer (q : Nat) (s : State) : Host.Outcome State Fault Refusal :=
  .next (s.whenUp (fun s => match s.cq? q with
    | some c => if c.unsignalled > 0 then s.cqSignal q else s
    | none => s))

/-- MSIX_UNMASK (R341): the vector is unmasked, and a message held for it goes out. MSI-X counts as enabled from the first unmask. -/
def execMsixUnmask (x vector : Nat) (s : State) : Host.Outcome State Fault Refusal :=
  .next (s.whenUp (fun s =>
    let f := s.fn x
    if !f.present ∨ vector ≥ s.vectorsOf x then s
    else
      let held := f.pendingVec.contains vector
      let s := s.setFn x { f with
        msixOn := true
        unmasked := if f.unmasked.contains vector then f.unmasked else f.unmasked ++ [vector]
        pendingVec := f.pendingVec.filter (· ≠ vector) }
      if held then s.emit (.msix x vector) else s))

/-- BUS_MASTER_ENABLE_CHANGE (R334). -/
def execBusMasterEnableChange (x : Nat) (on : Bool) (s : State) : Host.Outcome State Fault Refusal :=
  .next (s.whenUp (fun s => if (s.fn x).present then s.setFn x { s.fn x with bme := on } else s))

/-- FUNCTION_RESET (R345). -/
def execFunctionReset (x : Nat) (cause : FnResetCause) (s : State) : Host.Outcome State Fault Refusal :=
  .next (s.whenUp (fun s => if x < 130 then s.resetFunction x cause else s))

/-- PORT_RESET (R346). -/
def execPortReset (port link : Nat) (s : State) : Host.Outcome State Fault Refusal :=
  .next (s.whenUp (fun s => if port < 2 then s.resetPort port link else s))

/-- HOST_LINK_UP (R310). -/
def execHostLinkUp (port link rate width : Nat) (flit : Bool) (s : State) : Host.Outcome State Fault Refusal :=
  .next (s.whenUp (fun s => if port < 2 then (s.linkTrained port link rate width flit).relocked (1 + port) else s))

/-- QUEUE_CREATE (R319). -/
def execQueueCreate (c : HostCmd) (s : State) : Host.Outcome State Fault Refusal :=
  .next (s.hostRow 0x70 c (fun s id => s.runQueueCreate id c))

/-- QUEUE_DELETE (R320). -/
def execQueueDelete (c : HostCmd) (s : State) : Host.Outcome State Fault Refusal :=
  .next (s.hostRow 0x71 c (fun s id => s.runQueueDelete id c))

/-- ORPHAN_LIST (R378). -/
def execOrphanList (c : HostCmd) (s : State) : Host.Outcome State Fault Refusal :=
  .next (s.hostRow 0x72 c (fun s id => s.runOrphanList id c))

/-- ORPHAN_SETTLE (R348). -/
def execOrphanSettle (c : HostCmd) (s : State) : Host.Outcome State Fault Refusal :=
  .next (s.hostRow 0x73 c (fun s id => s.runOrphanSettle id c))

end Sys2Proof.Machine
end

