-- ==== Sys2Proof/Machine/ReadRows.lean ====
section
/-! DEFINITION. The command rows of chapters 03, 06 and 07: READ, chunk reads, wakes and limits, the loss of members, the coding
engine, rebuild and the tide. -/

namespace Sys2Proof.Machine

open Sys2Proof

/-- The first id of a rebuild pass's reads and coding jobs; ids below it are commands. -/
def passIds : Nat := 2 ^ 40

/-- The slot a chunk read was issued to: of a READ, or of a rebuild pass. -/
def State.readSlot (s : State) (id pos : Nat) : Option Nat :=
  if id ≥ passIds then (s.membersOf (id - passIds))[pos]?
  else (s.read? id).bind (fun r => (r.chunks.find? (fun c => c.pos = pos)).map (·.slot))

/-- A drive read completes (R199, R205, R222), with what its sense data says of the drive. -/
def State.readDone (s : State) (id pos : Nat) (r : ChunkOutcome) (sense : Option DriveSense) : State :=
  let slot := s.readSlot id pos
  let s := if id ≥ passIds then s.passRead (id - passIds) pos r else s.chunkReadDone id pos r
  match slot with
  | some n => s.driveSense n sense
  | none => s

/-! ### Reads -/

/-- READ (R193). -/
def execRead (c : HostCmd) (s : State) : Host.Outcome State Fault Refusal :=
  .next (s.hostRow 0x02 c (fun s id => s.runRead id c))

/-- CHUNK_READ_DONE (R199). -/
def execChunkReadDone (id pos : Nat) (r : ChunkOutcome) (sense : Option DriveSense) (s : State) : Host.Outcome State Fault Refusal :=
  .next (s.whenUp (fun s => s.readDone id pos r sense))

/-- WAKE_TIMEOUT (R204). -/
def execWakeTimeout (id : Nat) (s : State) : Host.Outcome State Fault Refusal := .next (s.whenUp (fun s => s.wakeTimeout id))

/-- DEFER_LIMIT_EXPIRY (R204). -/
def execDeferLimitExpiry (id : Nat) (s : State) : Host.Outcome State Fault Refusal := .next (s.whenUp (fun s => s.deferExpiry id))

/-! ### Members -/

/-- DRIVE_COMMAND_TIMEOUT (R205). -/
def execDriveCommandTimeout (slot : Nat) (s : State) : Host.Outcome State Fault Refusal :=
  .next (s.whenUp (fun s => s.commandTimeout slot))

/-- DRIVE_LINK_DOWN (R206). -/
def execDriveLinkDown (slot : Nat) (s : State) : Host.Outcome State Fault Refusal :=
  .next (s.whenUp (fun s => match s.slot? slot with
    | some x => if x.linkUp then s.linkLost slot else s
    | none => s))

/-- LINK_LOSS_GRACE_EXPIRY (R207). -/
def execLinkLossGraceExpiry (slot : Nat) (s : State) : Host.Outcome State Fault Refusal :=
  .next (s.whenUp (fun s => s.graceOver slot))

/-- ZONE_OFFLINE (R389). -/
def execZoneOffline (slot band : Nat) (readOnly : Bool) (s : State) : Host.Outcome State Fault Refusal :=
  .next (s.whenUp (fun s => if (s.memberPool slot).isSome then s.zoneGone slot band readOnly else s))

/-! ### Coding engine -/

/-- CE_JOB_DISPATCH (R103): no job starts while the engine is reset (R530). -/
def execCeJobDispatch (s : State) : Host.Outcome State Fault Refusal :=
  .next (s.whenUp (fun s => if s.pw.unitBusy.contains 1 then s else s.ceDispatch))

/-- CE_JOB_COMPLETE (R101, R109). -/
def execCeJobComplete (cluster : Nat) (mismatch : List (Nat × Nat)) (s : State) : Host.Outcome State Fault Refusal :=
  .next (s.whenUp (fun s => s.ceFinish cluster mismatch))

/-- CLUSTER_FAULT (R110, R111). -/
def execClusterFault (cluster : Nat) (s : State) : Host.Outcome State Fault Refusal := .next (s.whenUp (fun s => s.ceFault cluster))

/-- MATRIX_INVERSION_DONE (R106, R107). -/
def execMatrixInversionDone (s : State) : Host.Outcome State Fault Refusal := .next (s.whenUp (fun s => s.ceInverted))

/-- INVALIDATE (R108): a write of CE_CTL. -/
def execInvalidate (port : Nat) (v : Word) (s : State) : Host.Outcome State Fault Refusal :=
  .next (s.whenUp (fun s => s.hostWrite port (CE_CTL.at 0) (ceCtlWrite v)))

/-- CE_INVALIDATE_DONE (R108). -/
def execCeInvalidateDone (s : State) : Host.Outcome State Fault Refusal :=
  .next (s.whenUp (fun s => s.setFld CE_STATUS 0 CE_STATUS_INV_BUSY 0))

/-- CE_CLUSTER_EN_WRITE (R112). -/
def execCeClusterEnWrite (port : Nat) (v : Word) (s : State) : Host.Outcome State Fault Refusal :=
  .next (s.whenUp (fun s => s.hostWrite port (CE_CLUSTER_EN.at 0) (ceEnWrite v)))

/-! ### Rebuild and tide -/

/-- REBUILD_PASS_START (R214). -/
def execRebuildPassStart (s : State) : Host.Outcome State Fault Refusal := .next (s.whenUp (fun s => s.startPass))

/-- REBUILD_CHUNK_WRITTEN (R213, R214). -/
def execRebuildChunkWritten (set : Nat) (s : State) : Host.Outcome State Fault Refusal :=
  .next (s.whenUp (fun s => s.passWritten set))

/-- TIDE_ROUND_START (R229). -/
def execTideRoundStart (pool : Nat) (s : State) : Host.Outcome State Fault Refusal :=
  .next (s.whenUp (fun s => (s.tideStart pool).tideAsk pool))

/-- TIDE_MARK_TICK (R231, R240). -/
def execTideMarkTick (s : State) : Host.Outcome State Fault Refusal :=
  .next (s.whenUp (fun s => s.each (Tab.keys s.se.pools) (fun p s => s.tideMinute p)))

/-- TIDE_STRIPE_VERIFY (R233). -/
def execTideStripeVerify (pool stripe : Nat) (f : TideFinding) (s : State) : Host.Outcome State Fault Refusal :=
  .next (s.whenUp (fun s => s.tideVerify pool stripe f))

/-- TIDE_LATE (R241). -/
def execTideLate (pool : Nat) (s : State) : Host.Outcome State Fault Refusal := .next (s.whenUp (fun s => s.tideLateNow pool))

/-- TIDE_LATE_REMINDER (R241): the event again while LATE. -/
def execTideLateReminder (pool : Nat) (s : State) : Host.Outcome State Fault Refusal :=
  .next (s.whenUp (fun s => match s.pool? pool with
    | some x => if x.tideLate then s.raise 0x607 4 pool else s
    | none => s))

/-- TIDE_WAKE_EXPIRY (R241): after 4 h the held wake is released. -/
def execTideWakeExpiry (pool : Nat) (s : State) : Host.Outcome State Fault Refusal :=
  .next (s.whenUp (fun s => s.modPool pool (fun x => { x with tideWake := none })))

end Sys2Proof.Machine
end

