-- ==== Sys2Proof/Machine/Dispatch.lean ====
section
/-! DEFINITION. The meaning of every command: one direct call for each constructor of `Instr`. -/

namespace Sys2Proof.Machine

open Sys2Proof

/-- The effect of a command on everything but the queue. -/
def exec (i : Instr) (s : State) : Host.Outcome State Fault Refusal :=
  match i with
  | .registerWrite t v => Sys2Proof.Machine.execRegisterWrite t v s
  | .regAccess port off size isWrite => Sys2Proof.Machine.execRegAccess port off size isWrite s
  | .latchedLowHalfRead off => Sys2Proof.Machine.execLatchedLowHalfRead off s
  | .errorCounterRead x => Sys2Proof.Machine.execErrorCounterRead x s
  | .dbSqTailWrite x n size v => Sys2Proof.Machine.execDbSqTailWrite x n size v s
  | .dbCqHeadWrite x n size v => Sys2Proof.Machine.execDbCqHeadWrite x n size v s
  | .doorbellPairWrite x n aligned tail head => Sys2Proof.Machine.execDoorbellPairWrite x n aligned tail head s
  | .ctlqEnable x v => Sys2Proof.Machine.execCtlqEnable x v s
  | .ctlqDisable x => Sys2Proof.Machine.execCtlqDisable x s
  | .qcArbWrite port q v => Sys2Proof.Machine.execQcArbWrite port q v s
  | .sqFetch port reads => Sys2Proof.Machine.execSqFetch port reads s
  | .sqSlotRead q idx slot reads => Sys2Proof.Machine.execSqSlotRead q idx slot reads s
  | .slotRecheck q => Sys2Proof.Machine.execSlotRecheck q s
  | .slotLapTimeout q => Sys2Proof.Machine.execSlotLapTimeout q s
  | .sqPoll q => Sys2Proof.Machine.execSqPoll q s
  | .cqCoalTimer q => Sys2Proof.Machine.execCqCoalTimer q s
  | .msixUnmask x vector => Sys2Proof.Machine.execMsixUnmask x vector s
  | .queueCreate c => Sys2Proof.Machine.execQueueCreate c s
  | .queueDelete c => Sys2Proof.Machine.execQueueDelete c s
  | .functionReset x cause => Sys2Proof.Machine.execFunctionReset x cause s
  | .portReset port link => Sys2Proof.Machine.execPortReset port link s
  | .orphanList c => Sys2Proof.Machine.execOrphanList c s
  | .orphanSettle c => Sys2Proof.Machine.execOrphanSettle c s
  | .append c => Sys2Proof.Machine.execAppend c s
  | .appendAdmit => Sys2Proof.Machine.execAppendAdmit s
  | .payloadArrival id off bytes => Sys2Proof.Machine.execPayloadArrival id off bytes s
  | .hostAccessError id => Sys2Proof.Machine.execHostAccessError id s
  | .appendTransferDone id => Sys2Proof.Machine.execAppendTransferDone id s
  | .sealTimerExpiry pool stripe => Sys2Proof.Machine.execSealTimerExpiry pool stripe s
  | .stripeSeal pool stripe => Sys2Proof.Machine.execStripeSeal pool stripe s
  | .hashJobComplete job => Sys2Proof.Machine.execHashJobComplete job s
  | .chunkWriteAck pool stripe pos => Sys2Proof.Machine.execChunkWriteAck pool stripe pos s
  | .driveWriteFailed pool stripe pos conflict sense => Sys2Proof.Machine.execDriveWriteFailed pool stripe pos conflict sense s
  | .sealCommand c => Sys2Proof.Machine.execSealCommand c s
  | .flush c => Sys2Proof.Machine.execFlush c s
  | .release c => Sys2Proof.Machine.execRelease c s
  | .pendingReleaseResolve pool stripe => Sys2Proof.Machine.execPendingReleaseResolve pool stripe s
  | .copyForward c sources => Sys2Proof.Machine.execCopyForward c sources s
  | .queryLocator c => Sys2Proof.Machine.execQueryLocator c s
  | .read c => Sys2Proof.Machine.execRead c s
  | .chunkReadDone id pos r sense => Sys2Proof.Machine.execChunkReadDone id pos r sense s
  | .wakeTimeout id => Sys2Proof.Machine.execWakeTimeout id s
  | .deferLimitExpiry id => Sys2Proof.Machine.execDeferLimitExpiry id s
  | .driveCommandTimeout slot => Sys2Proof.Machine.execDriveCommandTimeout slot s
  | .driveLinkDown slot => Sys2Proof.Machine.execDriveLinkDown slot s
  | .linkLossGraceExpiry slot => Sys2Proof.Machine.execLinkLossGraceExpiry slot s
  | .rebuildPassStart => Sys2Proof.Machine.execRebuildPassStart s
  | .rebuildChunkWritten set => Sys2Proof.Machine.execRebuildChunkWritten set s
  | .lossClear c => Sys2Proof.Machine.execLossClear c s
  | .reclaimActionDone slot band ok => Sys2Proof.Machine.execReclaimActionDone slot band ok s
  | .reclaimRetry slot band => Sys2Proof.Machine.execReclaimRetry slot band s
  | .zoneOffline slot band readOnly => Sys2Proof.Machine.execZoneOffline slot band readOnly s
  | .checkpointTimer pool => Sys2Proof.Machine.execCheckpointTimer pool s
  | .checkpointComplete pool => Sys2Proof.Machine.execCheckpointComplete pool s
  | .journalGatherExpiry pool => Sys2Proof.Machine.execJournalGatherExpiry pool s
  | .journalFillTimer set => Sys2Proof.Machine.execJournalFillTimer set s
  | .windowRecompute => Sys2Proof.Machine.execWindowRecompute s
  | .windowStepUp => Sys2Proof.Machine.execWindowStepUp s
  | .admitCreditTick => Sys2Proof.Machine.execAdmitCreditTick s
  | .ebRateMeasured rateMBs => Sys2Proof.Machine.execEbRateMeasured rateMBs s
  | .ebbEntry => Sys2Proof.Machine.execEbbEntry s
  | .ebbLastUpdate => Sys2Proof.Machine.execEbbLastUpdate s
  | .ebbEnd headerRead => Sys2Proof.Machine.execEbbEnd headerRead s
  | .ebbRestart b => Sys2Proof.Machine.execEbbRestart b s
  | .slotEraseDone slot ok => Sys2Proof.Machine.execSlotEraseDone slot ok s
  | .poolRecovery pool r => Sys2Proof.Machine.execPoolRecovery pool r s
  | .partnerWaitExpiry pool => Sys2Proof.Machine.execPartnerWaitExpiry pool s
  | .poolRecover c => Sys2Proof.Machine.execPoolRecover c s
  | .tideRoundStart pool => Sys2Proof.Machine.execTideRoundStart pool s
  | .tideMarkTick => Sys2Proof.Machine.execTideMarkTick s
  | .tideStripeVerify pool stripe f => Sys2Proof.Machine.execTideStripeVerify pool stripe f s
  | .tideLate pool => Sys2Proof.Machine.execTideLate pool s
  | .tideLateReminder pool => Sys2Proof.Machine.execTideLateReminder pool s
  | .tideWakeExpiry pool => Sys2Proof.Machine.execTideWakeExpiry pool s
  | .poolCreate c => Sys2Proof.Machine.execPoolCreate c s
  | .poolGrow c => Sys2Proof.Machine.execPoolGrow c s
  | .poolSet c => Sys2Proof.Machine.execPoolSet c s
  | .poolDelete c => Sys2Proof.Machine.execPoolDelete c s
  | .poolGive c => Sys2Proof.Machine.execPoolGive c s
  | .scarfStart c => Sys2Proof.Machine.execScarfStart c s
  | .scarfCopyStripe pool stripe lost => Sys2Proof.Machine.execScarfCopyStripe pool stripe lost s
  | .scarfCommit c => Sys2Proof.Machine.execScarfCommit c s
  | .scarfOldReclaim pool => Sys2Proof.Machine.execScarfOldReclaim pool s
  | .scarfAbort c => Sys2Proof.Machine.execScarfAbort c s
  | .driveSet c => Sys2Proof.Machine.execDriveSet c s
  | .retireCopyComplete slot band => Sys2Proof.Machine.execRetireCopyComplete slot band s
  | .timeSet c => Sys2Proof.Machine.execTimeSet c s
  | .telemetryGet c => Sys2Proof.Machine.execTelemetryGet c s
  | .evRead c => Sys2Proof.Machine.execEvRead c s
  | .evClear c => Sys2Proof.Machine.execEvClear c s
  | .deviceMode c => Sys2Proof.Machine.execDeviceMode c s
  | .harbourPhyDown => Sys2Proof.Machine.execHarbourPhyDown s
  | .stageWrite c => Sys2Proof.Machine.execStageWrite c s
  | .stageCommit c verdict => Sys2Proof.Machine.execStageCommit c verdict s
  | .flashProgramDone ok => Sys2Proof.Machine.execFlashProgramDone ok s
  | .sessionOpen c => Sys2Proof.Machine.execSessionOpen c s
  | .sessionProve c => Sys2Proof.Machine.execSessionProve c s
  | .sessionClose c => Sys2Proof.Machine.execSessionClose c s
  | .challengeExpiry x => Sys2Proof.Machine.execChallengeExpiry x s
  | .sessionIdleExpiry => Sys2Proof.Machine.execSessionIdleExpiry s
  | .protectSet c => Sys2Proof.Machine.execProtectSet c s
  | .protectCommit c => Sys2Proof.Machine.execProtectCommit c s
  | .attest c => Sys2Proof.Machine.execAttest c s
  | .enroll port v => Sys2Proof.Machine.execEnroll port v s
  | .revokeOwner port v => Sys2Proof.Machine.execRevokeOwner port v s
  | .raiseSvn port v => Sys2Proof.Machine.execRaiseSvn port v s
  | .revokeVendor port v => Sys2Proof.Machine.execRevokeVendor port v s
  | .fuseOp ok => Sys2Proof.Machine.execFuseOp ok s
  | .coldReset b => Sys2Proof.Machine.execColdReset b s
  | .warmReset b => Sys2Proof.Machine.execWarmReset b s
  | .warmPrepTimeout b => Sys2Proof.Machine.execWarmPrepTimeout b s
  | .retentionCheckDone srHeld eccOk recordOk => Sys2Proof.Machine.execRetentionCheckDone srHeld eccOk recordOk s
  | .pwrgdFall => Sys2Proof.Machine.execPwrgdFall s
  | .harbourExit byPerst => Sys2Proof.Machine.execHarbourExit byPerst s
  | .harbourTimer => Sys2Proof.Machine.execHarbourTimer s
  | .unitResetEv => Sys2Proof.Machine.execUnitResetEv s
  | .unitResetCe => Sys2Proof.Machine.execUnitResetCe s
  | .unitResetHe => Sys2Proof.Machine.execUnitResetHe s
  | .unitResetMdc => Sys2Proof.Machine.execUnitResetMdc s
  | .unitResetXm => Sys2Proof.Machine.execUnitResetXm s
  | .unitResetCl => Sys2Proof.Machine.execUnitResetCl s
  | .unitResetEb => Sys2Proof.Machine.execUnitResetEb s
  | .unitResetPl => Sys2Proof.Machine.execUnitResetPl s
  | .unitResetDl die => Sys2Proof.Machine.execUnitResetDl die s
  | .unitResetComplete unit => Sys2Proof.Machine.execUnitResetComplete unit s
  | .slackIdleGate dom => Sys2Proof.Machine.execSlackIdleGate dom s
  | .domainUngateDone dom => Sys2Proof.Machine.execDomainUngateDone dom s
  | .pwSlackCtlWrite port v => Sys2Proof.Machine.execPwSlackCtlWrite port v s
  | .pdRequest port v => Sys2Proof.Machine.execPdRequest port v s
  | .domainDrainExpiry dom => Sys2Proof.Machine.execDomainDrainExpiry dom s
  | .modeEpochAck unit => Sys2Proof.Machine.execModeEpochAck unit s
  | .modeRollback unit => Sys2Proof.Machine.execModeRollback unit s
  | .modeEpochTimeout => Sys2Proof.Machine.execModeEpochTimeout s
  | .modeSwitchDone unit => Sys2Proof.Machine.execModeSwitchDone unit s
  | .modeStuck b => Sys2Proof.Machine.execModeStuck b s
  | .aonFallback => Sys2Proof.Machine.execAonFallback s
  | .pllLockLoss clock b => Sys2Proof.Machine.execPllLockLoss clock b s
  | .dieTempRead temps => Sys2Proof.Machine.execDieTempRead temps s
  | .dramReadComplete ch laddr port e => Sys2Proof.Machine.execDramReadComplete ch laddr port e s
  | .rowLimit ch bank row port => Sys2Proof.Machine.execRowLimit ch bank row port s
  | .throttleExpiry ch bank port => Sys2Proof.Machine.execThrottleExpiry ch bank port s
  | .dramTempPoll ch temp => Sys2Proof.Machine.execDramTempPoll ch temp s
  | .channelPowerDown ch => Sys2Proof.Machine.execChannelPowerDown ch s
  | .mcRetrainGo port v => Sys2Proof.Machine.execMcRetrainGo port v s
  | .retrainStepDone ch pass => Sys2Proof.Machine.execRetrainStepDone ch pass s
  | .mcFreqTargetWrite port v => Sys2Proof.Machine.execMcFreqTargetWrite port v s
  | .mcDiagGo port ch v => Sys2Proof.Machine.execMcDiagGo port ch v s
  | .mcDiagDone ch dqFail errors => Sys2Proof.Machine.execMcDiagDone ch dqFail errors s
  | .mdcFillReturn a block e => Sys2Proof.Machine.execMdcFillReturn a block e s
  | .mdcRange port v => Sys2Proof.Machine.execMdcRange port v s
  | .mdcAll port v => Sys2Proof.Machine.execMdcAll port v s
  | .mdcClass port v => Sys2Proof.Machine.execMdcClass port v s
  | .maintDone => Sys2Proof.Machine.execMaintDone s
  | .mdcCtlWrite port v => Sys2Proof.Machine.execMdcCtlWrite port v s
  | .xmStart port n v => Sys2Proof.Machine.execXmStart port n v s
  | .xmPause port n v => Sys2Proof.Machine.execXmPause port n v s
  | .xmStop port n v => Sys2Proof.Machine.execXmStop port n v s
  | .xmEventSet port v => Sys2Proof.Machine.execXmEventSet port v s
  | .xmInstruction n failed placed => Sys2Proof.Machine.execXmInstruction n failed placed s
  | .xmRequestLine line level => Sys2Proof.Machine.execXmRequestLine line level s
  | .xmBurstDone n bytes => Sys2Proof.Machine.execXmBurstDone n bytes s
  | .busError n isWrite => Sys2Proof.Machine.execBusError n isWrite s
  | .xmRetryExpiry n => Sys2Proof.Machine.execXmRetryExpiry n s
  | .eventRaise e => Sys2Proof.Machine.execEventRaise e s
  | .evRecordForm => Sys2Proof.Machine.execEvRecordForm s
  | .evLogWriteDone => Sys2Proof.Machine.execEvLogWriteDone s
  | .evTokenRefill code => Sys2Proof.Machine.execEvTokenRefill code s
  | .evNotifyTick port => Sys2Proof.Machine.execEvNotifyTick port s
  | .evScanDone => Sys2Proof.Machine.execEvScanDone s
  | .evClearEraseDone => Sys2Proof.Machine.execEvClearEraseDone s
  | .storeFault => Sys2Proof.Machine.execStoreFault s
  | .storeBack => Sys2Proof.Machine.execStoreBack s
  | .presenceChange slot present => Sys2Proof.Machine.execPresenceChange slot present s
  | .sgpioFrame chain inputs => Sys2Proof.Machine.execSgpioFrame chain inputs s
  | .pwrGoodTimeout slot => Sys2Proof.Machine.execPwrGoodTimeout slot s
  | .linkBringupAttempt slot rate ok => Sys2Proof.Machine.execLinkBringupAttempt slot rate ok s
  | .linkBringupRetry slot => Sys2Proof.Machine.execLinkBringupRetry slot s
  | .linkUp slot d => Sys2Proof.Machine.execLinkUp slot d s
  | .laneReset port slot => Sys2Proof.Machine.execLaneReset port slot s
  | .spinAdmissionTick => Sys2Proof.Machine.execSpinAdmissionTick s
  | .spinPeakExpiry slot => Sys2Proof.Machine.execSpinPeakExpiry slot s
  | .spinupComplete slot durationDs => Sys2Proof.Machine.execSpinupComplete slot durationDs s
  | .spinupTimeout slot => Sys2Proof.Machine.execSpinupTimeout slot s
  | .wakeGroupIdleExpiry group => Sys2Proof.Machine.execWakeGroupIdleExpiry group s
  | .standbyComplete group => Sys2Proof.Machine.execStandbyComplete group s
  | .slotPowerOff slot => Sys2Proof.Machine.execSlotPowerOff slot s
  | .loopPeriod n => Sys2Proof.Machine.execLoopPeriod n s
  | .sensorReadDone k r => Sys2Proof.Machine.execSensorReadDone k r s
  | .fanFail f rpm => Sys2Proof.Machine.execFanFail f rpm s
  | .headroomTick => Sys2Proof.Machine.execHeadroomTick s
  | .encCrit e => Sys2Proof.Machine.execEncCrit e s
  | .encHotExit e => Sys2Proof.Machine.execEncHotExit e s
  | .holdEvaluation => Sys2Proof.Machine.execHoldEvaluation s
  | .holdDwellExpiry e => Sys2Proof.Machine.execHoldDwellExpiry e s
  | .holdLong e => Sys2Proof.Machine.execHoldLong e s
  | .humidHigh e => Sys2Proof.Machine.execHumidHigh e s
  | .chargerFault => Sys2Proof.Machine.execChargerFault s
  | .euCompute vMv iMa => Sys2Proof.Machine.execEuCompute vMv iMa s
  | .euReport => Sys2Proof.Machine.execEuReport s
  | .vbankTrip => Sys2Proof.Machine.execVbankTrip s
  | .pulseTestStart => Sys2Proof.Machine.execPulseTestStart s
  | .pulseTestOnset v0Mv => Sys2Proof.Machine.execPulseTestOnset v0Mv s
  | .pulseTestEnd fit => Sys2Proof.Machine.execPulseTestEnd fit s
  | .testPostponed => Sys2Proof.Machine.execTestPostponed s
  | .ceJobDispatch => Sys2Proof.Machine.execCeJobDispatch s
  | .ceJobComplete cluster mismatch => Sys2Proof.Machine.execCeJobComplete cluster mismatch s
  | .clusterFault cluster => Sys2Proof.Machine.execClusterFault cluster s
  | .matrixInversionDone => Sys2Proof.Machine.execMatrixInversionDone s
  | .invalidate port v => Sys2Proof.Machine.execInvalidate port v s
  | .ceInvalidateDone => Sys2Proof.Machine.execCeInvalidateDone s
  | .ceClusterEnWrite port v => Sys2Proof.Machine.execCeClusterEnWrite port v s
  | .peerLinkTrained rate width => Sys2Proof.Machine.execPeerLinkTrained rate width s
  | .peerHello h => Sys2Proof.Machine.execPeerHello h s
  | .heartbeat f owned lastMseq => Sys2Proof.Machine.execHeartbeat f owned lastMseq s
  | .heartbeatSend => Sys2Proof.Machine.execHeartbeatSend s
  | .peerSilent => Sys2Proof.Machine.execPeerSilent s
  | .resolutionStart => Sys2Proof.Machine.execResolutionStart s
  | .reservationKeysRead ownKeyOnAll => Sys2Proof.Machine.execReservationKeysRead ownKeyOnAll s
  | .preemptComplete => Sys2Proof.Machine.execPreemptComplete s
  | .claim pool claimId slots => Sys2Proof.Machine.execClaim pool claimId slots s
  | .claimReply pool claimId refused => Sys2Proof.Machine.execClaimReply pool claimId refused s
  | .mirPayload mseq pool stripe unit off bytes => Sys2Proof.Machine.execMirPayload mseq pool stripe unit off bytes s
  | .mirDirent mseq pool stripe slot entry => Sys2Proof.Machine.execMirDirent mseq pool stripe slot entry s
  | .mirSeal mseq pool stripe sealSeq chunkOffset set => Sys2Proof.Machine.execMirSeal mseq pool stripe sealSeq chunkOffset set s
  | .mirDelta mseq records => Sys2Proof.Machine.execMirDelta mseq records s
  | .mirRelease mseq pool kind records => Sys2Proof.Machine.execMirRelease mseq pool kind records s
  | .mirRetire mseq pool stripe => Sys2Proof.Machine.execMirRetire mseq pool stripe s
  | .mirConfirm mseq => Sys2Proof.Machine.execMirConfirm mseq s
  | .standbyCopy pool sect off bytes => Sys2Proof.Machine.execStandbyCopy pool sect off bytes s
  | .windowCopy mseq off bytes held => Sys2Proof.Machine.execWindowCopy mseq off bytes held s
  | .mirResync mseq => Sys2Proof.Machine.execMirResync mseq s
  | .peerFrameBad isM => Sys2Proof.Machine.execPeerFrameBad isM s
  | .giveReq pool lastMseq => Sys2Proof.Machine.execGiveReq pool lastMseq s
  | .giveReady pool refused => Sys2Proof.Machine.execGiveReady pool refused s
  | .giveDone pool descSeq => Sys2Proof.Machine.execGiveDone pool descSeq s
  | .pullReq pool => Sys2Proof.Machine.execPullReq pool s
  | .pullData off bytes => Sys2Proof.Machine.execPullData off bytes s
  | .pullEnd pool noMirror => Sys2Proof.Machine.execPullEnd pool noMirror s
  | .flitNak ack => Sys2Proof.Machine.execFlitNak ack s
  | .replayTimeout => Sys2Proof.Machine.execReplayTimeout s
  | .peerRetrain => Sys2Proof.Machine.execPeerRetrain s
  | .peerRetrainDone rate width => Sys2Proof.Machine.execPeerRetrainDone rate width s
  | .resetNRise => Sys2Proof.Machine.execResetNRise s
  | .suppliesRemoved vaon => Sys2Proof.Machine.execSuppliesRemoved vaon s
  | .hostLinkUp port link rate width flit => Sys2Proof.Machine.execHostLinkUp port link rate width flit s
  | .busMasterEnableChange x on => Sys2Proof.Machine.execBusMasterEnableChange x on s
  | .labelWriteDone slot ok => Sys2Proof.Machine.execLabelWriteDone slot ok s
  | .sillRecordWritten pool slot => Sys2Proof.Machine.execSillRecordWritten pool slot s
  | .drainComplete dom => Sys2Proof.Machine.execDrainComplete dom s
  | .fanFailClear f rpm => Sys2Proof.Machine.execFanFailClear f rpm s
  | .analogInputUpdate k code => Sys2Proof.Machine.execAnalogInputUpdate k code s
  | .captureSample stream sample => Sys2Proof.Machine.execCaptureSample stream sample s
  | .peerFlitCrcFail => Sys2Proof.Machine.execPeerFlitCrcFail s

end Sys2Proof.Machine
end

