-- ==== Sys2Proof/Safety.lean ====
section
/-! DEFINITION. The terms in which statements about the machine are made: what a command answers, what it may change, when a host's
write or command is taken, which commands store to the memories, and the forms every step keeps. -/

namespace Sys2Proof

/-- Whether a command may change a byte of DRAM or SRAM: a burst of the mover, the firmware placing an
instruction, and the commands that may end in a reset. -/
def Instr.storesMemory : Instr → Bool
  | .xmBurstDone .. | .ebbRestart .. | .coldReset .. | .warmReset .. | .warmPrepTimeout .. | .resetNRise .. | .retentionCheckDone ..
  | .pwrgdFall .. | .suppliesRemoved .. | .modeStuck .. | .pllLockLoss .. | .dieTempRead .. => true
  | .xmInstruction _ _ placed => placed.isSome
  | _ => false

end Sys2Proof

namespace Sys2Proof.Machine

open Sys2Proof

/-- The command answers the state `t`. -/
def Runs (c : Instr) (s t : State) : Prop := exec c s = .next t

/-- The command brings the machine to `u`, and answers it once what waited for such a state has ended (`State.finish`). -/
def Ends (c : Instr) (s u : State) : Prop := Runs c s u.finish

/-- The command brings the machine to `u`, in which what waited for such a state has ended when the device runs (`State.anyTime`). -/
def Brings (c : Instr) (s u : State) : Prop := Runs c s (if u.up then u.finish else u)

/-- `t` is `s` but for the stored values of the registers at the offsets of `as`. -/
def OnlyRegs (as : List Nat) (s t : State) : Prop :=
  (∀ a, a ∉ as → t.getReg a = s.getReg a) ∧ t = { s with regs := t.regs }

/-- The memory controller and the mover act: the device runs, or it is in EBB (R535, R597). -/
def State.memoryUp (s : State) : Prop := s.up = true ∨ s.pw.power = .ebb

/-- A host's write of the register at `a` through the management function of `port` is performed: the device answers its hosts
(R486), the unit is present (R5) and not gated (R33), and the function has REG_WRITE or holds the session (R496). -/
structure WriteTaken (s : State) (port a : Nat) : Prop where
  up : s.up = true
  there : s.absentAt a = false
  on : s.gatedAt a = false
  may : s.admin (port * 65) 3 = true ∨ s.hasSession (port * 65) = true

/-- A host command of opcode `op` is taken from its queue: the device runs, the local number is bound to `q`, its entry may be
consumed (R331, R334, R342), and its opcode and slot count are those of a well-formed entry (R324). -/
structure Takes (s : State) (op : Nat) (c : HostCmd) (q : Nat) : Prop where
  up : s.up = true
  queue : s.dqNum c.x c.sq = some q
  free : s.canConsume q = true
  opcode : entryOpcode c = op
  slots : 1 ≤ entrySlots c ∧ entrySlots c ≤ 16

/-- The command's number and the state after its entry is consumed; an owner's command renews the session (R499). -/
def State.taken (s : State) (q : Nat) (c : HostCmd) : Nat × State :=
  let r := s.consume q (entrySlots c) (entryCid c) (entryOpcode c)
  (r.1, if ownerEntry c && r.2.hasSession c.x then r.2.renewSession else r.2)

/-- Whether a write of the register does nothing but set its fields by their access types. -/
def Reg.plain (r : Reg) : Bool :=
  !([CE_CTL, CE_CLUSTER_EN, QC_SQ_ARB, QC_CQ_COAL, DL_SLOT_CTL, PW_UNIT_RESET, PW_SLACK_CTL, PW_PD_REQ, MC_FREQ, MC_RETRAIN,
    MC_ACT_PARAM, MC_PORT_TARGET, MC_CH_DIAG_CTL, MDC_CTL, MDC_WAY_DIS, MDC_WAY_OFF, MDC_MAINT_CTL, MDC_MAINT_BASE_LO,
    MDC_MAINT_BASE_HI, XM_EVENT_SET, XM_CH_CTL, XM_CH_CFG, XM_CH_PC_LO, XM_CH_PC_HI, SEC_ENROLL_CTL, SEC_ENROLL_KEY].contains r)

/-- The canonical forms every step keeps: of register storage and of both memories. -/
def State.wf (s : State) : Prop := regsWf s.regs = true ∧ Memory.wf s.dram = true ∧ Memory.wf s.sram = true

end Sys2Proof.Machine
end

