-- ==== Sys2Proof/WellFormed.lean ====
section
/-! DEFINITION. Operand ranges of the commands: which functions, ports, slots, pools, channels and numbers exist, and what a host
command's entry looks like. A command out of its ranges names nothing the device has; the meanings leave the state alone there. -/

namespace Sys2Proof

/-- A function x = port × 65 + entry (R309). -/
def fnOk (x : Nat) : Bool := decide (x < 130)
/-- A host port (R309). -/
def portOk (p : Nat) : Bool := decide (p < 2)
/-- A port half, image slot, FIFO or other one of two. -/
def linkOk (n : Nat) : Bool := decide (n < 2)
/-- A queue number, of the device or of a function (R314, R315). -/
def devQueueOk (q : Nat) : Bool := decide (q < 65536)
/-- An MSI-X vector (R340). -/
def vectorOk (v : Nat) : Bool := decide (v < 2048)
/-- A drive slot (R27). -/
def slotOk (n : Nat) : Bool := decide (n < 1024)
/-- A pool identifier (R127). -/
def poolOk (p : Nat) : Bool := decide (p < 64)
/-- A pool identifier, or 0xFF for none (R464). -/
def poolOrNone (p : Nat) : Bool := decide (p < 64 ∨ p = 0xFF)
/-- A stripe number (R67, R124). -/
def stripeOk (n : Nat) : Bool := decide (n < 2 ^ 40)
/-- A position in a set (R45). -/
def posOk (q : Nat) : Bool := decide (q < 64)
/-- A set index (R51). -/
def setOk (i : Nat) : Bool := decide (i < 65536)
/-- A slot of a stripe directory (R123). -/
def dirSlotOk (i : Nat) : Bool := decide (i < 682)
/-- A DRAM channel (R548). -/
def channelOk (c : Nat) : Bool := decide (c < 64)
/-- A DRAM bank (R554). -/
def bankOk (b : Nat) : Bool := decide (b < 16)
/-- A DRAM row (R554). -/
def rowOk (r : Nat) : Bool := decide (r < 2 ^ 18)
/-- A memory controller port (R555). -/
def mcPortOk (p : Nat) : Bool := decide (p < 12)
/-- A coding cluster (R101). -/
def clusterOk (n : Nat) : Bool := decide (n < 8)
/-- A power domain (R536). -/
def domainOk (d : Nat) : Bool := decide (d < 192)
/-- A drive link die (R27). -/
def dieOk (d : Nat) : Bool := decide (d < 4)
/-- A slot chain, enclosure or fan: one of 32 (R404, R419, R423). -/
def chainOk (n : Nat) : Bool := decide (n < 32)
/-- A unit bit of PW_UNIT_RESET (R530). -/
def unitOk (u : Nat) : Bool := decide (u < 12)
/-- A clock of PW_CLK_STATUS (R543). -/
def clockOk (c : Nat) : Bool := decide (c < 11)
/-- A mover channel (chapter 20). -/
def moverOk (n : Nat) : Bool := decide (n < 32)
/-- A request line of the mover (R593). -/
def clusterLine (l : Nat) : Bool := decide (l < 32)
/-- A loop engine (chapter 13). -/
def chan16 (n : Nat) : Bool := decide (n < 16)
/-- A sensor (R421). -/
def sensorOk (k : Nat) : Bool := decide (k < 128)
/-- An analog input (R419). -/
def ainOk (k : Nat) : Bool := decide (k < 64)
/-- An event code (R603). -/
def codeOk (c : Nat) : Bool := decide (c < 4096)
/-- A section of a standby copy (R297). -/
def sectionOk (i : Nat) : Bool := decide (1 ≤ i ∧ i ≤ 11)
/-- An offset of BAR0 (R19). -/
def off28 (a : Nat) : Bool := decide (a < 2 ^ 28)
/-- The offset of an aligned 32-bit access (R19). -/
def alignedOff (a : Nat) : Bool := decide (a < 2 ^ 28 ∧ a % 4 = 0)
/-- A submission slot is 64 bytes (R322); its read may end in an error. -/
def slotBytesOk (b : Option (List Byte)) : Bool := b.all (fun bs => bs.length = 64)
/-- A mover instruction is 32 bytes (R590); its read may end in an error. -/
def moverBytesOk (b : Option (List Byte)) : Bool := b.all (fun bs => bs.length = 32)
/-- A directory entry is 96 bytes (R123). -/
def entry96 (bs : List Byte) : Bool := decide (bs.length = 96)
/-- The six die sensors (R654). -/
def tempsOk (ts : List (Option Int)) : Bool := decide (ts.length = 6)
/-- A frame of a chain has 32 slots (R405). -/
def frameOk (bs : List (BitVec 6)) : Bool := decide (bs.length = 32)

/-- The target of a register write: an aligned offset of BAR0 through a port, or of a function's queue capability (R19, R313). -/
def RegTarget.wf : RegTarget → Bool
  | .bar0 port off => portOk port && alignedOff off
  | .cap x off => fnOk x && decide (off % 4 = 0 ∧ 0x10 ≤ off ∧ off ≤ 0x20)

/-- The entry of a host command (R322, R324): whole slots, the first one's opcode byte the row's. -/
def HostCmd.wf (c : HostCmd) (op : Nat) : Bool :=
  fnOk c.x && devQueueOk c.sq && c.slots.all (fun s => s.length = 64) &&
  ((c.slots.head?.bind (·.head?)) == some (BitVec.ofNat 8 op))

/-- An event's code, severity and DETAIL length (R603). -/
def RaisedEvent.wf (e : RaisedEvent) : Bool := codeOk e.code && decide (e.sev ≤ 7) && decide (e.detail.length ≤ 28)

/-- The requester class of a cache access (R570). -/
def CacheAccess.wf (a : CacheAccess) : Bool := decide (a.cls < 16 ∧ a.port < 12 ∧ a.addr < 2 ^ 64)

/-- Whether a command's operands lie in their ranges. -/
def Instr.wf : Instr → Bool
  | .registerWrite t _ => RegTarget.wf t
  | .regAccess port off _ _ => portOk port && off28 off
  | .latchedLowHalfRead off => alignedOff off
  | .errorCounterRead x => fnOk x
  | .dbSqTailWrite x n _ _ => fnOk x && devQueueOk n
  | .dbCqHeadWrite x n _ _ => fnOk x && devQueueOk n
  | .doorbellPairWrite x n _ _ _ => fnOk x && devQueueOk n
  | .ctlqEnable x _ => fnOk x
  | .ctlqDisable x => fnOk x
  | .qcArbWrite port q _ => portOk port && devQueueOk q
  | .sqFetch port _ => portOk port
  | .sqSlotRead q _ slot _ => devQueueOk q && slotBytesOk slot
  | .slotRecheck q => devQueueOk q
  | .slotLapTimeout q => devQueueOk q
  | .sqPoll q => devQueueOk q
  | .cqCoalTimer q => devQueueOk q
  | .msixUnmask x vector => fnOk x && vectorOk vector
  | .queueCreate c => c.wf 0x70
  | .queueDelete c => c.wf 0x71
  | .functionReset x _ => fnOk x
  | .portReset port link => portOk port && linkOk link
  | .orphanList c => c.wf 0x72
  | .orphanSettle c => c.wf 0x73
  | .append c => c.wf 0x01
  | .appendAdmit => true
  | .payloadArrival _ _ _ => true
  | .hostAccessError _ => true
  | .appendTransferDone _ => true
  | .sealTimerExpiry pool stripe => poolOk pool && stripeOk stripe
  | .stripeSeal pool stripe => poolOk pool && stripeOk stripe
  | .hashJobComplete _ => true
  | .chunkWriteAck pool stripe pos => poolOk pool && stripeOk stripe && posOk pos
  | .driveWriteFailed pool stripe pos _ _ => poolOk pool && stripeOk stripe && posOk pos
  | .sealCommand c => c.wf 0x05
  | .flush c => c.wf 0x06
  | .release c => c.wf 0x03
  | .pendingReleaseResolve pool stripe => poolOk pool && stripeOk stripe
  | .copyForward c _ => c.wf 0x04
  | .queryLocator c => c.wf 0x07
  | .read c => c.wf 0x02
  | .chunkReadDone _ pos _ _ => posOk pos
  | .wakeTimeout _ => true
  | .deferLimitExpiry _ => true
  | .driveCommandTimeout slot => slotOk slot
  | .driveLinkDown slot => slotOk slot
  | .linkLossGraceExpiry slot => slotOk slot
  | .rebuildPassStart => true
  | .rebuildChunkWritten set => setOk set
  | .lossClear c => c.wf 0x25
  | .reclaimActionDone slot _ _ => slotOk slot
  | .reclaimRetry slot _ => slotOk slot
  | .zoneOffline slot _ _ => slotOk slot
  | .checkpointTimer pool => poolOk pool
  | .checkpointComplete pool => poolOk pool
  | .journalGatherExpiry pool => poolOk pool
  | .journalFillTimer set => setOk set
  | .windowRecompute => true
  | .windowStepUp => true
  | .admitCreditTick => true
  | .ebRateMeasured _ => true
  | .ebbEntry => true
  | .ebbLastUpdate => true
  | .ebbEnd _ => true
  | .ebbRestart _ => true
  | .slotEraseDone slot _ => linkOk slot
  | .poolRecovery pool _ => poolOk pool
  | .partnerWaitExpiry pool => poolOk pool
  | .poolRecover c => c.wf 0x24
  | .tideRoundStart pool => poolOk pool
  | .tideMarkTick => true
  | .tideStripeVerify pool stripe _ => poolOk pool && stripeOk stripe
  | .tideLate pool => poolOk pool
  | .tideLateReminder pool => poolOk pool
  | .tideWakeExpiry pool => poolOk pool
  | .poolCreate c => c.wf 0x20
  | .poolGrow c => c.wf 0x21
  | .poolSet c => c.wf 0x22
  | .poolDelete c => c.wf 0x23
  | .poolGive c => c.wf 0x26
  | .scarfStart c => c.wf 0x28
  | .scarfCopyStripe pool stripe _ => poolOk pool && stripeOk stripe
  | .scarfCommit c => c.wf 0x29
  | .scarfOldReclaim pool => poolOk pool
  | .scarfAbort c => c.wf 0x2A
  | .driveSet c => c.wf 0x30
  | .retireCopyComplete slot _ => slotOk slot
  | .timeSet c => c.wf 0x40
  | .telemetryGet c => c.wf 0x41
  | .evRead c => c.wf 0x42
  | .evClear c => c.wf 0x43
  | .deviceMode c => c.wf 0x44
  | .harbourPhyDown => true
  | .stageWrite c => c.wf 0x45
  | .stageCommit c _ => c.wf 0x46
  | .flashProgramDone _ => true
  | .sessionOpen c => c.wf 0x50
  | .sessionProve c => c.wf 0x51
  | .sessionClose c => c.wf 0x52
  | .challengeExpiry x => fnOk x
  | .sessionIdleExpiry => true
  | .protectSet c => c.wf 0x53
  | .protectCommit c => c.wf 0x54
  | .attest c => c.wf 0x55
  | .enroll port _ => portOk port
  | .revokeOwner port _ => portOk port
  | .raiseSvn port _ => portOk port
  | .revokeVendor port _ => portOk port
  | .fuseOp _ => true
  | .coldReset _ => true
  | .warmReset _ => true
  | .warmPrepTimeout _ => true
  | .retentionCheckDone _ _ _ => true
  | .pwrgdFall => true
  | .harbourExit _ => true
  | .harbourTimer => true
  | .unitResetEv => true
  | .unitResetCe => true
  | .unitResetHe => true
  | .unitResetMdc => true
  | .unitResetXm => true
  | .unitResetCl => true
  | .unitResetEb => true
  | .unitResetPl => true
  | .unitResetDl die => dieOk die
  | .unitResetComplete unit => unitOk unit
  | .slackIdleGate dom => domainOk dom
  | .domainUngateDone dom => domainOk dom
  | .pwSlackCtlWrite port _ => portOk port
  | .pdRequest port _ => portOk port
  | .domainDrainExpiry dom => domainOk dom
  | .modeEpochAck _ => true
  | .modeRollback _ => true
  | .modeEpochTimeout => true
  | .modeSwitchDone _ => true
  | .modeStuck _ => true
  | .aonFallback => true
  | .pllLockLoss clock _ => clockOk clock
  | .dieTempRead temps => tempsOk temps
  | .dramReadComplete ch _ port _ => channelOk ch && mcPortOk port
  | .rowLimit ch bank row port => channelOk ch && bankOk bank && rowOk row && mcPortOk port
  | .throttleExpiry ch bank port => channelOk ch && bankOk bank && mcPortOk port
  | .dramTempPoll ch _ => channelOk ch
  | .channelPowerDown ch => channelOk ch
  | .mcRetrainGo port _ => portOk port
  | .retrainStepDone ch _ => channelOk ch
  | .mcFreqTargetWrite port _ => portOk port
  | .mcDiagGo port ch _ => portOk port && channelOk ch
  | .mcDiagDone ch _ _ => channelOk ch
  | .mdcFillReturn a block _ => CacheAccess.wf a && linkOk block
  | .mdcRange port _ => portOk port
  | .mdcAll port _ => portOk port
  | .mdcClass port _ => portOk port
  | .maintDone => true
  | .mdcCtlWrite port _ => portOk port
  | .xmStart port n _ => portOk port && moverOk n
  | .xmPause port n _ => portOk port && moverOk n
  | .xmStop port n _ => portOk port && moverOk n
  | .xmEventSet port _ => portOk port
  | .xmInstruction n _ placed => moverOk n && moverBytesOk placed
  | .xmRequestLine line _ => clusterLine line
  | .xmBurstDone n _ => moverOk n
  | .busError n _ => moverOk n
  | .xmRetryExpiry n => moverOk n
  | .eventRaise e => RaisedEvent.wf e
  | .evRecordForm => true
  | .evLogWriteDone => true
  | .evTokenRefill code => codeOk code
  | .evNotifyTick port => portOk port
  | .evScanDone => true
  | .evClearEraseDone => true
  | .storeFault => true
  | .storeBack => true
  | .presenceChange slot _ => slotOk slot
  | .sgpioFrame chain inputs => chainOk chain && frameOk inputs
  | .pwrGoodTimeout slot => slotOk slot
  | .linkBringupAttempt slot _ _ => slotOk slot
  | .linkBringupRetry slot => slotOk slot
  | .linkUp slot _ => slotOk slot
  | .laneReset port slot => portOk port && slotOk slot
  | .spinAdmissionTick => true
  | .spinPeakExpiry slot => slotOk slot
  | .spinupComplete slot _ => slotOk slot
  | .spinupTimeout slot => slotOk slot
  | .wakeGroupIdleExpiry _ => true
  | .standbyComplete _ => true
  | .slotPowerOff slot => slotOk slot
  | .loopPeriod n => chan16 n
  | .sensorReadDone k _ => sensorOk k
  | .fanFail f _ => chainOk f
  | .headroomTick => true
  | .encCrit e => chainOk e
  | .encHotExit e => chainOk e
  | .holdEvaluation => true
  | .holdDwellExpiry e => chainOk e
  | .holdLong e => chainOk e
  | .humidHigh e => chainOk e
  | .chargerFault => true
  | .euCompute _ _ => true
  | .euReport => true
  | .vbankTrip => true
  | .pulseTestStart => true
  | .pulseTestOnset _ => true
  | .pulseTestEnd _ => true
  | .testPostponed => true
  | .ceJobDispatch => true
  | .ceJobComplete cluster _ => clusterOk cluster
  | .clusterFault cluster => clusterOk cluster
  | .matrixInversionDone => true
  | .invalidate port _ => portOk port
  | .ceInvalidateDone => true
  | .ceClusterEnWrite port _ => portOk port
  | .peerLinkTrained _ _ => true
  | .peerHello _ => true
  | .heartbeat _ _ _ => true
  | .heartbeatSend => true
  | .peerSilent => true
  | .resolutionStart => true
  | .reservationKeysRead _ => true
  | .preemptComplete => true
  | .claim pool _ _ => poolOrNone pool
  | .claimReply pool _ _ => poolOrNone pool
  | .mirPayload _ pool stripe _ _ _ => poolOk pool && stripeOk stripe
  | .mirDirent _ pool stripe slot entry => poolOk pool && stripeOk stripe && dirSlotOk slot && entry96 entry
  | .mirSeal _ pool stripe _ _ set => poolOk pool && stripeOk stripe && setOk set
  | .mirDelta _ _ => true
  | .mirRelease _ pool kind _ => poolOk pool && linkOk kind
  | .mirRetire _ pool stripe => poolOk pool && stripeOk stripe
  | .mirConfirm _ => true
  | .standbyCopy pool sect _ _ => poolOk pool && sectionOk sect
  | .windowCopy _ _ _ _ => true
  | .mirResync _ => true
  | .peerFrameBad _ => true
  | .giveReq pool _ => poolOk pool
  | .giveReady pool _ => poolOk pool
  | .giveDone pool _ => poolOk pool
  | .pullReq pool => poolOk pool
  | .pullData _ _ => true
  | .pullEnd pool _ => poolOk pool
  | .flitNak _ => true
  | .replayTimeout => true
  | .peerRetrain => true
  | .peerRetrainDone _ _ => true
  | .resetNRise => true
  | .suppliesRemoved _ => true
  | .hostLinkUp port link _ _ _ => portOk port && linkOk link
  | .busMasterEnableChange x _ => fnOk x
  | .labelWriteDone slot _ => slotOk slot
  | .sillRecordWritten pool slot => poolOk pool && slotOk slot
  | .drainComplete dom => domainOk dom
  | .fanFailClear f _ => chainOk f
  | .analogInputUpdate k _ => ainOk k
  | .captureSample stream _ => linkOk stream
  | .peerFlitCrcFail => true

end Sys2Proof
end

