-- ==== Sys2Proof/Certificates/Slice0/Obligations.lean ====
section
/-! DEFINITION. The statements for the provers. Each is about the block's commands, which stand for what the host, the drives, the
peer, the board and the clock do to it; `Ends c s u` says that command `c` at state `s` brings the machine to `u` and answers it with
what waited for `u` ended. -/

open Sys2Proof Sys2Proof.Machine

/-! ### The block and its queue -/

/-- A step runs the command at the front of the queue, with the queue's rest behind it. -/
def Obligations.StepRunsFront : Prop :=
  ∀ (c : Instr) (cs : List Instr) (s : State), step { s with pending := c :: cs } = exec c { s with pending := cs }

/-- A step on an empty queue is one tick of the AON clock: device time moves on by 1,953,125/64 ns (R14), and nothing else changes.
That an empty queue ticks is the model's choice (log entry 14). -/
def Obligations.EmptyQueueTicks : Prop :=
  ∀ s : State, s.pending = [] → ∃ t, step s = .next t ∧ t = { s with devNs := t.devNs, devFrac := t.devFrac } ∧
    64 * s.devNs + s.devFrac + 1953125 = (64 * t.devNs + t.devFrac) + 64 * 2 ^ 64 * ((s.devNs + (s.devFrac + 1953125) / 64) / 2 ^ 64) ∧
    (s.devNs < 2 ^ 64 → t.devNs < 2 ^ 64)

/-- Every command answers a next state: no command of the table ends in a fault or a refusal. -/
def Obligations.EveryCommandAnswers : Prop := ∀ (c : Instr) (s : State), ∃ t, exec c s = .next t

/-- No command touches the queue behind it, the part it runs on or its step, and the outputs that went out stay. -/
def Obligations.CommandsLeaveQueue : Prop :=
  ∀ (c : Instr) (s t : State), exec c s = .next t →
    t.pending = s.pending ∧ t.variant = s.variant ∧ t.stepB0 = s.stepB0 ∧ s.out <+: t.out

/-! ### What every step keeps -/

/-- Register storage and both memories are in their canonical forms after reset. -/
def Obligations.ResetForms : Prop := State.reset.wf

/-- Every step keeps the canonical forms of register storage and of both memories, in states that no run reaches too. -/
def Obligations.StepsKeepForms : Prop := ∀ s t : State, s.wf → step s = .next t → t.wf

/-- A blown fuse cannot be restored (R510), by any step: nor is an enrolled owner key taken out or the device's identity changed. -/
def Obligations.BlownFusesStay : Prop :=
  ∀ s t : State, step s = .next t →
    (∀ f ∈ s.sec.fuses, f ∈ t.sec.fuses) ∧ (∀ k ∈ s.sec.enrolled, k ∈ t.sec.enrolled) ∧
    t.sec.deviceId = s.sec.deviceId ∧ t.sec.cert = s.sec.cert

/-- A command that is neither a burst of the mover nor one that may end in a reset leaves every byte of DRAM and of SRAM. -/
def Obligations.MemoryFrame : Prop :=
  ∀ (c : Instr) (s t : State), c.storesMemory = false → exec c s = .next t →
    ∀ a, memGet t.dram a = memGet s.dram a ∧ memGet t.sram a = memGet s.sram a

/-! ### Register access -/

/-- A permitted write of a register without an effect of its own changes that register alone: an RW field takes the written value, an
RW1C field loses the bits written 1, an RO or RC field and every reserved bit keep theirs. -/
def Obligations.RegisterWriteFields : Prop :=
  ∀ (s : State) (port a : Nat) (v : Word) (r : Reg) (i j : Nat), a % 4 = 0 → regLookup a = some (r, i, j) → r.plain = true →
    WriteTaken s port a →
    ∃ u, Ends (.registerWrite (.bar0 port a) v) s u ∧ OnlyRegs [a] s u ∧
      (∀ f ∈ r.fields,
        (f.acc = .rw → f.get (u.getReg a) = f.get v) ∧
        (f.acc = .rw1c → f.get (u.getReg a) = f.get (s.getReg a) &&& ((2 ^ f.len - 1) ^^^ f.get v)) ∧
        (f.acc = .ro ∨ f.acc = .rc → f.get (u.getReg a) = f.get (s.getReg a))) ∧
      ∀ b, b < 32 → (∀ f ∈ r.fields, b < f.lo ∨ f.lo + f.len ≤ b) → (u.getReg a).getLsbD b = (s.getReg a).getLsbD b

/-- Every register of an absent unit reads as 0 and a write to it is ignored (R5). -/
def Obligations.AbsentUnitReadsZero : Prop :=
  ∀ (s : State) (port a : Nat) (v : Word) (r : Reg) (i j : Nat), s.up = true → a % 4 = 0 → regLookup a = some (r, i, j) →
    s.absentAt a = true →
    Ends (.registerWrite (.bar0 port a) v) s s ∧ Ends (.regAccess port a 4 false) s (s.emit (.regRead a 0))

/-- Any access to register space that is not an aligned 32-bit one has no effect but its event: a write is discarded and a read
returns 0 (R20). -/
def Obligations.OtherAccessHasNoEffect : Prop :=
  ∀ (s : State) (port off size : Nat), s.up = true → (off % 4 ≠ 0 ∨ size ≠ 4) →
    Ends (.regAccess port off size true) s (s.raise 0x003 2 noInst (leBytes 4 off ++ [1])) ∧
    Ends (.regAccess port off size false) s ((s.raise 0x003 2 noInst (leBytes 4 off ++ [0])).emit (.regRead off 0))

/-- A write through a management function that has neither REG_WRITE nor the session is discarded with an event, and a write of a
register of a gated unit likewise (R496, R33). -/
def Obligations.RefusedWritesAreDiscarded : Prop :=
  ∀ (s : State) (port a : Nat) (v : Word) (r : Reg) (i j : Nat), s.up = true → a % 4 = 0 → regLookup a = some (r, i, j) →
    r ≠ SEC_ENROLL_CTL → r ≠ SEC_ENROLL_KEY → s.absentAt a = false →
    (s.gatedAt a = true → ∃ u, Ends (.registerWrite (.bar0 port a) v) s u ∧ u = s.gatedEvent a true) ∧
    (s.gatedAt a = false → s.admin (port * 65) 3 = false → s.hasSession (port * 65) = false →
      Ends (.registerWrite (.bar0 port a) v) s (s.raise 0x103 3 (port * 65) (leBytes 4 a)))

/-- A read of the low half of a 64-bit counter latches the high half, and the next read of the high half returns what was latched,
whatever the counter does in between (R23). -/
def Obligations.LowHalfReadLatches : Prop :=
  ∀ (s : State) (a : Nat) (r : Reg) (i j : Nat), s.up = true → a % 4 = 0 → regLookup a = some (r, i, j) →
    latchingLow.contains r = true → s.absentAt a = false → s.gatedAt a = false →
    ∃ u, Ends (.latchedLowHalfRead a) s u ∧ Tab.get? u.latch (a + 4) = some (s.regView (a + 4)) ∧
      ∀ t : State, Tab.get? t.latch (a + 4) = some (s.regView (a + 4)) → t.absentAt (a + 4) = false → t.gatedAt (a + 4) = false →
        (regLookup (a + 4)).isSome = true → (t.readReg (a + 4)).1 = s.regView (a + 4)

/-- A read of QM_FN_x_ERR returns the count and clears it, and arms the event of a stray doorbell again (R41). -/
def Obligations.ErrorCounterReadClears : Prop :=
  ∀ (s : State) (x : Nat), s.up = true → x < 130 → s.gatedAt (QM_FN_ERR.at x) = false →
    ∃ u, Ends (.errorCounterRead x) s u ∧ u.fld QM_FN_ERR x QM_FN_ERR_COUNT = 0 ∧ (u.fn x).strayArmed = true ∧
      u.dram = s.dram ∧ u.sram = s.sram ∧ u.se = s.se ∧ u.sec = s.sec ∧
      ∀ y, y ≠ x → y < 130 → u.fld QM_FN_ERR y QM_FN_ERR_COUNT = s.fld QM_FN_ERR y QM_FN_ERR_COUNT

/-! ### Memory controller, metadata cache and mover -/

/-- Errors and rows of the DRAM (R551, R558, R559): a clean block changes nothing, a corrected error is counted in CE, an uncorrectable one is
counted in UE, its local address kept, and an event of severity 6 recorded; both counts saturate. A row at its activation limit is refreshed
and its port throttled on the bank, port 0 never, until the throttle ends. -/
def Obligations.ErrorsAndHammering : Prop :=
  (∀ (s : State) (ch l p : Nat), s.memoryUp → ch < 64 →
    Runs (.dramReadComplete ch l p .clean) s s ∧
    (∃ t, Runs (.dramReadComplete ch l p .corrected) s t ∧ OnlyRegs [MC_CH_ECC.at ch] s t ∧
      t.fld MC_CH_ECC ch MC_CH_ECC_CE = min (s.fld MC_CH_ECC ch MC_CH_ECC_CE + 1) 0xFFFF ∧
      t.fld MC_CH_ECC ch MC_CH_ECC_UE = s.fld MC_CH_ECC ch MC_CH_ECC_UE) ∧
    ∃ u, Runs (.dramReadComplete ch l p .uncorrectable) s (u.raise 0x801 6 ch (leBytes 8 l)) ∧
      OnlyRegs [MC_CH_ECC.at ch, MC_CH_UE_ADDR_LO.at ch, MC_CH_UE_ADDR_HI.at ch] s u ∧
      u.fld MC_CH_ECC ch MC_CH_ECC_UE = min (s.fld MC_CH_ECC ch MC_CH_ECC_UE + 1) 0xFFFF ∧
      u.fld MC_CH_ECC ch MC_CH_ECC_CE = s.fld MC_CH_ECC ch MC_CH_ECC_CE ∧
      (l < 2 ^ 64 → u.reg64 (MC_CH_UE_ADDR_LO.at ch) (MC_CH_UE_ADDR_HI.at ch) = l)) ∧
  (∀ (s : State) (ch bank row port : Nat), s.memoryUp → ch < 64 → bank < 16 → row < 2 ^ 18 → port < 12 →
    (∃ t, Runs (.rowLimit ch bank row port) s t ∧
      t.fld MC_CH_ACT ch MC_CH_ACT_RFM = min (s.fld MC_CH_ACT ch MC_CH_ACT_RFM + 1) 0xFFFF ∧
      (port = 0 → t.mc = s.mc) ∧
      (port ≠ 0 → (ch, bank, port) ∈ t.mc.throttles ∧ t.fld MC_PORT_STAT port MC_PORT_STAT_THROTTLED = 1) ∧
      t.dram = s.dram ∧ t.sram = s.sram ∧ t.se = s.se ∧ t.qm = s.qm) ∧
    ∃ t, Runs (.throttleExpiry ch bank port) s t ∧ (ch, bank, port) ∉ t.mc.throttles ∧
      OnlyRegs [MC_PORT_STAT.at port] { s with mc := t.mc } t)

/-- Refresh and retraining (R560, R561, R563): the refresh rate of a channel rises at once to what its temperature calls for, twice above 85 °C,
four times above 105 °C; an idle channel powers down; GO queues a channel and starts step 3 of its retraining when none runs; a passed step
goes on to the next, and the last one keeps the temperature it was trained at. -/
def Obligations.ChannelsFollowTemperature : Prop :=
  (∀ (s : State) (ch : Nat) (temp : Int), s.memoryUp → ch < 64 →
    (∃ t, Runs (.dramTempPoll ch temp) s t ∧
      (s.fld MC_CH_STATUS ch MC_CH_STATUS_REFRESH ≤ (if temp > 105 then 2 else if temp > 85 then 1 else 0) →
        t.fld MC_CH_STATUS ch MC_CH_STATUS_REFRESH = if temp > 105 then 2 else if temp > 85 then 1 else 0) ∧
      t.fld MC_CH_STATUS ch MC_CH_STATUS_TEMP_C = (BitVec.ofInt 8 temp).toNat ∧ t.dram = s.dram ∧ t.sram = s.sram ∧ t.se = s.se) ∧
    (s.fld MC_CH_STATUS ch MC_CH_STATUS_STATE = 0 →
      ∃ t, Runs (.channelPowerDown ch) s t ∧ OnlyRegs [MC_CH_STATUS.at ch] s t ∧ t.fld MC_CH_STATUS ch MC_CH_STATUS_STATE = 1 ∧
        t.fld MC_CH_STATUS ch MC_CH_STATUS_REFRESH = s.fld MC_CH_STATUS ch MC_CH_STATUS_REFRESH)) ∧
  (∀ (s : State) (port ch : Nat) (v : Word), WriteTaken s port (MC_RETRAIN.at 0) → MC_RETRAIN_GO.get v = 1 →
    MC_RETRAIN_CHANNEL.get v = ch →
    (∃ t, Runs (.mcRetrainGo port v) s t ∧ t.fld MC_RETRAIN 0 MC_RETRAIN_BUSY = 1 ∧
      t.fld MC_RETRAIN 0 MC_RETRAIN_DRIFT_C = max 5 (min 60 (MC_RETRAIN_DRIFT_C.get v)) ∧
      (s.mc.step = none → s.mc.retrain = [] → t.mc.step = some (ch, 3) ∧ t.fld MC_CH_STATUS ch MC_CH_STATUS_STATE = 3)) ∧
    ∀ n pass, s.mc.step = some (ch, n) → 3 ≤ n → n ≤ 6 → s.mc.discard = false →
      ∃ t, Runs (.retrainStepDone ch pass) s t ∧ t.fld MC_CH_TRAIN ch MC_CH_TRAIN_STEP = n ∧
        t.fld MC_CH_TRAIN ch MC_CH_TRAIN_PASS = b2n (pass && n = 6) ∧
        (pass = true → n < 6 → t.mc.step = some (ch, n + 1)) ∧
        (pass = true → n = 6 → (Tab.get? t.mc.trainedAt ch).isSome = true))

/-- The pattern helper (R565): GO with an OP starts it and clears the last result; its end reports the failing bits and a saturating count.
Addresses spread over the channels one to one: two device addresses of a region that map to one channel and one local address are
the same address (R553). -/
def Obligations.PagesAndDiagnostics : Prop :=
  (∀ (s : State) (port ch : Nat) (v : Word), ch < 64 →
    (WriteTaken s port (MC_CH_DIAG_CTL.at ch) → MC_CH_DIAG_CTL_GO.get v = 1 → MC_CH_DIAG_CTL_OP.get v ≠ 0 →
      s.fld MC_CH_DIAG_CTL ch MC_CH_DIAG_CTL_BUSY = 0 →
      ∃ t, Runs (.mcDiagGo port ch v) s t ∧ OnlyRegs [MC_CH_DIAG_CTL.at ch, MC_CH_DIAG_RESULT.at ch] s t ∧
        t.fld MC_CH_DIAG_CTL ch MC_CH_DIAG_CTL_BUSY = 1 ∧
        t.fld MC_CH_DIAG_CTL ch MC_CH_DIAG_CTL_OP = MC_CH_DIAG_CTL_OP.get v ∧ t.getReg (MC_CH_DIAG_RESULT.at ch) = 0) ∧
    ∀ dq errors, s.memoryUp → s.fld MC_CH_DIAG_CTL ch MC_CH_DIAG_CTL_BUSY = 1 →
      ∃ t, Runs (.mcDiagDone ch dq errors) s t ∧ OnlyRegs [MC_CH_DIAG_CTL.at ch, MC_CH_DIAG_RESULT.at ch] s t ∧
        t.fld MC_CH_DIAG_CTL ch MC_CH_DIAG_CTL_BUSY = 0 ∧ t.fld MC_CH_DIAG_RESULT ch MC_CH_DIAG_RESULT_DQ_FAIL = dq % 2 ^ 16 ∧
        t.fld MC_CH_DIAG_RESULT ch MC_CH_DIAG_RESULT_ERRORS = min errors 0xFFFF) ∧
  (∀ a b : Nat, mcRegionOf a = mcRegionOf b → (mcMap a).isSome = true → mcMap a = mcMap b → a = b)

/-- The metadata cache: outside regions 2 and 3 an access changes nothing (R568); a read that finds its line counts a hit, one that
finds neither line nor victim counts a miss and has the fill of its line under way or done (R575). The data memories stay. -/
def Obligations.CacheLooksUp : Prop :=
  ∀ (s : State) (a : CacheAccess) (block : Nat), s.up = true → s.pw.unitBusy.contains 3 = false → a.cls < 16 →
    s.mdc.fills.any (fun f => f.line = mdcLine a.addr) = false → s.fld MDC_CTL 0 MDC_CTL_EN = 1 →
    (mdcCached a.addr = false → Runs (.mdcFillReturn a block .none) s s) ∧
    (mdcCached a.addr = true → s.mdcCovered (mdcLine a.addr) a.cls = false →
      (∀ w, s.mdcWay? (mdcLine a.addr) = some w →
        ∃ t, Runs (.mdcFillReturn a block .none) s t ∧
          t.fld MDC_HIT 0 MDC_HIT_COUNT = min (s.fld MDC_HIT 0 MDC_HIT_COUNT + 1) 0xFFFFFFFF ∧
          t.fld MDC_MISS 0 MDC_MISS_COUNT = s.fld MDC_MISS 0 MDC_MISS_COUNT ∧ t.mdc.fills = s.mdc.fills ∧
          t.dram = s.dram ∧ t.sram = s.sram) ∧
      (s.mdcWay? (mdcLine a.addr) = none → s.mdc.victim.find? (fun l => l.line = mdcLine a.addr) = none → a.isWrite = true →
        ∃ t, Runs (.mdcFillReturn a block .none) s t ∧ OnlyRegs [MDC_MISS.at 0] s t ∧
          t.fld MDC_MISS 0 MDC_MISS_COUNT = min (s.fld MDC_MISS 0 MDC_MISS_COUNT + 1) 0xFFFFFFFF))

/-- Cache maintenance (R581, R583 to R585): GO of RANGE, ALL or CLASS drops every covered line and shows MAINT_BUSY; MAINT_DONE ends the operation
once no fill in flight when it began is left in it, and an ALL clears STALE; clearing MDC_CTL.EN sets STALE. -/
def Obligations.MaintenanceRuns : Prop :=
  (∀ (s : State) (port : Nat) (v : Word), WriteTaken s port (MDC_MAINT_CTL.at 0) → MDC_MAINT_CTL_GO.get v = 1 → s.mdc.maint = none →
    (∀ op c, (op = 1 ∧ c = Instr.mdcRange port v ∧ s.fld MDC_MAINT_LINES 0 MDC_MAINT_LINES_LINES ≠ 0) ∨
        (op = 2 ∧ c = Instr.mdcAll port v) ∨ (op = 3 ∧ c = Instr.mdcClass port v) → MDC_MAINT_CTL_OP.get v = op →
      ∃ t m, Runs c s t ∧ t.mdc.maint = some m ∧ m.op = op ∧ m.cls = MDC_MAINT_CTL_CLASS.get v ∧
        t.fld MDC_STATUS 0 MDC_STATUS_MAINT_BUSY = 1 ∧
        (∀ e ∈ t.mdc.ways, e ∈ s.mdc.ways ∧ m.covers e.2.line e.2.cls = false) ∧
        (∀ l ∈ t.mdc.victim, m.covers l.line l.cls = false) ∧
        (∀ e ∈ s.mdc.ways, m.covers e.2.line e.2.cls = false → e ∈ t.mdc.ways))) ∧
  (∀ (s : State), s.up = true → s.pw.unitBusy.contains 3 = false →
    (∀ m, s.mdc.maint = some m → s.mdc.fills.any (fun f => m.covers f.line f.cls && f.invalid) = false →
      ∃ t, Runs .maintDone s t ∧ t.mdc = { s.mdc with maint := none } ∧ t.fld MDC_STATUS 0 MDC_STATUS_MAINT_BUSY = 0 ∧
        (m.op = 2 → t.fld MDC_STATUS 0 MDC_STATUS_STALE = 0) ∧
        (m.op ≠ 2 → t.fld MDC_STATUS 0 MDC_STATUS_STALE = s.fld MDC_STATUS 0 MDC_STATUS_STALE) ∧ OnlyRegs [MDC_STATUS.at 0] { s with mdc := t.mdc } t) ∧
    (∀ port v, WriteTaken s port (MDC_CTL.at 0) → s.fld MDC_CTL 0 MDC_CTL_EN = 1 → MDC_CTL_EN.get v = 0 →
      MDC_CTL_HERITAGE.get v = s.fld MDC_CTL 0 MDC_CTL_HERITAGE →
      ∃ t, Runs (.mdcCtlWrite port v) s t ∧ OnlyRegs [MDC_CTL.at 0, MDC_STATUS.at 0] s t ∧
        t.fld MDC_CTL 0 MDC_CTL_EN = 0 ∧ t.fld MDC_STATUS 0 MDC_STATUS_STALE = 1))


/-- A mover channel starts at its PC with empty loops (R590), pauses between bursts and goes on from its registers, and a stop leaves
it STOPPED (R599). -/
def Obligations.MoverChannelControl : Prop :=
  ∀ (s : State) (port n : Nat) (v : Word), n < 29 → WriteTaken s port (XM_CH_CTL.at n) →
    (XM_CH_CTL_START.get v = 1 → XM_CH_CTL_STOP.get v = 0 → XM_CH_CTL_PAUSE.get v = 0 → s.xmState n = xmIdle ∨ s.xmState n = xmDone ∨
        s.xmState n = xmError ∨ s.xmState n = xmStopped →
      ∃ t, Runs (.xmStart port n v) s t ∧ t.xmState n = xmRun ∧ (t.xmChan n).loops = [] ∧ (t.xmChan n).move = none ∧
        t.xmPc n = s.xmPc n ∧ t.dram = s.dram ∧ t.sram = s.sram) ∧
    (XM_CH_CTL_START.get v = 0 → XM_CH_CTL_STOP.get v = 0 → XM_CH_CTL_PAUSE.get v = 1 → s.xmState n = xmRun → (s.xmChan n).move = none →
      ∃ t, Runs (.xmPause port n v) s t ∧ t.xmState n = xmPaused ∧ t.xm = s.xm ∧ OnlyRegs [XM_CH_CTL.at n, XM_CH_STATUS.at n] s t) ∧
    (XM_CH_CTL_START.get v = 0 → XM_CH_CTL_STOP.get v = 1 → XM_CH_CTL_PAUSE.get v = 0 → s.xmState n = xmRun ∨ s.xmState n = xmWaiting →
      ∃ t, Runs (.xmStop port n v) s t ∧ t.xmState n = xmStopped ∧ t.xm = s.xm ∧ OnlyRegs [XM_CH_CTL.at n, XM_CH_STATUS.at n] s t)

/-- The instructions of a running channel (R590, R591, R593, R595): a HALT ends the program in DONE with PC past it, a NOP only moves PC on, a WAIT
on a flag that is set consumes it, and an unlisted opcode halts the channel in ERROR. A burst of a MOVE from DRAM to SRAM copies its bytes
and leaves every other byte of both memories; the MOVE ends when all LEN bytes are written. -/
def Obligations.MoverRunsPrograms : Prop :=
  (∀ (s : State) (n : Nat) (bs : List Byte), s.memoryUp → n < 32 → s.xmState n = xmRun → (s.xmChan n).move = none →
      s.xmFetch n = some bs →
    (leAt bs 0 1 > 7 → ∃ t, Runs (.xmInstruction n false none) s t ∧ t.xmState n = xmError ∧
      t.fld XM_CH_STATUS n XM_CH_STATUS_ERR = 3 ∧ t.xm = s.xm ∧ OnlyRegs [XM_CH_STATUS.at n] s t) ∧
    (leAt bs 0 1 = 0 → xmReservedOk 0 (bit (leAt bs 1 1) 0) bs = true → s.xmPc n + 32 < 2 ^ 64 →
      ∃ t, Runs (.xmInstruction n false none) s t ∧ t.xmPc n = s.xmPc n + 32 ∧ t.xm = s.xm ∧
        OnlyRegs [XM_CH_PC_LO.at n, XM_CH_PC_HI.at n] s t) ∧
    (leAt bs 0 1 = 7 → xmReservedOk 7 (bit (leAt bs 1 1) 0) bs = true → s.xmPc n + 32 < 2 ^ 64 →
      ∃ t, Runs (.xmInstruction n false none) s t ∧ t.xmPc n = s.xmPc n + 32 ∧ t.xmState n = xmDone ∧ t.xm = s.xm) ∧
    (leAt bs 0 1 = 4 → leAt bs 2 1 = 1 → xmReservedOk 4 (bit (leAt bs 1 1) 0) bs = true → s.xmFlag (leAt bs 3 1) = true →
      ∃ t, Runs (.xmInstruction n false none) s t ∧ t.xmFlag (leAt bs 3 1) = false ∧ t.xmState n = xmRun ∧ t.xm = s.xm)) ∧
  (∀ (s : State) (n bytes : Nat) (m : Move), s.memoryUp → n < 32 → s.xmState n = xmRun → (s.xmChan n).move = some m →
    m.srcSpace = 0 → m.dstSpace = 1 → m.paced = false → m.down = false → m.retryAt = false → m.done ≤ m.len → m.len - m.done ≤ bytes →
    ∃ t, Runs (.xmBurstDone n bytes) s t ∧ (t.xmChan n).move = none ∧ t.dram = s.dram ∧
      memRead t.sram (m.dst + m.done) (m.len - m.done) = memRead s.dram (m.src + m.done) (m.len - m.done) ∧
      (∀ a, a < m.dst + m.done ∨ m.dst + m.len ≤ a → memGet t.sram a = memGet s.sram a) ∧
      t.getReg (XM_CH_REMAIN.at n) = 0 ∧ (m.full = true → t.fld XM_CH_STATUS n XM_CH_STATUS_FULL = 1))

/-- Flags, lines and errors of the mover: a written event flag that no channel waits on is set, one that a channel waits on starts that
channel (R594); a request line's level shows in XM_REQ (R593); an error response is counted and recorded, and the burst is retried while
retries remain, else the channel halts in ERROR (R600). -/
def Obligations.MoverFlagsLinesErrors : Prop :=
  (∀ (s : State) (port f : Nat), WriteTaken s port (XM_EVENT_SET.at 0) → f < 32 →
    (s.xmFlagTaker f = none → ∃ t, Runs (.xmEventSet port (BitVec.ofNat 32 (2 ^ f))) s t ∧ t.xmFlag f = true ∧ t.xm = s.xm ∧
      OnlyRegs [XM_EVENT.at 0] s t) ∧
    (∀ n, s.xmFlagTaker f = some n → ∃ t, Runs (.xmEventSet port (BitVec.ofNat 32 (2 ^ f))) s t ∧ t.xmState n = xmRun ∧
      (t.xmChan n).wait = none ∧ t.xmFlag f = s.xmFlag f)) ∧
  (∀ (s : State) (line : Nat), s.memoryUp → line = 0 ∨ line = 16 ∨ line = 17 →
    ∃ t, Runs (.xmRequestLine line false) s t ∧ t.xmLine line = false ∧ t.xm = s.xm ∧ OnlyRegs [XM_REQ.at 0] s t) ∧
  (∀ (s : State) (n : Nat) (m : Move) (w : Bool), s.memoryUp → n < 32 → s.xmState n = xmRun → (s.xmChan n).move = some m →
    m.paced = false →
    (s.fld XM_CH_STATUS n XM_CH_STATUS_RETRIES ≥ s.fld XM_CH_CFG n XM_CH_CFG_RETRY →
      ∃ t, Runs (.busError n w) s t ∧ t.xmState n = xmError ∧ t.fld XM_CH_STATUS n XM_CH_STATUS_ERR = (if w then 2 else 1) ∧
        t.fld XM_BUSERR 0 XM_BUSERR_COUNT = min (s.fld XM_BUSERR 0 XM_BUSERR_COUNT + 1) 0xFFFFFFFF ∧ t.xm = s.xm) ∧
    (s.fld XM_CH_STATUS n XM_CH_STATUS_RETRIES < s.fld XM_CH_CFG n XM_CH_CFG_RETRY → m.srcSpace ≠ 2 →
      ∃ t, Runs (.busError n w) s t ∧ t.xmState n = xmRun ∧ (t.xmChan n).move = some { m with retryAt := true } ∧
        t.fld XM_CH_STATUS n XM_CH_STATUS_RETRIES = s.fld XM_CH_STATUS n XM_CH_STATUS_RETRIES + 1) ∧
    (m.retryAt = true → ∃ t, Runs (.xmRetryExpiry n) s t ∧ (t.xmChan n).move = some { m with retryAt := false } ∧ t.regs = s.regs))

/-! ### Doorbells and queues -/

/-- A write T to DB_SQ_TAIL_n is accepted when T − C ≤ size; it then sets the announced tail to T if T − C ≥ A − C, and otherwise
leaves it; any other write is discarded and counted in the function's error counter (R323). -/
def Obligations.SubmissionTailWrites : Prop :=
  ∀ (s : State) (x n q : Nat) (a : Sq) (v : Word), s.up = true → s.dqNum x n = some q → s.sq? q = some a →
    (idxSub v a.c ≤ a.size →
      ∃ u, Ends (.dbSqTailWrite x n 4 v) s u ∧
        u.sq? q = some (if idxSub v a.c ≥ idxSub a.a a.c then { a with a := v } else a) ∧
        (∀ p, p ≠ q → u.dq p = s.dq p) ∧ u.regs = s.regs ∧ u.se = s.se ∧ u.sec = s.sec ∧ s.out <+: u.out) ∧
    (a.size < idxSub v a.c →
      ∃ u, Ends (.dbSqTailWrite x n 4 v) s u ∧ u.qm = s.qm ∧ OnlyRegs [QM_FN_ERR.at x] s u ∧
        u.fld QM_FN_ERR x QM_FN_ERR_COUNT = min (s.fld QM_FN_ERR x QM_FN_ERR_COUNT + 1) 0xFFFFFFFF)

/-- A write T to DB_CQ_HEAD_n is accepted when T − H ≤ Pc − H, and then sets H to T; any other write is discarded and counted (R338).
With the spill list empty the producer index stays, and the breakwater opens when the load has fallen to size + ⌊L ÷ 2⌋ (R344). -/
def Obligations.CompletionHeadWrites : Prop :=
  ∀ (s : State) (x n q : Nat) (c : Cq) (v : Word), s.up = true → s.dqNum x n = some q → s.cq? q = some c →
    (idxSub v c.h ≤ c.inRing → c.spill = [] →
      ∃ u d, Ends (.dbCqHeadWrite x n 4 v) s u ∧ u.cq? q = some d ∧ d.h = v ∧ d.pc = c.pc ∧ d.spill = [] ∧
        d.outstanding = c.outstanding ∧
        d.closed = (c.closed && decide (c.size + c.spillLimit / 2 < c.outstanding + idxSub c.pc v))) ∧
    (c.inRing < idxSub v c.h →
      ∃ u, Ends (.dbCqHeadWrite x n 4 v) s u ∧ u.qm = s.qm ∧ OnlyRegs [QM_FN_ERR.at x] s u ∧
        u.fld QM_FN_ERR x QM_FN_ERR_COUNT = min (s.fld QM_FN_ERR x QM_FN_ERR_COUNT + 1) 0xFFFFFFFF)

/-- A doorbell write of another size than 32 bits, or an unaligned write of a pair, is discarded and counted (R40); an aligned write of a
pair acts as a write of the tail followed by one of the head (R39). A write to the doorbell of a local number that is not bound is discarded and
counted in the function's error counter, and the first such write after each read of that counter is an event (R41). -/
def Obligations.DoorbellForms : Prop :=
  (∀ (s : State) (x n size : Nat) (t h : Word), s.up = true →
    (size ≠ 4 → Ends (.dbSqTailWrite x n size t) s (s.bump QM_FN_ERR x QM_FN_ERR_COUNT) ∧
      Ends (.dbCqHeadWrite x n size t) s (s.bump QM_FN_ERR x QM_FN_ERR_COUNT)) ∧
    Ends (.doorbellPairWrite x n false t h) s (s.bump QM_FN_ERR x QM_FN_ERR_COUNT) ∧
    ∀ u w, u = State.readAnnounced s (s.sqTail x n t) x n → w = u.cqHead x n h →
      Ends (.dbSqTailWrite x n 4 t) s u ∧ Ends (.doorbellPairWrite x n true t h) s w ∧
        (u.up = true → Ends (.dbCqHeadWrite x n 4 h) u w)) ∧
  (∀ (s : State) (x n : Nat) (v : Word), s.up = true → x < 130 → s.dqNum x n = none →
    ∀ c, c = Instr.dbSqTailWrite x n 4 v ∨ c = Instr.dbCqHeadWrite x n 4 v →
      ((s.fn x).strayArmed = true →
        ∃ w, Ends c s (w.raise 0x401 2 x (leBytes 4 n)) ∧ OnlyRegs [QM_FN_ERR.at x] { s with qm := w.qm } w ∧
          w.fld QM_FN_ERR x QM_FN_ERR_COUNT = min (s.fld QM_FN_ERR x QM_FN_ERR_COUNT + 1) 0xFFFFFFFF ∧
          (w.fn x).strayArmed = false ∧ w.qm.queues = s.qm.queues) ∧
      ((s.fn x).strayArmed = false →
        ∃ w, Ends c s w ∧ OnlyRegs [QM_FN_ERR.at x] s w ∧
          w.fld QM_FN_ERR x QM_FN_ERR_COUNT = min (s.fld QM_FN_ERR x QM_FN_ERR_COUNT + 1) 0xFFFFFFFF))

/-- Consuming an entry moves C past its slots, reserves a completion place and makes the command's record, and touches no other queue, memory or
part of the storage engine (R331, R342). An answered read of an announced slot keeps its 64 bytes, a recheck reads the first announced
slot that is not valid, a first slot that stays invalid costs one slot with MALFORMED_LENGTH, and a poll reads the slot at C (R327, R328, R330). -/
def Obligations.EntriesAreReadAndConsumed : Prop :=
  (∀ (s : State) (op q : Nat) (c : HostCmd) (a : Sq), Takes s op c q → s.sq? q = some a →
    ∃ t k, s.taken q c = (s.qm.nextCmd, t) ∧ t.cmd? s.qm.nextCmd = some k ∧ k.body = .running ∧ k.cid = entryCid c ∧ k.op = op ∧
      k.dq = q ∧ k.cq = a.cq ∧ k.head = a.c + BitVec.ofNat 32 (entrySlots c) ∧ k.silent = false ∧
      t.qm.nextCmd = s.qm.nextCmd + 1 ∧ (t.sq? q).map (·.c) = some (a.c + BitVec.ofNat 32 (entrySlots c)) ∧
      (∀ i, i ≠ s.qm.nextCmd → t.cmd? i = s.cmd? i) ∧ (∀ p, p ≠ q → p ≠ a.cq → t.dq p = s.dq p) ∧
      t.dram = s.dram ∧ t.sram = s.sram ∧ t.se = s.se ∧ t.qm.fns = s.qm.fns) ∧
  (∀ (s : State) (q : Nat) (d : DevQueue) (a : Sq), s.up = true → s.dq q = some d → d.sq = some a →
    (∀ idx bs reads, idxSub idx a.c < a.announced → idxSub idx a.c < a.size →
      Tab.get? s.qm.visit (2 * s.portOf q + s.tierOf q) = none →
      ∃ u b, Ends (.sqSlotRead q idx (some bs) reads) s u ∧ u.sq? q = some b ∧
        Tab.get? b.slots idx.toNat = some (padTo 64 bs) ∧ b.c = a.c ∧ b.a = a.a ∧ u.regs = s.regs ∧ s.out <+: u.out) ∧
    (∀ i is, a.waiting = i :: is → ∃ u, Ends (.slotRecheck q) s u ∧ u = { s with out := u.out } ∧
      u.out = s.out ++ [.hostRead d.x (a.base + 64 * ((a.c.toNat + i) % a.size)) 64]) ∧
    (∀ is, a.waiting = 0 :: is → s.canConsume q = true →
      Ends (.slotLapTimeout q) s
        ((s.consume q 1 (leAt (a.slotAt 0) 4 4) (leAt (a.slotAt 0) 0 1)).2.complete
          (s.consume q 1 (leAt (a.slotAt 0) 4 4) (leAt (a.slotAt 0) 0 1)).1 stMalformedLength)) ∧
    (a.pollUs ≠ 0 → ∃ u, Ends (.sqPoll q) s u ∧ u = { s with out := u.out } ∧ s.out <+: u.out ∧
      (a.slotValid a.c = false → a.size > 0 → Out.hostRead d.x (a.base + 64 * (a.c.toNat % a.size)) 64 ∈ u.out)))

/-- The control queue of a function is made by EN = 1 when its sizes, vector, spill and number allow it, as local queue 0 (R313, R314),
and EN = 0 takes it away once no other local number is held and its commands have ended (R321). -/
def Obligations.ControlQueueEnables : Prop :=
  ∀ (s : State) (x : Nat) (v : Word), s.up = true →
    (∀ q t, (s.fn x).present = true → (s.fn x).ctlq.toNat % 2 = 0 → s.dqNum x 0 = none → s.bindQueue x 0 = some (q, t) →
      4 ≤ (ctlqFields v).1 → (ctlqFields v).1 ≤ 16 → 4 ≤ (ctlqFields v).2.1 → (ctlqFields v).2.1 ≤ 16 →
      (ctlqFields v).2.2 < s.vectorsOf x → s.spillFree 64 = true →
      ∃ u d a k, Ends (.ctlqEnable x v) s u ∧ u.dq q = some d ∧ d.x = x ∧ d.loc = 0 ∧ d.sq = some a ∧ d.cq = some k ∧
        a.log2 = (ctlqFields v).1 ∧ a.base = (s.fn x).sqBase ∧ k.log2 = (ctlqFields v).2.1 ∧ k.base = (s.fn x).cqBase ∧
        k.vector = some (ctlqFields v).2.2 ∧ (u.fn x).ctlq.toNat % 2 = 1 ∧ u.regs = s.regs) ∧
    ((s.fn x).ctlq.toNat % 2 = 1 → s.qm.queues.any (fun e => e.2.x = x && e.2.loc != 0) = false →
      ∃ u, Ends (.ctlqDisable x) s u ∧ (u.fn x).ctlq.toNat % 2 = 0 ∧ u.regs = s.regs) ∧
    (s.qm.queues.any (fun e => e.2.x = x && e.2.loc != 0) = true →
      Ends (.ctlqDisable x) s (s.bump QM_FN_ERR x QM_FN_ERR_COUNT))

/-- A visit of the arbiter (R333): with no eligible queue on the port nothing is consumed; with one in the first tier that has credit the entry
at its C is the one consumed. The coalescing timer sends the message of a queue with entries that none covers, and the unmasking of a
vector sends a message held for it (R340, R341). -/
def Obligations.VisitsAndVectors : Prop :=
  (∀ (s : State) (port : Nat) (r : HostRead), s.up = true →
    (s.eligibleIn port 0 = [] → s.eligibleIn port 1 = [] → Ends (.sqFetch port [r]) s s) ∧
    (∀ q a, s.eligibleIn port 0 = [q] → s.sq? q = some a → a.credits > 0 → a.burst = 1 → s.eligible q = true →
      ∃ v, Ends (.sqFetch port [r]) s { v with qm := { v.qm with visit := Tab.set v.qm.visit (2 * port) (q, 0) } } ∧
        v = (State.consumeNext { s with qm := { s.qm with visit := Tab.set s.qm.visit (2 * port) (q, 1) } } q r).modSq q
              (fun b => { b with credits := b.credits - 1 }))) ∧
  (∀ (s : State), s.up = true →
    (∀ q d c v, s.dq q = some d → d.cq = some c → c.vector = some v → c.unsignalled > 0 → (s.fn d.x).msixOn = true →
      v < s.vectorsOf d.x → (s.fn d.x).unmasked.contains v = true →
      ∃ u, Ends (.cqCoalTimer q) s u ∧ u.out = s.out ++ [.msix d.x v] ∧ (u.cq? q).map (·.unsignalled) = some 0 ∧
        u.regs = s.regs) ∧
    (∀ x v, (s.fn x).present = true → v < s.vectorsOf x →
      ∃ u, Ends (.msixUnmask x v) s u ∧ v ∈ (u.fn x).unmasked ∧ v ∉ (u.fn x).pendingVec ∧
        u.out = s.out ++ (if (s.fn x).pendingVec.contains v then [.msix x v] else []) ∧ u.regs = s.regs ∧
        u.qm.queues = s.qm.queues))

/-- Functions (R310, R334, R345, R346): Bus Master Enable follows the command; after a reset of a function no queue is bound to it and it
may not fetch; after a reset of a port or link its functions are gone, and after its training they are present. WEIGHT and BURST follow
the QC window (R335). -/
def Obligations.FunctionsComeAndGo : Prop :=
  ∀ (s : State), s.up = true →
    (∀ x on, (s.fn x).present = true → ∃ u, Ends (.busMasterEnableChange x on) s u ∧ (u.fn x).bme = on ∧
      (∀ y, y ≠ x → u.fn y = s.fn y) ∧ u.qm.queues = s.qm.queues ∧ u.regs = s.regs) ∧
    (∀ x, x < 130 → s.vfsOf x = [] → ∃ u, Ends (.functionReset x .flr) s u ∧ (∀ e ∈ u.qm.queues, e.2.x ≠ x) ∧
      (u.fn x).bme = false ∧ (u.fn x).ctlq = 0) ∧
    (∀ port link, port < 2 → ∃ u, Ends (.portReset port link) s u ∧
      (∀ x ∈ u.linkFns port link, (u.fn x).present = false) ∧ (link = 0 → u.fld QM_PORT port QM_PORT_UP0 = 0)) ∧
    (∀ port link rate width flit, port < 2 → ∃ u, Ends (.hostLinkUp port link rate width flit) s u ∧
      (∀ x ∈ u.linkFns port link, (u.fn x).present = true) ∧ (link = 0 → u.fld QM_PORT port QM_PORT_UP0 = 1) ∧ u.dram = s.dram) ∧
    (∀ port q a v, q < 65536 → s.sq? q = some a → WriteTaken s port (QC_SQ_ARB.at q) →
      ∃ u, Ends (.qcArbWrite port q v) s u ∧
        u.sq? q = some { a with weight := max 1 (QC_SQ_ARB_WEIGHT.get v), burst := max 1 (min 64 (QC_SQ_ARB_BURST.get v)) } ∧
        (∀ p, p ≠ q → u.dq p = s.dq p) ∧ u.regs = s.regs)

/-! ### Commands of the hosts -/

/-- A command whose checks fail ends at once with the status and DETAIL of the first failing one (R356), and does nothing else. -/
def Obligations.FailedChecksEndCommands : Prop :=
  ∀ (s t : State) (op id q st d : Nat) (c : HostCmd), Takes s op c q → s.taken q c = (id, t) →
    (op = 0x01 → t.appendChecks c = some (st, d) → Ends (.append c) s (t.complete id st [] d)) ∧
    (op = 0x02 → t.readChecks c = some (st, d) → Ends (.read c) s (t.complete id st [] d)) ∧
    (op = 0x03 → t.releaseChecks c = some (st, d) → Ends (.release c) s (t.complete id st [] d)) ∧
    (op = 0x04 → t.copyChecks c = some (st, d) → ∀ r, Ends (.copyForward c r) s (t.complete id st [] d)) ∧
    (op = 0x20 → t.poolCreatePre c = some (st, d) → Ends (.poolCreate c) s (t.complete id st [] d)) ∧
    (op = 0x30 → t.driveSetPre c = some (st, d) → Ends (.driveSet c) s (t.complete id st [] d)) ∧
    (op = 0x40 → t.timeSetPre c = some (st, d) → Ends (.timeSet c) s (t.complete id st [] d)) ∧
    (op = 0x53 → t.protectSetPre c = some (st, d) → Ends (.protectSet c) s (t.complete id st [] d)) ∧
    (op = 0x70 → t.queueCreatePre id c = some (st, d) → Ends (.queueCreate c) s (t.complete id st [] d))

/-- The data commands that pass their checks (R116, R193, R367, R149, R140, R141, R366): an APPEND and a READ are held with what their
entry names, a RELEASE of one extent and a QUERY_LOCATOR answer, a COPY_FORWARD of one source goes on with its bytes, a SEAL waits for
the open stripes that hold placements or ends with none, and a FLUSH waits for what is placed. -/
def Obligations.DataCommandsRun : Prop :=
  ∀ (s t : State) (op id q : Nat) (c : HostCmd), Takes s op c q → s.taken q c = (id, t) →
    (op = 0x01 → t.appendChecks c = none →
      ∃ a : AppendCmd, Ends (.append c) s (t.setBody id (.append a)).admitHeld ∧ a.pool = entryLe c 0 8 2 ∧ a.len = entryLe c 0 12 4 ∧
        a.tag = BitVec.ofNat 256 (entryLe c 0 16 32) ∧ a.durable = bit (entryFlags c) 8 ∧ a.reserved = false ∧ a.placed = none ∧
        a.whole = false ∧ a.parent = none) ∧
    (op = 0x02 → t.readChecks c = none →
      ∃ r : ReadCmd, Ends (.read c) s (t.startRead id r) ∧ r.pool = (locatorOf (entryBytes c 0 8 16)).pool ∧
        r.stripe = (locatorOf (entryBytes c 0 8 16)).stripe ∧ r.extOff = (locatorOf (entryBytes c 0 8 16)).off ∧
        r.extLen = (locatorOf (entryBytes c 0 8 16)).len ∧ r.start = entryLe c 1 48 4 ∧ r.len = readLen c) ∧
    (op = 0x03 → t.releaseChecks c = none → ∀ l tag, releaseItems c = [(l, tag)] → ∀ r, t.releaseItem (locatorOf l) tag = r →
      (r.1 = .resolved → Ends (.release c) s (r.2.complete id stSuccess (leBytes 2 1 ++ leBytes 2 0 ++ leBytes 2 0) 0 0)) ∧
      (r.1 = .pending → Ends (.release c) s (r.2.complete id stSuccess (leBytes 2 0 ++ leBytes 2 1 ++ leBytes 2 0) 0 flPending)) ∧
      (∀ st, r.1 = .rejected st →
        Ends (.release c) s (r.2.complete id stPartial (leBytes 2 0 ++ leBytes 2 0 ++ leBytes 2 1) st 0))) ∧
    (op = 0x04 → t.copyChecks c = none → ∀ e bytes w, copySources c = [e] →
      w = t.setBody id (.copy (entryDesc c 0 16).addr (entryDesc c 0 16).len [{ locator := [], status := none, durable := false }]) →
      (w.sourceCheck c e = none →
        Ends (.copyForward c [.ok bytes]) s (w.copyOne id 0 (entryLe c 0 8 2) (bit (entryFlags c) 8) e.tag
          (padTo (locatorOf e.loc).len bytes)).admitHeld) ∧
      (∀ st, w.sourceCheck c e = some st →
        Ends (.copyForward c [.ok bytes]) s (w.copyItem id 0 { locator := [], status := some st, durable := false }).admitHeld)) ∧
    (op = 0x05 → t.sealChecks c = none → ∀ w l, w = t.each (t.sealPools c) (fun p s => s.sealPool p) →
      l = (t.sealPools c).flatMap (fun p => ((t.openOf p).filter (fun e => !e.2.dir.isEmpty)).map (fun e => (p, e.1))) →
      (l = [] → Ends (.sealCommand c) s ((w.setBody id (.sealWait [] 0)).complete id stSuccess (leBytes 4 0))) ∧
      (l ≠ [] → Ends (.sealCommand c) s (w.setBody id (.sealWait l l.length)))) ∧
    (op = 0x06 → t.sealChecks c = none → ∃ (w : State) (l : List (Nat × Nat)) (ids : _), Ends (.flush c) s (w.setBody id (.flush l ids)).flushHook ∧
      w = t.each (t.sealPools c) (fun p s => s.sealPool p) ∧
      (∀ p n, (p, n) ∈ l → ∃ x, (n, x) ∈ t.stripesOf p ∧ (x.state = .opened ∧ x.dir ≠ [] ∨ x.state = .sealed))) ∧
    (op = 0x07 → t.queryChecks c = none →
      Ends (.queryLocator c) s (t.complete id stSuccess (t.queryResult (locatorOf (entryBytes c 0 8 16))
        (if bit (entryFlags c) 8 then some (BitVec.ofNat 256 (entryLe c 0 24 32)) else none))))

/-- The queue commands that pass their checks (R315 to R320, R348, R378): a queue is made at its device queue number, one that nothing
feeds is deleted, a submission queue's deletion waits for its commands, and an orphan that is adopted leaves the list. -/
def Obligations.QueueCommandsRun : Prop :=
  ∀ (s t : State) (op id q : Nat) (c : HostCmd), Takes s op c q → s.taken q c = (id, t) →
    (op = 0x70 → t.queueCreatePre id c = none → ∀ k w, t.bindQueue c.x (entryLe c 0 10 2) = some (k, w) →
      Ends (.queueCreate c) s ((w.makeQueue c k).complete id stSuccess (leBytes 2 k)) ∧
      ∃ d, (w.makeQueue c k).dq k = some d ∧ d.x = c.x ∧ d.loc = entryLe c 0 10 2 ∧
        (entryByte c 0 8 = 1 → ∃ a, d.sq = some a ∧ a.log2 = entryByte c 0 9 ∧ a.base = entryLe c 0 16 8 ∧
          a.weight = entryByte c 0 26 ∧ a.burst = entryByte c 0 27) ∧
        (entryByte c 0 8 = 0 → ∃ a, d.cq = some a ∧ a.log2 = entryByte c 0 9 ∧ a.base = entryLe c 0 16 8 ∧
          a.spillLimit = entryLe c 0 32 4)) ∧
    (op = 0x71 → t.queueDeletePre id c = none → ∀ k, t.dqNum c.x (entryLe c 0 10 2) = some k →
      (entryByte c 0 8 = 0 → t.fed k = true → Ends (.queueDelete c) s (t.complete id stQueueInUse)) ∧
      (entryByte c 0 8 = 0 → t.fed k = false → Ends (.queueDelete c) s ((t.dropCq k).complete id stSuccess)) ∧
      (entryByte c 0 8 = 1 → ∃ w : State, w = t.setBody id (.queueDelete k) ∧
        Ends (.queueDelete c) s (State.settle w.qm.cmds.length w).settleCtlq)) ∧
    (op = 0x72 → t.orphanListPre id c = none → ∃ (w : State) (bytes result : List Byte), Ends (.orphanList c) s (w.complete id stSuccess result) ∧
      w = t.toHost id (descOfEntry c 32).addr bytes ∧
      ∃ l : List Orphan, l.length ≤ entryLe c 0 12 4 ∧ bytes = l.flatMap Orphan.bytes ∧
        ∀ o ∈ l, o ∈ t.qm.orphans ∧ o.x = orphanTarget c) ∧
    (op = 0x73 → t.orphanSettlePre id c = none → entryByte c 0 10 = 0 → ∀ p n o, settleItems c = [(p, n)] →
      t.qm.orphans.find? (fun o => o.x = orphanTarget c && o.pool = p && o.seq = n) = some o →
      Ends (.orphanSettle c) s ((t.dropOrphan o).complete id stSuccess (leBytes 4 1 ++ leBytes 4 0 ++ leBytes 4 0)))

/-- A command of pool, drive or device administration that passes its checks starts at once when no earlier command on the same pools,
drives or device-wide is left, and waits for its turn else (R85, R382); one that needs a drive behind a gated link die completes with
DOMAIN_OFF (R538). -/
def Obligations.AdminCommandsTakeTurns : Prop :=
  ∀ (s t : State) (op id q : Nat) (c : HostCmd), Takes s op c q → s.taken q c = (id, t) →
    (t.blocked id c = true →
      (op = 0x20 → t.poolCreatePre c = none → Ends (.poolCreate c) s (t.setBody id (.serial c 0))) ∧
      (op = 0x23 → t.poolDeletePre c = none → Ends (.poolDelete c) s (t.setBody id (.serial c 0))) ∧
      (op = 0x40 → t.timeSetPre c = none → Ends (.timeSet c) s (t.setBody id (.serial c 0)))) ∧
    (t.blocked id c = false →
      (op = 0x20 → t.poolCreatePre c = none → t.poolState (entryByte c 0 8) = .none →
        Tab.get? t.pl.standby (entryByte c 0 8) = none → drivesRead c = none → t.claimFree = true → t.createChecks c = none →
        (entryDrives c).any t.dieOff = false → Ends (.poolCreate c) s (t.createPool id c)) ∧
      (op = 0x21 → t.poolGrowPre c = none → t.adminPool (entryByte c 0 8) = none → drivesRead c = none → t.claimFree = true →
        ((entryDrives c).any t.dieOff = true → Ends (.poolGrow c) s (t.complete id stDomainOff)) ∧
        (t.growChecks c = none → (entryDrives c).any t.dieOff = false → Ends (.poolGrow c) s (t.growPool id c))) ∧
      (op = 0x22 → t.poolSetPre c = none → t.poolCheck (entryByte c 0 8) = none → t.pw.epoch = none →
        Ends (.poolSet c) s ((t.setBody id (.serial c 3)).startEpoch (.poolSet c) (some id))) ∧
      (op = 0x23 → t.poolDeletePre c = none → t.poolUp (entryByte c 0 8) = true → bit (entryFlags c) 8 = true →
        ∃ w : State, Ends (.poolDelete c) s ((w.endOnPool (entryByte c 0 8)).reclaimPool (entryByte c 0 8)) ∧
          w.poolState (entryByte c 0 8) = PoolState.retiring) ∧
      (op = 0x24 → t.poolRecoverPre c = none → ∀ x, t.pool? (entryByte c 0 8) = some x → x.state = .assembling →
        x.recovery = .waitPartner → Ends (.poolRecover c) s ((t.complete id stSuccess).endWait (entryByte c 0 8))) ∧
      (op = 0x25 → t.lossClearPre c = none → ∀ x, t.pool? (entryByte c 0 8) = some x → x.loss = [] →
        t.adminPool (entryByte c 0 8) = none → entryLe c 0 16 8 ≤ x.lossFirst →
        ∃ w : State, Ends (.lossClear c) s (w.complete id stSuccess (leBytes 4 0)) ∧ w.se.stripes = t.se.stripes ∧ w.regs = t.regs) ∧
      (op = 0x26 → t.poolGivePre c = none → t.pl.peer = .paired → ∀ x, entryByte c 0 8 ≠ 0xFF → t.poolUp (entryByte c 0 8) = true →
        t.pool? (entryByte c 0 8) = some x → x.giving = none →
        ∃ w : State, Ends (.poolGive c) s (w.sealPool (entryByte c 0 8))) ∧
      (op = 0x28 → t.scarfStartPre c = none → t.adminPool (entryByte c 0 8) = none → t.scarf? (entryByte c 0 8) = none →
        drivesRead c = none → t.claimFree = true → t.scarfChecks c = none →
        (t.scarfTakes (entryByte c 0 8) (entryDrives c)).any t.dieOff = false → Ends (.scarfStart c) s (t.startScarf id c)) ∧
      (op = 0x29 → t.scarfEndPre c = none → t.adminPool (entryByte c 0 8) = none → t.brokenHold (entryByte c 0 8) = false →
        ∀ k, t.scarf? (entryByte c 0 8) = some k → k.state = .copied →
        Ends (.scarfCommit c) s (((t.setBody id (.scarfCommit (entryByte c 0 8))).modScarf (entryByte c 0 8)
          (fun c => { c with state := .committing })).startCkpt (entryByte c 0 8) ckCommit)) ∧
      (op = 0x2A → t.scarfEndPre c = none → t.adminPool (entryByte c 0 8) = none → t.returnSet (entryByte c 0 8) = [] →
        ∀ k, t.scarf? (entryByte c 0 8) = some k → k.state = .copying ∨ k.state = .stalled →
        Ends (.scarfAbort c) s (t.startAbort id (entryByte c 0 8))) ∧
      (op = 0x30 → t.driveSetPre c = none → ∀ x, t.slot? (entryLe c 0 8 2) = some x → x.present = true →
        (entryByte c 0 10 = 6 →
          Ends (.driveSet c) s ((t.modSlot (entryLe c 0 8 2) (fun x => { x with locate := decide (entryByte c 0 14 = 1) })).complete id
            stSuccess)) ∧
        (entryByte c 0 10 = 1 → t.dieOff (entryLe c 0 8 2) = true → Ends (.driveSet c) s (t.complete id stDomainOff)) ∧
        (entryByte c 0 10 = 4 → (t.drive? (entryLe c 0 8 2)).isSome = true → (t.memberPool (entryLe c 0 8 2)).isSome = true →
          bit (entryFlags c) 8 = true ∨ t.failExceeds (entryLe c 0 8 2) = false →
          Ends (.driveSet c) s ((t.failMember (entryLe c 0 8 2) 9).complete id stSuccess))))

/-- TIME_SET in its turn (R15, R16): the new value takes effect at once and marks the time set, a value below the current one is accepted
with an event that carries both, and the completion returns the old value. -/
def Obligations.TimeSetTakesEffect : Prop :=
  ∀ (s t : State) (id q : Nat) (c : HostCmd), Takes s 0x40 c q → s.taken q c = (id, t) → t.timeSetPre c = none →
    t.blocked id c = false →
    ∃ u : State, Ends (.timeSet c) s (u.complete id stSuccess (leBytes 8 t.devNs ++ leBytes 1 (b2n (!t.timeSet)))) ∧
      u.devNs = entryLe c 0 8 8 ∧ u.timeSet = true ∧
      (t.devNs ≤ entryLe c 0 8 8 → u = { t with devNs := entryLe c 0 8 8, devFrac := 0, timeSet := true }) ∧
      (entryLe c 0 8 8 < t.devNs → u = State.raise { t with devNs := entryLe c 0 8 8, devFrac := 0, timeSet := true } 0x002 4 noInst
        (leBytes 8 t.devNs ++ leBytes 8 (entryLe c 0 8 8)))

/-- Sessions and the protection table (R499, R500, R503 to R506): a challenge replaces the one the function holds and goes to its buffer;
a good proof makes the function the holder, a bad one is counted; the holder may close; and PROTECT_SET puts the entry in force under a
new epoch. -/
def Obligations.SessionsAndProtection : Prop :=
  ∀ (s t : State) (op id q : Nat) (c : HostCmd), Takes s op c q → s.taken q c = (id, t) → t.blocked id c = false →
    (op = 0x50 → sessionOpenPre c = none →
      ∃ (u : State) (bytes : List Byte), Ends (.sessionOpen c) s ((u.toHost id (descOfEntry c 24).addr bytes).complete id stSuccess (leBytes 4 128)) ∧
        bytes.length = 128 ∧ Tab.get? u.sec.challenges c.x = some ⟨entryByte c 0 8, bytes⟩ ∧
        u.sec.challengeSeq = t.sec.challengeSeq + 1 ∧ u.sec.session = t.sec.session) ∧
    (op = 0x51 → sessionProvePre c = none → ∀ sig, c.read.data = some sig →
      (∀ h, t.proofGood c.x sig = some h →
        ∃ u : State, Ends (.sessionProve c) s (u.complete id stSuccess) ∧ Tab.get? u.sec.challenges c.x = none ∧
          ∃ o, u.sec.session = some o ∧ o.port = fnPort c.x ∧ o.keySlot = h.keySlot) ∧
      (t.proofGood c.x sig = none →
        ∃ u : State, Ends (.sessionProve c) s (u.complete id stSessionRefused) ∧ Tab.get? u.sec.challenges c.x = none ∧
          u.sec.session = t.sec.session ∧
          u.fld SEC_SESSION_FAIL 0 SEC_SESSION_FAIL_COUNT = min (t.fld SEC_SESSION_FAIL 0 SEC_SESSION_FAIL_COUNT + 1)
            (2 ^ SEC_SESSION_FAIL_COUNT.len - 1))) ∧
    (op = 0x52 → sessionClosePre c = none →
      (t.hasSession c.x = true → ∃ u : State, Ends (.sessionClose c) s (u.complete id stSuccess) ∧ u.sec.session = none) ∧
      (t.hasSession c.x = false → Ends (.sessionClose c) s (t.complete id stNoSession))) ∧
    (op = 0x53 → t.protectSetPre c = none →
      ∃ u : State, (Ends (.protectSet c) s (u.complete id stSuccess (leBytes 8 u.sec.epoch)) ∨
          ∃ older, Ends (.protectSet c) s (u.setBody id (.protectSet u.sec.epoch older))) ∧
        u.sec.epoch = (t.sec.epoch + 1) % 2 ^ 64 ∧ u.sec.dirty = true ∧
        u.prot (entryByte c 0 8 * 65 + entryByte c 0 9) =
          ⟨entryLe c 0 10 2, entryLe c 0 12 4, BitVec.ofNat 256 (entryLe c 0 16 32)⟩ ∧
        ∀ f, f ≠ entryByte c 0 8 * 65 + entryByte c 0 9 → u.prot f = t.prot f) ∧
    (op = 0x54 → t.protectCommitPre c = none →
      ((Tab.keys t.se.pools).filter t.poolUp = [] → Ends (.protectCommit c) s (t.complete id stPoolOffline)) ∧
      ((Tab.keys t.se.pools).filter t.poolUp ≠ [] →
        ∃ u : State, Ends (.protectCommit c) s (u.setBody id (.protectCommit (t.sec.genSeen + 1))) ∧ u.sec.genSeen = t.sec.genSeen + 1))

/-- The commands that read the device and those that stage contents (R380, R379, R489 to R491, R521, R534): a telemetry page and event
records go to the host's buffer, staged bytes go to the port's buffer, a commit whose verification fails ends STAGE_INVALID, an
attestation report is signed with a free signature, and MODE 0 changes nothing. -/
def Obligations.DeviceCommandsRun : Prop :=
  ∀ (s t : State) (op id q : Nat) (c : HostCmd), Takes s op c q → s.taken q c = (id, t) →
    (op = 0x41 → t.telemetryPre c = none → ∀ x, t.poolSeen (entryLe c 0 10 2) = some x → x.state ≠ .none →
      ∃ bytes, bytes = (if entryByte c 0 8 = 1 then t.poolPage (entryLe c 0 10 2) x else t.lossPage (entryLe c 0 10 2) x) ∧
        Ends (.telemetryGet c) s ((t.toHost id (descOfEntry c 24).addr
            ((bytes.drop (entryLe c 0 16 8)).take (descOfEntry c 24).len)).complete id stSuccess
          (leBytes 8 bytes.length ++ leBytes 4 ((bytes.drop (entryLe c 0 16 8)).take (descOfEntry c 24).len).length))) ∧
    (op = 0x42 → t.evReadPre c = none →
      ∃ rs next, rs = (t.ev.recordsFrom (entryLe c 0 8 8)).take (entryLe c 0 16 4) ∧
        Ends (.evRead c) s ((t.toHost id (descOfEntry c 24).addr (rs.flatMap EvRecord.bytes)).complete id stSuccess
          (leBytes 4 rs.length ++ zeros 4 ++ leBytes 8 next)) ∧ (rs = [] → next = entryLe c 0 8 8)) ∧
    (op = 0x43 → t.evClearPre c = none → t.blocked id c = false → t.hasEB = false →
      ∃ (u : State) (r : EvRecord), Ends (.evClear c) s (u.complete id stSuccess (leBytes 8 r.seq)) ∧ u.ev.ring = [r] ∧ u.ev.log = [] ∧ r.code = 0x301) ∧
    (op = 0x44 → t.deviceModePre c = none → t.blocked id c = false →
      (entryByte c 0 8 = 0 → Ends (.deviceMode c) s (t.complete id stSuccess (leBytes 8 t.pw.epochDone))) ∧
      (entryByte c 0 8 = 1 → t.harbourRefused = false →
        ∃ u : State, Ends (.deviceMode c) s u ∧ u.pw.power = .harbourPrep ∧ u.pw.harbourCmd = some id ∧ u.regs = t.regs) ∧
      (entryByte c 0 8 = 2 → ∃ u : State, Ends (.deviceMode c) s u ∧ u.pw.power = .warmPrep ∧ u.pw.warmKind = some 2)) ∧
    (op = 0x45 → t.stageWritePre c = none → t.blocked id c = false → ∀ bs, c.read.data = some bs →
      ∃ b, Ends (.stageWrite c) s ((t.setStageBuf (entryByte c 0 8) b).complete id stSuccess) ∧ b.writer = some (fnPort c.x)) ∧
    (op = 0x46 → t.stageCommitPre c = none → t.blocked id c = false → entryLe c 0 16 8 ≠ 0 →
      (∀ v, v ≠ 0 → ∃ slot, Ends (.stageCommit c v) s
        ((t.setReason (entryByte c 0 8) slot v).endStage id (entryByte c 0 8) stStageInvalid slot)) ∧
      (∃ (u : State) (slot : Nat), Ends (.stageCommit c 0) s (u.setBody id (.stageCommit (entryByte c 0 8) slot)) ∧ u.domain 187 = 0)) ∧
    (op = 0x55 → t.attestPre c = none →
      ∃ sig, Ends (.attest c) s ((State.toHost { t with draws := t.draws + 1 } id (descOfEntry c 40).addr
        (t.attestBody c ++ padTo 2420 sig)).complete id stSuccess (leBytes 4 2804)))

/-! ### Stripes: payloads, seals and chunks -/

/-- An APPEND that is placed (R129, R131, R133, R355): its payload goes to its place in the window and, when whole, to the hash engine; once
whole and hashed it completes with its locator and its acknowledge time when its durability is reached, and waits else; a host access error
fails it, and ends a READ. -/
def Obligations.AppendsAreAcknowledged : Prop :=
  ∀ (s : State) (id n slot : Nat) (a : AppendCmd) (t : Stripe) (e : DirEnt), s.up = true → s.append? id = some a → a.placed = some (n, slot) →
    s.stripe? a.pool n = some t → t.dir[slot]? = some e → s.pw.unitBusy.contains 2 = false →
    Ends .appendAdmit s s.admitHeld ∧
    (∀ off bytes, a.whole = false → off < a.len →
      ∃ (u : State) (x : Stripe) (b : AppendCmd), Ends (.payloadArrival id off bytes) s u ∧ u.stripe? a.pool n = some x ∧
        u.append? id = some b ∧
        memRead x.data (a.off * 4096 + off) (bytes.take (a.len - off)).length = bytes.take (a.len - off) ∧
        (∀ i, i < a.off * 4096 + off ∨ a.off * 4096 + off + (bytes.take (a.len - off)).length ≤ i →
          memGet x.data i = memGet t.data i) ∧
        b.got = a.got + (bytes.take (a.len - off)).length ∧ b.whole = decide (a.len ≤ b.got) ∧
        (b.whole = true → Tab.get? u.se.hashJobs s.se.nextHash =
          some { user := .append id, cls := 1, digest := Config.sha3 (memRead x.data (a.off * 4096) a.len) })) ∧
    (∀ job d cls, Tab.get? s.se.hashJobs job = some { user := .append id, cls := cls, digest := d } →
      ∃ (w : State) (x : Stripe), Ends (.hashJobComplete job) s (w.tryAck id) ∧ w.stripe? a.pool n = some x ∧
        (e.cmd = some id → x.dir[slot]? = some { e with hash := some d }) ∧ Tab.get? w.se.hashJobs job = none) ∧
    (∀ done, done = (a.whole && e.hash.isSome) →
      (done = false → Ends (.appendTransferDone id) s s) ∧
      (done = true → a.parent = none → ∀ durable,
        (durable = true ∧ t.state = .written) ∨
        (durable = false ∧ t.state = .opened ∧ a.durable = false ∧ s.pl.peer = .paired ∧
          ∃ q, Tab.get? s.pl.appendMseq id = some q ∧ q ≤ s.pl.mseqConfirmed) ∨
        (durable = false ∧ t.state = .opened ∧ a.durable = false ∧ s.pl.peer = .unpaired ∧ s.se.covered = true) →
        ∃ (w : State) (x : Stripe), Ends (.appendTransferDone id) s
            (w.complete id stSuccess (locatorBytes a.pool n a.off a.len) 0 (if durable then flDriveDurable else 0)) ∧
          w.stripe? a.pool n = some x ∧
          (e.cmd = some id → x.dir[slot]? = some { e with ackTime := s.devNs, timeUnset := !s.timeSet, cmd := none })) ∧
      (done = true → t.state = .opened → a.durable = true → Ends (.appendTransferDone id) s s)) ∧
    (a.parent = none → a.whole = false → Ends (.hostAccessError id) s (s.failAppend id stHostAccessError).admitHeld) ∧
    (∀ i c r, s.cmd? i = some c → c.body = .read r → Ends (.hostAccessError i) s (s.complete i stHostAccessError))

/-- The seal of a stripe (R134 to R137): its timer starts the seal; once every placed payload is there it is SEALED under the pool's next
seal sequence at its chunk offset and one ENCODE job is queued, except while no cluster is enabled; a chunk on stable media is counted
once (R154), a failed chunk write makes the band BAD or, refused by a reservation, stops the pool's writes (R66, R397), and a pending
release is resolved against the directory (R145). A SEALED stripe whose every member that is neither FAILED nor behind a rebuild cursor has
reported its chunk is WRITTEN, and RELEASED at once when nothing in it lives (R71, R72); another one stays as it is. -/
def Obligations.StripesAreSealedAndWritten : Prop :=
  (∀ (s : State) (p n : Nat) (x : Pool) (t : Stripe), s.up = true → s.pool? p = some x → s.stripe? p n = some t →
    (t.state = .opened → t.dir ≠ [] →
      ∃ u : State, Ends (.sealTimerExpiry p n) s u ∧ u.stripe? p n = some { t with sealing := true } ∧ u.regs = s.regs ∧ u.qm = s.qm) ∧
    (t.state = .opened → t.sealing = true → s.se.deltaFull = false → t.dir.all (fun e => e.void || decide (e.arrived ≥ e.len)) = true →
      (s.noCluster = true → Ends (.stripeSeal p n) s s) ∧
      (s.noCluster = false → ∀ off r, s.takeOffset t.set (x.paramsOf t.gen) = some (off, r) →
        ∃ (w : State) (y : Stripe) (j : CeJob), Ends (.stripeSeal p n) s (w.sealedHook p n).admitHeld ∧ w.stripe? p n = some y ∧
          y.state = .sealed ∧ y.sealSeq = x.sealSeq + 1 ∧ y.chunkOffset = off ∧ y.sealTime = s.devNs ∧ y.set = t.set ∧
          y.padded = decide (t.nextUnit < (x.paramsOf t.gen).dirUnit) ∧ y.nextUnit = t.nextUnit ∧ y.data = t.data ∧
          y.dir.map (fun e => (e.off, e.len, e.tag)) = t.dir.map (fun e => (e.off, e.len, e.tag)) ∧
          (w.pool? p).map (·.sealSeq) = some (x.sealSeq + 1) ∧ w.ce.queue = s.ce.queue ++ [j] ∧ j.kind = .encode ∧ j.pool = p ∧
          j.stripe = n)) ∧
    (∀ q d, t.newPlace = none → (s.membersOf t.set)[q]? = some d → t.state = .sealed → t.coded = true → s.chunkHashing p n q = false →
      ∃ w : State, Ends (.chunkWriteAck p n q) s (w.writeDone p n) ∧
        w.stripe? p n = some { t with acked := if t.acked.contains q then t.acked else t.acked ++ [q] } ∧ w.regs = s.regs) ∧
    (∀ y pr q d, t.newPlace = none → s.set? t.set = some y → s.setParams t.set = some pr → y.members[q]? = some d →
      Ends (.driveWriteFailed p n q true none) s
        (State.driveGood ((s.modPool p (fun z => { z with writesStopped := true })).raise 0xE03 6 p (leBytes 2 d)) d) ∧
      (pr.bandUnits ≠ 0 → ∀ sense, Ends (.driveWriteFailed p n q false sense) s
        (((s.bandBad d (t.chunkOffset / pr.bandUnits)).badBandCount d).driveSense d sense))) ∧
    (∀ r slot e, s.canResolve p n = true → s.se.pending = [r] → r.pool = p → r.stripe = n → t.find r.off r.len = some (slot, e) →
      e.void = false → e.tag = r.tag → entryLive e = true → s.ledgerRoom t = true →
      ∃ w : State, w = { s with se := { s.se with pending := [] } } ∧
        Ends (.pendingReleaseResolve p n) s (w.releaseEntry p n slot).notePendingHigh)) ∧
  (∀ (s : State) (p n : Nat) (t : Stripe) (x : SetRec), s.stripe? p n = some t → s.set? t.set = some x → t.state = .sealed →
    t.coded = true → (List.range x.members.length).countP (fun q => s.posFailed x q) ≤ x.m →
    ((s.mustAck x t).all (fun q => t.acked.contains q) = false → s.writeDone p n = s) ∧
    ((s.mustAck x t).all (fun q => t.acked.contains q) = true →
      ∃ (w : State) (y : Stripe), s.writeDone p n = w.admitHeld ∧ w.stripe? p n = some y ∧
        (y.state = .written ∨ y.state = .released) ∧ y.sealSeq = t.sealSeq ∧ y.chunkOffset = t.chunkOffset ∧ y.set = t.set ∧
        (t.live > 0 → y.state = .written)))

/-- Recovery of one lost data chunk: from the other data chunks and any one parity `j` the bytes of chunk `i` come back (R94, R97). -/
def Obligations.OneLostChunkComesBack : Prop :=
  ∀ (ds : List Byte) (i j : Nat), ds.length ≤ 60 → i < ds.length → j < 4 →
    recoverBytes [i] [j] ((ds.zipIdx.map (fun e => (e.2, e.1))).filter (fun e => e.1 ≠ i)) [parityByte j ds] = [ds.getD i 0]

/-! ### Reads, members, the coding engine, rebuild and tide -/

/-- A READ goes on (R193, R199, R204): the bytes of a chunk read are kept for it, its payload hash ends it with the bytes asked for or
HASH_MISMATCH, a wait beyond the limit ends it with WAKE_TIMEOUT, and at the defer limit the held wake is requested. -/
def Obligations.ReadsGoOn : Prop :=
  ∀ (s : State) (id : Nat) (r : ReadCmd), s.up = true → s.read? id = some r →
    (∀ q k bs, id < 2 ^ 40 → r.chunks.filter (fun c => c.pos = q) = [k] → k.lost = false → k.got = none → k.asleep = false →
      ∃ r' : ReadCmd, Ends (.chunkReadDone id q (.data bs) none) s (((s.setRead id r').readReady id).driveGood k.slot) ∧
        r'.chunks.length = r.chunks.length ∧ r' = { r with chunks := r'.chunks } ∧
        (∀ c ∈ r'.chunks, c.pos = q → c = { k with got := some (padTo k.len bs) }) ∧ (∀ c ∈ r'.chunks, c.pos ≠ q → c ∈ r.chunks)) ∧
    (∀ job cls, Tab.get? s.se.hashJobs job = some { user := .read id, cls := cls, digest := r.hash } → s.pw.unitBusy.contains 2 = false →
      Ends (.hashJobComplete job) s
        (State.returnRead { s with se := { s.se with hashJobs := Tab.erase s.se.hashJobs job } } id stSuccess)) ∧
    (∀ job cls d, Tab.get? s.se.hashJobs job = some { user := .read id, cls := cls, digest := d } → s.pw.unitBusy.contains 2 = false →
      d ≠ r.hash → r.phase = 2 →
      Ends (.hashJobComplete job) s
        (State.mismatchRead { s with se := { s.se with hashJobs := Tab.erase s.se.hashJobs job } } id)) ∧
    (r.chunks.any (·.asleep) = true → r.deferred = false → Ends (.wakeTimeout id) s (s.complete id stWakeTimeout)) ∧
    (r.deferred = true → Ends (.deferLimitExpiry id) s
      ((s.setRead id { r with deferred := false }).wake ((r.chunks.filter (·.asleep)).map (·.slot)) 2))

/-- Members that fail to answer (R205 to R207, R389): a command timeout is counted, on the slot and on the drive; a member whose link
drops is LINK_DOWN and the passes of its sets end; at the end of the grace it fails, or is held where that would exceed m; a zone of it
that goes OFFLINE makes its band BAD. A set that loses a position is DEGRADED, with no rebuild record and no pass for it (R216, R221). -/
def Obligations.MembersAreLost : Prop :=
  ∀ (s : State) (n : Nat) (d : Drive) (y : Slot), s.up = true → n < 1024 → s.drive? n = some d → s.slot? n = some y →
    (∃ w : State, Ends (.driveCommandTimeout n) s (w.judge n (d.timeouts + 1) (s.threshold 4) (s.threshold 5) 3) ∧
      w.drive? n = some { d with timeouts := d.timeouts + 1 } ∧
      w.fld DL_SLOT_CMDERR n DL_SLOT_CMDERR_TIMEOUTS =
        min (s.fld DL_SLOT_CMDERR n DL_SLOT_CMDERR_TIMEOUTS + 1) (2 ^ DL_SLOT_CMDERR_TIMEOUTS.len - 1)) ∧
    (y.linkUp = true → ∀ p, s.memberPool n = some p →
      ∃ u : State, Ends (.driveLinkDown n) s u ∧ u.drive? n = some { d with linkDown := true } ∧ (u.slot? n).map (·.linkUp) = some false ∧
        (∀ e ∈ s.setsWith n, Tab.get? u.se.passes e.1 = none ∧ (u.set? e.1).map (·.passRunning) = some false) ∧
        u.regs = s.regs ∧ u.qm = s.qm) ∧
    (d.linkDown = true → (s.memberPool n).isSome = true → s.failExceeds n = false →
      Ends (.linkLossGraceExpiry n) s (s.failMember n (if y.present then 4 else 8))) ∧
    (d.linkDown = true → (s.memberPool n).isSome = true → s.failExceeds n = true →
      ∃ u : State, Ends (.linkLossGraceExpiry n) s (u.raise 0x603 6 d.pool (leBytes 2 n)) ∧ u.drive? n = some d ∧
        (∀ i x, u.set? i = some x → x.held = true ∨ (s.set? i).map (·.held) = some x.held)) ∧
    (∀ b, (s.memberPool n).isSome = true → Tab.get? s.se.bands (bandKey n b) = none →
      Ends (.zoneOffline n b false) s (s.setBand n b .bad 0)) ∧
    (∀ i q x, s.set? i = some x → x.state = .active ∨ x.state = .degraded ∨ x.state = .rebuilding →
      ∃ z : SetRec, (s.degradeSet i q).set? i = some z ∧ z.state = .degraded ∧ q ∈ z.failedPos ∧ (∀ r ∈ z.rebuild, r.pos ≠ q) ∧
        z.members = x.members ∧ z.passRunning = false ∧ (s.degradeSet i q).pass? i = none ∧
        ∀ j, j ≠ i → (s.degradeSet i q).set? j = s.set? j)

/-- The coding engine (R101 to R112): a job goes to the lowest idle cluster; its end counts its bytes and the job, and an ENCODE that
ends codes its stripe; a fault puts the job back in front, clears the cluster's enable and sets its fault bit; an inversion that ends
stands in both cache levels; INVALIDATE empties them with INV_BUSY until it is done; and an enable takes effect. -/
def Obligations.CodingEngineRuns : Prop :=
  ∀ (s : State), s.up = true →
    (∀ j credits n, s.pw.unitBusy.contains 1 = false → s.cePick = some (j, credits) → j.m ≤ s.maxM → j.key = none →
      s.ceIdle.find? (fun n => s.domain (ceDomain n) = 0) = some n →
      Ends .ceJobDispatch s { s with ce := { s.ce with queue := s.ce.queue.erase j, credits := credits,
                                                       running := Tab.set s.ce.running n j } }) ∧
    (∀ n j, n < 8 → Tab.get? s.ce.running n = some j → s.ce.waiting.contains n = false → j.kind = .encode → j.cls ≠ 3 →
      ∃ w : State, Ends (.ceJobComplete n []) s (w.encodeDone j.pool j.stripe) ∧ w.ce = { s.ce with running := Tab.erase s.ce.running n } ∧
        w.reg64 (CE_CL_BYTES_LO.at n) (CE_CL_BYTES_HI.at n) =
          (s.reg64 (CE_CL_BYTES_LO.at n) (CE_CL_BYTES_HI.at n) + j.bytes) % 2 ^ 64 ∧
        w.fld CE_CL_JOBS n CE_CL_JOBS_COUNT = (s.fld CE_CL_JOBS n CE_CL_JOBS_COUNT + 1) % 2 ^ CE_CL_JOBS_COUNT.len ∧
        OnlyRegs [CE_CL_BYTES_LO.at n, CE_CL_BYTES_HI.at n, CE_CL_JOBS.at n] { s with ce := w.ce } w ∧
        ∀ x t, s.pool? j.pool = some x → s.stripe? j.pool j.stripe = some t → t.state = .sealed → t.coded = false →
          ∃ y : Stripe, (w.encodeDone j.pool j.stripe).stripe? j.pool j.stripe = some y ∧ y.coded = true ∧
            y.data = encodeCells (x.paramsOf t.gen).k (x.paramsOf t.gen).m (chunkPayload (x.paramsOf t.gen).chunk)
              (memWrite t.data ((x.paramsOf t.gen).dirUnit * 4096) (dirBytes j.pool j.stripe t))) ∧
    (∀ n, n < 8 → ∃ (w : State) (js : List CeJob), Ends (.clusterFault n) s ((w.raise 0x701 5 n).noteClusters) ∧
      w.ce.queue = js ++ s.ce.queue ∧ js = (Tab.get? s.ce.running n).toList ∧ Tab.get? w.ce.running n = none ∧
      w.fld CE_CLUSTER_EN 0 CE_CLUSTER_EN_EN = s.fld CE_CLUSTER_EN 0 CE_CLUSTER_EN_EN &&& (0xFF ^^^ 2 ^ n) ∧
      w.fld CE_CLUSTER_FAULT 0 CE_CLUSTER_FAULT_FAULT = s.fld CE_CLUSTER_FAULT 0 CE_CLUSTER_FAULT_FAULT ||| 2 ^ n) ∧
    (∀ k, s.ce.inverting = some k → s.fld CE_CTL 0 CE_CTL_CACHE_EN = 1 →
      ∃ u : State, Ends .matrixInversionDone s u ∧ k ∈ u.ce.l1 ∧ k ∈ u.ce.l2 ∧ u.ce.queue = s.ce.queue ∧ u.regs = s.regs ∧
        (∀ w ∈ u.ce.waiting, s.ceKeyOf w ≠ some k)) ∧
    (∀ port v, WriteTaken s port (CE_CTL.at 0) → CE_CTL_INVALIDATE.get v = 1 →
      ∃ u : State, Ends (.invalidate port v) s u ∧ u.ce.l1 = [] ∧ u.ce.l2 = [] ∧ u.fld CE_STATUS 0 CE_STATUS_INV_BUSY = 1 ∧
        u.fld CE_CTL 0 CE_CTL_CACHE_EN = CE_CTL_CACHE_EN.get v ∧ OnlyRegs [CE_CTL.at 0, CE_STATUS.at 0] { s with ce := u.ce } u) ∧
    (∃ u : State, Ends .ceInvalidateDone s u ∧ u.fld CE_STATUS 0 CE_STATUS_INV_BUSY = 0 ∧ OnlyRegs [CE_STATUS.at 0] s u) ∧
    (∀ port v, WriteTaken s port (CE_CLUSTER_EN.at 0) → CE_CLUSTER_EN_EN.get v ≠ 0 →
      ∃ u : State, Ends (.ceClusterEnWrite port v) s u ∧ u.fld CE_CLUSTER_EN 0 CE_CLUSTER_EN_EN = CE_CLUSTER_EN_EN.get v ∧
        u.ce.noCluster = false ∧ OnlyRegs [CE_CLUSTER_EN.at 0] { s with ce := u.ce } u)

/-- Rebuild and tide (R213 to R217, R229 to R241): a pass starts on the first set that may have one, below MAX_PASSES; a rebuilt chunk on
stable media moves its position's cursor past the stripe; a round starts with no stripe verified; a stripe found whole counts as
verified; LATE is set with its event, which its reminder repeats; and a held wake is released. -/
def Obligations.RebuildAndTide : Prop :=
  ∀ (s : State), s.up = true →
    (∀ e, s.se.sets.countP (fun e => e.2.passRunning) < s.fld SE_RB_PARAM 0 SE_RB_PARAM_MAX_PASSES →
      pickBest s.rebuildBefore (s.se.sets.filter (fun e => s.passStartable e.2)) = some e →
      ∃ w : State, Ends .rebuildPassStart s (State.passNext w.passFuel w e.1) ∧
        w = s.modSet e.1 (fun x => { x with passRunning := true, passSubs := x.substitutes })) ∧
    (∀ i k q r rest, s.pass? i = some k → k.writing = q :: r :: rest →
      Ends (.rebuildChunkWritten i) s ((s.passOffset i k.off (fun p => p = q)).setPass i { k with writing := r :: rest })) ∧
    (∀ p x, s.pool? p = some x → s.poolUp p = true → x.round = 0 ∨ x.roundOver = true →
      ∃ (w : State) (y : Pool), Ends (.tideRoundStart p) s (w.tideAsk p) ∧ w.pool? p = some y ∧ y.round = (x.round + 1) % 2 ^ 32 ∧
        y.roundStart = s.devNs ∧ y.roundOver = false ∧ y.verified = 0 ∧ y.tideLate = false ∧ y.params = x.params ∧
        (∀ e ∈ w.setsOf p, e.2.tideCursor = 0)) ∧
    Ends .tideMarkTick s (s.each (Tab.keys s.se.pools) (fun p s => s.tideMinute p)) ∧
    (∀ p n x t, s.pool? p = some x → s.stripe? p n = some t → t.state = .written → s.tideMay p n = true → (s.lostPos t).isEmpty = true →
      Ends (.tideStripeVerify p n { lost := [], unreadable := [], mismatch := false, badExtents := [] }) s (s.tideCount p n t x)) ∧
    (∀ p x, s.pool? p = some x → Pool.tideRuns x = true →
      (x.tideLate = false → Ends (.tideLate p) s (((s.modPool p (fun x => { x with tideLate := true })).raise 0x607 4 p).tideAsk p)) ∧
      (x.tideLate = true → Ends (.tideLateReminder p) s (s.raise 0x607 4 p))) ∧
    (∀ p, ∃ u : State, Ends (.tideWakeExpiry p) s u ∧ (∀ x, u.pool? p = some x → x.tideWake = none) ∧ u.se.stripes = s.se.stripes ∧
      u.se.sets = s.se.sets ∧ u.regs = s.regs)

/-! ### Pools: media, window, recovery and scarfs -/

/-- What the media report (R89, R155, R180 to R182, R280, R660): a band copy gives the substitute's band its state; a label's front copy
is followed by its back copy, and after both it stands; a reclaimed band is FREE, a failed reclaim is counted and tried again; a
checkpoint fixes what it covers and, complete, drops its deltas; gathered records go out as one block,
but for BAND_OPEN while a log lacks room for the next checkpoint (R183, R292); a FILL record carries the committed
offset; and a sill member's report counts for the block or the protection record it was to write. -/
def Obligations.MediaReportsAreTaken : Prop :=
  ∀ (s : State) (p n : Nat) (x : Pool) (d : Drive), s.up = true → s.pool? p = some x → s.drive? n = some d →
    (∀ b e, s.memberPool n = some p → s.retireSub n = some e → (s.band e b x.params.bandMiB).1 = .substitute →
      Ends (.retireCopyComplete n b) s
        ((s.setBand e b (s.band n b x.params.bandMiB).1 (s.band n b x.params.bandMiB).2).retireSettle n)) ∧
    (∀ kind, d.labelWant = some kind →
      (d.labelBack = false → d.labelRear < 4096 → ∃ (u : State) (bytes : List Byte),
        Ends (.labelWriteDone n true) s (u.driveOut n 3 1 d.labelRear bytes) ∧
        u.drive? n = some { d with timeouts := 0, hwErrors := 0, labelBack := true, labelRear := d.labelRear + 1 } ∧ u.qm = s.qm ∧ u.regs = s.regs) ∧
      (d.labelBack = true → ∃ (u : State) (v : Drive), Ends (.labelWriteDone n true) s u.labelHook ∧ u.drive? n = some v ∧
        v.labelWant = none ∧ v.labelBack = false ∧ v.labelSeq = d.labelSeq + 1 ∧ v.info.label = some kind ∧ v.state = d.state ∧
        u.qm = s.qm ∧ u.regs = s.regs) ∧
      Ends (.labelWriteDone n false) s ((s.labelFailed n).scarfLabelFailed n)) ∧
    (∀ b tries, Tab.get? s.se.reclaims (bandKey n b) = some tries →
      Ends (.reclaimActionDone n b true) s (s.memberReclaimed n b false) ∧
      (tries < 2 → Ends (.reclaimActionDone n b false) s
        { s with se := { s.se with reclaims := Tab.set s.se.reclaims (bandKey n b) (tries + 1) } }) ∧
      (2 ≤ tries → d.info.zoned = true → Ends (.reclaimActionDone n b false) s (s.memberReclaimed n b true)) ∧
      (0 < tries → Ends (.reclaimRetry n b) s (s.driveOut n 5 b 0))) ∧
    (s.poolUp p = true → x.ckpt = none →
      ∃ (u : State) (y : Pool) (k : Ckpt), Ends (.checkpointTimer p) s u ∧ u.pool? p = some y ∧ y.ckpt = some k ∧
        k.gen = (x.ckptGen + 1) % 2 ^ 64 ∧ k.deltaSeq = x.deltaCount ∧ k.reason = ckPlain ∧ y.deltaCount = x.deltaCount) ∧
    (∀ k, x.ckpt = some k → k.reason = ckPlain →
      ∃ (u : State) (y : Pool), Ends (.checkpointComplete p) s (u.reclaimDrained p k.released) ∧ u.pool? p = some y ∧ y.ckptGen = k.gen ∧
        y.ckpt = none ∧ y.deltaCount = x.deltaCount - k.deltaSeq ∧ y.gather = x.gather ++ [.checkpoint k.gen x.jseq]) ∧
    (x.gather ≠ [] → x.jBlock = [] → s.silenced = false → s.logTight p x = false →
      ∃ (u : State) (y : Pool), Ends (.journalGatherExpiry p) s u ∧ u.pool? p = some y ∧ y.jBlock = x.gather.take 63 ∧
        y.gather = x.gather.drop 63 ∧ y.jWritten = [] ∧ y.jseq = x.jseq + (x.gather.take 63).length ∧ u.regs = s.regs) ∧
    (x.gather ≠ [] → x.gather.all JRec.opensBand = true → s.logTight p x = true → Ends (.journalGatherExpiry p) s s) ∧
    (∀ i y q b, s.set? i = some y → s.setParams i = some q → y.openBand = some b → y.fill < s.committed i y q b →
      b * q.bandUnits < s.committed i y q b →
      Ends (.journalFillTimer i) s
        ((s.modSet i (fun z => { z with fill := s.committed i y q b })).journal y.pool (.fill i b (s.committed i y q b)))) ∧
    (x.jBlock ≠ [] → ((s.driveGood n).readableJournal p).contains n = true → x.jWritten.contains n = false →
      Ends (.sillRecordWritten p n) s ((s.driveGood n).blockWritten p n)) ∧
    (x.jBlock = [] → Ends (.sillRecordWritten p n) s ((s.driveGood n).protWritten p n))

/-- The protected window (R157 to R163, R176, R662): a recomputation takes a lower limit at once and leaves a higher one to steps of at
most 1 GiB; the admission credit grows by a tenth of what the last ten ticks freed; a measured rate stands in EB_RATE and limits W; and an
erased slot is ready, or the store faults. -/
def Obligations.WindowFollowsEnergy : Prop :=
  ∀ (s : State), s.up = true →
    (∀ target, target = max (s.winComputed s.flushCap) (4 * 2 ^ 30) → s.se.covered = true ∨ s.winCovered (s.winComputed s.flushCap) = false →
      ∃ w : State, Ends .windowRecompute s w.admitHeld ∧ w.se.f = s.flushCap ∧ w.se.wTarget = target ∧
        w.se.covered = s.winCovered (s.winComputed s.flushCap) ∧ (target < s.se.w → w.se.w = target) ∧
        (s.se.wComputed = true → s.se.w ≠ 0 → s.se.w ≤ target → w.se.w = s.se.w) ∧ w.se.pools = s.se.pools) ∧
    (s.se.w < s.se.wTarget → ∃ w : State, Ends .windowStepUp s w.admitHeld ∧ w.se.w = min s.se.wTarget (s.se.w + 2 ^ 30) ∧
      w.se.stripes = s.se.stripes ∧ w.qm = s.qm ∧ w.regs = s.regs) ∧
    (∃ w : State, Ends .admitCreditTick s w.admitHeld ∧ w.se.freedNow = 0 ∧
      w.se.freedTicks = (s.se.freedTicks ++ [s.se.freedNow]).drop (s.se.freedTicks.length + 1 - 10) ∧
      w.se.credit = min (s.se.credit + w.se.freedTicks.sum / 10) w.se.freedTicks.sum ∧ w.qm = s.qm ∧ w.regs = s.regs) ∧
    (∀ rate, s.hasEB = true → s.eb.storeFault = false → s.eb.slots.any (·.ready) = true →
      ∃ w : State, Ends (.ebRateMeasured rate) s w.winRecompute ∧ w.se.bEbb = some (min (min rate 0xFFFF) 8000) ∧
        w.fld EB_RATE 0 EB_RATE_RATE_MBS = min rate 0xFFFF ∧ OnlyRegs [EB_RATE.at 0] { s with se := w.se } w) ∧
    (∀ i, i < 2 → (s.ebSlot i).erasing = true →
      (∃ w : State, Ends (.slotEraseDone i true) s w.winRecompute ∧
        w.ebSlot i = { s.ebSlot i with erasing := false, ready := true, programmed := false } ∧ w.se = s.se ∧ w.regs = s.regs) ∧
      (∃ w : State, Ends (.slotEraseDone i false) s w.ebFault ∧ w.ebSlot i = { s.ebSlot i with erasing := false } ∧ w.se = s.se ∧
        w.regs = s.regs))

/-- Recovery of a pool that is ASSEMBLING on an unpaired device (R185 to R188, R192, R527): without readable metadata it is OFFLINE; with a
clean journal its checkpoint is all there is; without one, no image and no mirror it is resynchronised; a retained window with a clean
journal needs no replay. Scarf work (R257, R258, R268): the copier takes a stripe that is due to the set R120 prefers, where its copy stands in
the set's next place under the pool's next seal sequence once its parities are coded; a stripe not due is left; and the old layout is
reclaimed once the commit mark is written and no READ is out to it. -/
def Obligations.PoolsAreRecoveredAndCopied : Prop :=
  (∀ (s : State) (p : Nat) (x : Pool) (r : RecoveryInfo), s.up = true → s.pool? p = some x →
    (x.state = .assembling → x.recovery = .none → x.ckpt = none → s.mayAssemble = true → s.paired = false → r.desc = none → RecoveryInfo.prot r x s.pl.side = none →
      (s.retainedPool p = true → RecoveryInfo.journal r x = .clean → Ends (.poolRecovery p r) s ((s.placeMembers p []).endLayer p 0)) ∧
      (s.retainedPool p = false → s.tablesIn p r = none →
        Ends (.poolRecovery p r) s (s.modPool p (fun y => { y with state := .offline }))) ∧
      (∀ t, s.retainedPool p = false → s.tablesIn p r = some t → t.pool.params.m ≤ s.maxM →
        s.tableBytes p + 16 * poolEntries t.pool ≤ tableBudget →
        (RecoveryInfo.journal r x = .clean → Ends (.poolRecovery p r) s ((((s.loadPool p r t).dropWindow p).takeJournal p r).endLayer p 0)) ∧
        (RecoveryInfo.journal r x ≠ .clean → s.restoreImage = none → Ends (.poolRecovery p r) s ((s.loadPool p r t).recoverLate p r)) ∧
        (∀ e u, RecoveryInfo.journal r x ≠ .clean → s.restoreImage = some e → e.holds p = true → e.tablesOf p = some u →
          Ends (.poolRecovery p r) s (s.restorePool p r e u)))) ∧
    (x.recovery = .waitPartner → Tab.get? s.se.recoveries p = some r → Ends (.partnerWaitExpiry p) s (s.recoverLate p r))) ∧
  (∀ (s : State) (p n : Nat) (x : Pool) (t : Stripe) (c : Scarf) (y : SetRec), s.up = true → s.pool? p = some x → s.stripe? p n = some t →
    x.scarf = some c → s.set? t.set = some y →
    (s.copyDue p n t c = false → Ends (.scarfCopyStripe p n []) s s) ∧
    (∀ e, s.copyDue p n t c = true → (List.range y.members.length).all (fun i => s.chunkThere y t i) = true →
      (x.paramsOf t.gen).k ≤ y.members.length → y.members.length = (x.paramsOf t.gen).w →
      s.copySet p x.params = some e → s.set? e.1 = some e.2 → e.2.openRoom x.params > 0 →
      ∃ (u : State) (j : CeJob), Ends (.scarfCopyStripe p n []) s u ∧
        u.stripe? p n = some { t with newPlace := some (e.1, e.2.nextOffset x.params), newSeal := x.sealSeq + 1, acked := [],
                                      returning := decide (c.state = .aborting) } ∧
        (u.pool? p).map (·.sealSeq) = some (x.sealSeq + 1) ∧ u.ce.queue = s.ce.queue ++ [j] ∧ j.kind = .encode ∧ j.cls = 3 ∧ j.pool = p ∧
        j.stripe = n ∧ (u.set? e.1).map (·.openFill) = some (e.2.openFill + 1) ∧ u.qm = s.qm) ∧
    (c.state = .committing → c.commitMark = true → s.readsOld p c.old.gen = false →
      Ends (.scarfOldReclaim p) s (s.reclaimGen p c.old.gen)) ∧
    (c.state ≠ .committing → Ends (.scarfOldReclaim p) s s))


/-! ### Drives, slots and the spin budget -/

/-- Slots (R392, R393, R403 to R410): a drive taken from an extended slot is unpowered and gone; good frames repeat nothing but an
output frame, one with three bad runs puts the chain in FAULT; slot power without PWR_GOOD is a POWER_FAULT; an attempt of a link that
fails is counted; a retry releases PWR_DIS; a sleeping slot is powered off; and a LANE reset clears what bring-up left. -/
def Obligations.SlotsFollowTheirInputs : Prop :=
  ∀ (s : State) (n : Nat) (y : Slot), s.up = true → s.boot.bare = false → n < s.slotCount → s.slot? n = some y →
    (s.chainFault n = false → y.present = false → s.extended (n / 32) = true →
      ∃ u : State, Ends (.presenceChange n true) s u ∧ u.slot? n = some { Slot.blank with present := true, locate := y.locate } ∧
        u.dl.queue = s.dl.queue ++ [{ slot := n, cls := 4 }] ∧ u.se = s.se ∧ u.regs = s.regs) ∧
    (s.chainFault n = false → y.present = true → ∃ u : State, Ends (.presenceChange n false) s u ∧
      (u.slot? n).map (fun z => (z.present, z.linkUp, z.pwrEn)) = some (false, false, false) ∧ (∀ q ∈ u.dl.queue, q.slot ≠ n)) ∧
    (∀ c ins, c = n / 32 → s.extended c = false → n = 32 * c → Ends (.sgpioFrame c ins) s (s.chainOut c)) ∧
    (∀ c ins, c = n / 32 → n = 32 * c → s.extended c = true → s.chainFault n = false → 2 ≤ (s.chain c).badRun →
      0 < (ins.take 32).countP (fun b => !oddParity b) →
      ∃ w : State, Ends (.sgpioFrame c ins) s ((w.raise 0xE02 5 noInst [BitVec.ofNat 8 c]).chainOut c) ∧ (w.chain c).fault = true ∧
        w.dl.slots = s.dl.slots ∧
        w.fld DL_CHAIN_STATUS c DL_CHAIN_STATUS_PARITY_ERRORS = min (s.fld DL_CHAIN_STATUS c DL_CHAIN_STATUS_PARITY_ERRORS +
          (ins.take 32).countP (fun b => !oddParity b)) (2 ^ DL_CHAIN_STATUS_PARITY_ERRORS.len - 1)) ∧
    (y.pwrEn = true → y.pwrGood = false → s.extended (n / 32) = true → s.chainFault n = false →
      ∃ u : State, Ends (.pwrGoodTimeout n) s u ∧ (u.slot? n).map (fun z => (z.powerFault, z.pwrEn, z.linkUp)) = some (true, false, false)) ∧
    (y.present = true → y.pwrGood = true → y.linkUp = false → y.linkFail = false → ∀ rate,
      (∃ u : State, Ends (.linkBringupAttempt n rate true) s u ∧ u.slot? n = some { y with attempts := 0, rate := rate } ∧
        u.out = s.out ++ [.drive n 13 (s.sasAddress n) rate []] ∧ u.regs = s.regs) ∧
      (y.attempts = 0 ∨ y.attempts = 1 →
        ∃ u : State, Ends (.linkBringupAttempt n rate false) s u ∧ u.slot? n = some { y with attempts := y.attempts + 1 } ∧
          u.se = s.se ∧ OnlyRegs [DL_SLOT_PHYERR.at n] { s with out := u.out, dl := u.dl } u)) ∧
    (∃ u : State, Ends (.linkBringupRetry n) s u ∧ u.slot? n = some { y with pwrDis := false } ∧ u.se = s.se ∧ u.regs = s.regs) ∧
    (y.cond = .standby → s.extended (n / 32) = true → s.chainFault n = false → s.fld DL_SPIN_PARAM 0 DL_SPIN_PARAM_OFF_MIN ≠ 0 →
      ∃ u : State, Ends (.slotPowerOff n) s u ∧ (u.slot? n).map (fun z => (z.cond, z.pwrEn, z.linkUp, z.present)) =
        some (.off, false, false, y.present) ∧ u.se = s.se ∧ u.regs = s.regs) ∧
    (∀ port, WriteTaken s port (DL_SLOT_CTL.at n) →
      ∃ u : State, Ends (.laneReset port n) s u ∧ u.getReg (DL_SLOT_PHYERR.at n) = 0 ∧
        (u.slot? n).map (fun z => (z.powerFault, z.linkFail, z.attempts, z.linkUp)) = some (false, false, 0, false))

/-- Spin-up and sleep (R393, R400, R401, R411 to R416): a drive found with its link is known and reads its labels; a queued drive is admitted
when R415 lets it and enters the spin reservation; a spin-up that ends makes it idle and counted, and its reservation ends at the peak's
expiry; a failed one is STANDBY again; an idle group sleeps as a whole; and a standby that completes leaves the slot STANDBY. -/
def Obligations.DrivesSpinUpAndSleep : Prop :=
  ∀ (s : State) (n : Nat) (y : Slot), s.up = true → s.boot.bare = false → n < s.slotCount → s.slot? n = some y →
    (∀ d : DriveInfo, y.present = true → y.linkFail = false → y.linkUp = false → s.fld DL_SLOT_CTL n DL_SLOT_CTL_MAX_RATE ≠ 0 →
      (d.expander = true → Ends (.linkUp n d) s (s.setSlot n { y with unsupported := true, linkUp := false, rate := 0 })) ∧
      (d.expander = false → d.block = 512 ∨ d.block = 4096 → s.drive? n = none → s.se.drives = [] → d.flash = false → d.spinning = false →
        ∃ w : State, Ends (.linkUp n d) s (w.wake [n] 4) ∧
          (w.drive? n).map (fun v => (v.info, v.state, v.classified)) = some (d, .candidate, false) ∧
          (w.slot? n).map (fun z => (z.linkUp, z.known, z.rate, z.zoned)) = some (true, true, d.rate, d.zoned) ∧
          w.regs = s.regs)) ∧
    (∀ cls, s.dl.queue = [{ slot := n, cls := cls }] → cls < 5 → s.enclosure n < 32 → s.spinBlocked (s.enclosure n) = false → s.spinFits n = true →
      y.present = true → y.powerFault = false → y.linkFail = false → y.cond = .standby →
      ∃ u : State, Ends .spinAdmissionTick s u ∧ u.dl.queue = [] ∧
        u.slot? n = some { y with pwrEn := y.pwrEn || s.extended (n / 32), cond := .spinningUp, inS := true, cls := cls } ∧
        Out.drive n 7 0 0 [] ∈ u.out ∧ OnlyRegs [DL_ENC_SPIN.at (s.enclosure n)] { s with out := u.out, dl := u.dl } u) ∧
    (∃ w : State, Ends (.spinPeakExpiry n) s w.spinAdmission ∧ w.slot? n = some { y with inS := false } ∧ w.regs = s.regs ∧ w.se = s.se) ∧
    (y.cond = .spinningUp →
      (∀ ds, ∃ w : State, Ends (.spinupComplete n ds) s (w.awakened n y.cls) ∧ w.slot? n = some { y with cond := .idle } ∧
        w.fld DL_SLOT_SPINS n DL_SLOT_SPINS_LAST_READY_DS = min ds 65535 ∧
        w.fld DL_SLOT_SPINS n DL_SLOT_SPINS_SPINUPS =
          (s.fld DL_SLOT_SPINS n DL_SLOT_SPINS_SPINUPS + 1) % 2 ^ DL_SLOT_SPINS_SPINUPS.len) ∧
      (s.drive? n = none → ∃ u : State, Ends (.spinupTimeout n) s u ∧ u.slot? n = some { y with cond := .standby } ∧
        u.dl.queue = s.dl.queue ++ [{ slot := n, cls := y.cls }] ∧ u.regs = s.regs)) ∧
    (∀ g up, up = (s.groupSlots g).filter s.awake →
      (up.any (fun m => s.pinned m || s.driveBusy m) = true → Ends (.wakeGroupIdleExpiry g) s s) ∧
      (up.any (fun m => s.pinned m || s.driveBusy m) = false → Ends (.wakeGroupIdleExpiry g) s (s.sendStandby up))) ∧
    (y.standbyIssued = true → y.wakeAfter = none → (s.groupSlots (s.wakeGroup n)).filter (fun m => m ≠ n) = [] →
      ∃ u : State, Ends (.standbyComplete (s.wakeGroup n)) s u ∧
        u.slot? n = some { y with standbyIssued := false, cond := .standby } ∧ u.se = s.se ∧ u.regs = s.regs)

/-! ### The climate unit -/

/-- Inputs, sensors, fans and loop engines (R419 to R429): an input's value is its mean code scaled and is valid inside its range; a sensor reading
is kept in 0.01 °C, and a third failed read in a row makes it invalid; a fan below TACH_MIN at a duty of 30 % or more fails with its event,
and is well again above TACH_MIN; a capture sample enters its FIFO or is counted as dropped. An engine's output moves by at most its rate
towards the bounded sum of its terms; without a process value fans go to OUT_MAX and heaters to 0 with FAILSAFE set. -/
def Obligations.SensorsAndEngines : Prop :=
  (∀ (s : State) (i : Image), s.plantUp = true → s.boot.image = some i → s.hasCL = true →
    (∀ k code c, k < 64 → Tab.get? i.ains k = some c → c.enc < 32 →
      ∃ u : State, Ends (.analogInputUpdate k code) s u ∧
        u.fld CL_AIN k CL_AIN_VALUE = satSigned CL_AIN_VALUE.len ((code * c.gain) / 65536 + c.offset) ∧
        (u.fld CL_AIN k CL_AIN_VALID = 1 ↔ code ≠ 0 ∧ code ≠ 0xFFFF ∧ c.role ≠ 0 ∧ c.min ≤ (code * c.gain) / 65536 + c.offset ∧
          (code * c.gain) / 65536 + c.offset ≤ c.max) ∧ u.se = s.se ∧ u.dl = s.dl) ∧
    (∀ k c, k < 128 → Tab.get? i.sensors k = some c → c.profile ≠ 0 →
      (∀ t h, ∃ u : State, Ends (.sensorReadDone k (some (t, h))) s u ∧ u.fld CL_SNS k CL_SNS_VALID = 1 ∧
        u.fld CL_SNS k CL_SNS_T = satSigned CL_SNS_T.len (if c.profile = 1 then t * 100 / 256 else t * 100 / 128) ∧
        Tab.get? u.cl.snsFails k = none ∧ OnlyRegs [CL_SNS.at k] { s with cl := u.cl } u) ∧
      (Tab.getD s.cl.snsFails k 0 = 2 → ∃ u : State, Ends (.sensorReadDone k none) s u ∧ u.fld CL_SNS k CL_SNS_VALID = 0 ∧
        (s.fld CL_SNS k CL_SNS_VALID = 1 → u.fld CL_TRIP 0 CL_TRIP_SENSOR_LOST = 1)) ∧
      (Tab.getD s.cl.snsFails k 0 < 2 → ∃ u : State, Ends (.sensorReadDone k none) s u ∧
        u.fld CL_SNS k CL_SNS_VALID = s.fld CL_SNS k CL_SNS_VALID ∧ Tab.get? u.cl.snsFails k = some (Tab.getD s.cl.snsFails k 0 + 1))) ∧
    (∀ f rpm, f < 32 →
      (rpm < s.tachMin f → s.fld CL_FAN f CL_FAN_DUTY ≥ 3000 → s.fld CL_FAN f CL_FAN_FAIL = 0 →
        ∃ w : State, Ends (.fanFail f rpm) s (w.raise 0xB01 4 noInst [BitVec.ofNat 8 f]) ∧ w.fld CL_FAN f CL_FAN_FAIL = 1 ∧
          w.fld CL_TRIP 0 CL_TRIP_FAN_FAIL = 1 ∧ w.fld CL_FAN f CL_FAN_DUTY = s.fld CL_FAN f CL_FAN_DUTY ∧
          OnlyRegs [CL_FAN.at f, CL_TRIP.at 0] s w) ∧
      (rpm > s.tachMin f → ∃ u : State, Ends (.fanFailClear f rpm) s u ∧ u.fld CL_FAN f CL_FAN_FAIL = 0 ∧
        u.fld CL_FAN f CL_FAN_RPM = min rpm 32767 ∧ OnlyRegs [CL_FAN.at f] s u)) ∧
    (∀ bs, (s.cl.fifo0.length + bs.length ≤ 4096 → ∃ u : State, Ends (.captureSample 0 bs) s u ∧ u.cl.fifo0 = s.cl.fifo0 ++ bs) ∧
      (4096 < s.cl.fifo0.length + bs.length → Ends (.captureSample 0 bs) s (s.bump CL_CAPTURE 0 CL_CAPTURE_OVERRUN_0)))) ∧
  (∀ (s : State) (n : Nat), s.plantUp = true → s.hasCL = true → n < 16 → (∀ f ∈ s.engineFans n, f < 32) →
    (∀ h ∈ s.engineHeaters n, h < 16) →
    (s.fld CL_LE_CFG n CL_LE_CFG_EN = 0 → Ends (.loopPeriod n) s s) ∧
    (s.fld CL_LE_CFG n CL_LE_CFG_EN = 1 → s.cl.outputsOff = false → ∀ xs,
      xs = (if s.fld CL_LE_CFG n CL_LE_CFG_ROLE = 1 then s.airTemps (s.fld CL_LE_CFG n CL_LE_CFG_ENC)
            else s.validInputs (s.fld CL_LE_CFG n CL_LE_CFG_ENC) (s.fld CL_LE_CFG n CL_LE_CFG_ROLE)) →
      (xs = [] → ∃ u : State, Ends (.loopPeriod n) s u ∧ u.fld CL_LE_STATE n CL_LE_STATE_FAILSAFE = 1 ∧ u.cl = s.cl ∧
        u.fld CL_LE_STATE n CL_LE_STATE_OUT =
          (if (s.engineFans n).isEmpty then 0 else s.fld CL_LE_LIMIT n CL_LE_LIMIT_OUT_MAX) % 2 ^ CL_LE_STATE_OUT.len) ∧
      (∀ v prev lo hi step, aggregate (s.fld CL_LE_CFG n CL_LE_CFG_AGG) xs = some v → prev = Tab.getD s.cl.uPrev n 0 →
        lo = s.fld CL_LE_LIMIT n CL_LE_LIMIT_OUT_MIN * dutyUnit → hi = s.fld CL_LE_LIMIT n CL_LE_LIMIT_OUT_MAX * dutyUnit →
        step = s.fld CL_LE_SET n CL_LE_SET_RATE * (s.fld CL_LE_CFG n CL_LE_CFG_PERIOD : Int) * 65536 →
        ∃ (u : State) (o : Int), Ends (.loopPeriod n) s u ∧ Tab.get? u.cl.uPrev n = some o ∧
          u.fld CL_LE_STATE n CL_LE_STATE_FAILSAFE = 0 ∧
          u.fld CL_LE_STATE n CL_LE_STATE_OUT = (o / dutyUnit).toNat % 2 ^ CL_LE_STATE_OUT.len ∧
          (s.encHot (s.fld CL_LE_CFG n CL_LE_CFG_ENC) = true → (s.engineFans n).isEmpty = false → o = hi) ∧
          (s.encHot (s.fld CL_LE_CFG n CL_LE_CFG_ENC) = false →
            prev - step ≤ o ∧ o ≤ prev + step ∧ (lo ≤ prev → prev ≤ hi → lo ≤ hi → lo ≤ o ∧ o ≤ hi)))))

/-- Thermal states and the condensation hold (R431 to R436, R447): a tick sets HOT where headroom is negative; CRIT follows beyond its
margin and both end with 1 °C of headroom; a damp enclosure is held from its evaluation on and let go after its dwell when it is no longer
damp; a long hold and humidity above 80 % trip with their events. -/
def Obligations.EnclosuresAreKeptSafe : Prop :=
  ∀ (s : State) (e : Nat), s.plantUp = true → s.hasCL = true → e < 32 →
    (∃ w : State, Ends .headroomTick s w.issuePasses ∧ w.se = s.se ∧ w.dl = s.dl ∧
      (s.headroomNow e < 0 → w.fld CL_ENC_STATE e CL_ENC_STATE_HOT = 1) ∧
      (0 ≤ s.headroomNow e → w.fld CL_ENC_STATE e CL_ENC_STATE_HOT = s.fld CL_ENC_STATE e CL_ENC_STATE_HOT) ∧
      w.fld CL_ENC_STATE e CL_ENC_STATE_HEADROOM_DC = satSigned CL_ENC_STATE_HEADROOM_DC.len (s.headroomNow e / 10)) ∧
    (s.headroomNow e < -(100 * (s.fld CL_CLIM_PARAM 0 CL_CLIM_PARAM_CRIT_MARGIN_C : Nat)) → s.encHot e = true →
      s.fld CL_ENC_STATE e CL_ENC_STATE_CRIT = 0 →
      ∃ w : State, Ends (.encCrit e) s ((w.raise 0xB03 6 e).sendStandby ((Tab.keys s.dl.slots).filter (fun n => s.enclosure n = e))) ∧
        w.fld CL_ENC_STATE e CL_ENC_STATE_CRIT = 1 ∧ w.fld CL_TRIP 0 CL_TRIP_ENC_CRIT = 1 ∧
        OnlyRegs [CL_ENC_STATE.at e, CL_TRIP.at 0] s w) ∧
    (100 ≤ s.headroomNow e → s.encHot e = true →
      ∃ u : State, Ends (.encHotExit e) s u ∧ u.fld CL_ENC_STATE e CL_ENC_STATE_HOT = 0 ∧ u.fld CL_ENC_STATE e CL_ENC_STATE_CRIT = 0 ∧
        u.dl.evaluate = true ∧ OnlyRegs [CL_ENC_STATE.at e] { s with dl := u.dl } u) ∧
    (∃ u : State, Ends .holdEvaluation s u ∧ (s.damp e = true → e ∈ u.cl.held) ∧
      (s.damp e = false → s.cl.evaluated.contains e = false → e ∉ u.cl.held) ∧
      (s.damp e = false → s.cl.evaluated.contains e = true → (e ∈ u.cl.held ↔ e ∈ s.cl.held)) ∧ e ∈ u.cl.evaluated ∧ u.se = s.se) ∧
    (s.cl.held.contains e = true → s.damp e = false →
      ∃ u : State, Ends (.holdDwellExpiry e) s u ∧ e ∉ u.cl.held ∧ u.fld CL_ENC_STATE e CL_ENC_STATE_HOLD = 0 ∧
        (∀ f, f ≠ e → (f ∈ u.cl.held ↔ f ∈ s.cl.held)) ∧ u.se = s.se) ∧
    (s.cl.held.contains e = true → ∃ w : State, Ends (.holdLong e) s (w.raise 0xB04 5 e) ∧ w.fld CL_TRIP 0 CL_TRIP_HOLD_LONG = 1 ∧
      OnlyRegs [CL_TRIP.at 0] s w) ∧
    (∀ h, s.humidity e = some h → 800 < h → ∃ w : State, Ends (.humidHigh e) s (w.raise 0xB09 4 e) ∧
      w.fld CL_TRIP 0 CL_TRIP_HUMID_HIGH = 1 ∧ OnlyRegs [CL_TRIP.at 0] s w)

/-- The capacitor bank (R437 to R445): its energy is computed from voltage and current and reported at once when it falls by more than
2 %; the report goes to the window; a charger that fails is counted in CL_TRIP; the armed comparator brings the device to EBB with trigger
2; and a pulse-load test takes the charger off, starts the capture of channel 30 (R430), puts its load on and, unless it is rejected, leaves the bank's measured values. -/
def Obligations.BankIsMeasured : Prop :=
  ∀ (s : State), s.plantUp = true → s.hasCL = true → (∀ h ∈ s.testLoads, h < 16) →
    (∀ v i, ∃ w : State, w.fld CL_BANK_EU 0 CL_BANK_EU_E_U = min 65535 (s.usableEnergy v i) ∧
      w.fld CL_BANK_VI 0 CL_BANK_VI_V_MV = min v 65535 ∧ w.se = s.se ∧ w.cl = s.cl ∧
      Ends (.euCompute v i) s (if 100 * min 65535 (s.usableEnergy v i) < 98 * s.cl.euReported ∧ s.cl.testV0 = none ∧ s.cl.testWait = false
        then w.reportEu (min 65535 (s.usableEnergy v i)) else w)) ∧
    (s.cl.testWait = false → s.cl.testV0 = none → ∃ w : State, Ends .euReport s w.winRecompute ∧
      w.se.eu = s.fld CL_BANK_EU 0 CL_BANK_EU_E_U ∧ w.cl.euReported = w.se.eu ∧ w.regs = s.regs) ∧
    (s.charger = chgCharge → s.fld CL_BANK_VI 0 CL_BANK_VI_V_MV < s.chargedMv →
      ∃ w : State, Ends .chargerFault s (w.raise 0xB05 5 noInst) ∧ w.charger = chgFault ∧ w.fld CL_TRIP 0 CL_TRIP_CHARGER_FAULT = 1 ∧
        OnlyRegs [CL_CHG.at 0, CL_TRIP.at 0] { s with out := w.out } w) ∧
    (s.fld CL_STATUS 0 CL_STATUS_TRIP_ARMED = 1 → s.pw.power ≠ .ebb →
      ∃ t : State, Runs .vbankTrip s t ∧ t.pw.power = .ebb ∧ t.eb.lastTrigger = 2 ∧ t.charger = chgOff ∧
        t.fld CL_STATUS 0 CL_STATUS_TRIP_ARMED = 0 ∧ t.eb.running.isSome = true) ∧
    (s.charger = chgFloat → s.pw.power = .run → s.testLoads ≠ [] → s.cl.testWait = false → s.cl.testV0 = none → s.cl.lastStart = none →
      s.testEnergy + s.energyRequired ≤ s.fld CL_BANK_EU 0 CL_BANK_EU_E_U →
      ∃ w : State, Ends .pulseTestStart s (w.reportEu (s.fld CL_BANK_EU 0 CL_BANK_EU_E_U - s.testEnergy)) ∧ w.cl.testWait = true ∧
        w.cl.lastStart = some s.devNs ∧ w.charger = chgOff ∧ w.fld CL_STATUS 0 CL_STATUS_TEST_RUN = 1 ∧ w.se = s.se) ∧
    (∀ v0, s.cl.testWait = true → ∃ u : State, Ends (.pulseTestOnset v0) s u ∧ u.cl = { s.cl with testWait := false, testV0 := some v0 } ∧
      u.xmState 30 = xmRun ∧ u.fld CL_CHG 0 CL_CHG_TEST = 1 ∧ (∀ h ∈ s.testLoads, u.fld CL_HTR h CL_HTR_DUTY = 10000)) ∧
    (∀ v0 f, s.cl.testV0 = some v0 →
      (s.testRejected v0 f = true → ∃ w : State, Ends (.pulseTestEnd f) s (w.raise 0xB07 3 noInst) ∧ w.cl.testV0 = none ∧
        w.charger = chgCharge ∧ w.getReg (CL_BANK_CE.at 0) = s.getReg (CL_BANK_CE.at 0)) ∧
      (s.testRejected v0 f = false → 8 * s.fld CL_BANK_NAMEPLATE 0 CL_BANK_NAMEPLATE_C_MF ≤ 10 * (fitResults v0 f).2 →
        (fitResults v0 f).1 ≤ 2 * s.fld CL_BANK_NAMEPLATE 0 CL_BANK_NAMEPLATE_ESR →
        ∃ u : State, Ends (.pulseTestEnd f) s u ∧ u.fld CL_BANK_CE 0 CL_BANK_CE_C_MF = min (fitResults v0 f).2 65535 ∧
          u.fld CL_BANK_CE 0 CL_BANK_CE_ESR = min (fitResults v0 f).1 65535 ∧ u.fld CL_STATUS 0 CL_STATUS_BANK_MEASURED = 1 ∧
          u.cl.lastTest = some s.devNs ∧ u.cl.testV0 = none)) ∧
    (∃ w : State, Ends .testPostponed s (w.raise 0xB08 4 noInst) ∧ w.fld CL_TRIP 0 CL_TRIP_TEST_POSTPONED = 1 ∧ OnlyRegs [CL_TRIP.at 0] s w)

/-! ### The pair -/

/-- Forming and keeping the pair (R454 to R458, R462, R463, R465, R466): a trained link sends HELLO; a good HELLO starts the copies under
MSEQ 0 and a bad one is a CONFLICT; a confirmation of the whole copy forms the pair; heartbeats carry and take F and the owned pools; a
lost partner is SILENT; and flits are replayed from the one after the last acknowledged. -/
def Obligations.PairFormsAndIsKept : Prop :=
  ∀ s : State, s.up = true → s.boot.bare = false → s.paired = true →
    (∀ rate width, s.pl.peer ≠ .silent → ∃ w : State, Ends (.peerLinkTrained rate width) s
        ((State.sendHello (w.endGives.dropClaims)).relocked 3) ∧
      w = { s with pl := { s.pl with linkUp := true, peer := .hello, rate := w.pl.rate, width := w.pl.width, fromPair := w.pl.fromPair } } ∧
      (rate = 5 ∨ rate = 6 → w.pl.rate = rate) ∧ (width = 8 ∨ width = 16 → w.pl.width = width) ∧
      (s.pl.peer = .paired ∨ s.pl.peer = .lost → w.pl.fromPair = true)) ∧
    (∀ h : HelloFrame, s.pl.peer ≠ .unpaired →
      (h.side ≠ s.pl.side → h.protoMin ≤ 1 → 1 ≤ h.protoMax → h.pairUuid = s.pl.pairUuid ∨ s.ownsPools ≠ h.ownsPools →
        ∃ w : State, Ends (.peerHello h) s (w.endGives.dropClaims.sendCopies.winRecompute.tryAllAcks) ∧ w.pl.fPartner = h.flushCap ∧
          w.pl.mseqSent = 0 ∧ w.pl.mseqConfirmed = 0 ∧ w.pl.mseqApplied = 0 ∧ w.pl.discardM = false ∧ w.pl.resolving = false ∧
          w.pl.pairUuid = (if s.ownsPools then s.pl.pairUuid else h.pairUuid) ∧ w.qm = s.qm ∧ w.regs = s.regs) ∧
      (h.side = s.pl.side ∨ 1 < h.protoMin ∨ h.protoMax < 1 ∨ (h.pairUuid ≠ s.pl.pairUuid ∧ s.ownsPools = h.ownsPools) →
        Ends (.peerHello h) s ((State.dropClaims (State.endGives
          { s with draws := s.draws + 1, pl := { s.pl with peer := .conflict, fromPair := false } })).raise 0xD03 6 noInst
            [BitVec.ofNat 8 (Config.freeNat s.draws)]))) ∧
    (∀ q, (q < s.pl.mseqConfirmed ∨ s.pl.mseqSent < q → Ends (.mirConfirm q) s s) ∧
      (s.pl.mseqConfirmed ≤ q → q ≤ s.pl.mseqSent →
        ∃ w : State, w = { s with pl := { s.pl with mseqConfirmed := q, lag := w.pl.lag } } ∧ (∀ e ∈ w.pl.lag, q < e.1) ∧
          (s.pl.peer = .copying → s.pl.copyEnd ≤ q → Ends (.mirConfirm q) s w.enterPaired) ∧
          (s.pl.peer ≠ .copying ∨ q < s.pl.copyEnd → Ends (.mirConfirm q) s w.tryAllAcks))) ∧
    (∀ q, s.pl.peer = .paired ∨ s.pl.peer = .copying → ∃ w : State, Ends (.mirResync q) s ((w.sendCopies.raise 0xDFF 4 noInst).tryAllAcks) ∧
      w = { s with pl := w.pl } ∧ w.pl.mseqSent = q ∧ w.pl.lag = [] ∧ w.pl.mseqConfirmed ≤ q) ∧
    (∀ f (owned : BitVec 64) last, ∃ w : State, w.pl = { s.pl with fPartner := f } ∧
      w.reg64 (PL_PEER_OWNED_LO.at 0) (PL_PEER_OWNED_HI.at 0) = owned.toNat ∧
      OnlyRegs [PL_PEER_OWNED_LO.at 0, PL_PEER_OWNED_HI.at 0] { s with pl := w.pl } w ∧
      (s.pl.peer = .silent → s.pl.resolving = false → Ends (.heartbeat f owned last) s w.enterPaired) ∧
      (s.pl.peer = .paired ∨ s.pl.peer = .copying → Ends (.heartbeat f owned last) s w.winRecompute)) ∧
    (s.pl.peer = .paired ∨ s.pl.peer = .copying ∨ s.pl.peer = .silent →
      Ends .heartbeatSend s (s.emit (.peer 0x02 [0, s.devNs, s.se.f, poolMask s.ownedPools, s.pl.mseqSent] []))) ∧
    (s.pl.peer = .paired ∨ s.pl.peer = .copying ∨ s.pl.peer = .hello ∨ s.pl.peer = .training →
      Ends .peerSilent s { s with pl := { s.pl with peer := .silent, resolving := false } }) ∧
    (∀ ack, ∃ w : State, Ends (.flitNak ack) s w ∧ w.out = s.out ++ [.peer 0xFE [(ack % 2 ^ 24 + 1) % 2 ^ 24] []] ∧
      w.pl = { s.pl with flitAcked := ack % 2 ^ 24 } ∧
      w.fld PL_REPLAY 0 PL_REPLAY_COUNT = min (s.fld PL_REPLAY 0 PL_REPLAY_COUNT + 1) (2 ^ PL_REPLAY_COUNT.len - 1)) ∧
    (∃ w : State, Ends .replayTimeout s w ∧ w.out = s.out ++ [.peer 0xFE [(s.pl.flitAcked + 1) % 2 ^ 24] []] ∧ w.pl = s.pl ∧
      w.fld PL_REPLAY 0 PL_REPLAY_COUNT = min (s.fld PL_REPLAY 0 PL_REPLAY_COUNT + 1) (2 ^ PL_REPLAY_COUNT.len - 1)) ∧
    Ends .peerFlitCrcFail s (s.emit (.peer 0xFF [] [])) ∧
    Ends .peerRetrain s { s with pl := { s.pl with linkUp := false, rate := 0, width := 0 } } ∧
    (∀ rate width, ∃ w : State, Ends (.peerRetrainDone rate width) s (w.relocked 3) ∧
      w = { s with pl := { s.pl with linkUp := true, rate := w.pl.rate, width := w.pl.width } } ∧
      (rate = 5 ∨ rate = 6 → w.pl.rate = rate) ∧ (width = 8 ∨ width = 16 → w.pl.width = width))

/-- The mirror as its receiver keeps it (R164 to R168, R185, R460, R461, R463, R465, R528): the next M frame in order is applied and
confirmed, any other does nothing; a discarded frame is counted, and a discarded M frame asks for a new copy once; the standby copy's
sections take their bytes; and the mirror of a pool is sent back to a partner that asks, or there is none. -/
def Obligations.MirrorIsApplied : Prop :=
  ∀ (s : State) (m p n : Nat), s.up = true → s.boot.bare = false → s.hasPL = true →
    (m = s.pl.mseqApplied + 1 → s.mirrors = true → s.pl.discardM = false →
      (∀ unit off bytes t, Tab.get? s.pl.mirror (stripeKey p n) = some t →
        ∃ w : State, Ends (.mirPayload m p n unit off bytes) s ((w.sendFrame 0x16 [m]).answerGives) ∧ w = { s with pl := w.pl } ∧
          w.pl.mseqApplied = m ∧ w.pl.standby = s.pl.standby ∧ Tab.get? w.pl.mirror (stripeKey p n) = some
            { t with data := memWrite t.data (unit * 4096 + off) bytes
                     nextUnit := max t.nextUnit (ceilDiv (unit * 4096 + off + bytes.length) 4096) }) ∧
      (∀ slot entry, ∃ (w : State) (t : Stripe), Ends (.mirDirent m p n slot entry) s ((w.sendFrame 0x16 [m]).answerGives) ∧
        w = { s with pl := w.pl } ∧ w.pl.mseqApplied = m ∧ Tab.get? w.pl.mirror (stripeKey p n) = some t ∧
        t.dir[slot]? = some (parseDirEnt entry)) ∧
      (∀ seq off set, ∃ (w : State) (t : Stripe), Ends (.mirSeal m p n seq off set) s ((w.sendFrame 0x16 [m]).answerGives) ∧
        w = { s with pl := w.pl } ∧ w.pl.mseqApplied = m ∧ Tab.get? w.pl.mirror (stripeKey p n) = some t ∧ t.state = .sealed ∧
        t.sealSeq = seq ∧ t.chunkOffset = off ∧ t.set = set) ∧
      (∀ rs, Ends (.mirDelta m rs) s
        ((State.sendFrame { s.mirDelta rs with pl := { (s.mirDelta rs).pl with mseqApplied := m } } 0x16 [m]).answerGives)) ∧
      (∀ rs, ∃ w : State, Ends (.mirRelease m p 0 rs) s ((w.sendFrame 0x16 [m]).answerGives) ∧
        w = { s with pl := { s.pl with mseqApplied := m,
                                       mirPending := s.pl.mirPending ++ rs.map (fun r => { parsePend r with pool := p }) } }) ∧
      (∀ kind rs r, kind ≠ 0 → ∃ w : State, Ends (.mirRelease m p kind (rs ++ [r])) s ((w.sendFrame 0x16 [m]).answerGives) ∧
        w = { s with pl := { s.pl with mseqApplied := m, mirLedger := w.pl.mirLedger } } ∧
        Tab.get? w.pl.mirLedger (stripeKey p (leAt r 0 8)) = some r) ∧
      (∃ w : State, Ends (.mirRetire m p n) s ((w.sendFrame 0x16 [m]).answerGives) ∧ w = { s with pl := w.pl } ∧ w.pl.mseqApplied = m ∧
        Tab.get? w.pl.mirror (stripeKey p n) = none ∧
        ∀ k, k ≠ stripeKey p n → Tab.get? w.pl.mirror k = Tab.get? s.pl.mirror k) ∧
      (∀ off bytes held, ∃ w : State, Ends (.windowCopy m off bytes held) s ((w.sendFrame 0x16 [m]).answerGives) ∧
        w = { s with pl := w.pl } ∧ w.pl.mseqApplied = m ∧ w.pl.mirrorRaw = memWrite s.pl.mirrorRaw off bytes ∧
        (held = [] → w.pl.mirror = s.pl.mirror ∧ w.pl.mirrorOf = s.pl.mirrorOf))) ∧
    (m ≠ s.pl.mseqApplied + 1 ∨ s.mirrors = false → ∀ unit off bytes slot entry seq set rs kind rels held,
      Ends (.mirPayload m p n unit off bytes) s s ∧ Ends (.mirDirent m p n slot entry) s s ∧ Ends (.mirSeal m p n seq off set) s s ∧
      Ends (.mirDelta m rs) s s ∧ Ends (.mirRelease m p kind rels) s s ∧ Ends (.mirRetire m p n) s s ∧
      Ends (.windowCopy m off bytes held) s s) ∧
    (Ends (.peerFrameBad false) s (s.bump PL_BAD_FRAME 0 PL_BAD_FRAME_COUNT)) ∧
    (s.pl.discardM = true → Ends (.peerFrameBad true) s (s.bump PL_BAD_FRAME 0 PL_BAD_FRAME_COUNT)) ∧
    (s.pl.discardM = false → ∃ w : State, Ends (.peerFrameBad true) s ((w.sendFrame 0x19 [s.pl.mseqApplied]).raise 0xDFF 4 noInst) ∧
      w.pl = { s.pl with discardM := true } ∧ OnlyRegs [PL_BAD_FRAME.at 0] { s with pl := w.pl } w ∧
      w.fld PL_BAD_FRAME 0 PL_BAD_FRAME_COUNT =
        min (s.fld PL_BAD_FRAME 0 PL_BAD_FRAME_COUNT + 1) (2 ^ PL_BAD_FRAME_COUNT.len - 1)) ∧
    (∀ sect off bytes, ∃ u : State, Ends (.standbyCopy p sect off bytes) s u ∧ u = { s with pl := u.pl } ∧
      u.section p sect = memWrite (if off = 0 then [] else s.section p sect) off bytes ∧
      Tab.get? u.pl.standby p = some (u.standbyTables p) ∧ u.pl.mirror = s.pl.mirror) ∧
    (s.pl.mirrorOf.contains p = false → Ends (.pullReq p) s (s.sendFrame 0x32 [p, 1])) ∧
    (s.pl.mirrorOf.contains p = true → ∃ w : State, Ends (.pullReq p) s (w.sendFrame 0x32 [p, 0]) ∧ w = { s with out := w.out } ∧
      w.out = s.out ++ (s.pl.mirror.filter (fun e => keyPool e.1 = p)).map
        (fun e => Out.peer 0x31 [0, p, keyStripe e.1, e.2.nextUnit] [])) ∧
    (∀ off bytes, Ends (.pullData off bytes) s { s with pl := { s.pl with pull := memWrite s.pl.pull off bytes } }) ∧
    (∀ x r, s.pool? p = some x → x.recovery = .waitPartner → Tab.get? s.se.recoveries p = some r →
      Ends (.pullEnd p true) s (State.recoverLate { s with pl := { s.pl with pull := [] } } p r) ∧
      Ends (.pullEnd p false) s (State.recoverMirror { s with pl := { s.pl with pull := [] } } p r))

/-- Who owns what (R464, R467, R469, R626): a silent partner's resolution reads keys on the journal members; without its own key the device
is FENCED and cedes its pools, with it PREEMPT goes out, and its completion takes the partner's pools; a CLAIM is refused for drives that
are taken; a refused creation ends with POOL_EXISTS; and a pool is given when the partner is ready and taken with its GIVE_DONE. -/
def Obligations.OwnershipMoves : Prop :=
  ∀ s : State, s.up = true → s.boot.bare = false →
    (s.pl.peer = .silent → s.pl.resolving = false → ∃ (u : State) (ms : List Nat), Ends .resolutionStart s u ∧
      u = { s with out := u.out, pl := { s.pl with resolving := true } } ∧ u.out = s.out ++ ms.map (fun n => Out.drive n 9 2 0 []) ∧
      ∀ n, n ∈ ms ↔ ∃ p x, p ∈ s.ownedPools ∧ s.pool? p = some x ∧ n ∈ x.journal) ∧
    (s.pl.peer ≠ .silent ∨ s.pl.resolving = true → Ends .resolutionStart s s) ∧
    (s.pl.peer = .silent → s.pl.resolving = true →
      (∃ u : State, Ends (.reservationKeysRead true) s u ∧ u.pl = s.pl ∧ u.se = s.se ∧ u.qm = s.qm ∧
        ∀ p t n y, Tab.get? s.pl.standby p = some t → t.pool.params.m ≤ s.maxM → n ∈ t.pool.journal ++ t.pool.members →
          s.slot? n = some y → y.linkUp = true → Out.drive n 9 3 5 (s.reservationKey (otherSide s.pl.side)) ∈ u.out) ∧
      (∃ w x : State, w = { s with pl := { s.pl with peer := .fenced, resolving := false, fromPair := false } } ∧
        x = (w.endGives.dropClaims).each w.ownedPools (fun p t => t.cedePool p) ∧
        Ends (.reservationKeysRead false) s
          ((State.winRecompute (State.dropMirror { x with pl := { x.pl with standby := [], sections := [] } })).raise 0xD02 6 noInst)) ∧
      (∃ w x : State, OnlyRegs [PL_HANDOVERS.at 0] { s with pl := { s.pl with peer := .lost, resolving := false, fromPair := false,
                                                                               appendMseq := [], lag := [] } } w ∧
        w.fld PL_HANDOVERS 0 PL_HANDOVERS_TAKEOVERS =
          (s.fld PL_HANDOVERS 0 PL_HANDOVERS_TAKEOVERS + 1) % 2 ^ PL_HANDOVERS_TAKEOVERS.len ∧
        x = ((w.endGives.dropClaims).raise 0xD01 6 noInst).releaseHeld.winRecompute ∧
        Ends .preemptComplete s (((x.each x.partnerPools (fun p t => t.takePool p)).tryAllAcks.substitute).admitHeld))) ∧
    (∀ pool id slots, (s.mirrors = false → Ends (.claim pool id slots) s s) ∧
      (s.mirrors = true → ∃ b, Ends (.claim pool id slots) s (s.sendFrame 0x04 [pool, id, b]) ∧ b ≤ 1 ∧
        (∀ n ∈ slots, (s.memberPool n).isSome = true ∨ s.pl.taken.contains n = true → b = 1) ∧
        (pool ≠ 0xFF → (s.pool? pool).isSome = true → b = 1) ∧
        (pool = 0xFF → s.pl.side = 1 → (∀ n ∈ slots, (s.memberPool n).isSome = false ∧ s.pl.taken.contains n = false) → b = 0))) ∧
    (∀ pool id refused, (s.pl.claims.find? (fun k => k.pool = pool && k.id = id) = none → Ends (.claimReply pool id refused) s s) ∧
      (∀ k, s.pl.claims.find? (fun k => k.pool = pool && k.id = id) = some k → ∃ w : State,
        w = { s with pl := { s.pl with claims := s.pl.claims.filter (· ≠ k) } } ∧
        (k.cmd = substClaim → Ends (.claimReply pool id true) s w) ∧
        (k.cmd = substClaim → ∃ v : State, v = State.substitute { w with pl := { w.pl with taken := w.pl.taken ++ k.slots } } ∧
          Ends (.claimReply pool id false) s
            { v with pl := { v.pl with taken := v.pl.taken.filter (fun n => (v.memberPool n).isNone) } }) ∧
        (∀ q c, k.cmd ≠ substClaim → s.cmd? k.cmd = some q → q.body = .serial c 2 →
          Ends (.claimReply pool id false) s (w.takeTurn k.cmd c true 0) ∧
          (entryOpcode c = 0x20 → Ends (.claimReply pool id true) s (w.complete k.cmd stPoolExists)) ∧
          (∀ n, entryOpcode c ≠ 0x20 → k.slots = [n] → Ends (.claimReply pool id true) s (w.complete k.cmd stDriveState [] n))))) ∧
    (∀ p q, s.mirrors = true →
      Ends (.giveReq p q) s (State.answerGives { s with pl := { s.pl with giveWaits := s.pl.giveWaits ++ [(p, q)] } })) ∧
    (∀ p x id, s.pool? p = some x → x.giving = some id →
      (s.pl.giveSent.contains p = false → ∀ refused, Ends (.giveReady p refused) s s) ∧
      (s.pl.giveSent.contains p = true → ∃ w : State,
        w = { s with pl := { s.pl with giveSent := s.pl.giveSent.filter (· ≠ p) } } ∧
        Ends (.giveReady p true) s ((w.modPool p (fun y => { y with giving := none })).giveEnded id p true) ∧
        ∃ v : State, v = (w.modPool p (fun y => { y with side := otherSide s.pl.side })).newDescriptor p ∧
          ∀ y, v.pool? p = some y →
            Ends (.giveReady p false) s ((((v.toStandby p).cedePool p).sendFrame 0x22 [p, y.descSeq]).giveEnded id p false))) ∧
    (∀ p seq t, s.pl.peer = .paired → Tab.get? s.pl.standby p = some t →
      Ends (.giveDone p seq) s ((((s.takePool p).bumpWrap PL_HANDOVERS 0 PL_HANDOVERS_GIVEBACKS).modPool p
        (fun y => { y with descSeq := max y.descSeq seq })).winRecompute))

/-! ### The event recorder, keys and the configuration flash -/

/-- The event recorder (R603 to R611, R614, R616 to R618): an event takes a token of its code, is suppressed without one, and is lost when the
intake is full or the recorder is in reset; the oldest event becomes a record under the next SEQ, which a full ring keeps or drops by
severity; a page of records moves to the log region; and a store that faults and returns leaves its own records. -/
def Obligations.EventsAreRecorded : Prop :=
  ∀ s : State, s.plantUp = true →
    (∀ e : RaisedEvent,
      (s.ev.resetting = false → 7 ≤ e.sev ∨ s.tokens e.code e.sev ≠ 0 → s.ev.fifo.length < 64 →
        ∃ u : State, Ends (.eventRaise e) s u ∧ u = { s with ev := u.ev } ∧ u.ev.fifo = s.ev.fifo ++ [e] ∧ u.ev.lostNow = s.ev.lostNow ∧
          (e.sev < 7 → u.tokens e.code e.sev = s.tokens e.code e.sev - 1) ∧ (7 ≤ e.sev → u.ev.tokens = s.ev.tokens)) ∧
      (s.ev.resetting = false → e.sev < 7 → s.tokens e.code e.sev = 0 →
        ∃ u : State, Ends (.eventRaise e) s u ∧ OnlyRegs [EV_SUPPRESSED.at 0] { s with ev := u.ev } u ∧ u.ev.fifo = s.ev.fifo ∧
          Tab.getD u.ev.suppressed e.code 0 = min (Tab.getD s.ev.suppressed e.code 0 + 1) 0xFFFFFFFF) ∧
      (s.ev.resetting = true ∨ (64 ≤ s.ev.fifo.length ∧ (7 ≤ e.sev ∨ s.tokens e.code e.sev ≠ 0)) →
        ∃ u : State, Ends (.eventRaise e) s u ∧ OnlyRegs [EV_LOST.at 0] { s with ev := u.ev } u ∧ u.ev.fifo = s.ev.fifo ∧
          u.ev.lostNow = min (s.ev.lostNow + 1) 0xFFFFFFFF ∧
          u.fld EV_LOST 0 EV_LOST_COUNT = min (s.fld EV_LOST 0 EV_LOST_COUNT + 1) (2 ^ EV_LOST_COUNT.len - 1))) ∧
    (s.ev.fifo = [] ∨ s.ev.resetting = true → Ends .evRecordForm s s) ∧
    (∀ e es, s.ev.fifo = e :: es → s.ev.resetting = false → ∃ (u : State) (r : EvRecord), Ends .evRecordForm s u ∧
      OnlyRegs [EV_DROPPED.at 0] { s with ev := u.ev } u ∧ u.ev.fifo = es ∧ u.ev.seq = s.ev.seq + 1 ∧ u.ev.log = s.ev.log ∧
      Tab.get? u.ev.suppressed e.code = none ∧ r.code = e.code ∧ r.sev = e.sev ∧ r.seq = s.ev.seq + 1 ∧ r.time = e.time ∧ r.inst = e.inst ∧
      r.lost = s.ev.lostNow ∧ r.suppressed = Tab.getD s.ev.suppressed e.code 0 ∧ r.timeUnset = !s.timeSet ∧ r.standby = s.ev.storeFault ∧
      (s.ev.ring.length < 256 → u.ev.ring = s.ev.ring ++ [r] ∧ u.ev.lostNow = 0) ∧
      (256 ≤ s.ev.ring.length → ∀ x, s.ev.ring.find? (fun y => y.sev ≤ e.sev) = some x →
        u.ev.ring = s.ev.ring.erase x ++ [r] ∧ u.ev.lostNow = 0) ∧
      (256 ≤ s.ev.ring.length → (∀ y ∈ s.ev.ring, e.sev < y.sev) → u.ev.ring = s.ev.ring ∧ u.ev.lostNow = 1)) ∧
    (s.logOpen = false → Ends .evLogWriteDone s s) ∧
    (s.logOpen = true → s.ev.log.length + 16 ≤ logCapacity → ∃ u : State, Ends .evLogWriteDone s u ∧ u = { s with ev := u.ev } ∧
      u.ev.ring = s.ev.ring.drop 16 ∧ u.ev.log = s.ev.log ++ s.ev.ring.take 16) ∧
    (∀ code, ∃ u : State, Ends (.evTokenRefill code) s u ∧ u = { s with ev := u.ev } ∧
      u.tokens code (codeSev code) = min (s.tokens code (codeSev code) + 1) (s.burst (codeSev code)) ∧
      ∀ d, d ≠ code → Tab.get? u.ev.tokens d = Tab.get? s.ev.tokens d) ∧
    (∀ port, (s.ev.notifyDue.contains port = false → Ends (.evNotifyTick port) s s) ∧
      (s.ev.notifyDue.contains port = true → Ends (.evNotifyTick port) s
        (State.sendMsix { s with ev := { s.ev with notifyDue := s.ev.notifyDue.filter (· ≠ port) } } (port * 65)
          (s.fld EV_NOTIFY port EV_NOTIFY_VECTOR)))) ∧
    Ends .evScanDone s { s with ev := { s.ev with scanning := false } } ∧
    (s.ev.clearing = false ∨ (s.ev.storeFault = true ∧ s.ev.backWait = false) → Ends .evClearEraseDone s s) ∧
    (∀ r, s.ev.clearing = true → s.ev.storeFault = false ∨ s.ev.backWait = true → s.ev.cleared = some r → ∃ t : State,
      t = State.each { s with ev := { s.ev with log := [r], clearing := false, cleared := none } } s.qm.cmds
        (fun (e : Nat × Cmd) (t : State) => match e.2.body with
          | .evClear q => t.complete e.1 stSuccess (leBytes 8 q)
          | _ => t) ∧
      Ends .evClearEraseDone s (if t.ev.backWait then t.copiedBack else t)) ∧
    (s.ev.storeFault = true ∨ s.hasEB = false → Ends .storeFault s s) ∧
    (s.ev.storeFault = false → s.hasEB = true → s.ev.ring.length < 256 → ∃ (u : State) (r : EvRecord), Ends .storeFault s u ∧
      u.ev.storeFault = true ∧ u.ev.ring = s.ev.ring ++ [r] ∧ r.code = 0x302 ∧ r.sev = 6 ∧ r.standby = true ∧ r.seq = s.ev.seq + 1 ∧
      u.ev.seq = s.ev.seq + 1 ∧ u = { s with ev := u.ev }) ∧
    (s.ev.storeFault = false → Ends .storeBack s s) ∧
    (s.ev.storeFault = true → s.ev.clearing = true → Ends .storeBack s { s with ev := { s.ev with backWait := true } }) ∧
    (s.ev.storeFault = true → s.ev.clearing = false → s.ev.ring.length ≤ 256 → s.ev.log.length + s.ev.ring.length ≤ logCapacity →
      ∃ (u : State) (r : EvRecord), Ends .storeBack s u ∧ u.ev.storeFault = false ∧ u.ev.log = s.ev.log ++ s.ev.ring ∧
        u.ev.ring = [r] ∧ r.code = 0x303 ∧ r.sev = 3 ∧ r.seq = s.ev.seq + 1 ∧ u = { s with ev := u.ev })

/-- Keys, sessions and the configuration flash (R474, R490, R500, R503, R511 to R514): an enrolment operation is refused with its RESULT or
starts and clears the key registers; what it blows stays blown and a failure leaves the fuses; a session ends when it is idle or its key is
revoked; a challenge expires; and the directory names a programmed slot only when programming succeeded. -/
def Obligations.KeysAndFlash : Prop :=
  ∀ s : State,
    (∀ port v op (c : Instr),
      (op, c) ∈ [(1, Instr.enroll port v), (2, Instr.revokeOwner port v), (3, Instr.raiseSvn port v), (4, Instr.revokeVendor port v)] →
      s.plantUp = true → s.gatedAt (SEC_ENROLL_CTL.at 0) = false →
      (SEC_ENROLL_CTL_OP.get v ≠ op ∨ SEC_ENROLL_CTL_GO.get v ≠ 1 → Ends c s s) ∧
      (SEC_ENROLL_CTL_OP.get v = op → SEC_ENROLL_CTL_GO.get v = 1 → s.sec.enrollBusy = none →
        (∀ r, s.enrollRefusal port op (SEC_ENROLL_CTL_INDEX.get v) (SEC_ENROLL_CTL_SVN.get v) = some r →
          ∃ u : State, Ends c s u ∧ u = { s with regs := u.regs } ∧ u.fld SEC_ENROLL_CTL 0 SEC_ENROLL_CTL_RESULT = r ∧
            ∀ w, w < 328 → u.getReg (SEC_ENROLL_KEY.at w) = 0) ∧
        (s.enrollRefusal port op (SEC_ENROLL_CTL_INDEX.get v) (SEC_ENROLL_CTL_SVN.get v) = none →
          ∃ u : State, Ends c s u ∧ u = { s with regs := u.regs, sec := { s.sec with
              enrollBusy := some (op, SEC_ENROLL_CTL_INDEX.get v, SEC_ENROLL_CTL_SVN.get v, Config.sha3 s.enrollKey) } } ∧
            ∀ w, w < 328 → u.getReg (SEC_ENROLL_KEY.at w) = 0) ∧
        (s.hasSession (port * 65) = false → op ≠ 1 ∨ s.sec.enrolled ≠ [] → ∃ u : State, Ends c s u ∧ u.sec = s.sec ∧
          u.fld SEC_ENROLL_CTL 0 SEC_ENROLL_CTL_RESULT = 2))) ∧
    (s.plantUp = true → s.sec.enrollBusy = none → ∀ ok, Ends (.fuseOp ok) s s) ∧
    (∀ op index svn key, s.plantUp = true → s.sec.enrollBusy = some (op, index, svn, key) →
      (∃ u : State, Ends (.fuseOp false) s u ∧ u.fld SEC_ENROLL_CTL 0 SEC_ENROLL_CTL_RESULT = 9 ∧
        u.sec = { s.sec with enrollBusy := none, areasUsed := u.sec.areasUsed } ∧ OnlyRegs [SEC_ENROLL_CTL.at 0] { s with sec := u.sec } u ∧
        (op = 1 → Tab.getD u.sec.areasUsed index 0 = Tab.getD s.sec.areasUsed index 0 + 1) ∧
        (op ≠ 1 → u.sec.areasUsed = s.sec.areasUsed)) ∧
      (∃ u : State, Ends (.fuseOp true) s u ∧ u.fld SEC_ENROLL_CTL 0 SEC_ENROLL_CTL_RESULT = 1 ∧ u.sec.enrollBusy = none ∧
        (op = 1 → u.sec.enrolled = s.sec.enrolled ++ [index] ∧ Tab.get? u.sec.ownerKeys index = some key ∧
          u.sec.fuses = s.sec.fuses ∧ u.sec.session = s.sec.session) ∧
        (op = 2 → 2 + index ∈ u.sec.fuses ∧ (∀ f ∈ u.sec.fuses, f ∈ s.sec.fuses ∨ f = 2 + index) ∧
          (∀ o, s.sec.session = some o → o.keySlot = index → u.sec.session = none)) ∧
        (op = 3 → (∀ i, i < svn → 6 + i ∈ u.sec.fuses) ∧ u.sec.enrolled = s.sec.enrolled) ∧
        (op = 4 → index ∈ u.sec.fuses ∧ u.sec.enrolled = s.sec.enrolled))) ∧
    (s.up = true →
      (∀ x, ∃ u : State, Ends (.challengeExpiry x) s u ∧ u = { s with sec := { s.sec with challenges := u.sec.challenges } } ∧
        Tab.get? u.sec.challenges x = none ∧ ∀ y, y ≠ x → Tab.get? u.sec.challenges y = Tab.get? s.sec.challenges y) ∧
      (s.sec.session = none → Ends .sessionIdleExpiry s s) ∧
      (∀ o, s.sec.session = some o → ∃ w : State, Ends .sessionIdleExpiry s (w.raise 0x102 2 noInst [4]) ∧ w.sec = { s.sec with session := none } ∧
        w = { s with sec := w.sec, boot := w.boot } ∧ w.boot.fwBuf.writer = none ∧ w.boot.imgBuf.writer = none) ∧
      (s.boot.stage = none → ∀ ok, Ends (.flashProgramDone ok) s s) ∧
      (∀ r, s.boot.stage = some r →
        (∃ w : State, Ends (.flashProgramDone true) s (w.complete r.cmd stSuccess (leBytes 1 r.slot)) ∧ w.boot.stage = none ∧
          w.boot.lens = s.boot.lens.set (2 * r.target + r.slot) r.len ∧ (r.target = 0 → w.boot.fwPref = r.slot) ∧
          (r.target ≠ 0 → w.boot.imgPref = r.slot) ∧ w.stageBuf r.target = ⟨[], none⟩ ∧ w.domain 187 = 2 ∧ w.qm = s.qm ∧ w.regs = s.regs) ∧
        (∃ w : State, Ends (.flashProgramDone false) s (w.complete r.cmd stStageInvalid) ∧ w.boot.stage = none ∧
          w.boot.lens = s.boot.lens ∧ w.boot.fwPref = s.boot.fwPref ∧ w.boot.imgPref = s.boot.imgPref ∧
          w.stageBuf r.target = ⟨[], none⟩ ∧ w.domain 187 = 2 ∧ w.qm = s.qm ∧ w.regs = s.regs)))

/-! ### Power, resets and clocks -/

/-- Starts, resets and the ebb (R169, R170, R522 to R527, R529, R601, R639 to R643, R661): a COLD reset keeps fuses and enrolled keys and loses
the memories, and waits for an ebb that runs; a WARM reset is prepared, proceeds without a record when its preparation times out, and ends
with the rise of RESET_N; what a failed retention check discards is gone; power that fails brings EBB with its trigger, stopping the
mover's channels but 31, which runs when a slot is ready; a header read back makes the next image, unless channel 31 has halted in ERROR
(R601); and a device without power is OFF. -/
def Obligations.ResetsKeepWhatTheyMust : Prop :=
  ∀ (s : State) (b : BootInfo),
    (s.pw.power = .ebb → s.eb.running.isSome = true → Brings (.coldReset b) s s) ∧
    (s.pw.power ≠ .ebb ∨ s.eb.running = none → ∃ u : State, Brings (.coldReset b) s u ∧ u = s.coldStart 0 b ∧ u.dram = [] ∧ u.sram = [] ∧
      (∀ f ∈ s.sec.fuses, f ∈ u.sec.fuses) ∧ (∀ k ∈ s.sec.enrolled, k ∈ u.sec.enrolled) ∧
      (b.testMode = true → u.pw.power = .inReset ∧ u.regs = [])) ∧
    (s.pw.power = .ebb → s.eb.running = none → Brings (.ebbRestart b) s (s.coldStart 4 b)) ∧
    (s.pw.power = .inReset → s.pw.boot = none → Brings (.ebbRestart b) s (s.coldStart 0 b)) ∧
    (s.pw.power = .run → Brings (.ebbRestart b) s s) ∧
    (s.pw.power = .run ∨ s.pw.power = .harbourPrep ∨ s.pw.power = .harbour ∨ s.pw.power = .harbourExit →
      Brings (.warmReset b) s { s with pw := { s.pw with
        power := .warmPrep, warmKind := some 1, boot := some b, resetN := false, epoch := none, phyDue := false, prepStep := 0 } }) ∧
    (s.pw.power = .warmPrep → s.pw.resetN = true → ∀ k, s.pw.warmKind = some k → Brings (.warmReset b) s (s.warmReset k true b)) ∧
    (s.pw.power = .ebb ∨ s.pw.power = .off ∨ s.pw.power = .inReset → Brings (.warmReset b) s s) ∧
    (s.pw.power = .warmPrep → Brings (.warmPrepTimeout b) s (s.warmReset 3 false b)) ∧
    (s.pw.power ≠ .warmPrep → Brings (.warmPrepTimeout b) s s) ∧
    (∀ k, s.pw.boot = some b → s.pw.warmKind = some k →
      (s.pw.power = .warmPrep → s.pw.resetN = false →
        Brings .resetNRise s (State.warmReset { s with pw := { s.pw with resetN := true } } k true b)) ∧
      (s.pw.power = .inReset → Brings .resetNRise s (State.warmStart { s with pw := { s.pw with resetN := true } } k s.pw.record b))) ∧
    (∀ sr ecc rec, (s.pw.checkDue = false → Brings (.retentionCheckDone sr ecc rec) s s) ∧
      (s.pw.checkDue = true → ∃ w : State, Brings (.retentionCheckDone sr ecc rec) s w.winRecompute.admitHeld ∧ w.pw.checkDue = false ∧
        w.pw.power = .run ∧ w.pw.retained = (sr && ecc && rec) ∧
        (sr = true → ecc = true → rec = true → w.dram = s.dram ∧ w.se = s.se ∧ w.qm = s.qm) ∧
        (sr = false ∨ ecc = false ∨ rec = false →
          w.dram = [] ∧ w.qm.orphans = [] ∧ w.se.sets = [] ∧ w.se.stripes = [] ∧ w.se.pending = []))) ∧
    (s.pw.power = .ebb → Brings .pwrgdFall s s) ∧
    (s.pw.power ≠ .ebb → ∃ t : State, Runs .pwrgdFall s t ∧ t.pw.power = .off ∧ t.dram = [] ∧ t.sram = [] ∧ t.regs = [] ∧
      t.sec.fuses = s.sec.fuses ∧ t.sec.enrolled = s.sec.enrolled ∧ t.eb.slots = s.eb.slots ∧ t.ev.log = s.ev.log) ∧
    (∀ vaon, ∃ t : State, Runs (.suppliesRemoved vaon) s t ∧ t.pw.power = .off ∧ t.dram = [] ∧ t.sec.fuses = s.sec.fuses ∧
      (vaon = true → t.eb.lastTrigger = 0 ∧ t.eb.lastMs = 0 ∧ t.eb.lastComplete = false) ∧
      (vaon = false → t.eb.lastTrigger = s.eb.lastTrigger ∧ t.eb.lastMs = s.eb.lastMs) ∧
      ∀ i, s.eb.running = some (some i) → (t.ebSlot i).image = none) ∧
    (s.pw.power = .ebb ∨ s.pw.power = .off → Brings .ebbEntry s s) ∧
    (s.pw.power = .run ∨ s.pw.power = .harbourPrep ∨ s.pw.power = .harbour ∨ s.pw.power = .harbourExit ∨ s.pw.power = .warmPrep →
      (s.boot.fwReady = true → ∃ t : State, Runs .ebbEntry s t ∧ t.pw.power = .ebb ∧ t.eb.lastTrigger = 1 ∧ t.eb.lastMs = 0 ∧
        t.eb.lastComplete = false ∧ t.eb.running.isSome = true ∧ t.dram = s.dram ∧ t.sram = s.sram ∧
        (∀ i, t.eb.running = some (some i) → t.fld XM_CH_STATUS 31 XM_CH_STATUS_STATE = xmRun) ∧ ∀ n, n < 31 → t.fld XM_CH_STATUS n XM_CH_STATUS_STATE = xmStopped) ∧
      (s.boot.fwReady = false → Runs .ebbEntry s { s with pw := { s.pw with power := .inReset, boot := none, warmKind := none } })) ∧
    (s.eb.running = none → Runs .ebbLastUpdate s s) ∧
    (s.eb.running.isSome = true → Runs .ebbLastUpdate s { s with eb := { s.eb with lastMs := min (s.eb.lastMs + 1) 0xFFFF } }) ∧
    (s.eb.running = none → ∀ h, Brings (.ebbEnd h) s s) ∧
    (∀ i, s.eb.running = some (some i) → i < s.eb.slots.length →
      (s.fld XM_CH_STATUS 31 XM_CH_STATUS_STATE = xmError → ∃ u : State, Brings (.ebbEnd true) s u ∧ u.eb.running = none ∧
        u.eb.seq = s.eb.seq ∧ (u.ebSlot i).image = (s.ebSlot i).image ∧ (u.ebSlot i).ready = false) ∧
      (s.fld XM_CH_STATUS 31 XM_CH_STATUS_STATE ≠ xmError → ∃ (u : State) (e : EbbImage), Brings (.ebbEnd true) s u ∧ u.eb.running = none ∧ u.eb.seq = s.eb.seq + 1 ∧ u.eb.seqSlot = i ∧
        u.eb.lastComplete = true ∧ (u.ebSlot i).image = some e ∧ e.seq = s.eb.seq + 1 ∧ e.trigger = s.eb.lastTrigger ∧
        e.tables.stripes = s.se.stripes ∧ u.regs = s.regs) ∧
      (∃ u : State, Brings (.ebbEnd false) s u ∧ u.eb.running = none ∧ u.eb.seq = s.eb.seq ∧ (u.ebSlot i).ready = false ∧ u.regs = s.regs))

/-- HARBOUR and mode epochs (R532, R533, R544 to R547, R566): with the epoch done, links go down, the DRAM refreshes itself and the session is
gone; the wake pin, the timer and, while PERST_EXIT is set, PERST_N leave HARBOUR; an epoch is committed by the last PREPARE answer and ended
by the last switch, and a refusal or a timeout leaves the old mode; a unit that does not switch is a WARM reset. -/
def Obligations.HarbourAndModes : Prop :=
  ∀ s : State,
    (s.pw.phyDue = false → Brings .harbourPhyDown s s) ∧
    (s.pw.phyDue = true → ∃ t : State, Runs .harbourPhyDown s t ∧ t.pw.power = .harbour ∧ t.pw.phyDue = false ∧ t.dram = s.dram ∧
      t.sec.session = none ∧ t.mdc = MdcUnit.reset ∧ t.ce = CeUnit.reset ∧
      ∀ ch, ch < 64 → t.fld MC_CH_STATUS ch MC_CH_STATUS_STATE = 2 ∧ t.fld MC_CH_STATUS ch MC_CH_STATUS_SR_HELD = 1) ∧
    (s.pw.power ≠ .harbour → ∀ p, Brings (.harbourExit p) s s ∧ Brings .harbourTimer s s) ∧
    (s.pw.power = .harbour →
      (∃ u : State, u = s.leaveHarbour ∧ Brings (.harbourExit false) s u ∧ u.pw.power = .harbourExit ∧ u.pw.checkDue = true ∧
        u.boot.fwReady = true ∧ u.dram = s.dram ∧ u.sec = s.sec) ∧
      (s.fld PW_HARBOUR_CTL 0 PW_HARBOUR_CTL_PERST_EXIT = 0 → Brings (.harbourExit true) s s) ∧
      (s.fld PW_HARBOUR_CTL 0 PW_HARBOUR_CTL_PERST_EXIT = 1 → Brings (.harbourExit true) s s.leaveHarbour) ∧
      (s.fld PW_HARBOUR_CTL 0 PW_HARBOUR_CTL_TIMER_MIN = 0 → Brings .harbourTimer s s) ∧
      (s.fld PW_HARBOUR_CTL 0 PW_HARBOUR_CTL_TIMER_MIN ≠ 0 → Brings .harbourTimer s s.leaveHarbour)) ∧
    (s.up = true → s.pw.epoch = none → ∀ n b, Ends (.modeEpochAck n) s s ∧ Ends (.modeRollback n) s s ∧ Ends .modeEpochTimeout s s ∧
      Ends (.modeSwitchDone n) s s ∧ Ends (.modeStuck b) s s) ∧
    (∀ k n, s.up = true → s.pw.epoch = some k →
      (k.committed = false →
        (k.waiting.contains n = false → Ends (.modeEpochAck n) s s) ∧
        (k.waiting.contains n = true → ∃ j : Epoch, Ends (.modeEpochAck n) s { s with pw := { s.pw with epoch := some j } } ∧
          j.kind = k.kind ∧ j.e = k.e ∧ j.cmd = k.cmd ∧ (j.committed = true ↔ ∀ x ∈ k.waiting, x = n) ∧
          (j.committed = true → j.waiting = k.switched ++ [n] ∧ j.switched = []) ∧
          (j.committed = false → j.waiting = k.waiting.filter (· ≠ n) ∧ j.switched = k.switched ++ [n])) ∧
        Ends (.modeRollback n) s (s.abortEpoch n 3) ∧ Ends .modeEpochTimeout s (s.abortEpoch (k.waiting.headD 0) 2) ∧
        Ends (.modeSwitchDone n) s s ∧ (∀ b, Ends (.modeStuck b) s s) ∧
        (∀ p, k.kind = .freq p → ∃ u : State, Ends (.modeRollback n) s u ∧ u.pw.epoch = none ∧ u.pw.modeResult = 3 ∧ u.pw.modeUnit = n ∧
          u.pw.epochDone = s.pw.epochDone ∧ u.fld MC_FREQ 0 MC_FREQ_BUSY = 0 ∧
          u.fld MC_FREQ 0 MC_FREQ_CURRENT = s.fld MC_FREQ 0 MC_FREQ_CURRENT)) ∧
      (k.committed = true →
        Ends (.modeEpochAck n) s s ∧ Ends (.modeRollback n) s s ∧ Ends .modeEpochTimeout s s ∧
        (k.waiting.contains n = false → Ends (.modeSwitchDone n) s s) ∧
        (k.waiting.contains n = true →
          ((∃ x ∈ k.waiting, x ≠ n) → Ends (.modeSwitchDone n) s { s with pw := { s.pw with
            epoch := some { k with waiting := k.waiting.filter (· ≠ n), switched := k.switched ++ [n] } } }) ∧
          ((∀ x ∈ k.waiting, x = n) →
            Ends (.modeSwitchDone n) s (s.commitEpoch { k with waiting := [], switched := k.switched ++ [n] }) ∧
            (∀ p, k.kind = .freq p → p < 4 → ∃ u : State, Ends (.modeSwitchDone n) s u ∧ u.pw.epoch = none ∧ u.pw.epochDone = k.e ∧
              u.pw.modeResult = 1 ∧ u.fld MC_FREQ 0 MC_FREQ_BUSY = 0 ∧ u.fld MC_FREQ 0 MC_FREQ_CURRENT = p ∧
              u.fld MC_FREQ 0 MC_FREQ_RESULT = 1))) ∧
        (∀ b, ∃ w : State, Brings (.modeStuck b) s (w.warmNow b) ∧ w.pw = { s.pw with epoch := none } ∧ w.se = s.se ∧ w.dram = s.dram))) ∧
    (∀ port v p, p = MC_FREQ_TARGET.get v → WriteTaken s port (MC_FREQ.at 0) →
      (s.fld MC_FREQ 0 MC_FREQ_BUSY = 1 → Ends (.mcFreqTargetWrite port v) s s) ∧
      (s.fld MC_FREQ 0 MC_FREQ_BUSY = 0 → ∃ w : State, w.fld MC_FREQ 0 MC_FREQ_TARGET = p ∧
        w.fld MC_FREQ 0 MC_FREQ_CURRENT = s.fld MC_FREQ 0 MC_FREQ_CURRENT ∧
        w.fld MC_FREQ 0 MC_FREQ_TRAINED = s.fld MC_FREQ 0 MC_FREQ_TRAINED ∧ OnlyRegs [MC_FREQ.at 0] s w ∧
        (p = s.fld MC_FREQ 0 MC_FREQ_CURRENT → Ends (.mcFreqTargetWrite port v) s w ∧ w.fld MC_FREQ 0 MC_FREQ_BUSY = 0) ∧
        (p ≠ s.fld MC_FREQ 0 MC_FREQ_CURRENT → w.fld MC_FREQ 0 MC_FREQ_BUSY = 1 ∧
          (s.pw.epoch = none → Ends (.mcFreqTargetWrite port v) s (w.startEpoch (.freq p) none)) ∧
          (s.pw.epoch ≠ none → Ends (.mcFreqTargetWrite port v) s w))))

/-- UNIT resets and power domains (R449, R530, R531, R536 to R539, R602): a UNIT reset waits for an epoch, ungates its unit and is busy until it
completes; the mover's request lines and the coding engine's jobs outlast theirs; SLACK gates an idle domain and a write of 0 ungates all;
an owner's request drains a domain, which gates with its jobs moved and its links dropped. -/
def Obligations.UnitsAndDomainsFollow : Prop :=
  ∀ s : State, s.up = true →
    (∀ (u : Nat) (c : Instr),
      (u, c) ∈ [(0, Instr.unitResetEv), (1, .unitResetCe), (2, .unitResetHe), (3, .unitResetMdc), (4, .unitResetXm), (5, .unitResetCl),
        (6, .unitResetEb), (7, .unitResetPl), (8, .unitResetDl 0), (9, .unitResetDl 1), (10, .unitResetDl 2), (11, .unitResetDl 3)] →
      (s.unitIgnored u = true ∨ s.pw.unitBusy.contains u = true ∨ s.pw.unitWaiting.contains u = true → Ends c s s) ∧
      (s.unitIgnored u = false → s.pw.unitBusy.contains u = false → s.pw.unitWaiting.contains u = false →
        (s.pw.epoch.isSome = true → Ends c s { s with pw := { s.pw with unitWaiting := s.pw.unitWaiting ++ [u] } }) ∧
        (s.pw.epoch = none → ∃ w x : State, w = { s with pw := w.pw } ∧ w.domain (unitDomain u) = 0 ∧
          w.pw.unitBusy = s.pw.unitBusy ++ [u] ∧ x = w.unitEffect u ∧ Ends c s x ∧
          (u = 0 → x.ev.fifo = [] ∧ x.ev.resetting = true ∧ x.ev.ring = s.ev.ring ∧ x.fld EV_DROPPED 0 EV_DROPPED_COUNT = 0) ∧
          (u = 1 → x.ce.running = [] ∧ x.ce.queue = s.ce.running.map (·.2) ++ s.ce.queue) ∧ (u = 2 ∨ u = 6 → x = w) ∧
          (u = 3 → x.mdc.ways = [] ∧ x.mdc.maint = none) ∧
          (u = 4 → x.xm.chans = [] ∧ x.getReg (XM_REQ.at 0) = s.getReg (XM_REQ.at 0)) ∧
          (u = 5 → x.cl.integ = [] ∧ x.cl.fifo0 = [] ∧ x.cl.fifo1 = []) ∧ (u = 7 → x.pl.linkUp = false)))) ∧
    (∀ d, 4 ≤ d → Ends (.unitResetDl d) s s) ∧
    (∀ v, (s.pw.unitBusy.contains v = false → Ends (.unitResetComplete v) s s) ∧
      (s.pw.unitBusy.contains v = true → ∃ x : State, Ends (.unitResetComplete v) s x ∧
        x.pw.unitBusy = s.pw.unitBusy.filter (· ≠ v) ∧ (v = 0 → x.ev.resetting = false) ∧ (v = 5 → x.cl.outputsOff = false) ∧
        x.regs = s.regs ∧ x.se = s.se)) ∧
    (∀ d, (s.fld PW_SLACK_CTL 0 PW_SLACK_CTL_EN = 0 ∨ slackDomain d = false ∨ s.pw.power ≠ .run → Ends (.slackIdleGate d) s s) ∧
      (s.pw.power = .run → s.fld PW_SLACK_CTL 0 PW_SLACK_CTL_EN = 1 → slackDomain d = true → s.domain d = 0 →
        (151 ≤ d → d ≤ 158 → Tab.get? s.ce.running (d - 151) = none) → ∃ u : State, Ends (.slackIdleGate d) s u ∧ u = { s with pw := u.pw } ∧
          u.pw.idleGated = s.pw.idleGated ++ [d] ∧ u.domain d = 2 ∧ ∀ f, f ≠ d → u.domain f = s.domain f) ∧
      (s.pw.idleGated.contains d = false → Ends (.domainUngateDone d) s s) ∧
      (s.pw.idleGated.contains d = true → s.domain d ≠ 3 → ∃ u : State, Ends (.domainUngateDone d) s u ∧ u.domain d = 0 ∧
        u.pw.idleGated = s.pw.idleGated.filter (· ≠ d) ∧ u.ce.queue = s.ce.queue ∧ ∀ f, f ≠ d → u.domain f = s.domain f) ∧
      ∀ c ∈ [Instr.domainDrainExpiry d, .drainComplete d],
        (s.domain d ≠ 1 → Ends c s s) ∧
        (s.domain d = 1 → d < 128 ∨ (131 < d ∧ d < 151) ∨ 158 < d → Ends c s (s.setDomain d 2)) ∧
        (s.domain d = 1 → 151 ≤ d → d ≤ 158 → Tab.get? s.ce.running (d - 151) = none → Ends c s (s.setDomain d 2)) ∧
        (∀ j, s.domain d = 1 → 151 ≤ d → d ≤ 158 → Tab.get? s.ce.running (d - 151) = some j → ∃ w : State, Ends c s w ∧
          w.ce.queue = j :: s.ce.queue ∧ Tab.get? w.ce.running (d - 151) = none ∧ w.domain d = 2 ∧ w.se = s.se ∧ w.regs = s.regs) ∧
        (s.domain d = 1 → 128 ≤ d → d ≤ 131 → Ends c s ((s.setDomain d 2).each
          ((Tab.keys s.dl.slots).filter (fun n => n / 256 = d - 128))
          (fun n t => if (t.slot? n).map (·.linkUp) = some true then t.linkLost n else t)))) ∧
    (∀ port v, WriteTaken s port (PW_SLACK_CTL.at 0) → ∃ w : State, Ends (.pwSlackCtlWrite port v) s w ∧
      w.fld PW_SLACK_CTL 0 PW_SLACK_CTL_EN = PW_SLACK_CTL_EN.get v ∧ OnlyRegs [PW_SLACK_CTL.at 0] { s with pw := w.pw, ce := w.ce } w ∧
      (PW_SLACK_CTL_EN.get v = 1 → w.pw = s.pw ∧ w.ce = s.ce) ∧ (PW_SLACK_CTL_EN.get v = 0 → w.pw.idleGated = [])) ∧
    (∀ port v, WriteTaken s port (PW_PD_REQ.at 0) → ∃ w : State, Ends (.pdRequest port v) s w ∧ w.se = s.se ∧ w.dl = s.dl ∧
      w.fld PW_PD_REQ 0 PW_PD_REQ_CE = PW_PD_REQ_CE.get v ∧ w.fld PW_PD_REQ 0 PW_PD_REQ_HE = PW_PD_REQ_HE.get v ∧
      w.fld PW_PD_REQ 0 PW_PD_REQ_LD = PW_PD_REQ_LD.get v ∧
      w.fld PW_PD_REQ 0 PW_PD_REQ_PLK = (if s.pl.peer = .unpaired then PW_PD_REQ_PLK.get v else 0) ∧
      ∀ d, (d ∉ s.requestedOff → d ∈ w.requestedOff → s.domain d = 0 → w.domain d = 1) ∧
        (d ∈ s.requestedOff → d ∉ w.requestedOff → s.domain d ≠ 3 → s.pw.idleGated.contains d = false → w.domain d = 0) ∧
        ((d ∈ s.requestedOff ↔ d ∈ w.requestedOff) → w.domain d = s.domain d))

/-- Clocks and temperatures (R543, R654): a lost AON clock is taken over with its event, once; a PLL that loses lock resets what it clocks,
and the device when that is all of it; a die at 120 °C drives THERM_TRIP_N, which ends below 110 °C, and one at 130 °C stops the device. -/
def Obligations.ClocksAndTemperatures : Prop :=
  ∀ s : State,
    (s.plantUp = true → s.pw.aonFallback = true → Ends .aonFallback s s) ∧
    (s.plantUp = true → s.pw.aonFallback = false →
      Ends .aonFallback s (State.raise { s with pw := { s.pw with aonFallback := true } } 0x203 4 noInst)) ∧
    (∀ c b, s.up = true →
      (c = 0 ∨ c = 8 ∨ c = 9 ∨ (c = 10 ∧ s.hasEB = true) → Brings (.pllLockLoss c b) s (s.warmNow b)) ∧
      (10 < c ∨ (c = 10 ∧ s.hasEB = false) ∨ (c = 3 ∧ s.hasPL = false) ∨ (4 ≤ c ∧ c ≤ 7 ∧ s.domain (124 + c) = 3) →
        Brings (.pllLockLoss c b) s s) ∧
      ∃ w : State, w = { s with pw := { s.pw with unlocked := w.pw.unlocked } } ∧ (∀ x, x ∈ w.pw.unlocked ↔ x ∈ s.pw.unlocked ∨ x = c) ∧
        (c = 1 → Brings (.pllLockLoss c b) s ((w.resetPort 0 0).resetPort 0 1)) ∧
        (c = 2 → Brings (.pllLockLoss c b) s ((w.resetPort 1 0).resetPort 1 1)) ∧
        (c = 3 → s.hasPL = true → Brings (.pllLockLoss c b) s { w with pl := { s.pl with linkUp := false, rate := 0, width := 0 } }) ∧
        (4 ≤ c → c ≤ 7 → s.domain (124 + c) ≠ 3 → Brings (.pllLockLoss c b) s (w.unitReset (c + 4)))) ∧
    (∀ temps t, s.plantUp = true → temps.getD 0 none = some t →
      (130 ≤ t → ∃ u : State, Runs (.dieTempRead temps) s u ∧ u.pw.power = .off ∧ u.sec.fuses = s.sec.fuses) ∧
      ((∀ k x, temps.getD k none = some x → x < 130) → 120 ≤ t → s.pw.thermTrip = false →
        ∃ w : State, Brings (.dieTempRead temps) s (w.emit (.pin "THERM_TRIP_N" false)) ∧ w.pw.thermTrip = true ∧
          w.fld DEV_TEMP 0 DEV_TEMP_VALID = 1 ∧ w.fld DEV_TEMP 0 DEV_TEMP_TRIP = 1 ∧
          w.fld DEV_TEMP 0 DEV_TEMP_TEMP_C = signedBits 8 t ∧ w.se = s.se) ∧
      ((∀ k x, temps.getD k none = some x → x < 110) → ∃ w : State, w.pw.thermTrip = false ∧ w.fld DEV_TEMP 0 DEV_TEMP_VALID = 1 ∧
        w.fld DEV_TEMP 0 DEV_TEMP_TRIP = 0 ∧ w.fld DEV_TEMP 0 DEV_TEMP_TEMP_C = signedBits 8 t ∧ w.out = s.out ∧ w.ev = s.ev ∧
        (s.pw.thermTrip = true → Brings (.dieTempRead temps) s (w.emit (.pin "THERM_TRIP_N" true))) ∧
        (s.pw.thermTrip = false → Brings (.dieTempRead temps) s w)))
end

