-- ==== Sys2Proof/Laws/Tables.lean ====
section
/-! SUPPORT. Tables, register storage and memories: reading after writing, and the canonical forms that writing keeps. -/

namespace Sys2Proof.Machine

open Sys2Proof

variable {α : Type}

/-- Every key of a table is above `k`. -/
def Tab.above (t : Tab α) (k : Nat) : Prop := ∀ p ∈ t, k < p.1

theorem Tab.sorted_cons_iff (a : Nat × α) (t : Tab α) :
    Tab.sorted (a :: t) = true ↔ Tab.above t a.1 ∧ Tab.sorted t = true := by
  induction t generalizing a with
  | nil => simp [Tab.sorted, Tab.above]
  | cons b t ih =>
    simp only [Tab.sorted, Bool.and_eq_true, decide_eq_true_eq]
    constructor
    · rintro ⟨h, hs⟩
      refine ⟨?_, hs⟩
      intro p hp
      rcases List.mem_cons.mp hp with rfl | hp
      · exact h
      · exact Nat.lt_trans h ((ih b).mp hs |>.1 p hp)
    · rintro ⟨h, hs⟩
      exact ⟨h b (List.mem_cons_self ..), hs⟩

theorem Tab.above_set {t : Tab α} {k j : Nat} {v : α} (h : Tab.above t j) (hk : j < k) : Tab.above (Tab.set t k v) j := by
  induction t with
  | nil => intro p hp; simp [Tab.set] at hp; subst hp; exact hk
  | cons a t ih =>
    have ha : j < a.1 := h a (List.mem_cons_self ..)
    have ht : Tab.above t j := fun p hp => h p (List.mem_cons_of_mem _ hp)
    unfold Tab.set
    split
    · intro p hp
      rcases List.mem_cons.mp hp with rfl | hp
      · exact hk
      · exact h p hp
    · split
      · intro p hp
        rcases List.mem_cons.mp hp with rfl | hp
        · exact hk
        · exact ht p hp
      · intro p hp
        rcases List.mem_cons.mp hp with rfl | hp
        · exact ha
        · exact ih ht p hp

/-- Setting an entry keeps the keys in rising order. -/
theorem Tab.sorted_set {t : Tab α} (h : Tab.sorted t = true) (k : Nat) (v : α) : Tab.sorted (Tab.set t k v) = true := by
  induction t with
  | nil => rfl
  | cons a t ih =>
    obtain ⟨ha, ht⟩ := (Tab.sorted_cons_iff a t).mp h
    unfold Tab.set
    split
    · rename_i hlt
      rw [Tab.sorted_cons_iff]
      refine ⟨?_, h⟩
      intro p hp
      rcases List.mem_cons.mp hp with rfl | hp
      · exact hlt
      · exact Nat.lt_trans hlt (ha p hp)
    · split
      · rename_i heq
        rw [Tab.sorted_cons_iff]
        exact ⟨by intro p hp; rw [heq]; exact ha p hp, ht⟩
      · rename_i h1 h2
        rw [Tab.sorted_cons_iff]
        exact ⟨Tab.above_set ha (by omega), ih ht⟩

/-- Filtering keeps the keys in rising order. -/
theorem Tab.sorted_filter {t : Tab α} (h : Tab.sorted t = true) (f : Nat × α → Bool) :
    Tab.sorted (t.filter f) = true := by
  induction t with
  | nil => rfl
  | cons a t ih =>
    obtain ⟨ha, ht⟩ := (Tab.sorted_cons_iff a t).mp h
    rw [List.filter_cons]
    split
    · rw [Tab.sorted_cons_iff]
      exact ⟨fun p hp => ha p ((List.mem_filter.mp hp).1), ih ht⟩
    · exact ih ht

/-- Removing an entry keeps the keys in rising order. -/
theorem Tab.sorted_erase {t : Tab α} (h : Tab.sorted t = true) (k : Nat) : Tab.sorted (Tab.erase t k) = true :=
  Tab.sorted_filter h _

theorem Tab.mem_set {t : Tab α} {k : Nat} {v : α} {p : Nat × α} (h : p ∈ Tab.set t k v) : p = (k, v) ∨ p ∈ t := by
  induction t with
  | nil => simp [Tab.set] at h; exact .inl h
  | cons a t ih =>
    unfold Tab.set at h
    split at h
    · rcases List.mem_cons.mp h with h | h
      · exact .inl h
      · exact .inr h
    · split at h
      · rcases List.mem_cons.mp h with h | h
        · exact .inl h
        · exact .inr (List.mem_cons_of_mem _ h)
      · rcases List.mem_cons.mp h with h | h
        · exact .inr (h ▸ List.mem_cons_self ..)
        · rcases ih h with h | h
          · exact .inl h
          · exact .inr (List.mem_cons_of_mem _ h)

@[simp] theorem Tab.get?_nil (k : Nat) : Tab.get? ([] : Tab α) k = none := rfl

theorem Tab.get?_cons (a : Nat × α) (t : Tab α) (k : Nat) :
    Tab.get? (a :: t) k = if a.1 = k then some a.2 else Tab.get? t k := by
  unfold Tab.get?
  rw [List.find?_cons]
  by_cases h : a.1 = k
  · simp [h]
  · simp [h, beq_eq_false_iff_ne.mpr h]

/-- The entry just set is the one read. -/
@[simp] theorem Tab.get?_set_same (t : Tab α) (k : Nat) (v : α) : Tab.get? (Tab.set t k v) k = some v := by
  induction t with
  | nil => simp [Tab.set, Tab.get?_cons]
  | cons a t ih =>
    unfold Tab.set
    split
    · simp [Tab.get?_cons]
    · split
      · simp [Tab.get?_cons]
      · rename_i h1 h2
        rw [Tab.get?_cons, if_neg (by omega), ih]

/-- Setting an entry leaves the others. -/
theorem Tab.get?_set_other (t : Tab α) {k j : Nat} (v : α) (h : j ≠ k) : Tab.get? (Tab.set t k v) j = Tab.get? t j := by
  induction t with
  | nil => simp [Tab.set, Tab.get?_cons, Ne.symm h]
  | cons a t ih =>
    unfold Tab.set
    split
    · rw [Tab.get?_cons, if_neg (fun e => h e.symm)]
    · split
      · rename_i heq
        rw [Tab.get?_cons, if_neg (fun e => h e.symm), Tab.get?_cons, if_neg (by omega)]
      · rw [Tab.get?_cons, Tab.get?_cons, ih]

/-- A removed entry is gone. -/
@[simp] theorem Tab.get?_erase_same (t : Tab α) (k : Nat) : Tab.get? (Tab.erase t k) k = none := by
  unfold Tab.get? Tab.erase
  rw [List.find?_filter]
  simp

/-- Removing an entry leaves the others. -/
theorem Tab.get?_erase_other (t : Tab α) {k j : Nat} (h : j ≠ k) : Tab.get? (Tab.erase t k) j = Tab.get? t j := by
  induction t with
  | nil => rfl
  | cons a t ih =>
    unfold Tab.erase at ih ⊢
    rw [List.filter_cons]
    by_cases ha : a.1 = k
    · rw [if_neg (by simp [ha]), ih, Tab.get?_cons, if_neg (by omega)]
    · rw [if_pos (by simp [ha]), Tab.get?_cons, Tab.get?_cons, ih]

/-! ### Register storage -/

@[simp] theorem regGet_regPut_same (rs : List (Nat × Word)) (a : Nat) (v : Word) : regGet (regPut rs a v) a = v := by
  unfold regGet regPut Tab.getD
  split
  · rename_i h; rw [Tab.get?_erase_same, h]; rfl
  · rw [Tab.get?_set_same]; rfl

theorem regGet_regPut_other (rs : List (Nat × Word)) {a b : Nat} (v : Word) (h : b ≠ a) :
    regGet (regPut rs a v) b = regGet rs b := by
  unfold regGet regPut Tab.getD
  split
  · rw [Tab.get?_erase_other _ h]
  · rw [Tab.get?_set_other _ _ h]

/-- A register write keeps the canonical form of register storage. -/
theorem regsWf_regPut {rs : List (Nat × Word)} (h : regsWf rs = true) (a : Nat) (v : Word) : regsWf (regPut rs a v) = true := by
  unfold regsWf at h ⊢
  simp only [Bool.and_eq_true, List.all_eq_true, bne_iff_ne, ne_eq] at h ⊢
  unfold regPut
  split
  · exact ⟨Tab.sorted_erase h.1 a, fun p hp => h.2 p ((List.mem_filter.mp hp).1)⟩
  · rename_i hv
    refine ⟨Tab.sorted_set h.1 a v, fun p hp => ?_⟩
    rcases Tab.mem_set hp with rfl | hp
    · exact hv
    · exact h.2 p hp

/-! ### Memories -/

@[simp] theorem memGet_memPut_same (m : List Host.Cell) (a : Nat) (b : Byte) : memGet (memPut m a b) a = b := by
  unfold memGet memPut Tab.getD
  split
  · rename_i h; rw [Tab.get?_erase_same, h]; rfl
  · rw [Tab.get?_set_same]; rfl

theorem memGet_memPut_other (m : List Host.Cell) {a c : Nat} (b : Byte) (h : c ≠ a) :
    memGet (memPut m a b) c = memGet m c := by
  unfold memGet memPut Tab.getD
  split
  · rw [Tab.get?_erase_other _ h]
  · rw [Tab.get?_set_other _ _ h]

/-- A byte write keeps the canonical form of a memory. -/
theorem memory_wf_memPut {m : List Host.Cell} (h : Memory.wf m = true) (a : Nat) (b : Byte) :
    Memory.wf (memPut m a b) = true := by
  unfold Memory.wf at h ⊢
  simp only [Bool.and_eq_true, List.all_eq_true, bne_iff_ne, ne_eq] at h ⊢
  unfold memPut
  split
  · exact ⟨Tab.sorted_erase h.1 a, fun p hp => h.2 p ((List.mem_filter.mp hp).1)⟩
  · rename_i hb
    refine ⟨Tab.sorted_set h.1 a b, fun p hp => ?_⟩
    rcases Tab.mem_set hp with rfl | hp
    · exact hb
    · exact h.2 p hp

/-- A write of bytes keeps the canonical form of a memory. -/
theorem memory_wf_memWrite {m : List Host.Cell} (h : Memory.wf m = true) (a : Nat) (bs : List Byte) :
    Memory.wf (memWrite m a bs) = true := by
  induction bs generalizing m a with
  | nil => exact h
  | cons b bs ih => exact ih (memory_wf_memPut h a b) (a + 1)

/-- A write leaves every byte outside the bytes written. -/
theorem memGet_memWrite_outside (m : List Host.Cell) (a : Nat) (bs : List Byte) (c : Nat) (h : c < a ∨ a + bs.length ≤ c) :
    memGet (memWrite m a bs) c = memGet m c := by
  induction bs generalizing m a with
  | nil => rfl
  | cons b bs ih =>
    simp only [List.length_cons] at h
    rw [memWrite, ih (memPut m a b) (a + 1) (by omega), memGet_memPut_other _ _ (by omega)]

theorem memRead_memWrite_below (m : List Host.Cell) (a : Nat) (bs : List Byte) (n c : Nat) (h : c + n ≤ a) :
    memRead (memWrite m a bs) c n = memRead m c n := by
  induction n generalizing c with
  | zero => rfl
  | succ n ih => rw [memRead, memRead, memGet_memWrite_outside _ _ _ _ (by omega), ih (c + 1) (by omega)]

/-- Bytes written are the bytes read. -/
@[simp] theorem memRead_memWrite_same (m : List Host.Cell) (a : Nat) (bs : List Byte) :
    memRead (memWrite m a bs) a bs.length = bs := by
  induction bs generalizing m a with
  | nil => rfl
  | cons b bs ih =>
    rw [List.length_cons, memRead, memWrite, memGet_memWrite_outside _ _ _ _ (by omega), memGet_memPut_same, ih]

end Sys2Proof.Machine
end

