-- ==== Sys2Proof/Laws/Fields.lean ====
section
/-! SUPPORT. Fields of register words: reading after writing, bit by bit and field by field. -/

namespace Sys2Proof.Machine

open Sys2Proof

/-- Bits of a field of a number. -/
theorem bits_testBit (n lo len i : Nat) : (bits n lo len).testBit i = (decide (i < len) && n.testBit (lo + i)) := by
  unfold bits
  rw [Nat.testBit_mod_two_pow]
  congr 1
  rw [Nat.testBit_shiftRight]

theorem Fld.get_testBit (f : Fld) (w : Word) (i : Nat) :
    (f.get w).testBit i = (decide (i < f.len) && w.getLsbD (f.lo + i)) := by
  unfold Fld.get
  rw [bits_testBit]
  rfl

/-- A word with a field set, bit by bit. -/
theorem Fld.put_getLsbD (f : Fld) (w : Word) (v b : Nat) (hb : b < 32) :
    (f.put w v).getLsbD b = if f.lo ≤ b ∧ b < f.lo + f.len then v.testBit (b - f.lo) else w.getLsbD b := by
  unfold Fld.put
  simp only [BitVec.getLsbD_ofNat, Nat.testBit_or, Nat.testBit_and, Nat.testBit_xor, Nat.testBit_shiftLeft,
    Nat.testBit_two_pow_sub_one, Nat.testBit_mod_two_pow]
  have h32 : (4294967295 : Nat).testBit b = true := by
    have : (4294967295 : Nat) = 2 ^ 32 - 1 := by decide
    rw [this, Nat.testBit_two_pow_sub_one]
    simp [hb]
  have hw : w.toNat.testBit b = w.getLsbD b := rfl
  rw [h32, hw]
  by_cases h1 : f.lo ≤ b
  · by_cases h2 : b < f.lo + f.len
    · have h3 : b - f.lo < f.len := by omega
      simp [h1, h2, h3, hb]
    · have h3 : ¬ b - f.lo < f.len := by omega
      simp [h1, h2, h3, hb]
  · have h2 : ¬ f.lo ≤ b := h1
    simp [h2, hb]

/-- A field reads as what was written, reduced to its width. -/
theorem Fld.get_put (f : Fld) (h : f.lo + f.len ≤ 32) (w : Word) (v : Nat) : f.get (f.put w v) = v % 2 ^ f.len := by
  apply Nat.eq_of_testBit_eq
  intro i
  rw [Fld.get_testBit, Nat.testBit_mod_two_pow]
  by_cases hi : i < f.len
  · rw [Fld.put_getLsbD _ _ _ _ (by omega), if_pos (by omega)]
    simp [hi]
  · simp [hi]

/-- Writing a field leaves a field beside it. -/
theorem Fld.get_put_other (f g : Fld) (hg : g.lo + g.len ≤ 32) (h : g.lo + g.len ≤ f.lo ∨ f.lo + f.len ≤ g.lo)
    (w : Word) (v : Nat) : g.get (f.put w v) = g.get w := by
  apply Nat.eq_of_testBit_eq
  intro i
  rw [Fld.get_testBit, Fld.get_testBit]
  by_cases hi : i < g.len
  · rw [Fld.put_getLsbD _ _ _ _ (by omega), if_neg (by omega)]
  · simp [hi]

theorem Fld.get_lt (f : Fld) (w : Word) : f.get w < 2 ^ f.len := by
  unfold Fld.get bits
  exact Nat.mod_lt _ (Nat.two_pow_pos _)

/-! ### Registers of the state -/

@[simp] theorem getReg_setReg_same (s : State) (a : Nat) (v : Word) : (s.setReg a v).getReg a = v :=
  regGet_regPut_same s.regs a v

theorem getReg_setReg_other (s : State) {a b : Nat} (h : b ≠ a) (v : Word) : (s.setReg a v).getReg b = s.getReg b :=
  regGet_regPut_other s.regs v h

theorem getReg_setFld_other (s : State) (r : Reg) (i : Nat) (f : Fld) (v : Nat) {b : Nat} (h : b ≠ r.at i) :
    (s.setFld r i f v).getReg b = s.getReg b := getReg_setReg_other s h _

theorem fld_setFld_same (s : State) (r : Reg) (i : Nat) (f : Fld) (v : Nat) (h : f.lo + f.len ≤ 32) :
    (s.setFld r i f v).fld r i f = v % 2 ^ f.len := by
  unfold State.fld State.setFld
  rw [getReg_setReg_same, Fld.get_put f h]

theorem fld_setFld_beside (s : State) (r : Reg) (i : Nat) (f g : Fld) (v : Nat) (hg : g.lo + g.len ≤ 32)
    (h : g.lo + g.len ≤ f.lo ∨ f.lo + f.len ≤ g.lo) : (s.setFld r i f v).fld r i g = s.fld r i g := by
  unfold State.fld State.setFld
  rw [getReg_setReg_same, Fld.get_put_other f g hg h]

theorem fld_setFld_other (s : State) (r q : Reg) (i j : Nat) (f g : Fld) (v : Nat) (h : q.at j ≠ r.at i) :
    (s.setFld r i f v).fld q j g = s.fld q j g := by
  unfold State.fld
  rw [getReg_setFld_other s r i f v h]

theorem fld_lt (s : State) (r : Reg) (i : Nat) (f : Fld) : s.fld r i f < 2 ^ f.len := Fld.get_lt f _

/-- A counting field goes up by one and saturates. -/
theorem fld_bump_same (s : State) (r : Reg) (i : Nat) (f : Fld) (n : Nat) (h : f.lo + f.len ≤ 32) :
    (s.bump r i f n).fld r i f = min (s.fld r i f + n) (2 ^ f.len - 1) := by
  unfold State.bump
  rw [fld_setFld_same _ _ _ _ _ h, Nat.mod_eq_of_lt]
  have := Nat.two_pow_pos f.len
  omega

end Sys2Proof.Machine
end

