-- ==== Sys2Proof/Laws/AccessTypes.lean ====
section
/-! SUPPORT. Writes by access type: the fields of every register of the map stand apart, and what a write does to each of them. -/

namespace Sys2Proof.Machine

open Sys2Proof

/-- Two fields share no bit. -/
def Fld.apart (f g : Fld) : Bool := f.lo + f.len ≤ g.lo || g.lo + g.len ≤ f.lo

/-- Fields that lie in a word and stand apart. -/
def fieldsApart : List Fld → Bool
  | [] => true
  | f :: fs => decide (f.lo + f.len ≤ 32) && fs.all (fun g => f.apart g) && fieldsApart fs

theorem all_ite {α : Type} {c : Prop} [Decidable c] {p : α → Bool} {l m : List α} (hl : l.all p = true) (hm : m.all p = true) :
    (if c then l else m).all p = true := by split <;> assumption

theorem fieldsApart_table (a : Nat) : (regTableOf a).all (fun r => fieldsApart r.fields) = true := by
  unfold regTableOf
  repeat' (with_reducible apply all_ite)
  all_goals decide

/-- The fields of a register of the map lie in its word and stand apart. -/
theorem fieldsApart_lookup {a : Nat} {r : Reg} {i j : Nat} (h : regLookup a = some (r, i, j)) : fieldsApart r.fields = true := by
  unfold regLookup at h
  obtain ⟨q, hq, e⟩ := List.exists_of_findSome?_eq_some h
  have hr : q = r := by
    cases hi : q.index? a with
    | none => simp [hi] at e
    | some p => simp only [hi, Option.map_some, Option.some.injEq, Prod.mk.injEq] at e; exact e.1
  have all := fieldsApart_table a
  rw [List.all_eq_true] at all
  exact hr ▸ all q hq

/-- One field's part of a write. -/
def writeField (first : Bool) (v : Word) (w : Word) (f : Fld) : Word :=
  match f.acc with
  | .rw => f.put w (f.get v)
  | .rw1c => f.put w (f.get w &&& ((2 ^ f.len - 1) ^^^ f.get v))
  | .rw1s => f.put w (f.get w ||| f.get v)
  | .rwo => if first then f.put w (f.get v) else w
  | .ro => w
  | .wo => w
  | .rc => w

theorem writeFields_eq (fs : List Fld) (first : Bool) (old v : Word) :
    writeFields fs first old v = fs.foldl (writeField first v) old := rfl

theorem writeField_other {first : Bool} {v w : Word} {f g : Fld} (hg : g.lo + g.len ≤ 32) (h : f.apart g = true) :
    g.get (writeField first v w f) = g.get w := by
  have h' : g.lo + g.len ≤ f.lo ∨ f.lo + f.len ≤ g.lo := by
    simp only [Fld.apart, Bool.or_eq_true, decide_eq_true_eq] at h
    omega
  unfold writeField
  split <;> first | rfl | exact Fld.get_put_other f g hg h' _ _ | skip
  split
  · exact Fld.get_put_other f g hg h' _ _
  · rfl

theorem writeField_bit {first : Bool} {v w : Word} {f : Fld} {b : Nat} (hb : b < 32) (h : b < f.lo ∨ f.lo + f.len ≤ b) :
    (writeField first v w f).getLsbD b = w.getLsbD b := by
  have h' : ¬ (f.lo ≤ b ∧ b < f.lo + f.len) := by omega
  unfold writeField
  split <;> first | rfl | rw [Fld.put_getLsbD _ _ _ _ hb, if_neg h'] | skip
  split
  · rw [Fld.put_getLsbD _ _ _ _ hb, if_neg h']
  · rfl

theorem writeFields_other (fs : List Fld) {first : Bool} {v w : Word} {g : Fld} (hg : g.lo + g.len ≤ 32)
    (h : ∀ f ∈ fs, f.apart g = true) : g.get (fs.foldl (writeField first v) w) = g.get w := by
  induction fs generalizing w with
  | nil => rfl
  | cons f fs ih =>
    rw [List.foldl_cons, ih (fun f hf => h f (List.mem_cons_of_mem _ hf)), writeField_other hg (h f (List.mem_cons_self ..))]

/-- A bit of no field keeps its value (R24, R25). -/
theorem writeFields_reserved (fs : List Fld) {first : Bool} {v w : Word} {b : Nat} (hb : b < 32)
    (h : ∀ f ∈ fs, b < f.lo ∨ f.lo + f.len ≤ b) : (writeFields fs first w v).getLsbD b = w.getLsbD b := by
  rw [writeFields_eq]
  induction fs generalizing w with
  | nil => rfl
  | cons f fs ih =>
    rw [List.foldl_cons, ih (fun f hf => h f (List.mem_cons_of_mem _ hf)), writeField_bit hb (h f (List.mem_cons_self ..))]

theorem Fld.apart_comm (f g : Fld) : f.apart g = g.apart f := by
  unfold Fld.apart
  exact Bool.or_comm _ _

/-- A field of a written register is what its own part of the write makes of it. -/
theorem writeFields_get (fs : List Fld) (first : Bool) (v w : Word) (h : fieldsApart fs = true) {f : Fld} (hf : f ∈ fs) :
    f.get (writeFields fs first w v) = f.get (writeField first v w f) ∧ f.lo + f.len ≤ 32 := by
  rw [writeFields_eq]
  induction fs generalizing w with
  | nil => exact absurd hf (List.not_mem_nil)
  | cons g fs ih =>
    simp only [fieldsApart, Bool.and_eq_true, decide_eq_true_eq, List.all_eq_true] at h
    rw [List.foldl_cons]
    rcases List.mem_cons.mp hf with rfl | hm
    · exact ⟨writeFields_other fs h.1.1 (fun g hg => Fld.apart_comm f g ▸ h.1.2 g hg), h.1.1⟩
    · obtain ⟨e, hl⟩ := ih (w := writeField first v w g) h.2 hm
      refine ⟨?_, hl⟩
      have hw : f.get (writeField first v w g) = f.get w := writeField_other hl (h.1.2 f hm)
      rw [e]
      unfold writeField at hw ⊢
      revert hw
      cases f.acc <;> intro hw <;> simp only [Fld.get_put f hl, hw] <;> try rfl
      all_goals first | exact hw | skip
      cases first
      · exact hw
      · simp only [if_true, Fld.get_put f hl]

end Sys2Proof.Machine
end

