-- ==== Sys2Proof/Laws/Answers.lean ====
section
/-! SUPPORT. An outcome that is a next state of a given kind. -/

namespace Sys2Proof.Machine

open Sys2Proof

/-- The outcome is a next state, and that state is a `P`. -/
def Answers (o : Host.Outcome State Fault Refusal) (P : State → Prop) : Prop := ∃ u, o = .next u ∧ P u

theorem answers_next {P : State → Prop} {u : State} (h : P u) : Answers (.next u) P := ⟨u, rfl, h⟩

/-- Whatever the outcome's next state is, it is a `P`. -/
theorem Answers.next {o : Host.Outcome State Fault Refusal} {P : State → Prop} (a : Answers o P) {t : State}
    (e : o = .next t) : P t := by
  obtain ⟨u, rfl, h⟩ := a
  injection e with e
  exact e ▸ h

end Sys2Proof.Machine
end

