-- ==== Sys2Proof/Laws/Dispatch.lean ====
section
/-! SUPPORT. The arm of each command, one equation a command. -/

namespace Sys2Proof.Machine

open Sys2Proof

variable (s : State)

@[simp] theorem exec_registerWrite (t : RegTarget) (v : Word) : exec (.registerWrite t v) s = execRegisterWrite t v s := rfl
@[simp] theorem exec_regAccess (port off size : Nat) (isWrite : Bool) : exec (.regAccess port off size isWrite) s = execRegAccess port off size isWrite s := rfl
@[simp] theorem exec_latchedLowHalfRead (off : Nat) : exec (.latchedLowHalfRead off) s = execLatchedLowHalfRead off s := rfl
@[simp] theorem exec_errorCounterRead (x : Nat) : exec (.errorCounterRead x) s = execErrorCounterRead x s := rfl
@[simp] theorem exec_dbSqTailWrite (x n size : Nat) (v : Word) : exec (.dbSqTailWrite x n size v) s = execDbSqTailWrite x n size v s := rfl
@[simp] theorem exec_dbCqHeadWrite (x n size : Nat) (v : Word) : exec (.dbCqHeadWrite x n size v) s = execDbCqHeadWrite x n size v s := rfl
@[simp] theorem exec_doorbellPairWrite (x n : Nat) (aligned : Bool) (tail head : Word) : exec (.doorbellPairWrite x n aligned tail head) s = execDoorbellPairWrite x n aligned tail head s := rfl
@[simp] theorem exec_ctlqEnable (x : Nat) (v : Word) : exec (.ctlqEnable x v) s = execCtlqEnable x v s := rfl
@[simp] theorem exec_ctlqDisable (x : Nat) : exec (.ctlqDisable x) s = execCtlqDisable x s := rfl
@[simp] theorem exec_qcArbWrite (port q : Nat) (v : Word) : exec (.qcArbWrite port q v) s = execQcArbWrite port q v s := rfl
@[simp] theorem exec_sqFetch (port : Nat) (reads : List HostRead) : exec (.sqFetch port reads) s = execSqFetch port reads s := rfl
@[simp] theorem exec_sqSlotRead (q : Nat) (idx : Word) (slot : Option (List Byte)) (reads : List HostRead) : exec (.sqSlotRead q idx slot reads) s = execSqSlotRead q idx slot reads s := rfl
@[simp] theorem exec_slotRecheck (q : Nat) : exec (.slotRecheck q) s = execSlotRecheck q s := rfl
@[simp] theorem exec_slotLapTimeout (q : Nat) : exec (.slotLapTimeout q) s = execSlotLapTimeout q s := rfl
@[simp] theorem exec_sqPoll (q : Nat) : exec (.sqPoll q) s = execSqPoll q s := rfl
@[simp] theorem exec_cqCoalTimer (q : Nat) : exec (.cqCoalTimer q) s = execCqCoalTimer q s := rfl
@[simp] theorem exec_msixUnmask (x vector : Nat) : exec (.msixUnmask x vector) s = execMsixUnmask x vector s := rfl
@[simp] theorem exec_queueCreate (c : HostCmd) : exec (.queueCreate c) s = execQueueCreate c s := rfl
@[simp] theorem exec_queueDelete (c : HostCmd) : exec (.queueDelete c) s = execQueueDelete c s := rfl
@[simp] theorem exec_functionReset (x : Nat) (cause : FnResetCause) : exec (.functionReset x cause) s = execFunctionReset x cause s := rfl
@[simp] theorem exec_portReset (port link : Nat) : exec (.portReset port link) s = execPortReset port link s := rfl
@[simp] theorem exec_orphanList (c : HostCmd) : exec (.orphanList c) s = execOrphanList c s := rfl
@[simp] theorem exec_orphanSettle (c : HostCmd) : exec (.orphanSettle c) s = execOrphanSettle c s := rfl
@[simp] theorem exec_append (c : HostCmd) : exec (.append c) s = execAppend c s := rfl
@[simp] theorem exec_appendAdmit  : exec (.appendAdmit) s = execAppendAdmit s := rfl
@[simp] theorem exec_payloadArrival (id off : Nat) (bytes : List Byte) : exec (.payloadArrival id off bytes) s = execPayloadArrival id off bytes s := rfl
@[simp] theorem exec_hostAccessError (id : Nat) : exec (.hostAccessError id) s = execHostAccessError id s := rfl
@[simp] theorem exec_appendTransferDone (id : Nat) : exec (.appendTransferDone id) s = execAppendTransferDone id s := rfl
@[simp] theorem exec_sealTimerExpiry (pool stripe : Nat) : exec (.sealTimerExpiry pool stripe) s = execSealTimerExpiry pool stripe s := rfl
@[simp] theorem exec_stripeSeal (pool stripe : Nat) : exec (.stripeSeal pool stripe) s = execStripeSeal pool stripe s := rfl
@[simp] theorem exec_hashJobComplete (job : Nat) : exec (.hashJobComplete job) s = execHashJobComplete job s := rfl
@[simp] theorem exec_chunkWriteAck (pool stripe pos : Nat) : exec (.chunkWriteAck pool stripe pos) s = execChunkWriteAck pool stripe pos s := rfl
@[simp] theorem exec_driveWriteFailed (pool stripe pos : Nat) (conflict : Bool) (sense : Option DriveSense) : exec (.driveWriteFailed pool stripe pos conflict sense) s = execDriveWriteFailed pool stripe pos conflict sense s := rfl
@[simp] theorem exec_sealCommand (c : HostCmd) : exec (.sealCommand c) s = execSealCommand c s := rfl
@[simp] theorem exec_flush (c : HostCmd) : exec (.flush c) s = execFlush c s := rfl
@[simp] theorem exec_release (c : HostCmd) : exec (.release c) s = execRelease c s := rfl
@[simp] theorem exec_pendingReleaseResolve (pool stripe : Nat) : exec (.pendingReleaseResolve pool stripe) s = execPendingReleaseResolve pool stripe s := rfl
@[simp] theorem exec_copyForward (c : HostCmd) (sources : List SourceRead) : exec (.copyForward c sources) s = execCopyForward c sources s := rfl
@[simp] theorem exec_queryLocator (c : HostCmd) : exec (.queryLocator c) s = execQueryLocator c s := rfl
@[simp] theorem exec_read (c : HostCmd) : exec (.read c) s = execRead c s := rfl
@[simp] theorem exec_chunkReadDone (id pos : Nat) (r : ChunkOutcome) (sense : Option DriveSense) : exec (.chunkReadDone id pos r sense) s = execChunkReadDone id pos r sense s := rfl
@[simp] theorem exec_wakeTimeout (id : Nat) : exec (.wakeTimeout id) s = execWakeTimeout id s := rfl
@[simp] theorem exec_deferLimitExpiry (id : Nat) : exec (.deferLimitExpiry id) s = execDeferLimitExpiry id s := rfl
@[simp] theorem exec_driveCommandTimeout (slot : Nat) : exec (.driveCommandTimeout slot) s = execDriveCommandTimeout slot s := rfl
@[simp] theorem exec_driveLinkDown (slot : Nat) : exec (.driveLinkDown slot) s = execDriveLinkDown slot s := rfl
@[simp] theorem exec_linkLossGraceExpiry (slot : Nat) : exec (.linkLossGraceExpiry slot) s = execLinkLossGraceExpiry slot s := rfl
@[simp] theorem exec_rebuildPassStart  : exec (.rebuildPassStart) s = execRebuildPassStart s := rfl
@[simp] theorem exec_rebuildChunkWritten (set : Nat) : exec (.rebuildChunkWritten set) s = execRebuildChunkWritten set s := rfl
@[simp] theorem exec_lossClear (c : HostCmd) : exec (.lossClear c) s = execLossClear c s := rfl
@[simp] theorem exec_reclaimActionDone (slot band : Nat) (ok : Bool) : exec (.reclaimActionDone slot band ok) s = execReclaimActionDone slot band ok s := rfl
@[simp] theorem exec_reclaimRetry (slot band : Nat) : exec (.reclaimRetry slot band) s = execReclaimRetry slot band s := rfl
@[simp] theorem exec_zoneOffline (slot band : Nat) (readOnly : Bool) : exec (.zoneOffline slot band readOnly) s = execZoneOffline slot band readOnly s := rfl
@[simp] theorem exec_checkpointTimer (pool : Nat) : exec (.checkpointTimer pool) s = execCheckpointTimer pool s := rfl
@[simp] theorem exec_checkpointComplete (pool : Nat) : exec (.checkpointComplete pool) s = execCheckpointComplete pool s := rfl
@[simp] theorem exec_journalGatherExpiry (pool : Nat) : exec (.journalGatherExpiry pool) s = execJournalGatherExpiry pool s := rfl
@[simp] theorem exec_journalFillTimer (set : Nat) : exec (.journalFillTimer set) s = execJournalFillTimer set s := rfl
@[simp] theorem exec_windowRecompute  : exec (.windowRecompute) s = execWindowRecompute s := rfl
@[simp] theorem exec_windowStepUp  : exec (.windowStepUp) s = execWindowStepUp s := rfl
@[simp] theorem exec_admitCreditTick  : exec (.admitCreditTick) s = execAdmitCreditTick s := rfl
@[simp] theorem exec_ebRateMeasured (rateMBs : Nat) : exec (.ebRateMeasured rateMBs) s = execEbRateMeasured rateMBs s := rfl
@[simp] theorem exec_ebbEntry  : exec (.ebbEntry) s = execEbbEntry s := rfl
@[simp] theorem exec_ebbLastUpdate  : exec (.ebbLastUpdate) s = execEbbLastUpdate s := rfl
@[simp] theorem exec_ebbEnd (headerRead : Bool) : exec (.ebbEnd headerRead) s = execEbbEnd headerRead s := rfl
@[simp] theorem exec_ebbRestart (b : BootInfo) : exec (.ebbRestart b) s = execEbbRestart b s := rfl
@[simp] theorem exec_slotEraseDone (slot : Nat) (ok : Bool) : exec (.slotEraseDone slot ok) s = execSlotEraseDone slot ok s := rfl
@[simp] theorem exec_poolRecovery (pool : Nat) (r : RecoveryInfo) : exec (.poolRecovery pool r) s = execPoolRecovery pool r s := rfl
@[simp] theorem exec_partnerWaitExpiry (pool : Nat) : exec (.partnerWaitExpiry pool) s = execPartnerWaitExpiry pool s := rfl
@[simp] theorem exec_poolRecover (c : HostCmd) : exec (.poolRecover c) s = execPoolRecover c s := rfl
@[simp] theorem exec_tideRoundStart (pool : Nat) : exec (.tideRoundStart pool) s = execTideRoundStart pool s := rfl
@[simp] theorem exec_tideMarkTick  : exec (.tideMarkTick) s = execTideMarkTick s := rfl
@[simp] theorem exec_tideStripeVerify (pool stripe : Nat) (f : TideFinding) : exec (.tideStripeVerify pool stripe f) s = execTideStripeVerify pool stripe f s := rfl
@[simp] theorem exec_tideLate (pool : Nat) : exec (.tideLate pool) s = execTideLate pool s := rfl
@[simp] theorem exec_tideLateReminder (pool : Nat) : exec (.tideLateReminder pool) s = execTideLateReminder pool s := rfl
@[simp] theorem exec_tideWakeExpiry (pool : Nat) : exec (.tideWakeExpiry pool) s = execTideWakeExpiry pool s := rfl
@[simp] theorem exec_poolCreate (c : HostCmd) : exec (.poolCreate c) s = execPoolCreate c s := rfl
@[simp] theorem exec_poolGrow (c : HostCmd) : exec (.poolGrow c) s = execPoolGrow c s := rfl
@[simp] theorem exec_poolSet (c : HostCmd) : exec (.poolSet c) s = execPoolSet c s := rfl
@[simp] theorem exec_poolDelete (c : HostCmd) : exec (.poolDelete c) s = execPoolDelete c s := rfl
@[simp] theorem exec_poolGive (c : HostCmd) : exec (.poolGive c) s = execPoolGive c s := rfl
@[simp] theorem exec_scarfStart (c : HostCmd) : exec (.scarfStart c) s = execScarfStart c s := rfl
@[simp] theorem exec_scarfCopyStripe (pool stripe : Nat) (lost : List Nat) : exec (.scarfCopyStripe pool stripe lost) s = execScarfCopyStripe pool stripe lost s := rfl
@[simp] theorem exec_scarfCommit (c : HostCmd) : exec (.scarfCommit c) s = execScarfCommit c s := rfl
@[simp] theorem exec_scarfOldReclaim (pool : Nat) : exec (.scarfOldReclaim pool) s = execScarfOldReclaim pool s := rfl
@[simp] theorem exec_scarfAbort (c : HostCmd) : exec (.scarfAbort c) s = execScarfAbort c s := rfl
@[simp] theorem exec_driveSet (c : HostCmd) : exec (.driveSet c) s = execDriveSet c s := rfl
@[simp] theorem exec_retireCopyComplete (slot band : Nat) : exec (.retireCopyComplete slot band) s = execRetireCopyComplete slot band s := rfl
@[simp] theorem exec_timeSet (c : HostCmd) : exec (.timeSet c) s = execTimeSet c s := rfl
@[simp] theorem exec_telemetryGet (c : HostCmd) : exec (.telemetryGet c) s = execTelemetryGet c s := rfl
@[simp] theorem exec_evRead (c : HostCmd) : exec (.evRead c) s = execEvRead c s := rfl
@[simp] theorem exec_evClear (c : HostCmd) : exec (.evClear c) s = execEvClear c s := rfl
@[simp] theorem exec_deviceMode (c : HostCmd) : exec (.deviceMode c) s = execDeviceMode c s := rfl
@[simp] theorem exec_harbourPhyDown  : exec (.harbourPhyDown) s = execHarbourPhyDown s := rfl
@[simp] theorem exec_stageWrite (c : HostCmd) : exec (.stageWrite c) s = execStageWrite c s := rfl
@[simp] theorem exec_stageCommit (c : HostCmd) (verdict : Nat) : exec (.stageCommit c verdict) s = execStageCommit c verdict s := rfl
@[simp] theorem exec_flashProgramDone (ok : Bool) : exec (.flashProgramDone ok) s = execFlashProgramDone ok s := rfl
@[simp] theorem exec_sessionOpen (c : HostCmd) : exec (.sessionOpen c) s = execSessionOpen c s := rfl
@[simp] theorem exec_sessionProve (c : HostCmd) : exec (.sessionProve c) s = execSessionProve c s := rfl
@[simp] theorem exec_sessionClose (c : HostCmd) : exec (.sessionClose c) s = execSessionClose c s := rfl
@[simp] theorem exec_challengeExpiry (x : Nat) : exec (.challengeExpiry x) s = execChallengeExpiry x s := rfl
@[simp] theorem exec_sessionIdleExpiry  : exec (.sessionIdleExpiry) s = execSessionIdleExpiry s := rfl
@[simp] theorem exec_protectSet (c : HostCmd) : exec (.protectSet c) s = execProtectSet c s := rfl
@[simp] theorem exec_protectCommit (c : HostCmd) : exec (.protectCommit c) s = execProtectCommit c s := rfl
@[simp] theorem exec_attest (c : HostCmd) : exec (.attest c) s = execAttest c s := rfl
@[simp] theorem exec_enroll (port : Nat) (v : Word) : exec (.enroll port v) s = execEnroll port v s := rfl
@[simp] theorem exec_revokeOwner (port : Nat) (v : Word) : exec (.revokeOwner port v) s = execRevokeOwner port v s := rfl
@[simp] theorem exec_raiseSvn (port : Nat) (v : Word) : exec (.raiseSvn port v) s = execRaiseSvn port v s := rfl
@[simp] theorem exec_revokeVendor (port : Nat) (v : Word) : exec (.revokeVendor port v) s = execRevokeVendor port v s := rfl
@[simp] theorem exec_fuseOp (ok : Bool) : exec (.fuseOp ok) s = execFuseOp ok s := rfl
@[simp] theorem exec_coldReset (b : BootInfo) : exec (.coldReset b) s = execColdReset b s := rfl
@[simp] theorem exec_warmReset (b : BootInfo) : exec (.warmReset b) s = execWarmReset b s := rfl
@[simp] theorem exec_warmPrepTimeout (b : BootInfo) : exec (.warmPrepTimeout b) s = execWarmPrepTimeout b s := rfl
@[simp] theorem exec_retentionCheckDone (srHeld eccOk recordOk : Bool) : exec (.retentionCheckDone srHeld eccOk recordOk) s = execRetentionCheckDone srHeld eccOk recordOk s := rfl
@[simp] theorem exec_pwrgdFall  : exec (.pwrgdFall) s = execPwrgdFall s := rfl
@[simp] theorem exec_harbourExit (byPerst : Bool) : exec (.harbourExit byPerst) s = execHarbourExit byPerst s := rfl
@[simp] theorem exec_harbourTimer  : exec (.harbourTimer) s = execHarbourTimer s := rfl
@[simp] theorem exec_unitResetEv  : exec (.unitResetEv) s = execUnitResetEv s := rfl
@[simp] theorem exec_unitResetCe  : exec (.unitResetCe) s = execUnitResetCe s := rfl
@[simp] theorem exec_unitResetHe  : exec (.unitResetHe) s = execUnitResetHe s := rfl
@[simp] theorem exec_unitResetMdc  : exec (.unitResetMdc) s = execUnitResetMdc s := rfl
@[simp] theorem exec_unitResetXm  : exec (.unitResetXm) s = execUnitResetXm s := rfl
@[simp] theorem exec_unitResetCl  : exec (.unitResetCl) s = execUnitResetCl s := rfl
@[simp] theorem exec_unitResetEb  : exec (.unitResetEb) s = execUnitResetEb s := rfl
@[simp] theorem exec_unitResetPl  : exec (.unitResetPl) s = execUnitResetPl s := rfl
@[simp] theorem exec_unitResetDl (die : Nat) : exec (.unitResetDl die) s = execUnitResetDl die s := rfl
@[simp] theorem exec_unitResetComplete (unit : Nat) : exec (.unitResetComplete unit) s = execUnitResetComplete unit s := rfl
@[simp] theorem exec_slackIdleGate (dom : Nat) : exec (.slackIdleGate dom) s = execSlackIdleGate dom s := rfl
@[simp] theorem exec_domainUngateDone (dom : Nat) : exec (.domainUngateDone dom) s = execDomainUngateDone dom s := rfl
@[simp] theorem exec_pwSlackCtlWrite (port : Nat) (v : Word) : exec (.pwSlackCtlWrite port v) s = execPwSlackCtlWrite port v s := rfl
@[simp] theorem exec_pdRequest (port : Nat) (v : Word) : exec (.pdRequest port v) s = execPdRequest port v s := rfl
@[simp] theorem exec_domainDrainExpiry (dom : Nat) : exec (.domainDrainExpiry dom) s = execDomainDrainExpiry dom s := rfl
@[simp] theorem exec_modeEpochAck (unit : Nat) : exec (.modeEpochAck unit) s = execModeEpochAck unit s := rfl
@[simp] theorem exec_modeRollback (unit : Nat) : exec (.modeRollback unit) s = execModeRollback unit s := rfl
@[simp] theorem exec_modeEpochTimeout  : exec (.modeEpochTimeout) s = execModeEpochTimeout s := rfl
@[simp] theorem exec_modeSwitchDone (unit : Nat) : exec (.modeSwitchDone unit) s = execModeSwitchDone unit s := rfl
@[simp] theorem exec_modeStuck (b : BootInfo) : exec (.modeStuck b) s = execModeStuck b s := rfl
@[simp] theorem exec_aonFallback  : exec (.aonFallback) s = execAonFallback s := rfl
@[simp] theorem exec_pllLockLoss (clock : Nat) (b : BootInfo) : exec (.pllLockLoss clock b) s = execPllLockLoss clock b s := rfl
@[simp] theorem exec_dieTempRead (temps : List (Option Int)) : exec (.dieTempRead temps) s = execDieTempRead temps s := rfl
@[simp] theorem exec_dramReadComplete (ch laddr port : Nat) (e : EccResult) : exec (.dramReadComplete ch laddr port e) s = execDramReadComplete ch laddr port e s := rfl
@[simp] theorem exec_rowLimit (ch bank row port : Nat) : exec (.rowLimit ch bank row port) s = execRowLimit ch bank row port s := rfl
@[simp] theorem exec_throttleExpiry (ch bank port : Nat) : exec (.throttleExpiry ch bank port) s = execThrottleExpiry ch bank port s := rfl
@[simp] theorem exec_dramTempPoll (ch : Nat) (temp : Int) : exec (.dramTempPoll ch temp) s = execDramTempPoll ch temp s := rfl
@[simp] theorem exec_channelPowerDown (ch : Nat) : exec (.channelPowerDown ch) s = execChannelPowerDown ch s := rfl
@[simp] theorem exec_mcRetrainGo (port : Nat) (v : Word) : exec (.mcRetrainGo port v) s = execMcRetrainGo port v s := rfl
@[simp] theorem exec_retrainStepDone (ch : Nat) (pass : Bool) : exec (.retrainStepDone ch pass) s = execRetrainStepDone ch pass s := rfl
@[simp] theorem exec_mcFreqTargetWrite (port : Nat) (v : Word) : exec (.mcFreqTargetWrite port v) s = execMcFreqTargetWrite port v s := rfl
@[simp] theorem exec_mcDiagGo (port ch : Nat) (v : Word) : exec (.mcDiagGo port ch v) s = execMcDiagGo port ch v s := rfl
@[simp] theorem exec_mcDiagDone (ch dqFail errors : Nat) : exec (.mcDiagDone ch dqFail errors) s = execMcDiagDone ch dqFail errors s := rfl
@[simp] theorem exec_mdcFillReturn (a : CacheAccess) (block : Nat) (e : CacheError) : exec (.mdcFillReturn a block e) s = execMdcFillReturn a block e s := rfl
@[simp] theorem exec_mdcRange (port : Nat) (v : Word) : exec (.mdcRange port v) s = execMdcRange port v s := rfl
@[simp] theorem exec_mdcAll (port : Nat) (v : Word) : exec (.mdcAll port v) s = execMdcAll port v s := rfl
@[simp] theorem exec_mdcClass (port : Nat) (v : Word) : exec (.mdcClass port v) s = execMdcClass port v s := rfl
@[simp] theorem exec_maintDone  : exec (.maintDone) s = execMaintDone s := rfl
@[simp] theorem exec_mdcCtlWrite (port : Nat) (v : Word) : exec (.mdcCtlWrite port v) s = execMdcCtlWrite port v s := rfl
@[simp] theorem exec_xmStart (port n : Nat) (v : Word) : exec (.xmStart port n v) s = execXmStart port n v s := rfl
@[simp] theorem exec_xmPause (port n : Nat) (v : Word) : exec (.xmPause port n v) s = execXmPause port n v s := rfl
@[simp] theorem exec_xmStop (port n : Nat) (v : Word) : exec (.xmStop port n v) s = execXmStop port n v s := rfl
@[simp] theorem exec_xmEventSet (port : Nat) (v : Word) : exec (.xmEventSet port v) s = execXmEventSet port v s := rfl
@[simp] theorem exec_xmInstruction (n : Nat) (failed : Bool) (placed : Option (List Byte)) : exec (.xmInstruction n failed placed) s = execXmInstruction n failed placed s := rfl
@[simp] theorem exec_xmRequestLine (line : Nat) (level : Bool) : exec (.xmRequestLine line level) s = execXmRequestLine line level s := rfl
@[simp] theorem exec_xmBurstDone (n bytes : Nat) : exec (.xmBurstDone n bytes) s = execXmBurstDone n bytes s := rfl
@[simp] theorem exec_busError (n : Nat) (isWrite : Bool) : exec (.busError n isWrite) s = execBusError n isWrite s := rfl
@[simp] theorem exec_xmRetryExpiry (n : Nat) : exec (.xmRetryExpiry n) s = execXmRetryExpiry n s := rfl
@[simp] theorem exec_eventRaise (e : RaisedEvent) : exec (.eventRaise e) s = execEventRaise e s := rfl
@[simp] theorem exec_evRecordForm  : exec (.evRecordForm) s = execEvRecordForm s := rfl
@[simp] theorem exec_evLogWriteDone  : exec (.evLogWriteDone) s = execEvLogWriteDone s := rfl
@[simp] theorem exec_evTokenRefill (code : Nat) : exec (.evTokenRefill code) s = execEvTokenRefill code s := rfl
@[simp] theorem exec_evNotifyTick (port : Nat) : exec (.evNotifyTick port) s = execEvNotifyTick port s := rfl
@[simp] theorem exec_evScanDone  : exec (.evScanDone) s = execEvScanDone s := rfl
@[simp] theorem exec_evClearEraseDone  : exec (.evClearEraseDone) s = execEvClearEraseDone s := rfl
@[simp] theorem exec_storeFault  : exec (.storeFault) s = execStoreFault s := rfl
@[simp] theorem exec_storeBack  : exec (.storeBack) s = execStoreBack s := rfl
@[simp] theorem exec_presenceChange (slot : Nat) (present : Bool) : exec (.presenceChange slot present) s = execPresenceChange slot present s := rfl
@[simp] theorem exec_sgpioFrame (chain : Nat) (inputs : List (BitVec 6)) : exec (.sgpioFrame chain inputs) s = execSgpioFrame chain inputs s := rfl
@[simp] theorem exec_pwrGoodTimeout (slot : Nat) : exec (.pwrGoodTimeout slot) s = execPwrGoodTimeout slot s := rfl
@[simp] theorem exec_linkBringupAttempt (slot rate : Nat) (ok : Bool) : exec (.linkBringupAttempt slot rate ok) s = execLinkBringupAttempt slot rate ok s := rfl
@[simp] theorem exec_linkBringupRetry (slot : Nat) : exec (.linkBringupRetry slot) s = execLinkBringupRetry slot s := rfl
@[simp] theorem exec_linkUp (slot : Nat) (d : DriveInfo) : exec (.linkUp slot d) s = execLinkUp slot d s := rfl
@[simp] theorem exec_laneReset (port slot : Nat) : exec (.laneReset port slot) s = execLaneReset port slot s := rfl
@[simp] theorem exec_spinAdmissionTick  : exec (.spinAdmissionTick) s = execSpinAdmissionTick s := rfl
@[simp] theorem exec_spinPeakExpiry (slot : Nat) : exec (.spinPeakExpiry slot) s = execSpinPeakExpiry slot s := rfl
@[simp] theorem exec_spinupComplete (slot durationDs : Nat) : exec (.spinupComplete slot durationDs) s = execSpinupComplete slot durationDs s := rfl
@[simp] theorem exec_spinupTimeout (slot : Nat) : exec (.spinupTimeout slot) s = execSpinupTimeout slot s := rfl
@[simp] theorem exec_wakeGroupIdleExpiry (group : Nat) : exec (.wakeGroupIdleExpiry group) s = execWakeGroupIdleExpiry group s := rfl
@[simp] theorem exec_standbyComplete (group : Nat) : exec (.standbyComplete group) s = execStandbyComplete group s := rfl
@[simp] theorem exec_slotPowerOff (slot : Nat) : exec (.slotPowerOff slot) s = execSlotPowerOff slot s := rfl
@[simp] theorem exec_loopPeriod (n : Nat) : exec (.loopPeriod n) s = execLoopPeriod n s := rfl
@[simp] theorem exec_sensorReadDone (k : Nat) (r : Option (Int × Nat)) : exec (.sensorReadDone k r) s = execSensorReadDone k r s := rfl
@[simp] theorem exec_fanFail (f rpm : Nat) : exec (.fanFail f rpm) s = execFanFail f rpm s := rfl
@[simp] theorem exec_headroomTick  : exec (.headroomTick) s = execHeadroomTick s := rfl
@[simp] theorem exec_encCrit (e : Nat) : exec (.encCrit e) s = execEncCrit e s := rfl
@[simp] theorem exec_encHotExit (e : Nat) : exec (.encHotExit e) s = execEncHotExit e s := rfl
@[simp] theorem exec_holdEvaluation  : exec (.holdEvaluation) s = execHoldEvaluation s := rfl
@[simp] theorem exec_holdDwellExpiry (e : Nat) : exec (.holdDwellExpiry e) s = execHoldDwellExpiry e s := rfl
@[simp] theorem exec_holdLong (e : Nat) : exec (.holdLong e) s = execHoldLong e s := rfl
@[simp] theorem exec_humidHigh (e : Nat) : exec (.humidHigh e) s = execHumidHigh e s := rfl
@[simp] theorem exec_chargerFault  : exec (.chargerFault) s = execChargerFault s := rfl
@[simp] theorem exec_euCompute (vMv : Nat) (iMa : Int) : exec (.euCompute vMv iMa) s = execEuCompute vMv iMa s := rfl
@[simp] theorem exec_euReport  : exec (.euReport) s = execEuReport s := rfl
@[simp] theorem exec_vbankTrip  : exec (.vbankTrip) s = execVbankTrip s := rfl
@[simp] theorem exec_pulseTestStart  : exec (.pulseTestStart) s = execPulseTestStart s := rfl
@[simp] theorem exec_pulseTestOnset (v0Mv : Nat) : exec (.pulseTestOnset v0Mv) s = execPulseTestOnset v0Mv s := rfl
@[simp] theorem exec_pulseTestEnd (fit : PulseFit) : exec (.pulseTestEnd fit) s = execPulseTestEnd fit s := rfl
@[simp] theorem exec_testPostponed  : exec (.testPostponed) s = execTestPostponed s := rfl
@[simp] theorem exec_ceJobDispatch  : exec (.ceJobDispatch) s = execCeJobDispatch s := rfl
@[simp] theorem exec_ceJobComplete (cluster : Nat) (mismatch : List (Nat × Nat)) : exec (.ceJobComplete cluster mismatch) s = execCeJobComplete cluster mismatch s := rfl
@[simp] theorem exec_clusterFault (cluster : Nat) : exec (.clusterFault cluster) s = execClusterFault cluster s := rfl
@[simp] theorem exec_matrixInversionDone  : exec (.matrixInversionDone) s = execMatrixInversionDone s := rfl
@[simp] theorem exec_invalidate (port : Nat) (v : Word) : exec (.invalidate port v) s = execInvalidate port v s := rfl
@[simp] theorem exec_ceInvalidateDone  : exec (.ceInvalidateDone) s = execCeInvalidateDone s := rfl
@[simp] theorem exec_ceClusterEnWrite (port : Nat) (v : Word) : exec (.ceClusterEnWrite port v) s = execCeClusterEnWrite port v s := rfl
@[simp] theorem exec_peerLinkTrained (rate width : Nat) : exec (.peerLinkTrained rate width) s = execPeerLinkTrained rate width s := rfl
@[simp] theorem exec_peerHello (h : HelloFrame) : exec (.peerHello h) s = execPeerHello h s := rfl
@[simp] theorem exec_heartbeat (f : Nat) (owned : BitVec 64) (lastMseq : Nat) : exec (.heartbeat f owned lastMseq) s = execHeartbeat f owned lastMseq s := rfl
@[simp] theorem exec_heartbeatSend  : exec (.heartbeatSend) s = execHeartbeatSend s := rfl
@[simp] theorem exec_peerSilent  : exec (.peerSilent) s = execPeerSilent s := rfl
@[simp] theorem exec_resolutionStart  : exec (.resolutionStart) s = execResolutionStart s := rfl
@[simp] theorem exec_reservationKeysRead (ownKeyOnAll : Bool) : exec (.reservationKeysRead ownKeyOnAll) s = execReservationKeysRead ownKeyOnAll s := rfl
@[simp] theorem exec_preemptComplete  : exec (.preemptComplete) s = execPreemptComplete s := rfl
@[simp] theorem exec_claim (pool claimId : Nat) (slots : List Nat) : exec (.claim pool claimId slots) s = execClaim pool claimId slots s := rfl
@[simp] theorem exec_claimReply (pool claimId : Nat) (refused : Bool) : exec (.claimReply pool claimId refused) s = execClaimReply pool claimId refused s := rfl
@[simp] theorem exec_mirPayload (mseq pool stripe unit off : Nat) (bytes : List Byte) : exec (.mirPayload mseq pool stripe unit off bytes) s = execMirPayload mseq pool stripe unit off bytes s := rfl
@[simp] theorem exec_mirDirent (mseq pool stripe slot : Nat) (entry : List Byte) : exec (.mirDirent mseq pool stripe slot entry) s = execMirDirent mseq pool stripe slot entry s := rfl
@[simp] theorem exec_mirSeal (mseq pool stripe sealSeq chunkOffset set : Nat) : exec (.mirSeal mseq pool stripe sealSeq chunkOffset set) s = execMirSeal mseq pool stripe sealSeq chunkOffset set s := rfl
@[simp] theorem exec_mirDelta (mseq : Nat) (records : List DeltaRec) : exec (.mirDelta mseq records) s = execMirDelta mseq records s := rfl
@[simp] theorem exec_mirRelease (mseq pool kind : Nat) (records : List (List Byte)) : exec (.mirRelease mseq pool kind records) s = execMirRelease mseq pool kind records s := rfl
@[simp] theorem exec_mirRetire (mseq pool stripe : Nat) : exec (.mirRetire mseq pool stripe) s = execMirRetire mseq pool stripe s := rfl
@[simp] theorem exec_mirConfirm (mseq : Nat) : exec (.mirConfirm mseq) s = execMirConfirm mseq s := rfl
@[simp] theorem exec_standbyCopy (pool sect off : Nat) (bytes : List Byte) : exec (.standbyCopy pool sect off bytes) s = execStandbyCopy pool sect off bytes s := rfl
@[simp] theorem exec_windowCopy (mseq off : Nat) (bytes : List Byte) (held : Tab (Tab Stripe)) : exec (.windowCopy mseq off bytes held) s = execWindowCopy mseq off bytes held s := rfl
@[simp] theorem exec_mirResync (mseq : Nat) : exec (.mirResync mseq) s = execMirResync mseq s := rfl
@[simp] theorem exec_peerFrameBad (isM : Bool) : exec (.peerFrameBad isM) s = execPeerFrameBad isM s := rfl
@[simp] theorem exec_giveReq (pool lastMseq : Nat) : exec (.giveReq pool lastMseq) s = execGiveReq pool lastMseq s := rfl
@[simp] theorem exec_giveReady (pool : Nat) (refused : Bool) : exec (.giveReady pool refused) s = execGiveReady pool refused s := rfl
@[simp] theorem exec_giveDone (pool descSeq : Nat) : exec (.giveDone pool descSeq) s = execGiveDone pool descSeq s := rfl
@[simp] theorem exec_pullReq (pool : Nat) : exec (.pullReq pool) s = execPullReq pool s := rfl
@[simp] theorem exec_pullData (off : Nat) (bytes : List Byte) : exec (.pullData off bytes) s = execPullData off bytes s := rfl
@[simp] theorem exec_pullEnd (pool : Nat) (noMirror : Bool) : exec (.pullEnd pool noMirror) s = execPullEnd pool noMirror s := rfl
@[simp] theorem exec_flitNak (ack : Nat) : exec (.flitNak ack) s = execFlitNak ack s := rfl
@[simp] theorem exec_replayTimeout  : exec (.replayTimeout) s = execReplayTimeout s := rfl
@[simp] theorem exec_peerRetrain  : exec (.peerRetrain) s = execPeerRetrain s := rfl
@[simp] theorem exec_peerRetrainDone (rate width : Nat) : exec (.peerRetrainDone rate width) s = execPeerRetrainDone rate width s := rfl
@[simp] theorem exec_resetNRise  : exec (.resetNRise) s = execResetNRise s := rfl
@[simp] theorem exec_suppliesRemoved (vaon : Bool) : exec (.suppliesRemoved vaon) s = execSuppliesRemoved vaon s := rfl
@[simp] theorem exec_hostLinkUp (port link rate width : Nat) (flit : Bool) : exec (.hostLinkUp port link rate width flit) s = execHostLinkUp port link rate width flit s := rfl
@[simp] theorem exec_busMasterEnableChange (x : Nat) (on : Bool) : exec (.busMasterEnableChange x on) s = execBusMasterEnableChange x on s := rfl
@[simp] theorem exec_labelWriteDone (slot : Nat) (ok : Bool) : exec (.labelWriteDone slot ok) s = execLabelWriteDone slot ok s := rfl
@[simp] theorem exec_sillRecordWritten (pool slot : Nat) : exec (.sillRecordWritten pool slot) s = execSillRecordWritten pool slot s := rfl
@[simp] theorem exec_drainComplete (dom : Nat) : exec (.drainComplete dom) s = execDrainComplete dom s := rfl
@[simp] theorem exec_fanFailClear (f rpm : Nat) : exec (.fanFailClear f rpm) s = execFanFailClear f rpm s := rfl
@[simp] theorem exec_analogInputUpdate (k code : Nat) : exec (.analogInputUpdate k code) s = execAnalogInputUpdate k code s := rfl
@[simp] theorem exec_captureSample (stream : Nat) (sample : List Byte) : exec (.captureSample stream sample) s = execCaptureSample stream sample s := rfl
@[simp] theorem exec_peerFlitCrcFail  : exec (.peerFlitCrcFail) s = execPeerFlitCrcFail s := rfl

end Sys2Proof.Machine
end

