-- ==== Sys2Proof/Laws/Commands.lean ====
section
/-! SUPPORT. What the guards around the meanings come to when they hold, once for all commands. -/

namespace Sys2Proof.Machine

open Sys2Proof

variable {s : State}

theorem hostWrite_taken {port a : Nat} (h : WriteTaken s port a) (act : State → State) : s.hostWrite port a act = act s := by
  obtain ⟨h1, h2, h3, h4⟩ := h
  rcases h4 with h4 | h4 <;> simp [State.hostWrite, h1, h2, h3, h4]

theorem whenUp_up (h : s.up = true) (act : State → State) : s.whenUp act = (act s).finish := by
  simp [State.whenUp, h]

theorem whenPlant_up (h : s.plantUp = true) (act : State → State) : s.whenPlant act = (act s).finish := by
  simp [State.whenPlant, h]

theorem whenMemory_up (h : s.memoryUp) (act : State → State) : s.whenMemory act = act s := by
  rcases h with h | h <;> simp [State.whenMemory, h]

theorem whenUnit_up {u : Nat} (h : s.up = true) (hu : s.pw.unitBusy.contains u = false) (act : State → State) :
    s.whenUnit u act = act s := by
  rw [State.whenUnit, h, hu]; rfl

/-- A host command that is taken runs on the state in which its entry is consumed, under its new number. -/
theorem hostRow_takes {op q : Nat} {c : HostCmd} (h : Takes s op c q) (run : State → Nat → State) :
    s.hostRow op c run = (run (s.taken q c).2 (s.taken q c).1).finish := by
  obtain ⟨h1, h2, h3, h4, h5, h6⟩ := h
  have n0 : ¬ (entrySlots c = 0 ∨ entrySlots c > 16) := by omega
  unfold State.hostRow
  rw [whenUp_up h1]
  simp only [State.hostCommand, State.taken, h2, h3, h4, and_self, if_true, if_neg n0]

end Sys2Proof.Machine
end

