-- ==== Sys2Proof/Laws/Stable.lean ====
section
/-! SUPPORT. The updates that every operation of the model is made of, and the properties that all of them keep (`Stable`): what is
shown of the updates here holds of every operation and every command by the lemmas of the files `Stable…` and `Rows…`. -/

namespace Sys2Proof.Machine

open Sys2Proof

/-- `P` is kept by every update the operations of the model are made of, but for those that change the memories. -/
structure Stable (P : State → Prop) : Prop where
  /-- A record update that leaves the queue, the part, the free values drawn, registers, memories, outputs and the security unit. -/
  upd : ∀ {s : State} {x4 x5 x6 x8 x9 x14 x15 x17 x18 x19 x20 x21 x22 x23 x24 x25 x26 x27}, P s →
    P (State.mk s.pending s.variant s.stepB0 x4 x5 x6 s.draws x8 x9 s.regs s.dram s.sram s.out x14 x15 s.sec x17 x18
      x19 x20 x21 x22 x23 x24 x25 x26 x27)
  /-- One of the security unit, which leaves its fuses, enrolled keys and identity. -/
  updSec : ∀ {s : State} {x4 x5 x6 x8 x9 x14 x15 x17 x18 x19 x20 x21 x22 x23 x24 x25 x26 x27}
    {y1 y2 y3 y4 y5 y6 y7 y8 y9 y10 y11 y14 y15 y16 y19 y20 y21 y22 y23}, P s →
    P (State.mk s.pending s.variant s.stepB0 x4 x5 x6 s.draws x8 x9 s.regs s.dram s.sram s.out x14 x15
      (SecUnit.mk y1 y2 y3 y4 y5 y6 y7 y8 y9 y10 y11 s.sec.enrolled s.sec.fuses y14 y15 y16 s.sec.deviceId s.sec.cert y19 y20 y21 y22 y23)
      x17 x18 x19 x20 x21 x22 x23 x24 x25 x26 x27)
  /-- One that drops stored registers. -/
  updRegs : ∀ {s : State} {f : Nat × Word → Bool} {x4 x5 x6 x8 x9 x14 x15 x17 x18 x19 x20 x21 x22 x23 x24 x25 x26 x27}, P s →
    P (State.mk s.pending s.variant s.stepB0 x4 x5 x6 s.draws x8 x9 (s.regs.filter f) s.dram s.sram s.out x14 x15 s.sec
      x17 x18 x19 x20 x21 x22 x23 x24 x25 x26 x27)
  draws : ∀ {s : State} {n : Nat}, P s → P { s with draws := s.draws + n }
  setReg : ∀ {s : State} (_ : P s) (a : Nat) (v : Word), P (s.setReg a v)
  emit : ∀ {s : State} (_ : P s) (o : Out), P (s.emit o)
  blow : ∀ {s : State} (_ : P s) (fs : List Nat), P (s.blow fs)
  enrol : ∀ {s : State} (_ : P s) (index : Nat) (key : BitVec 256), P (s.enrol index key)

/-- And by the updates that change the memories: the mover's stores, and the ends of resets. -/
structure StableMem (P : State → Prop) : Prop extends Stable P where
  dram : ∀ {s : State} {a : Nat} {bs : List Byte}, P s → P { s with dram := memWrite s.dram a bs }
  sram : ∀ {s : State} {a : Nat} {bs : List Byte}, P s → P { s with sram := memWrite s.sram a bs }
  coldKeep : ∀ {s : State}, P s → P s.coldKeep
  warmKeep : ∀ {s : State}, P s → P s.warmKeep
  discardDram : ∀ {s : State}, P s → P s.discardDram

section
variable (P : State → Prop)

theorem ite_stable {c : Prop} [Decidable c] {a b : State} (ha : P a) (hb : P b) :
    P (if c then a else b) := by split <;> assumption

theorem each_stable {α : Type} (xs : List α) (f : α → State → State) {s : State} (hf : ∀ a t, P t → P (f a t)) (h : P s) :
    P (s.each xs f) := by
  unfold State.each
  induction xs generalizing s with
  | nil => exact h
  | cons a xs ih => exact ih (hf a s h)

theorem foldl_stable {α : Type} (f : State → α → State) (xs : List α) {s : State} (hf : ∀ t a, P t → P (f t a)) (h : P s) :
    P (xs.foldl f s) := by
  induction xs generalizing s with
  | nil => exact h
  | cons a xs ih => exact ih (hf s a h)

theorem foldl_fst_stable {α β : Type} (f : State × β → α → State × β) (xs : List α) (b : State × β)
    (hf : ∀ t a, P t.1 → P (f t a).1) (h : P b.1) : P (xs.foldl f b).1 := by
  induction xs generalizing b with
  | nil => exact h
  | cons a xs ih => exact ih _ (hf b a h)

theorem foldl_snd_stable {α β : Type} (f : β × State → α → β × State) (xs : List α) (b : β × State)
    (hf : ∀ t a, P t.2 → P (f t a).2) (h : P b.2) : P (xs.foldl f b).2 := by
  induction xs generalizing b with
  | nil => exact h
  | cons a xs ih => exact ih _ (hf b a h)

end

theorem setReg_stable {P : State → Prop} (H : Stable P) {s : State} (h : P s) (a : Nat) (v : Word) : P (s.setReg a v) :=
  H.setReg h a v

theorem emit_stable {P : State → Prop} (H : Stable P) {s : State} (h : P s) (o : Out) : P (s.emit o) := H.emit h o

theorem draw_stable {P : State → Prop} (H : Stable P) {s : State} {α : Type} (h : P s) (f : Nat → α) : P (s.draw f).2 :=
  H.draws h

end Sys2Proof.Machine
end

