-- ==== Sys2Proof/Laws/StableOps.lean ====
section
/-! SUPPORT. What the record updates and register writes of the model keep, every operation of Machine/Ops.lean keeps (`Stable`). -/

namespace Sys2Proof.Machine

open Sys2Proof

theorem setFld_stable {P : State → Prop} (H : Stable P) {s : State} (h : P s) (r : Reg) (i : Nat) (f : Fld) (v : Nat) : P (State.setFld s r i f v) := by
  unfold State.setFld
  try dsimp only
  repeat' (with_reducible (first | intro _ | assumption | apply setReg_stable H))

theorem bump_stable {P : State → Prop} (H : Stable P) {s : State} (h : P s) (r : Reg) (i : Nat) (f : Fld) (n : Nat) : P (State.bump s r i f n) := by
  unfold State.bump
  try dsimp only
  repeat' (with_reducible (first | intro _ | assumption | apply setFld_stable H))

theorem bumpWrap_stable {P : State → Prop} (H : Stable P) {s : State} (h : P s) (r : Reg) (i : Nat) (f : Fld) : P (State.bumpWrap s r i f) := by
  unfold State.bumpWrap
  try dsimp only
  repeat' (with_reducible (first | intro _ | assumption | apply setFld_stable H))

theorem setReg64_stable {P : State → Prop} (H : Stable P) {s : State} (h : P s) (lo : Nat) (hi : Nat) (v : Nat) : P (State.setReg64 s lo hi v) := by
  unfold State.setReg64
  try dsimp only
  repeat' (with_reducible (first | intro _ | assumption | apply setReg_stable H))

theorem aonTick_stable {P : State → Prop} (H : Stable P) {s : State} (h : P s)  : P (State.aonTick s) := by
  unfold State.aonTick
  try dsimp only
  repeat' (with_reducible (first | intro _ | ((conv => arg 1; arg 27); apply H.upd) | assumption))

theorem evLose_stable {P : State → Prop} (H : Stable P) {s : State} (h : P s)  : P (State.evLose s) := by
  unfold State.evLose
  try dsimp only
  repeat' (with_reducible (first | intro _ | ((conv => arg 1; arg 27); apply H.upd) | assumption | apply bump_stable H | dsimp only))

theorem evIntake_stable {P : State → Prop} (H : Stable P) {s : State} (h : P s) (e : RaisedEvent) : P (State.evIntake s e) := by
  unfold State.evIntake
  try dsimp only
  repeat' (with_reducible (first | intro _ | ((conv => arg 1; arg 27); apply H.upd) | assumption | apply evLose_stable H | apply ite_stable P | split))

theorem raiseEvent_stable {P : State → Prop} (H : Stable P) {s : State} (h : P s) (e : RaisedEvent) : P (State.raiseEvent s e) := by
  unfold State.raiseEvent
  try dsimp only
  repeat' (with_reducible (first | intro _ | ((conv => arg 1; arg 27); apply H.upd) | assumption | apply evIntake_stable H | apply evLose_stable H | apply bump_stable H | apply ite_stable P | dsimp only | split))

theorem raise_stable {P : State → Prop} (H : Stable P) {s : State} (h : P s) (code : Nat) (sev : Nat) (inst : Nat) (detail : List Byte) : P (State.raise s code sev inst detail) := by
  unfold State.raise
  try dsimp only
  repeat' (with_reducible (first | intro _ | assumption | apply raiseEvent_stable H))

end Sys2Proof.Machine
end

