-- ==== Sys2Proof/Laws/StableRegOps.lean ====
section
/-! SUPPORT. What the record updates and register writes of the model keep, every operation of Machine/RegOps.lean keeps (`Stable`). -/

namespace Sys2Proof.Machine

open Sys2Proof

theorem setDomain_stable {P : State → Prop} (H : Stable P) {s : State} (h : P s) (d : Nat) (v : Nat) : P (State.setDomain s d v) := by
  unfold State.setDomain
  try dsimp only
  repeat' (with_reducible (first | intro _ | ((conv => arg 1; arg 27); apply H.upd) | assumption | apply ite_stable P | split))

theorem whenMemory_stable {P : State → Prop} (_H : Stable P) {s : State} (h : P s) (act : State → State) (hact : ∀ t, P t → P (act t)) : P (State.whenMemory s act) := by
  unfold State.whenMemory
  try dsimp only
  repeat' (with_reducible (first | intro _ | assumption | apply hact | apply ite_stable P | split))

theorem whenUnit_stable {P : State → Prop} (_H : Stable P) {s : State} (h : P s) (u : Nat) (act : State → State) (hact : ∀ t, P t → P (act t)) : P (State.whenUnit s u act) := by
  unfold State.whenUnit
  try dsimp only
  repeat' (with_reducible (first | intro _ | assumption | apply hact | apply ite_stable P | split))

theorem regAccessEvent_stable {P : State → Prop} (H : Stable P) {s : State} (h : P s) (a : Nat) (isWrite : Bool) : P (State.regAccessEvent s a isWrite) := by
  unfold State.regAccessEvent
  try dsimp only
  repeat' (with_reducible (first | intro _ | assumption | apply raise_stable H | apply ite_stable P | split))

theorem gatedEvent_stable {P : State → Prop} (H : Stable P) {s : State} (h : P s) (a : Nat) (isWrite : Bool) : P (State.gatedEvent s a isWrite) := by
  unfold State.gatedEvent
  try dsimp only
  repeat' (with_reducible (first | intro _ | assumption | apply raise_stable H | apply ite_stable P | split))

theorem writeRefused_stable {P : State → Prop} (H : Stable P) {s : State} (h : P s) (port : Nat) (a : Nat) : P (State.writeRefused s port a) := by
  unfold State.writeRefused
  try dsimp only
  repeat' (with_reducible (first | intro _ | assumption | apply raise_stable H))

theorem hostWrite_stable {P : State → Prop} (H : Stable P) {s : State} (h : P s) (port : Nat) (a : Nat) (act : State → State) (hact : ∀ t, P t → P (act t)) : P (State.hostWrite s port a act) := by
  unfold State.hostWrite
  try dsimp only
  repeat' (with_reducible (first | intro _ | assumption | apply hact | apply gatedEvent_stable H | apply writeRefused_stable H | apply ite_stable P | split))

theorem writeByType_stable {P : State → Prop} (H : Stable P) {s : State} (h : P s) (a : Nat) (v : Word) : P (State.writeByType s a v) := by
  unfold State.writeByType
  try dsimp only
  repeat' (with_reducible (first | intro _ | ((conv => arg 1; arg 27); apply H.upd) | assumption | apply setReg_stable H | split))

end Sys2Proof.Machine
end

