-- ==== Sys2Proof/Laws/StableQueues.lean ====
section
/-! SUPPORT. What the record updates and register writes of the model keep, every operation of Machine/Queues.lean keeps (`Stable`). -/

namespace Sys2Proof.Machine

open Sys2Proof

theorem setFn_stable {P : State → Prop} (H : Stable P) {s : State} (h : P s) (x : Nat) (f : Fn) : P (State.setFn s x f) := by
  unfold State.setFn
  try dsimp only
  repeat' (with_reducible (first | intro _ | ((conv => arg 1; arg 27); apply H.upd) | assumption))

theorem fnError_stable {P : State → Prop} (H : Stable P) {s : State} (h : P s) (x : Nat) : P (State.fnError s x) := by
  unfold State.fnError
  try dsimp only
  repeat' (with_reducible (first | intro _ | assumption | apply bump_stable H))

theorem sendMsix_stable {P : State → Prop} (H : Stable P) {s : State} (h : P s) (x : Nat) (v : Nat) : P (State.sendMsix s x v) := by
  unfold State.sendMsix
  try dsimp only
  repeat' (with_reducible (first | intro _ | ((conv => arg 1; arg 27); apply H.upd) | assumption | apply emit_stable H | apply setFn_stable H | apply ite_stable P | dsimp only | split))

theorem modDq_stable {P : State → Prop} (H : Stable P) {s : State} (h : P s) (q : Nat) (f : DevQueue → DevQueue) : P (State.modDq s q f) := by
  unfold State.modDq
  try dsimp only
  repeat' (with_reducible (first | intro _ | ((conv => arg 1; arg 27); apply H.upd) | assumption))

theorem modSq_stable {P : State → Prop} (H : Stable P) {s : State} (h : P s) (q : Nat) (f : Sq → Sq) : P (State.modSq s q f) := by
  unfold State.modSq
  try dsimp only
  repeat' (with_reducible (first | intro _ | ((conv => arg 1; arg 27); apply H.upd) | assumption | apply modDq_stable H | dsimp only))

theorem modCq_stable {P : State → Prop} (H : Stable P) {s : State} (h : P s) (q : Nat) (f : Cq → Cq) : P (State.modCq s q f) := by
  unfold State.modCq
  try dsimp only
  repeat' (with_reducible (first | intro _ | ((conv => arg 1; arg 27); apply H.upd) | assumption | apply modDq_stable H | dsimp only))

theorem unbindIfEmpty_stable {P : State → Prop} (H : Stable P) {s : State} (h : P s) (q : Nat) : P (State.unbindIfEmpty s q) := by
  unfold State.unbindIfEmpty
  try dsimp only
  repeat' (with_reducible (first | intro _ | ((conv => arg 1; arg 27); apply H.upd) | assumption | apply ite_stable P | split))

theorem cqSignal_stable {P : State → Prop} (H : Stable P) {s : State} (h : P s) (q : Nat) : P (State.cqSignal s q) := by
  unfold State.cqSignal
  try dsimp only
  repeat' (with_reducible (first | intro _ | ((conv => arg 1; arg 27); apply H.upd) | assumption | apply modCq_stable H | apply sendMsix_stable H | dsimp only | split))

theorem cqWrite_stable {P : State → Prop} (H : Stable P) {s : State} (h : P s) (q : Nat) (e : CompEntry) : P (State.cqWrite s q e) := by
  unfold State.cqWrite
  try dsimp only
  repeat' (with_reducible (first | intro _ | ((conv => arg 1; arg 27); apply H.upd) | assumption | apply emit_stable H | apply modCq_stable H | apply cqSignal_stable H | apply ite_stable P | dsimp only | split))

theorem cqPost_stable {P : State → Prop} (H : Stable P) {s : State} (h : P s) (q : Nat) (e : CompEntry) : P (State.cqPost s q e) := by
  unfold State.cqPost
  try dsimp only
  repeat' (with_reducible (first | intro _ | ((conv => arg 1; arg 27); apply H.upd) | assumption | apply cqWrite_stable H | apply modCq_stable H | apply ite_stable P | dsimp only | split))

theorem cqRefill_stable {P : State → Prop} (H : Stable P) {s : State} (h : P s) (x0 : Nat) (x2 : Nat) : P (State.cqRefill x0 s x2) := by
  induction x0 generalizing s x2 with
  | zero =>
    unfold State.cqRefill
    try dsimp only
    repeat' (with_reducible (first | intro _ | ((conv => arg 1; arg 27); apply H.upd) | assumption | apply modCq_stable H | apply cqWrite_stable H | apply ite_stable P | dsimp only | split))
  | succ n ih =>
    unfold State.cqRefill
    try dsimp only
    repeat' (with_reducible (first | intro _ | ((conv => arg 1; arg 27); apply H.upd) | assumption | apply ih | apply modCq_stable H | apply cqWrite_stable H | apply ite_stable P | dsimp only | split))

theorem breakwaterOpen_stable {P : State → Prop} (H : Stable P) {s : State} (h : P s) (q : Nat) : P (State.breakwaterOpen s q) := by
  unfold State.breakwaterOpen
  try dsimp only
  repeat' (with_reducible (first | intro _ | ((conv => arg 1; arg 27); apply H.upd) | assumption | apply modCq_stable H | apply ite_stable P | dsimp only | split))

theorem breakwaterClose_stable {P : State → Prop} (H : Stable P) {s : State} (h : P s) (q : Nat) : P (State.breakwaterClose s q) := by
  unfold State.breakwaterClose
  try dsimp only
  repeat' (with_reducible (first | intro _ | ((conv => arg 1; arg 27); apply H.upd) | assumption | apply modCq_stable H | apply raise_stable H | apply ite_stable P | dsimp only | split))

theorem setCmd_stable {P : State → Prop} (H : Stable P) {s : State} (h : P s) (id : Nat) (c : Cmd) : P (State.setCmd s id c) := by
  unfold State.setCmd
  try dsimp only
  repeat' (with_reducible (first | intro _ | ((conv => arg 1; arg 27); apply H.upd) | assumption))

theorem setBody_stable {P : State → Prop} (H : Stable P) {s : State} (h : P s) (id : Nat) (b : CmdBody) : P (State.setBody s id b) := by
  unfold State.setBody
  try dsimp only
  repeat' (with_reducible (first | intro _ | ((conv => arg 1; arg 27); apply H.upd) | assumption | dsimp only))

theorem completeRaw_stable {P : State → Prop} (H : Stable P) {s : State} (h : P s) (id : Nat) (status : Nat) (result : List Byte) (detail : Nat) (flags : Nat) : P (State.completeRaw s id status result detail flags) := by
  unfold State.completeRaw
  try dsimp only
  repeat' (with_reducible (first | intro _ | ((conv => arg 1; arg 27); apply H.upd) | assumption | apply modCq_stable H | apply cqPost_stable H | apply ite_stable P | dsimp only | split))

theorem dropSq_stable {P : State → Prop} (H : Stable P) {s : State} (h : P s) (q : Nat) : P (State.dropSq s q) := by
  unfold State.dropSq
  try dsimp only
  repeat' (with_reducible (first | intro _ | ((conv => arg 1; arg 27); apply H.upd) | assumption | apply modDq_stable H | apply unbindIfEmpty_stable H | dsimp only))

theorem dropCq_stable {P : State → Prop} (H : Stable P) {s : State} (h : P s) (q : Nat) : P (State.dropCq s q) := by
  unfold State.dropCq
  try dsimp only
  repeat' (with_reducible (first | intro _ | ((conv => arg 1; arg 27); apply H.upd) | assumption | apply modDq_stable H | apply unbindIfEmpty_stable H | dsimp only))

theorem settleCtlq_stable {P : State → Prop} (H : Stable P) {s : State} (h : P s)  : P (State.settleCtlq s) := by
  unfold State.settleCtlq
  try dsimp only
  repeat' (with_reducible (first | intro _ | ((conv => arg 1; arg 27); apply H.upd) | assumption | apply each_stable H | apply dropSq_stable H | apply dropCq_stable H | apply setFn_stable H | apply ite_stable P | apply each_stable P | dsimp only | split))

theorem settle_stable {P : State → Prop} (H : Stable P) {s : State} (h : P s) (x0 : Nat) : P (State.settle x0 s) := by
  induction x0 generalizing s  with
  | zero =>
    unfold State.settle
    try dsimp only
    repeat' (with_reducible (first | intro _ | ((conv => arg 1; arg 27); apply H.upd) | assumption | apply dropSq_stable H | apply completeRaw_stable H | dsimp only | split))
  | succ n ih =>
    unfold State.settle
    try dsimp only
    repeat' (with_reducible (first | intro _ | ((conv => arg 1; arg 27); apply H.upd) | assumption | apply ih | apply dropSq_stable H | apply completeRaw_stable H | dsimp only | split))

theorem complete_stable {P : State → Prop} (H : Stable P) {s : State} (h : P s) (id : Nat) (status : Nat) (result : List Byte) (detail : Nat) (flags : Nat) : P (State.complete s id status result detail flags) := by
  unfold State.complete
  try dsimp only
  repeat' (with_reducible (first | intro _ | assumption | apply completeRaw_stable H | apply settle_stable H | apply settleCtlq_stable H | dsimp only))

theorem consume_stable {P : State → Prop} (H : Stable P) {s : State} (h : P s) (q : Nat) (n : Nat) (cid : Nat) (op : Nat) : P (State.consume s q n cid op).2 := by
  unfold State.consume
  try dsimp only
  repeat' (with_reducible (first | intro _ | ((conv => arg 1; arg 27); apply H.upd) | assumption | apply modSq_stable H | apply modCq_stable H | apply setCmd_stable H | apply breakwaterClose_stable H | apply ite_stable P | dsimp only | split))

end Sys2Proof.Machine
end

