-- ==== Sys2Proof/Laws/StableStripes.lean ====
section
/-! SUPPORT. What the record updates and register writes of the model keep, every operation of Machine/Stripes.lean keeps (`Stable`). -/

namespace Sys2Proof.Machine

open Sys2Proof

theorem setPool_stable {P : State → Prop} (H : Stable P) {s : State} (h : P s) (p : Nat) (x : Pool) : P (State.setPool s p x) := by
  unfold State.setPool
  try dsimp only
  repeat' (with_reducible (first | intro _ | ((conv => arg 1; arg 27); apply H.upd) | assumption))

theorem modPool_stable {P : State → Prop} (H : Stable P) {s : State} (h : P s) (p : Nat) (f : Pool → Pool) : P (State.modPool s p f) := by
  unfold State.modPool
  try dsimp only
  repeat' (with_reducible (first | intro _ | ((conv => arg 1; arg 27); apply H.upd) | assumption))

theorem setStripe_stable {P : State → Prop} (H : Stable P) {s : State} (h : P s) (p : Nat) (n : Nat) (x : Stripe) : P (State.setStripe s p n x) := by
  unfold State.setStripe
  try dsimp only
  repeat' (with_reducible (first | intro _ | ((conv => arg 1; arg 27); apply H.upd) | assumption))

theorem modStripe_stable {P : State → Prop} (H : Stable P) {s : State} (h : P s) (p : Nat) (n : Nat) (f : Stripe → Stripe) : P (State.modStripe s p n f) := by
  unfold State.modStripe
  try dsimp only
  repeat' (with_reducible (first | intro _ | ((conv => arg 1; arg 27); apply H.upd) | assumption))

theorem modSet_stable {P : State → Prop} (H : Stable P) {s : State} (h : P s) (i : Nat) (f : SetRec → SetRec) : P (State.modSet s i f) := by
  unfold State.modSet
  try dsimp only
  repeat' (with_reducible (first | intro _ | ((conv => arg 1; arg 27); apply H.upd) | assumption))

theorem modDrive_stable {P : State → Prop} (H : Stable P) {s : State} (h : P s) (n : Nat) (f : Drive → Drive) : P (State.modDrive s n f) := by
  unfold State.modDrive
  try dsimp only
  repeat' (with_reducible (first | intro _ | ((conv => arg 1; arg 27); apply H.upd) | assumption))

theorem modSlot_stable {P : State → Prop} (H : Stable P) {s : State} (h : P s) (n : Nat) (f : Slot → Slot) : P (State.modSlot s n f) := by
  unfold State.modSlot
  try dsimp only
  repeat' (with_reducible (first | intro _ | ((conv => arg 1; arg 27); apply H.upd) | assumption))

theorem setBand_stable {P : State → Prop} (H : Stable P) {s : State} (h : P s) (slot : Nat) (b : Nat) (v : BandState) (set : Nat) : P (State.setBand s slot b v set) := by
  unfold State.setBand
  try dsimp only
  repeat' (with_reducible (first | intro _ | ((conv => arg 1; arg 27); apply H.upd) | assumption | apply ite_stable P | split))

theorem modEntry_stable {P : State → Prop} (H : Stable P) {s : State} (h : P s) (p : Nat) (n : Nat) (slot : Nat) (f : DirEnt → DirEnt) : P (State.modEntry s p n slot f) := by
  unfold State.modEntry
  try dsimp only
  repeat' (with_reducible (first | intro _ | ((conv => arg 1; arg 27); apply H.upd) | assumption | apply modStripe_stable H | dsimp only))

theorem touchDir_stable {P : State → Prop} (H : Stable P) {s : State} (h : P s) (p : Nat) (n : Nat) : P (State.touchDir s p n) := by
  unfold State.touchDir
  try dsimp only
  repeat' (with_reducible (first | intro _ | ((conv => arg 1; arg 27); apply H.upd) | assumption | dsimp only))

theorem noteU_stable {P : State → Prop} (H : Stable P) {s : State} (h : P s)  : P (State.noteU s) := by
  unfold State.noteU
  try dsimp only
  repeat' (with_reducible (first | intro _ | ((conv => arg 1; arg 27); apply H.upd) | assumption | apply ite_stable P | dsimp only | split))

theorem freePages_stable {P : State → Prop} (H : Stable P) {s : State} (h : P s) (bytes : Nat) : P (State.freePages s bytes) := by
  unfold State.freePages
  try dsimp only
  repeat' (with_reducible (first | intro _ | ((conv => arg 1; arg 27); apply H.upd) | assumption | apply noteU_stable H))

theorem sendFrame_stable {P : State → Prop} (H : Stable P) {s : State} (h : P s) (type : Nat) (args : List Nat) (bytes : List Byte) : P (State.sendFrame s type args bytes) := by
  unfold State.sendFrame
  try dsimp only
  repeat' (with_reducible (first | intro _ | assumption | apply emit_stable H | apply ite_stable P | split))

theorem sendM_stable {P : State → Prop} (H : Stable P) {s : State} (h : P s) (type : Nat) (args : List Nat) (bytes : List Byte) : P (State.sendM s type args bytes) := by
  unfold State.sendM
  try dsimp only
  repeat' (with_reducible (first | intro _ | ((conv => arg 1; arg 27); apply H.upd) | assumption | apply emit_stable H | apply ite_stable P | dsimp only | split))

theorem delta_stable {P : State → Prop} (H : Stable P) {s : State} (h : P s) (p : Nat) (n : Nat) : P (State.delta s p n) := by
  unfold State.delta
  try dsimp only
  repeat' (with_reducible (first | intro _ | ((conv => arg 1; arg 27); apply H.upd) | assumption | apply modPool_stable H | apply sendM_stable H | apply raise_stable H | apply ite_stable P | dsimp only | split))

theorem journal_stable {P : State → Prop} (H : Stable P) {s : State} (h : P s) (p : Nat) (r : JRec) : P (State.journal s p r) := by
  unfold State.journal
  try dsimp only
  repeat' (with_reducible (first | intro _ | ((conv => arg 1; arg 27); apply H.upd) | assumption | apply modPool_stable H | dsimp only))

theorem driveOut_stable {P : State → Prop} (H : Stable P) {s : State} (h : P s) (slot : Nat) (kind : Nat) (a : Nat) (b : Nat) (bytes : List Byte) : P (State.driveOut s slot kind a b bytes) := by
  unfold State.driveOut
  try dsimp only
  repeat' (with_reducible (first | intro _ | assumption | apply emit_stable H))

theorem wake_stable {P : State → Prop} (H : Stable P) {s : State} (h : P s) (slots : List Nat) (cls : Nat) : P (State.wake s slots cls) := by
  unfold State.wake
  try dsimp only
  repeat' (with_reducible (first | intro _ | ((conv => arg 1; arg 27); apply H.upd) | assumption | apply each_stable H | apply modSlot_stable H | apply ite_stable P | apply each_stable P | dsimp only | split))

theorem addLoss_stable {P : State → Prop} (H : Stable P) {s : State} (h : P s) (p : Nat) (r : LossRec) : P (State.addLoss s p r) := by
  unfold State.addLoss
  try dsimp only
  repeat' (with_reducible (first | intro _ | ((conv => arg 1; arg 27); apply H.upd) | assumption | apply modPool_stable H | apply raise_stable H | apply ite_stable P | dsimp only | split))

theorem gradePool_stable {P : State → Prop} (H : Stable P) {s : State} (h : P s) (p : Nat) : P (State.gradePool s p) := by
  unfold State.gradePool
  try dsimp only
  repeat' (with_reducible (first | intro _ | ((conv => arg 1; arg 27); apply H.upd) | assumption | apply modPool_stable H | apply ite_stable P | dsimp only | split))

end Sys2Proof.Machine
end

