-- ==== Sys2Proof/Laws/StableSections.lean ====
section
/-! SUPPORT. What the record updates and register writes of the model keep, every operation of Machine/Sections.lean keeps (`Stable`). -/

namespace Sys2Proof.Machine

open Sys2Proof

theorem appendLog_stable {P : State → Prop} (H : Stable P) {s : State} (h : P s) (p : Nat) (n : Nat) (lgen : Nat) (tag : Nat) (gen : Nat) (rs : List SillRec) : P (State.appendLog s p n lgen tag gen rs) := by
  unfold State.appendLog
  try dsimp only
  repeat' (with_reducible (first | intro _ | ((conv => arg 1; arg 27); apply H.upd) | assumption | apply each_stable H | apply modPool_stable H | apply driveOut_stable H | apply ite_stable P | apply each_stable P | dsimp only | split))

end Sys2Proof.Machine
end

