-- ==== Sys2Proof/Laws/StableAppend.lean ====
section
/-! SUPPORT. What the record updates and register writes of the model keep, every operation of Machine/Append.lean keeps (`Stable`). -/

namespace Sys2Proof.Machine

open Sys2Proof

theorem keepReserved_stable {P : State → Prop} (H : Stable P) {s : State} (h : P s) (p : Nat) : P (State.keepReserved s p) := by
  unfold State.keepReserved
  try dsimp only
  repeat' (with_reducible (first | intro _ | ((conv => arg 1; arg 27); apply H.upd) | assumption | apply modPool_stable H | apply journal_stable H | apply ite_stable P | dsimp only | split))

theorem openStripe_stable_of {P : State → Prop} (H : Stable P) {s t : State} {p set n : Nat} (e : s.openStripe p set = some (n, t)) (h : P s) :
    P t := by
  unfold State.openStripe at e
  repeat' split at e
  all_goals first | cases e; done | skip
  cases e
  exact keepReserved_stable H (setStripe_stable H (modPool_stable H h _ _) _ _ _) _

theorem startSeal_stable {P : State → Prop} (H : Stable P) {s : State} (h : P s) (p : Nat) (n : Nat) : P (State.startSeal s p n) := by
  unfold State.startSeal
  try dsimp only
  repeat' (with_reducible (first | intro _ | ((conv => arg 1; arg 27); apply H.upd) | assumption | apply modStripe_stable H | apply ite_stable P | dsimp only | split))

theorem sealPool_stable {P : State → Prop} (H : Stable P) {s : State} (h : P s) (p : Nat) : P (State.sealPool s p) := by
  unfold State.sealPool
  try dsimp only
  repeat' (with_reducible (first | intro _ | assumption | apply each_stable H | apply startSeal_stable H | apply each_stable P | dsimp only))

theorem forcedSeal_stable {P : State → Prop} (H : Stable P) {s : State} (h : P s) (p : Nat) : P (State.forcedSeal s p) := by
  unfold State.forcedSeal
  try dsimp only
  repeat' (with_reducible (first | intro _ | ((conv => arg 1; arg 27); apply H.upd) | assumption | apply startSeal_stable H | apply ite_stable P | dsimp only | split))

theorem placeIn_stable {P : State → Prop} (H : Stable P) {s : State} (h : P s) (id : Nat) (a : AppendCmd) (n : Nat) : P (State.placeIn s id a n) := by
  unfold State.placeIn
  try dsimp only
  repeat' (with_reducible (first | intro _ | ((conv => arg 1; arg 27); apply H.upd) | assumption | apply modPool_stable H | apply setStripe_stable H | apply setBody_stable H | apply startSeal_stable H | apply ite_stable P | dsimp only | split))

theorem copyItem_stable {P : State → Prop} (H : Stable P) {s : State} (h : P s) (id : Nat) (idx : Nat) (item : CopyItem) : P (State.copyItem s id idx item) := by
  unfold State.copyItem
  try dsimp only
  repeat' (with_reducible (first | intro _ | ((conv => arg 1; arg 27); apply H.upd) | assumption | apply setBody_stable H | apply emit_stable H | apply hostWrite_stable H | apply complete_stable H | apply ite_stable P | dsimp only | split))

theorem endAppend_stable {P : State → Prop} (H : Stable P) {s : State} (h : P s) (id : Nat) (status : Nat) (durable : Bool) : P (State.endAppend s id status durable) := by
  unfold State.endAppend
  try dsimp only
  repeat' (with_reducible (first | intro _ | ((conv => arg 1; arg 27); apply H.upd) | assumption | apply modEntry_stable H | apply copyItem_stable H | apply complete_stable H | apply ite_stable P | dsimp only | split))

theorem ackAppend_stable {P : State → Prop} (H : Stable P) {s : State} (h : P s) (id : Nat) (durable : Bool) : P (State.ackAppend s id durable) := by
  unfold State.ackAppend
  try dsimp only
  repeat' (with_reducible (first | intro _ | ((conv => arg 1; arg 27); apply H.upd) | assumption | apply modEntry_stable H | apply endAppend_stable H | apply ite_stable P | dsimp only | split))

theorem tryAck_stable {P : State → Prop} (H : Stable P) {s : State} (h : P s) (id : Nat) : P (State.tryAck s id) := by
  unfold State.tryAck
  try dsimp only
  repeat' (with_reducible (first | intro _ | ((conv => arg 1; arg 27); apply H.upd) | assumption | apply ackAppend_stable H | apply ite_stable P | split))

theorem hashSubmit_stable {P : State → Prop} (H : Stable P) {s : State} (h : P s) (user : HashUser) (cls : Nat) (digest : BitVec 256) : P (State.hashSubmit s user cls digest) := by
  unfold State.hashSubmit
  try dsimp only
  repeat' (with_reducible (first | intro _ | ((conv => arg 1; arg 27); apply H.upd) | assumption))

theorem payloadIn_stable {P : State → Prop} (H : Stable P) {s : State} (h : P s) (id : Nat) (off : Nat) (bytes : List Byte) : P (State.payloadIn s id off bytes) := by
  unfold State.payloadIn
  try dsimp only
  repeat' (with_reducible (first | intro _ | ((conv => arg 1; arg 27); apply H.upd) | assumption | apply modStripe_stable H | apply modEntry_stable H | apply each_stable H | apply sendM_stable H | apply setBody_stable H | apply hashSubmit_stable H | apply ite_stable P | apply each_stable P | dsimp only | split))

theorem voidEntry_stable {P : State → Prop} (H : Stable P) {s : State} (h : P s) (p : Nat) (n : Nat) (slot : Nat) : P (State.voidEntry s p n slot) := by
  unfold State.voidEntry
  try dsimp only
  repeat' (with_reducible (first | intro _ | ((conv => arg 1; arg 27); apply H.upd) | assumption | apply setStripe_stable H | apply sendM_stable H | dsimp only | split))

theorem failAppend_stable {P : State → Prop} (H : Stable P) {s : State} (h : P s) (id : Nat) (status : Nat) : P (State.failAppend s id status) := by
  unfold State.failAppend
  try dsimp only
  repeat' (with_reducible (first | intro _ | ((conv => arg 1; arg 27); apply H.upd) | assumption | apply voidEntry_stable H | apply setBody_stable H | apply endAppend_stable H | dsimp only | split))

theorem stallScarf_stable {P : State → Prop} (H : Stable P) {s : State} (h : P s) (p : Nat) : P (State.stallScarf s p) := by
  unfold State.stallScarf
  try dsimp only
  repeat' (with_reducible (first | intro _ | ((conv => arg 1; arg 27); apply H.upd) | assumption | apply modPool_stable H | apply raise_stable H | apply ite_stable P | dsimp only | split))

theorem tryPlace_stable {P : State → Prop} (H : Stable P) {s : State} (h : P s) (id : Nat) (a : AppendCmd) :
    ∀ t, (s.tryPlace id a = .done t → P t) ∧ (s.tryPlace id a = .hold t → P t) := by
  intro t
  constructor
  all_goals
    intro e
    unfold State.tryPlace at e
    dsimp only at e
    repeat' split at e
    all_goals cases e
    all_goals
      repeat' (with_reducible (first | assumption | apply placeIn_stable H | apply keepReserved_stable H | apply forcedSeal_stable H | apply stallScarf_stable H | apply failAppend_stable H | refine openStripe_stable_of H (by assumption) ?_))

theorem tryPlace_stable_of {P : State → Prop} (H : Stable P) {s t : State} {id : Nat} {a : AppendCmd} (e : s.tryPlace id a = .done t) (h : P s) :
    P t := (tryPlace_stable H h id a t).1 e

theorem tryPlace_stable_hold {P : State → Prop} (H : Stable P) {s t : State} {id : Nat} {a : AppendCmd} (e : s.tryPlace id a = .hold t) (h : P s) :
    P t := (tryPlace_stable H h id a t).2 e

theorem copyPayload_stable {P : State → Prop} (H : Stable P) {s : State} (h : P s) (id : Nat) (a : AppendCmd) : P (State.copyPayload s id a) := by
  unfold State.copyPayload
  try dsimp only
  repeat' (with_reducible (first | intro _ | ((conv => arg 1; arg 27); apply H.upd) | assumption | apply payloadIn_stable H | split))

theorem placeAdmitted_stable {P : State → Prop} (H : Stable P) {s : State} (h : P s)  : P (State.placeAdmitted s) := by
  unfold State.placeAdmitted
  try dsimp only
  repeat' (with_reducible (first | intro _ | ((conv => arg 1; arg 27); apply H.upd) | assumption | apply copyPayload_stable H | apply ite_stable P | apply foldl_stable P | apply foldl_fst_stable P | apply foldl_snd_stable P | refine tryPlace_stable_of H (by assumption) ?_ | refine tryPlace_stable_hold H (by assumption) ?_ | dsimp only | split))

theorem admitOne_stable {P : State → Prop} (H : Stable P) {s : State} (h : P s) (id : Nat) (a : AppendCmd) : P (State.admitOne s id a) := by
  unfold State.admitOne
  try dsimp only
  repeat' (with_reducible (first | intro _ | ((conv => arg 1; arg 27); apply H.upd) | assumption | apply setBody_stable H | apply noteU_stable H | apply ite_stable P | dsimp only | split))

theorem admitRounds_stable {P : State → Prop} (H : Stable P) {s : State} (h : P s) (x0 : Nat) : P (State.admitRounds x0 s) := by
  induction x0 generalizing s  with
  | zero =>
    unfold State.admitRounds
    try dsimp only
    repeat' (with_reducible (first | intro _ | assumption | apply placeAdmitted_stable H | apply admitOne_stable H | apply ite_stable P | apply foldl_stable P | apply foldl_fst_stable P | apply foldl_snd_stable P | dsimp only | split))
  | succ n ih =>
    unfold State.admitRounds
    try dsimp only
    repeat' (with_reducible (first | intro _ | assumption | apply ih | apply placeAdmitted_stable H | apply admitOne_stable H | apply ite_stable P | apply foldl_stable P | apply foldl_fst_stable P | apply foldl_snd_stable P | dsimp only | split))

theorem admitHeld_stable {P : State → Prop} (H : Stable P) {s : State} (h : P s)  : P (State.admitHeld s) := by
  unfold State.admitHeld
  try dsimp only
  repeat' (with_reducible (first | intro _ | assumption | apply admitRounds_stable H))

theorem drawBand_stable {P : State → Prop} (H : Stable P) {s : State} (h : P s) (i : Nat) (b : Nat) : P (State.drawBand s i b) := by
  unfold State.drawBand
  try dsimp only
  repeat' (with_reducible (first | intro _ | ((conv => arg 1; arg 27); apply H.upd) | assumption | apply each_stable H | apply setBand_stable H | apply substitute_stable H | apply modSet_stable H | apply modPool_stable H | apply journal_stable H | apply ite_stable P | apply each_stable P | dsimp only | split))

theorem takeOffset_stable_of {P : State → Prop} (H : Stable P) {s t : State} {i n : Nat} {p : Params} (e : s.takeOffset i p = some (n, t)) (h : P s) :
    P t := by
  unfold State.takeOffset at e
  repeat' split at e
  all_goals first | cases e; done | skip
  · cases e
    exact modSet_stable H h _ _
  · cases e
    exact modSet_stable H (drawBand_stable H h _ _) _ _

theorem sealedHook_stable {P : State → Prop} (H : Stable P) {s : State} (h : P s) (p : Nat) (n : Nat) : P (State.sealedHook s p n) := by
  unfold State.sealedHook
  try dsimp only
  repeat' (with_reducible (first | intro _ | ((conv => arg 1; arg 27); apply H.upd) | assumption | apply each_stable H | apply setBody_stable H | apply complete_stable H | apply ite_stable P | apply each_stable P | dsimp only | split))

theorem ceSubmit_stable {P : State → Prop} (H : Stable P) {s : State} (h : P s) (j : CeJob) : P (State.ceSubmit s j) := by
  unfold State.ceSubmit
  try dsimp only
  repeat' (with_reducible (first | intro _ | ((conv => arg 1; arg 27); apply H.upd) | assumption))

theorem sealStripe_stable {P : State → Prop} (H : Stable P) {s : State} (h : P s) (p : Nat) (n : Nat) : P (State.sealStripe s p n) := by
  unfold State.sealStripe
  try dsimp only
  repeat' (with_reducible (first | intro _ | ((conv => arg 1; arg 27); apply H.upd) | assumption | apply modPool_stable H | apply setStripe_stable H | apply sendM_stable H | apply delta_stable H | apply ceSubmit_stable H | apply wake_stable H | apply sealedHook_stable H | apply admitHeld_stable H | apply ite_stable P | refine takeOffset_stable_of H (by assumption) ?_ | dsimp only | split))

theorem writeChunk_stable {P : State → Prop} (H : Stable P) {s : State} (h : P s) (p : Nat) (n : Nat) (q : Nat) : P (State.writeChunk s p n q) := by
  unfold State.writeChunk
  try dsimp only
  repeat' (with_reducible (first | intro _ | ((conv => arg 1; arg 27); apply H.upd) | assumption | apply driveOut_stable H | apply ite_stable P | dsimp only | split))

theorem issueWrites_stable {P : State → Prop} (H : Stable P) {s : State} (h : P s) (p : Nat) (n : Nat) : P (State.issueWrites s p n) := by
  unfold State.issueWrites
  try dsimp only
  repeat' (with_reducible (first | intro _ | ((conv => arg 1; arg 27); apply H.upd) | assumption | apply each_stable H | apply writeChunk_stable H | apply ite_stable P | apply each_stable P | dsimp only | split))

theorem flushHook_stable {P : State → Prop} (H : Stable P) {s : State} (h : P s)  : P (State.flushHook s) := by
  unfold State.flushHook
  try dsimp only
  repeat' (with_reducible (first | intro _ | ((conv => arg 1; arg 27); apply H.upd) | assumption | apply each_stable H | apply startSeal_stable H | apply setBody_stable H | apply complete_stable H | apply ite_stable P | apply each_stable P | dsimp only | split))

theorem drainIfDead_stable {P : State → Prop} (H : Stable P) {s : State} (h : P s) (i : Nat) (b : Nat) : P (State.drainIfDead s i b) := by
  unfold State.drainIfDead
  try dsimp only
  repeat' (with_reducible (first | intro _ | ((conv => arg 1; arg 27); apply H.upd) | assumption | apply each_stable H | apply substitute_stable H | apply setBand_stable H | apply drained_stable H | apply modPool_stable H | apply ite_stable P | apply each_stable P | dsimp only | split))

theorem releaseStripe_stable {P : State → Prop} (H : Stable P) {s : State} (h : P s) (p : Nat) (n : Nat) : P (State.releaseStripe s p n) := by
  unfold State.releaseStripe
  try dsimp only
  repeat' (with_reducible (first | intro _ | ((conv => arg 1; arg 27); apply H.upd) | assumption | apply modStripe_stable H | apply delta_stable H | apply drainIfDead_stable H | apply gradePool_stable H | apply ite_stable P | dsimp only | split))

theorem closeBand_stable {P : State → Prop} (H : Stable P) {s : State} (h : P s) (i : Nat) : P (State.closeBand s i) := by
  unfold State.closeBand
  try dsimp only
  repeat' (with_reducible (first | intro _ | ((conv => arg 1; arg 27); apply H.upd) | assumption | apply each_stable H | apply setBand_stable H | apply modSet_stable H | apply journal_stable H | apply drainIfDead_stable H | apply ite_stable P | apply each_stable P | dsimp only | split))

theorem writeDone_stable {P : State → Prop} (H : Stable P) {s : State} (h : P s) (p : Nat) (n : Nat) : P (State.writeDone s p n) := by
  unfold State.writeDone
  try dsimp only
  repeat' (with_reducible (first | intro _ | ((conv => arg 1; arg 27); apply H.upd) | assumption | apply setStripe_stable H | apply delta_stable H | apply sendM_stable H | apply freePages_stable H | apply each_stable H | apply tryAck_stable H | apply flushHook_stable H | apply closeBand_stable H | apply releaseStripe_stable H | apply touchDir_stable H | apply admitHeld_stable H | apply ite_stable P | apply each_stable P | dsimp only | split))

end Sys2Proof.Machine
end

