-- ==== Sys2Proof/Laws/StableMembers.lean ====
section
/-! SUPPORT. What the record updates and register writes of the model keep, every operation of Machine/Members.lean keeps (`Stable`). -/

namespace Sys2Proof.Machine

open Sys2Proof

theorem issueLabel_stable {P : State → Prop} (H : Stable P) {s : State} (h : P s) (n : Nat) (d : Drive) (kind : LabelKind) (back : Bool) : P (State.issueLabel s n d kind back) := by
  unfold State.issueLabel
  try dsimp only
  repeat' (with_reducible (first | intro _ | ((conv => arg 1; arg 27); apply H.upd) | assumption | apply driveOut_stable H | apply modDrive_stable H | apply ite_stable P | dsimp only | split))

theorem writeLabel_stable {P : State → Prop} (H : Stable P) {s : State} (h : P s) (n : Nat) (kind : LabelKind) : P (State.writeLabel s n kind) := by
  unfold State.writeLabel
  try dsimp only
  repeat' (with_reducible (first | intro _ | ((conv => arg 1; arg 27); apply H.upd) | assumption | apply modDrive_stable H | apply wake_stable H | apply issueLabel_stable H | apply ite_stable P | dsimp only | split))

theorem newDescriptor_stable {P : State → Prop} (H : Stable P) {s : State} (h : P s) (p : Nat) : P (State.newDescriptor s p) := by
  unfold State.newDescriptor
  try dsimp only
  repeat' (with_reducible (first | intro _ | ((conv => arg 1; arg 27); apply H.upd) | assumption | apply modPool_stable H | apply each_stable H | apply writeLabel_stable H | apply ite_stable P | apply each_stable P | dsimp only | split))

theorem joinPool_stable {P : State → Prop} (H : Stable P) {s : State} (h : P s) (n : Nat) (p : Nat) : P (State.joinPool s n p) := by
  unfold State.joinPool
  try dsimp only
  repeat' (with_reducible (first | intro _ | ((conv => arg 1; arg 27); apply H.upd) | assumption | apply modDrive_stable H | apply modPool_stable H | apply writeLabel_stable H | apply wake_stable H | apply ite_stable P | dsimp only | split))

theorem assignSubst_stable {P : State → Prop} (H : Stable P) {s : State} (h : P s) (i : Nat) (q : Nat) (d : Nat) (f : Nat) : P (State.assignSubst s i q d f) := by
  unfold State.assignSubst
  try dsimp only
  repeat' (with_reducible (first | intro _ | ((conv => arg 1; arg 27); apply H.upd) | assumption | apply joinPool_stable H | apply drained_stable H | apply each_stable H | apply setBand_stable H | apply substitute_stable H | apply modSet_stable H | apply ite_stable P | apply each_stable P | dsimp only | split))

theorem assignAll_stable {P : State → Prop} (H : Stable P) {s : State} (h : P s) (allow : Nat → Bool) : P (State.assignAll s allow) := by
  unfold State.assignAll
  try dsimp only
  repeat' (with_reducible (first | intro _ | ((conv => arg 1; arg 27); apply H.upd) | assumption | apply each_stable H | apply assignSubst_stable H | apply each_stable P | dsimp only | split))

theorem sendClaim_stable {P : State → Prop} (H : Stable P) {s : State} (h : P s) (pool : Nat) (slots : List Nat) (cmd : Nat) : P (State.sendClaim s pool slots cmd) := by
  unfold State.sendClaim
  try dsimp only
  repeat' (with_reducible (first | intro _ | ((conv => arg 1; arg 27); apply H.upd) | assumption | apply sendFrame_stable H | dsimp only))

theorem substitute_stable {P : State → Prop} (H : Stable P) {s : State} (h : P s)  : P (State.substitute s) := by
  unfold State.substitute
  try dsimp only
  repeat' (with_reducible (first | intro _ | assumption | apply assignAll_stable H | apply sendClaim_stable H | apply ite_stable P | dsimp only | split))

theorem briefJournal_stable {P : State → Prop} (H : Stable P) {s : State} (h : P s) (p : Nat) (d : Nat) : P (State.briefJournal s p d) := by
  unfold State.briefJournal
  try dsimp only
  repeat' (with_reducible (first | intro _ | ((conv => arg 1; arg 27); apply H.upd) | assumption | apply modPool_stable H | apply wake_stable H | apply appendLog_stable H | apply ite_stable P | dsimp only | split))

theorem replaceJournal_stable {P : State → Prop} (H : Stable P) {s : State} (h : P s) (p : Nat) (n : Nat) : P (State.replaceJournal s p n) := by
  unfold State.replaceJournal
  try dsimp only
  repeat' (with_reducible (first | intro _ | ((conv => arg 1; arg 27); apply H.upd) | assumption | apply journal_stable H | apply modPool_stable H | apply briefJournal_stable H | apply newDescriptor_stable H | apply ite_stable P | dsimp only | split))

theorem breakStripe_stable {P : State → Prop} (H : Stable P) {s : State} (h : P s) (p : Nat) (n : Nat) (cause : Nat) : P (State.breakStripe s p n cause) := by
  unfold State.breakStripe
  try dsimp only
  repeat' (with_reducible (first | intro _ | ((conv => arg 1; arg 27); apply H.upd) | assumption | apply modStripe_stable H | apply delta_stable H | apply addLoss_stable H | apply each_stable H | apply raise_stable H | apply gradePool_stable H | apply ite_stable P | apply each_stable P | dsimp only | split))

theorem checkBroken_stable {P : State → Prop} (H : Stable P) {s : State} (h : P s) (p : Nat) (n : Nat) (cause : Nat) : P (State.checkBroken s p n cause) := by
  unfold State.checkBroken
  try dsimp only
  repeat' (with_reducible (first | intro _ | ((conv => arg 1; arg 27); apply H.upd) | assumption | apply modStripe_stable H | apply modPool_stable H | apply delta_stable H | apply bump_stable H | apply breakStripe_stable H | apply ite_stable P | dsimp only | split))

theorem afterLoss_stable {P : State → Prop} (H : Stable P) {s : State} (h : P s) (i : Nat) (cause : Nat) : P (State.afterLoss s i cause) := by
  unfold State.afterLoss
  try dsimp only
  repeat' (with_reducible (first | intro _ | ((conv => arg 1; arg 27); apply H.upd) | assumption | apply each_stable H | apply modStripe_stable H | apply checkBroken_stable H | apply modPool_stable H | apply ite_stable P | apply each_stable P | dsimp only | split))

theorem settleSealed_stable {P : State → Prop} (H : Stable P) {s : State} (h : P s) (i : Nat) : P (State.settleSealed s i) := by
  unfold State.settleSealed
  try dsimp only
  repeat' (with_reducible (first | intro _ | assumption | apply each_stable H | apply writeDone_stable H | apply ite_stable P | apply each_stable P | dsimp only | split))

theorem degradeSet_stable {P : State → Prop} (H : Stable P) {s : State} (h : P s) (i : Nat) (q : Nat) : P (State.degradeSet s i q) := by
  unfold State.degradeSet
  try dsimp only
  repeat' (with_reducible (first | intro _ | ((conv => arg 1; arg 27); apply H.upd) | assumption | apply modSet_stable H | apply ite_stable P | dsimp only | split))

theorem failMember_stable {P : State → Prop} (H : Stable P) {s : State} (h : P s) (n : Nat) (cause : Nat) : P (State.failMember s n cause) := by
  unfold State.failMember
  try dsimp only
  repeat' (with_reducible (first | intro _ | ((conv => arg 1; arg 27); apply H.upd) | assumption | apply modDrive_stable H | apply each_stable H | apply degradeSet_stable H | apply raise_stable H | apply afterLoss_stable H | apply settleSealed_stable H | apply replaceJournal_stable H | apply substitute_stable H | apply newDescriptor_stable H | apply gradePool_stable H | apply each_stable P | dsimp only | split))

theorem suspectMember_stable {P : State → Prop} (H : Stable P) {s : State} (h : P s) (n : Nat) (cause : Nat) : P (State.suspectMember s n cause) := by
  unfold State.suspectMember
  try dsimp only
  repeat' (with_reducible (first | intro _ | ((conv => arg 1; arg 27); apply H.upd) | assumption | apply modDrive_stable H | apply newDescriptor_stable H | apply ite_stable P | dsimp only | split))

theorem judge_stable {P : State → Prop} (H : Stable P) {s : State} (h : P s) (n : Nat) (count : Nat) (suspectAt : Nat) (failAt : Nat) (cause : Nat) : P (State.judge s n count suspectAt failAt cause) := by
  unfold State.judge
  try dsimp only
  repeat' (with_reducible (first | intro _ | assumption | apply failMember_stable H | apply suspectMember_stable H | apply ite_stable P | split))

theorem readError_stable {P : State → Prop} (H : Stable P) {s : State} (h : P s) (n : Nat) : P (State.readError s n) := by
  unfold State.readError
  try dsimp only
  repeat' (with_reducible (first | intro _ | ((conv => arg 1; arg 27); apply H.upd) | assumption | apply modDrive_stable H | apply judge_stable H | dsimp only | split))

theorem badBandCount_stable {P : State → Prop} (H : Stable P) {s : State} (h : P s) (n : Nat) : P (State.badBandCount s n) := by
  unfold State.badBandCount
  try dsimp only
  repeat' (with_reducible (first | intro _ | ((conv => arg 1; arg 27); apply H.upd) | assumption | apply modDrive_stable H | apply judge_stable H | dsimp only | split))

theorem moveSealed_stable {P : State → Prop} (H : Stable P) {s : State} (h : P s) (p : Nat) (n : Nat) : P (State.moveSealed s p n) := by
  unfold State.moveSealed
  try dsimp only
  repeat' (with_reducible (first | intro _ | ((conv => arg 1; arg 27); apply H.upd) | assumption | apply modStripe_stable H | apply delta_stable H | apply issueWrites_stable H | refine takeOffset_stable_of H (by assumption) ?_ | dsimp only | split))

theorem relocate_stable {P : State → Prop} (H : Stable P) {s : State} (h : P s) (p : Nat) (n : Nat) : P (State.relocate s p n) := by
  unfold State.relocate
  try dsimp only
  repeat' (with_reducible (first | intro _ | ((conv => arg 1; arg 27); apply H.upd) | assumption | apply modStripe_stable H | apply each_stable H | apply driveOut_stable H | apply ite_stable P | apply each_stable P | refine takeOffset_stable_of H (by assumption) ?_ | dsimp only | split))

theorem repairChunk_stable {P : State → Prop} (H : Stable P) {s : State} (h : P s) (p : Nat) (n : Nat) (q : Nat) : P (State.repairChunk s p n q) := by
  unfold State.repairChunk
  try dsimp only
  repeat' (with_reducible (first | intro _ | ((conv => arg 1; arg 27); apply H.upd) | assumption | apply relocate_stable H | apply driveOut_stable H | apply modStripe_stable H | apply bump_stable H | apply modDrive_stable H | apply raise_stable H | apply delta_stable H | apply ite_stable P | dsimp only | split))

theorem chunkBad_stable {P : State → Prop} (H : Stable P) {s : State} (h : P s) (p : Nat) (n : Nat) (q : Nat) (cause : Nat) : P (State.chunkBad s p n q cause) := by
  unfold State.chunkBad
  try dsimp only
  repeat' (with_reducible (first | intro _ | ((conv => arg 1; arg 27); apply H.upd) | assumption | apply modStripe_stable H | apply checkBroken_stable H | apply repairChunk_stable H | apply ite_stable P | dsimp only | split))

theorem switchPlace_stable {P : State → Prop} (H : Stable P) {s : State} (h : P s) (p : Nat) (n : Nat) : P (State.switchPlace s p n) := by
  unfold State.switchPlace
  try dsimp only
  repeat' (with_reducible (first | intro _ | ((conv => arg 1; arg 27); apply H.upd) | assumption | apply setStripe_stable H | apply delta_stable H | apply bump_stable H | apply modPool_stable H | apply drainIfDead_stable H | apply modStripe_stable H | apply ite_stable P | dsimp only | split))

end Sys2Proof.Machine
end

