-- ==== Sys2Proof/Laws/StableCheckpoint.lean ====
section
/-! SUPPORT. What the record updates and register writes of the model keep, every operation of Machine/Checkpoint.lean keeps (`Stable`). -/

namespace Sys2Proof.Machine

open Sys2Proof

theorem writeCkpt_stable {P : State → Prop} (H : Stable P) {s : State} (h : P s) (p : Nat) : P (State.writeCkpt s p) := by
  unfold State.writeCkpt
  try dsimp only
  repeat' (with_reducible (first | intro _ | ((conv => arg 1; arg 27); apply H.upd) | assumption | apply wake_stable H | apply each_stable H | apply appendLog_stable H | apply ite_stable P | apply each_stable P | dsimp only | split))

theorem writeProt_stable {P : State → Prop} (H : Stable P) {s : State} (h : P s) (p : Nat) (slots : List Nat) : P (State.writeProt s p slots) := by
  unfold State.writeProt
  try dsimp only
  repeat' (with_reducible (first | intro _ | ((conv => arg 1; arg 27); apply H.upd) | assumption | apply each_stable H | apply appendLog_stable H | apply each_stable P | dsimp only | split))

theorem startCkpt_stable {P : State → Prop} (H : Stable P) {s : State} (h : P s) (p : Nat) (reason : Nat) : P (State.startCkpt s p reason) := by
  unfold State.startCkpt
  try dsimp only
  repeat' (with_reducible (first | intro _ | ((conv => arg 1; arg 27); apply H.upd) | assumption | apply modPool_stable H | apply writeCkpt_stable H | apply ite_stable P | dsimp only | split))

theorem bandFreed_stable {P : State → Prop} (H : Stable P) {s : State} (h : P s) (i : Nat) (b : Nat) : P (State.bandFreed s i b) := by
  unfold State.bandFreed
  try dsimp only
  repeat' (with_reducible (first | intro _ | ((conv => arg 1; arg 27); apply H.upd) | assumption | apply drained_stable H | apply modPool_stable H | apply each_stable H | apply delta_stable H | apply modSet_stable H | apply ite_stable P | apply each_stable P | dsimp only | split))

theorem memberReclaimed_stable {P : State → Prop} (H : Stable P) {s : State} (h : P s) (n : Nat) (b : Nat) (bad : Bool) : P (State.memberReclaimed s n b bad) := by
  unfold State.memberReclaimed
  try dsimp only
  repeat' (with_reducible (first | intro _ | ((conv => arg 1; arg 27); apply H.upd) | assumption | apply setBand_stable H | apply badBandCount_stable H | apply bandFreed_stable H | apply ite_stable P | dsimp only | split))

theorem reclaimBand_stable {P : State → Prop} (H : Stable P) {s : State} (h : P s) (i : Nat) (b : Nat) : P (State.reclaimBand s i b) := by
  unfold State.reclaimBand
  try dsimp only
  repeat' (with_reducible (first | intro _ | ((conv => arg 1; arg 27); apply H.upd) | assumption | apply each_stable H | apply drained_stable H | apply memberReclaimed_stable H | apply driveOut_stable H | apply ite_stable P | apply each_stable P | dsimp only | split))

theorem reclaimDrained_stable {P : State → Prop} (H : Stable P) {s : State} (h : P s) (p : Nat) (released : List Nat) : P (State.reclaimDrained s p released) := by
  unfold State.reclaimDrained
  try dsimp only
  repeat' (with_reducible (first | intro _ | ((conv => arg 1; arg 27); apply H.upd) | assumption | apply each_stable H | apply drained_stable H | apply reclaimBand_stable H | apply ite_stable P | apply each_stable P | dsimp only | split))

theorem ckptDone_stable {P : State → Prop} (H : Stable P) {s : State} (h : P s) (p : Nat) (c : Ckpt) : P (State.ckptDone s p c) := by
  unfold State.ckptDone
  try dsimp only
  repeat' (with_reducible (first | intro _ | ((conv => arg 1; arg 27); apply H.upd) | assumption | apply modPool_stable H | apply journal_stable H | apply reclaimDrained_stable H | apply ite_stable P | dsimp only | split))

theorem reclaimDone_stable {P : State → Prop} (H : Stable P) {s : State} (h : P s) (slot : Nat) (band : Nat) (ok : Bool) : P (State.reclaimDone s slot band ok) := by
  unfold State.reclaimDone
  try dsimp only
  repeat' (with_reducible (first | intro _ | ((conv => arg 1; arg 27); apply H.upd) | assumption | apply memberReclaimed_stable H | apply raise_stable H | apply ite_stable P | split))

theorem sendBlock_stable {P : State → Prop} (H : Stable P) {s : State} (h : P s) (p : Nat) : P (State.sendBlock s p) := by
  unfold State.sendBlock
  try dsimp only
  repeat' (with_reducible (first | intro _ | ((conv => arg 1; arg 27); apply H.upd) | assumption | apply modPool_stable H | apply wake_stable H | apply each_stable H | apply appendLog_stable H | apply ite_stable P | apply each_stable P | dsimp only | split))

theorem mediaHook_stable {P : State → Prop} (H : Stable P) {s : State} (h : P s)  : P (State.mediaHook s) := by
  unfold State.mediaHook
  try dsimp only
  repeat' (with_reducible (first | intro _ | ((conv => arg 1; arg 27); apply H.upd) | assumption | apply each_stable H | apply sendBlock_stable H | apply startCkpt_stable H | apply ite_stable P | apply each_stable P | dsimp only | split))

theorem recordStable_stable {P : State → Prop} (H : Stable P) {s : State} (h : P s) (p : Nat) (r : JRec) : P (State.recordStable s p r) := by
  unfold State.recordStable
  try dsimp only
  repeat' (with_reducible (first | intro _ | ((conv => arg 1; arg 27); apply H.upd) | assumption | apply modSet_stable H | apply each_stable H | apply issueWrites_stable H | apply modPool_stable H | apply admitHeld_stable H | apply ite_stable P | apply each_stable P | dsimp only | split))

theorem blockWritten_stable {P : State → Prop} (H : Stable P) {s : State} (h : P s) (p : Nat) (n : Nat) : P (State.blockWritten s p n) := by
  unfold State.blockWritten
  try dsimp only
  repeat' (with_reducible (first | intro _ | ((conv => arg 1; arg 27); apply H.upd) | assumption | apply modPool_stable H | apply each_stable H | apply recordStable_stable H | apply sendBlock_stable H | apply ite_stable P | apply each_stable P | dsimp only | split))

theorem fillTimer_stable {P : State → Prop} (H : Stable P) {s : State} (h : P s) (set : Nat) : P (State.fillTimer s set) := by
  unfold State.fillTimer
  try dsimp only
  repeat' (with_reducible (first | intro _ | ((conv => arg 1; arg 27); apply H.upd) | assumption | apply modSet_stable H | apply journal_stable H | apply ite_stable P | dsimp only | split))

theorem reclaimRetry_stable {P : State → Prop} (H : Stable P) {s : State} (h : P s) (slot : Nat) (band : Nat) : P (State.reclaimRetry s slot band) := by
  unfold State.reclaimRetry
  try dsimp only
  repeat' (with_reducible (first | intro _ | ((conv => arg 1; arg 27); apply H.upd) | assumption | apply driveOut_stable H | apply ite_stable P | split))

end Sys2Proof.Machine
end

