-- ==== Sys2Proof/Laws/StableReads.lean ====
section
/-! SUPPORT. What the record updates and register writes of the model keep, every operation of Machine/Reads.lean keeps (`Stable`). -/

namespace Sys2Proof.Machine

open Sys2Proof

theorem scatter_stable {P : State → Prop} (H : Stable P) {s : State} (h : P s) (x : Nat) (bufs : List (Nat × Nat)) (bs : List Byte) : P (State.scatter s x bufs bs) := by
  unfold State.scatter
  try dsimp only
  repeat' (with_reducible (first | intro _ | assumption | apply emit_stable H | apply hostWrite_stable H | apply ite_stable P | apply foldl_stable P | apply foldl_fst_stable P | apply foldl_snd_stable P | dsimp only | split))

theorem returnRead_stable {P : State → Prop} (H : Stable P) {s : State} (h : P s) (id : Nat) (status : Nat) : P (State.returnRead s id status) := by
  unfold State.returnRead
  try dsimp only
  repeat' (with_reducible (first | intro _ | ((conv => arg 1; arg 27); apply H.upd) | assumption | apply scatter_stable H | apply complete_stable H | apply ite_stable P | dsimp only | split))

theorem mismatchRead_stable {P : State → Prop} (H : Stable P) {s : State} (h : P s) (id : Nat) : P (State.mismatchRead s id) := by
  unfold State.mismatchRead
  try dsimp only
  repeat' (with_reducible (first | intro _ | ((conv => arg 1; arg 27); apply H.upd) | assumption | apply returnRead_stable H | apply addLoss_stable H | dsimp only | split))

theorem setRead_stable {P : State → Prop} (H : Stable P) {s : State} (h : P s) (id : Nat) (r : ReadCmd) : P (State.setRead s id r) := by
  unfold State.setRead
  try dsimp only
  repeat' (with_reducible (first | intro _ | assumption | apply setBody_stable H))

theorem submitRecover_stable {P : State → Prop} (H : Stable P) {s : State} (h : P s) (id : Nat) (r : ReadCmd) : P (State.submitRecover s id r) := by
  unfold State.submitRecover
  try dsimp only
  repeat' (with_reducible (first | intro _ | assumption | apply ceSubmit_stable H | dsimp only))

/-- The state a READ's next event leaves. -/
def ReadNext.after : ReadNext → State
  | .rest s => s
  | .plan s => s

theorem after_ite_stable {P : State → Prop} (_H : Stable P) {c : Prop} [Decidable c] {a b : ReadNext} (ha : P a.after) (hb : P b.after) :
    P (if c then a else b).after := by split <;> assumption

theorem after_rest_stable {P : State → Prop} (_H : Stable P) {s : State} (h : P s) : P (ReadNext.rest s).after := h

theorem after_plan_stable {P : State → Prop} (_H : Stable P) {s : State} (h : P s) : P (ReadNext.plan s).after := h

theorem entryOf_stable {P : State → Prop} (H : Stable P) {s : State} (h : P s) (id : Nat) (r : ReadCmd) (t : Stripe) :
    P (s.entryOf id r t).after := by
  unfold State.entryOf
  dsimp only
  repeat' (with_reducible (first | assumption | apply after_rest_stable H | apply after_plan_stable H | apply after_ite_stable H | apply complete_stable H | apply setRead_stable H | split))

theorem entryOf_stable_of {P : State → Prop} (H : Stable P) {s t : State} {id : Nat} {r : ReadCmd} {x : Stripe} (e : s.entryOf id r x = .rest t)
    (h : P s) : P t := by
  have := entryOf_stable H h id r x
  rwa [e] at this

theorem entryOf_stable_plan {P : State → Prop} (H : Stable P) {s t : State} {id : Nat} {r : ReadCmd} {x : Stripe} (e : s.entryOf id r x = .plan t)
    (h : P s) : P t := by
  have := entryOf_stable H h id r x
  rwa [e] at this

theorem readTogether_stable {P : State → Prop} (H : Stable P) {s : State} (h : P s) (id : Nat) : P (s.readTogether id).after := by
  unfold State.readTogether
  dsimp only
  repeat' (with_reducible (first | assumption | apply after_rest_stable H | apply after_plan_stable H | apply after_ite_stable H | apply complete_stable H | apply setRead_stable H | apply entryOf_stable H | apply touchDir_stable H | apply modStripe_stable H | apply chunkBad_stable H | apply bump_stable H | apply returnRead_stable H | apply mismatchRead_stable H | apply hashSubmit_stable H | apply ite_stable P | split))

theorem issueRead_stable {P : State → Prop} (H : Stable P) {s : State} (h : P s) (id : Nat) : P (State.issueRead s id) := by
  unfold State.issueRead
  try dsimp only
  repeat' (with_reducible (first | intro _ | ((conv => arg 1; arg 27); apply H.upd) | assumption | apply complete_stable H | apply mismatchRead_stable H | apply wake_stable H | apply setRead_stable H | apply bump_stable H | apply each_stable H | apply driveOut_stable H | apply ite_stable P | apply each_stable P | dsimp only | split))

theorem ReadNext_follow_stable {P : State → Prop} (H : Stable P) {n : ReadNext} (h : P n.after) (id : Nat) : P (n.follow id) := by
  cases n
  · exact h
  · exact issueRead_stable H h _

theorem readReady_stable {P : State → Prop} (H : Stable P) {s : State} (h : P s) (id : Nat) : P (State.readReady s id) := by
  unfold State.readReady
  try dsimp only
  repeat' (with_reducible (first | intro _ | ((conv => arg 1; arg 27); apply H.upd) | assumption | apply readTogether_stable H | apply ReadNext_follow_stable H | apply issueRead_stable H | apply submitRecover_stable H | apply ite_stable P | dsimp only | split))

theorem windowRead_stable {P : State → Prop} (H : Stable P) {s : State} (h : P s) (id : Nat) (r : ReadCmd) (t : Stripe) : P (State.windowRead s id r t) := by
  unfold State.windowRead
  try dsimp only
  repeat' (with_reducible (first | intro _ | ((conv => arg 1; arg 27); apply H.upd) | assumption | apply setRead_stable H | apply entryOf_stable H | apply hashSubmit_stable H | apply complete_stable H | apply ite_stable P | refine entryOf_stable_of H (by assumption) ?_ | refine entryOf_stable_plan H (by assumption) ?_ | dsimp only | split))

theorem startRead_stable {P : State → Prop} (H : Stable P) {s : State} (h : P s) (id : Nat) (r : ReadCmd) : P (State.startRead s id r) := by
  unfold State.startRead
  try dsimp only
  repeat' (with_reducible (first | intro _ | ((conv => arg 1; arg 27); apply H.upd) | assumption | apply complete_stable H | apply windowRead_stable H | apply touchDir_stable H | apply entryOf_stable H | apply ReadNext_follow_stable H | apply setRead_stable H | apply issueRead_stable H | apply draw_stable H | apply ite_stable P | refine entryOf_stable_of H (by assumption) ?_ | refine entryOf_stable_plan H (by assumption) ?_ | dsimp only | split))

theorem settleReads_stable {P : State → Prop} (H : Stable P) {s : State} (h : P s)  : P (State.settleReads s) := by
  unfold State.settleReads
  try dsimp only
  repeat' (with_reducible (first | intro _ | ((conv => arg 1; arg 27); apply H.upd) | assumption | apply each_stable H | apply startRead_stable H | apply ite_stable P | apply each_stable P | dsimp only | split))

theorem chunkReadDone_stable {P : State → Prop} (H : Stable P) {s : State} (h : P s) (id : Nat) (q : Nat) (o : ChunkOutcome) : P (State.chunkReadDone s id q o) := by
  unfold State.chunkReadDone
  try dsimp only
  repeat' (with_reducible (first | intro _ | ((conv => arg 1; arg 27); apply H.upd) | assumption | apply setRead_stable H | apply readReady_stable H | apply readError_stable H | apply chunkBad_stable H | apply issueRead_stable H | apply ite_stable P | dsimp only | split))

theorem readHashed_stable {P : State → Prop} (H : Stable P) {s : State} (h : P s) (id : Nat) (digest : BitVec 256) : P (State.readHashed s id digest) := by
  unfold State.readHashed
  try dsimp only
  repeat' (with_reducible (first | intro _ | ((conv => arg 1; arg 27); apply H.upd) | assumption | apply returnRead_stable H | apply bump_stable H | apply setRead_stable H | apply issueRead_stable H | apply complete_stable H | apply mismatchRead_stable H | apply ite_stable P | dsimp only | split))

theorem readsAwake_stable {P : State → Prop} (H : Stable P) {s : State} (h : P s) (slot : Nat) : P (State.readsAwake s slot) := by
  unfold State.readsAwake
  try dsimp only
  repeat' (with_reducible (first | intro _ | ((conv => arg 1; arg 27); apply H.upd) | assumption | apply each_stable H | apply setRead_stable H | apply driveOut_stable H | apply ite_stable P | apply each_stable P | dsimp only | split))

theorem wakeTimeout_stable {P : State → Prop} (H : Stable P) {s : State} (h : P s) (id : Nat) : P (State.wakeTimeout s id) := by
  unfold State.wakeTimeout
  try dsimp only
  repeat' (with_reducible (first | intro _ | ((conv => arg 1; arg 27); apply H.upd) | assumption | apply complete_stable H | apply ite_stable P | split))

theorem deferExpiry_stable {P : State → Prop} (H : Stable P) {s : State} (h : P s) (id : Nat) : P (State.deferExpiry s id) := by
  unfold State.deferExpiry
  try dsimp only
  repeat' (with_reducible (first | intro _ | ((conv => arg 1; arg 27); apply H.upd) | assumption | apply setRead_stable H | apply wake_stable H | apply ite_stable P | split))

end Sys2Proof.Machine
end

