-- ==== Sys2Proof/Laws/StableChecks.lean ====
section
/-! SUPPORT. What the record updates and register writes of the model keep, every operation of Machine/Checks.lean keeps (`Stable`). -/

namespace Sys2Proof.Machine

open Sys2Proof

theorem renewSession_stable {P : State → Prop} (H : Stable P) {s : State} (h : P s)  : P (State.renewSession s) := by
  unfold State.renewSession
  try dsimp only
  repeat' (with_reducible (first | intro _ | ((conv => arg 1; arg 27); first | apply H.upd | apply H.updSec) | assumption | dsimp only))

theorem checked_stable {P : State → Prop} (H : Stable P) {s : State} (h : P s) (id : Nat) (ck : Check) (act : State → State) (hact : ∀ t, P t → P (act t)) : P (State.checked s id ck act) := by
  unfold State.checked
  try dsimp only
  repeat' (with_reducible (first | intro _ | ((conv => arg 1; arg 27); apply H.upd) | assumption | apply hact | apply complete_stable H | dsimp only | split))

theorem toHost_stable {P : State → Prop} (H : Stable P) {s : State} (h : P s) (id : Nat) (addr : Nat) (bs : List Byte) : P (State.toHost s id addr bs) := by
  unfold State.toHost
  try dsimp only
  repeat' (with_reducible (first | intro _ | ((conv => arg 1; arg 27); apply H.upd) | assumption | apply emit_stable H | apply hostWrite_stable H | apply ite_stable P | split))

end Sys2Proof.Machine
end

