-- ==== Sys2Proof/Laws/StableReleases.lean ====
section
/-! SUPPORT. What the record updates and register writes of the model keep, every operation of Machine/Releases.lean keeps (`Stable`). -/

namespace Sys2Proof.Machine

open Sys2Proof

theorem noteLedgerFull_stable {P : State → Prop} (H : Stable P) {s : State} (h : P s)  : P (State.noteLedgerFull s) := by
  unfold State.noteLedgerFull
  try dsimp only
  repeat' (with_reducible (first | intro _ | ((conv => arg 1; arg 27); apply H.upd) | assumption | apply raise_stable H | apply ite_stable P | split))

theorem notePendingHigh_stable {P : State → Prop} (H : Stable P) {s : State} (h : P s)  : P (State.notePendingHigh s) := by
  unfold State.notePendingHigh
  try dsimp only
  repeat' (with_reducible (first | intro _ | ((conv => arg 1; arg 27); apply H.upd) | assumption | apply raise_stable H | apply wake_stable H | apply ite_stable P | dsimp only | split))

theorem releaseEntry_stable {P : State → Prop} (H : Stable P) {s : State} (h : P s) (p : Nat) (n : Nat) (slot : Nat) : P (State.releaseEntry s p n slot) := by
  unfold State.releaseEntry
  try dsimp only
  repeat' (with_reducible (first | intro _ | ((conv => arg 1; arg 27); apply H.upd) | assumption | apply modEntry_stable H | apply sendM_stable H | apply releaseStripe_stable H | apply ite_stable P | dsimp only | split))

theorem releaseItem_stable {P : State → Prop} (H : Stable P) {s : State} (h : P s) (l : Locator) (tag : BitVec 256) : P (State.releaseItem s l tag).2 := by
  unfold State.releaseItem
  try dsimp only
  repeat' (with_reducible (first | intro _ | ((conv => arg 1; arg 27); apply H.upd) | assumption | apply sendM_stable H | apply notePendingHigh_stable H | apply noteLedgerFull_stable H | apply releaseEntry_stable H | apply ite_stable P | dsimp only | split))

theorem resolveRecord_stable {P : State → Prop} (H : Stable P) {s : State} (h : P s) (r : PendRel) : P (State.resolveRecord s r).2 := by
  unfold State.resolveRecord
  try dsimp only
  repeat' (with_reducible (first | intro _ | ((conv => arg 1; arg 27); apply H.upd) | assumption | apply bump_stable H | apply raise_stable H | apply noteLedgerFull_stable H | apply releaseEntry_stable H | apply ite_stable P | dsimp only | split))

theorem resolvePending_stable {P : State → Prop} (H : Stable P) {s : State} (h : P s) (p : Nat) (n : Nat) : P (State.resolvePending s p n) := by
  unfold State.resolvePending
  try dsimp only
  repeat' (with_reducible (first | intro _ | assumption | apply each_stable H | apply resolveRecord_stable H | apply notePendingHigh_stable H | apply ite_stable P | apply each_stable P | dsimp only | split))

theorem runRelease_stable {P : State → Prop} (H : Stable P) {s : State} (h : P s) (id : Nat) (c : HostCmd) : P (State.runRelease s id c) := by
  unfold State.runRelease
  try dsimp only
  repeat' (with_reducible (first | intro _ | ((conv => arg 1; arg 27); apply H.upd) | assumption | apply checked_stable H | apply releaseItem_stable H | apply complete_stable H | apply ite_stable P | apply foldl_stable P | apply foldl_fst_stable P | apply foldl_snd_stable P | dsimp only | split))

end Sys2Proof.Machine
end

