-- ==== Sys2Proof/Laws/StableDataCommands.lean ====
section
/-! SUPPORT. What the record updates and register writes of the model keep, every operation of Machine/DataCommands.lean keeps (`Stable`). -/

namespace Sys2Proof.Machine

open Sys2Proof

theorem runAppend_stable {P : State → Prop} (H : Stable P) {s : State} (h : P s) (id : Nat) (c : HostCmd) : P (State.runAppend s id c) := by
  unfold State.runAppend
  try dsimp only
  repeat' (with_reducible (first | intro _ | assumption | apply checked_stable H | apply setBody_stable H | apply admitHeld_stable H | dsimp only))

theorem runRead_stable {P : State → Prop} (H : Stable P) {s : State} (h : P s) (id : Nat) (c : HostCmd) : P (State.runRead s id c) := by
  unfold State.runRead
  try dsimp only
  repeat' (with_reducible (first | intro _ | assumption | apply checked_stable H | apply startRead_stable H | apply ite_stable P | dsimp only | split))

theorem runQuery_stable {P : State → Prop} (H : Stable P) {s : State} (h : P s) (id : Nat) (c : HostCmd) : P (State.runQuery s id c) := by
  unfold State.runQuery
  try dsimp only
  repeat' (with_reducible (first | intro _ | assumption | apply checked_stable H | apply complete_stable H | apply ite_stable P | dsimp only | split))

theorem runSeal_stable {P : State → Prop} (H : Stable P) {s : State} (h : P s) (id : Nat) (c : HostCmd) : P (State.runSeal s id c) := by
  unfold State.runSeal
  try dsimp only
  repeat' (with_reducible (first | intro _ | assumption | apply checked_stable H | apply each_stable H | apply sealPool_stable H | apply setBody_stable H | apply complete_stable H | apply ite_stable P | apply each_stable P | dsimp only | split))

theorem runFlush_stable {P : State → Prop} (H : Stable P) {s : State} (h : P s) (id : Nat) (c : HostCmd) : P (State.runFlush s id c) := by
  unfold State.runFlush
  try dsimp only
  repeat' (with_reducible (first | intro _ | ((conv => arg 1; arg 27); apply H.upd) | assumption | apply checked_stable H | apply each_stable H | apply sealPool_stable H | apply setBody_stable H | apply flushHook_stable H | apply each_stable P | dsimp only | split))

theorem copyOne_stable {P : State → Prop} (H : Stable P) {s : State} (h : P s) (id : Nat) (idx : Nat) (pool : Nat) (durable : Bool) (tag : BitVec 256) (bytes : List Byte) : P (State.copyOne s id idx pool durable tag bytes) := by
  unfold State.copyOne
  try dsimp only
  repeat' (with_reducible (first | intro _ | ((conv => arg 1; arg 27); apply H.upd) | assumption | apply copyItem_stable H | apply setCmd_stable H | apply ite_stable P | dsimp only | split))

theorem runCopy_stable {P : State → Prop} (H : Stable P) {s : State} (h : P s) (id : Nat) (c : HostCmd) (reads : List SourceRead) : P (State.runCopy s id c reads) := by
  unfold State.runCopy
  try dsimp only
  repeat' (with_reducible (first | intro _ | ((conv => arg 1; arg 27); apply H.upd) | assumption | apply checked_stable H | apply setBody_stable H | apply each_stable H | apply copyItem_stable H | apply copyOne_stable H | apply draw_stable H | apply admitHeld_stable H | apply ite_stable P | apply each_stable P | dsimp only | split))

end Sys2Proof.Machine
end

