-- ==== Sys2Proof/Laws/StableMemory.lean ====
section
/-! SUPPORT. What the record updates and register writes of the model keep, every operation of Machine/Memory.lean keeps (`Stable`). -/

namespace Sys2Proof.Machine

open Sys2Proof

theorem dramReadDone_stable {P : State → Prop} (H : Stable P) {s : State} (h : P s) (ch : Nat) (l : Nat) (e : EccResult) : P (dramReadDone s ch l e) := by
  unfold dramReadDone
  try dsimp only
  repeat' (with_reducible (first | intro _ | ((conv => arg 1; arg 27); apply H.upd) | assumption | apply bump_stable H | apply setReg64_stable H | apply raise_stable H | apply ite_stable P | dsimp only | split))

theorem showThrottle_stable {P : State → Prop} (H : Stable P) {s : State} (h : P s) (port : Nat) : P (State.showThrottle s port) := by
  unfold State.showThrottle
  try dsimp only
  repeat' (with_reducible (first | intro _ | assumption | apply setFld_stable H))

theorem queueRetrain_stable {P : State → Prop} (H : Stable P) {s : State} (h : P s) (ch : Nat) : P (State.queueRetrain s ch) := by
  unfold State.queueRetrain
  try dsimp only
  repeat' (with_reducible (first | intro _ | ((conv => arg 1; arg 27); apply H.upd) | assumption | apply setFld_stable H | apply retrain_stable H | apply ite_stable P | dsimp only | split))

theorem startRetrain_stable {P : State → Prop} (H : Stable P) {s : State} (h : P s)  : P (State.startRetrain s) := by
  unfold State.startRetrain
  try dsimp only
  repeat' (with_reducible (first | intro _ | ((conv => arg 1; arg 27); apply H.upd) | assumption | apply retrain_stable H | apply setFld_stable H | split))

theorem dramTempPolled_stable {P : State → Prop} (H : Stable P) {s : State} (h : P s) (ch : Nat) (temp : Int) : P (dramTempPolled s ch temp) := by
  unfold dramTempPolled
  try dsimp only
  repeat' (with_reducible (first | intro _ | ((conv => arg 1; arg 27); apply H.upd) | assumption | apply setFld_stable H | apply raise_stable H | apply queueRetrain_stable H | apply startRetrain_stable H | apply ite_stable P | dsimp only | split))

theorem mcRetrainWrite_stable {P : State → Prop} (H : Stable P) {s : State} (h : P s) (v : Word) : P (mcRetrainWrite v s) := by
  unfold mcRetrainWrite
  try dsimp only
  repeat' (with_reducible (first | intro _ | assumption | apply setFld_stable H | apply queueRetrain_stable H | apply startRetrain_stable H | apply ite_stable P | dsimp only | split))

theorem retrainStepped_stable {P : State → Prop} (H : Stable P) {s : State} (h : P s) (ch : Nat) (pass : Bool) : P (retrainStepped s ch pass) := by
  unfold retrainStepped
  try dsimp only
  repeat' (with_reducible (first | intro _ | ((conv => arg 1; arg 27); apply H.upd) | assumption | apply setFld_stable H | apply retrain_stable H | apply startRetrain_stable H | apply ite_stable P | dsimp only | split))

theorem mcDiagWrite_stable {P : State → Prop} (H : Stable P) {s : State} (h : P s) (ch : Nat) (v : Word) : P (mcDiagWrite ch v s) := by
  unfold mcDiagWrite
  try dsimp only
  repeat' (with_reducible (first | intro _ | assumption | apply setFld_stable H | apply setReg_stable H | apply ite_stable P | dsimp only | split))

end Sys2Proof.Machine
end

