-- ==== Sys2Proof/Laws/StableMetaCache.lean ====
section
/-! SUPPORT. What the record updates and register writes of the model keep, every operation of Machine/MetaCache.lean keeps (`Stable`). -/

namespace Sys2Proof.Machine

open Sys2Proof

theorem mdcDisplace_stable {P : State → Prop} (H : Stable P) {s : State} (h : P s) (l : CacheLine) : P (State.mdcDisplace s l) := by
  unfold State.mdcDisplace
  try dsimp only
  repeat' (with_reducible (first | intro _ | ((conv => arg 1; arg 27); apply H.upd) | assumption | apply ite_stable P | dsimp only | split))

theorem mdcInstall_stable {P : State → Prop} (H : Stable P) {s : State} (h : P s) (l : CacheLine) : P (State.mdcInstall s l) := by
  unfold State.mdcInstall
  try dsimp only
  repeat' (with_reducible (first | intro _ | ((conv => arg 1; arg 27); apply H.upd) | assumption | apply mdcDisplace_stable H | apply ite_stable P | dsimp only | split))

theorem mdcShowFills_stable {P : State → Prop} (H : Stable P) {s : State} (h : P s)  : P (State.mdcShowFills s) := by
  unfold State.mdcShowFills
  try dsimp only
  repeat' (with_reducible (first | intro _ | assumption | apply setFld_stable H))

theorem mdcShowWays_stable {P : State → Prop} (H : Stable P) {s : State} (h : P s)  : P (State.mdcShowWays s) := by
  unfold State.mdcShowWays
  try dsimp only
  repeat' (with_reducible (first | intro _ | assumption | apply setFld_stable H | apply raise_stable H | apply ite_stable P | dsimp only | split))

theorem mdcDropWay_stable {P : State → Prop} (H : Stable P) {s : State} (h : P s) (w : Nat) : P (State.mdcDropWay s w) := by
  unfold State.mdcDropWay
  try dsimp only
  repeat' (with_reducible (first | intro _ | ((conv => arg 1; arg 27); apply H.upd) | assumption | dsimp only))

theorem mdcWayError_stable {P : State → Prop} (H : Stable P) {s : State} (h : P s) (w : Nat) : P (State.mdcWayError s w) := by
  unfold State.mdcWayError
  try dsimp only
  repeat' (with_reducible (first | intro _ | ((conv => arg 1; arg 27); apply H.upd) | assumption | apply setFld_stable H | apply mdcDropWay_stable H | apply raise_stable H | apply mdcShowWays_stable H | apply ite_stable P | dsimp only | split))

theorem mdcError_stable {P : State → Prop} (H : Stable P) {s : State} (h : P s) (a : Nat) (e : CacheError) : P (State.mdcError s a e) := by
  unfold State.mdcError
  try dsimp only
  repeat' (with_reducible (first | intro _ | ((conv => arg 1; arg 27); apply H.upd) | assumption | apply bump_stable H | apply mdcWayError_stable H | apply ite_stable P | dsimp only | split))

theorem mdcPrefetchOne_stable {P : State → Prop} (H : Stable P) {s : State} (h : P s) (line : Int) (cls : Nat) : P (State.mdcPrefetchOne s line cls) := by
  unfold State.mdcPrefetchOne
  try dsimp only
  repeat' (with_reducible (first | intro _ | ((conv => arg 1; arg 27); apply H.upd) | assumption | apply bump_stable H | apply ite_stable P | dsimp only | split))

theorem mdcPrefetch_stable {P : State → Prop} (H : Stable P) {s : State} (h : P s) (t : Stream) : P (State.mdcPrefetch s t) := by
  unfold State.mdcPrefetch
  try dsimp only
  repeat' (with_reducible (first | intro _ | assumption | apply each_stable H | apply mdcPrefetchOne_stable H | apply ite_stable P | apply each_stable P | dsimp only | split))

theorem mdcTrain_stable {P : State → Prop} (H : Stable P) {s : State} (h : P s) (a : CacheAccess) : P (State.mdcTrain s a) := by
  unfold State.mdcTrain
  try dsimp only
  repeat' (with_reducible (first | intro _ | ((conv => arg 1; arg 27); apply H.upd) | assumption | apply mdcPrefetch_stable H | apply ite_stable P | dsimp only | split))

theorem mdcBlock_stable {P : State → Prop} (H : Stable P) {s : State} (h : P s) (line : Nat) (block : Nat) : P (State.mdcBlock s line block) := by
  unfold State.mdcBlock
  try dsimp only
  repeat' (with_reducible (first | intro _ | ((conv => arg 1; arg 27); apply H.upd) | assumption | apply mdcShowFills_stable H | apply mdcInstall_stable H | apply ite_stable P | dsimp only | split))

theorem mdcHit_stable {P : State → Prop} (H : Stable P) {s : State} (h : P s) (line : Nat) (w : Nat) : P (State.mdcHit s line w) := by
  unfold State.mdcHit
  try dsimp only
  repeat' (with_reducible (first | intro _ | ((conv => arg 1; arg 27); apply H.upd) | assumption | apply bump_stable H | apply ite_stable P | dsimp only | split))

theorem mdcAccess_stable {P : State → Prop} (H : Stable P) {s : State} (h : P s) (a : CacheAccess) (block : Nat) (e : CacheError) : P (mdcAccess s a block e) := by
  unfold mdcAccess
  try dsimp only
  repeat' (with_reducible (first | intro _ | ((conv => arg 1; arg 27); apply H.upd) | assumption | apply mdcError_stable H | apply mdcBlock_stable H | apply mdcHit_stable H | apply bump_stable H | apply mdcInstall_stable H | apply mdcTrain_stable H | apply ite_stable P | dsimp only | split))

theorem mdcInvalidate_stable {P : State → Prop} (H : Stable P) {s : State} (h : P s) (m : Maint) : P (State.mdcInvalidate s m) := by
  unfold State.mdcInvalidate
  try dsimp only
  repeat' (with_reducible (first | intro _ | ((conv => arg 1; arg 27); apply H.upd) | assumption | apply ite_stable P | dsimp only | split))

theorem mdcMaintWrite_stable {P : State → Prop} (H : Stable P) {s : State} (h : P s) (v : Word) : P (mdcMaintWrite v s) := by
  unfold mdcMaintWrite
  try dsimp only
  repeat' (with_reducible (first | intro _ | ((conv => arg 1; arg 27); apply H.upd) | assumption | apply setFld_stable H | apply mdcInvalidate_stable H | apply ite_stable P | dsimp only | split))

theorem mdcMaintRow_stable {P : State → Prop} (H : Stable P) {s : State} (h : P s) (op : Nat) (port : Nat) (v : Word) : P (mdcMaintRow op port v s) := by
  unfold mdcMaintRow
  try dsimp only
  repeat' (with_reducible (first | intro _ | assumption | apply hostWrite_stable H | apply mdcMaintWrite_stable H | apply ite_stable P | split))

theorem mdcCtlWrite_stable {P : State → Prop} (H : Stable P) {s : State} (h : P s) (v : Word) : P (mdcCtlWrite v s) := by
  unfold mdcCtlWrite
  try dsimp only
  repeat' (with_reducible (first | intro _ | ((conv => arg 1; arg 27); apply H.upd) | assumption | apply writeByType_stable H | apply setFld_stable H | apply raise_stable H | apply ite_stable P | dsimp only | split))

theorem mdcWayWrite_stable {P : State → Prop} (H : Stable P) {s : State} (h : P s) (a : Nat) (v : Word) : P (mdcWayWrite a v s) := by
  unfold mdcWayWrite
  try dsimp only
  repeat' (with_reducible (first | intro _ | assumption | apply writeByType_stable H | apply each_stable H | apply mdcDropWay_stable H | apply mdcShowWays_stable H | apply each_stable P | dsimp only))

theorem mdcLose_stable {P : State → Prop} (H : Stable P) {s : State} (h : P s)  : P (State.mdcLose s) := by
  unfold State.mdcLose
  try dsimp only
  repeat' (with_reducible (first | intro _ | ((conv => arg 1; arg 27); apply H.upd) | assumption | apply mdcShowFills_stable H))

end Sys2Proof.Machine
end

