-- ==== Sys2Proof/Laws/StableMover.lean ====
section
/-! SUPPORT. What the record updates and register writes of the model keep, every operation of Machine/Mover.lean keeps (`Stable`). -/

namespace Sys2Proof.Machine

open Sys2Proof

theorem setXmChan_stable {P : State → Prop} (H : Stable P) {s : State} (h : P s) (n : Nat) (c : XmChan) : P (State.setXmChan s n c) := by
  unfold State.setXmChan
  try dsimp only
  repeat' (with_reducible (first | intro _ | ((conv => arg 1; arg 27); apply H.upd) | assumption))

theorem setXmState_stable {P : State → Prop} (H : Stable P) {s : State} (h : P s) (n : Nat) (v : Nat) : P (State.setXmState s n v) := by
  unfold State.setXmState
  try dsimp only
  repeat' (with_reducible (first | intro _ | assumption | apply setFld_stable H))

theorem setXmSrc_stable {P : State → Prop} (H : Stable P) {s : State} (h : P s) (n : Nat) (v : Nat) : P (State.setXmSrc s n v) := by
  unfold State.setXmSrc
  try dsimp only
  repeat' (with_reducible (first | intro _ | assumption | apply setReg64_stable H))

theorem setXmDst_stable {P : State → Prop} (H : Stable P) {s : State} (h : P s) (n : Nat) (v : Nat) : P (State.setXmDst s n v) := by
  unfold State.setXmDst
  try dsimp only
  repeat' (with_reducible (first | intro _ | assumption | apply setReg64_stable H))

theorem setXmPc_stable {P : State → Prop} (H : Stable P) {s : State} (h : P s) (n : Nat) (v : Nat) : P (State.setXmPc s n v) := by
  unfold State.setXmPc
  try dsimp only
  repeat' (with_reducible (first | intro _ | assumption | apply setReg64_stable H))

theorem setXmLoop_stable {P : State → Prop} (H : Stable P) {s : State} (h : P s) (n : Nat) (k : Nat) (v : Nat) : P (State.setXmLoop s n k v) := by
  unfold State.setXmLoop
  try dsimp only
  repeat' (with_reducible (first | intro _ | assumption | apply setReg_stable H))

theorem xmFail_stable {P : State → Prop} (H : Stable P) {s : State} (h : P s) (n : Nat) (err : Nat) : P (State.xmFail s n err) := by
  unfold State.xmFail
  try dsimp only
  repeat' (with_reducible (first | intro _ | assumption | apply setXmState_stable H | apply setFld_stable H))

theorem setXmFlag_stable {P : State → Prop} (H : Stable P) {s : State} (h : P s) (f : Nat) (b : Bool) : P (State.setXmFlag s f b) := by
  unfold State.setXmFlag
  try dsimp only
  repeat' (with_reducible (first | intro _ | assumption | apply setFld_stable H | apply ite_stable P | dsimp only | split))

theorem xmWake_stable {P : State → Prop} (H : Stable P) {s : State} (h : P s) (n : Nat) : P (State.xmWake s n) := by
  unfold State.xmWake
  try dsimp only
  repeat' (with_reducible (first | intro _ | ((conv => arg 1; arg 27); apply H.upd) | assumption | apply setXmChan_stable H | apply setXmState_stable H))

theorem xmSignal_stable {P : State → Prop} (H : Stable P) {s : State} (h : P s) (f : Nat) : P (State.xmSignal s f) := by
  unfold State.xmSignal
  try dsimp only
  repeat' (with_reducible (first | intro _ | ((conv => arg 1; arg 27); apply H.upd) | assumption | apply xmWake_stable H | apply setXmFlag_stable H | split))

theorem xmShow_stable {P : State → Prop} (H : Stable P) {s : State} (h : P s) (n : Nat) (m : Move) : P (State.xmShow s n m) := by
  unfold State.xmShow
  try dsimp only
  repeat' (with_reducible (first | intro _ | assumption | apply setXmSrc_stable H | apply setXmDst_stable H | apply setReg_stable H | apply ite_stable P | dsimp only | split))

theorem xmTake_stable {P : State → Prop} (H : Stable P) {s : State} (h : P s) (n : Nat) : P (State.xmTake s n) := by
  unfold State.xmTake
  try dsimp only
  repeat' (with_reducible (first | intro _ | ((conv => arg 1; arg 27); apply H.upd) | assumption | apply setXmChan_stable H | apply ite_stable P | dsimp only | split))

theorem xmExecute_stable {P : State → Prop} (H : Stable P) {s : State} (h : P s) (n : Nat) (bs : List Byte) : P (State.xmExecute s n bs) := by
  unfold State.xmExecute
  try dsimp only
  repeat' (with_reducible (first | intro _ | ((conv => arg 1; arg 27); apply H.upd) | assumption | apply xmFail_stable H | apply setXmPc_stable H | apply setXmChan_stable H | apply xmShow_stable H | apply xmTake_stable H | apply setXmLoop_stable H | apply setFld_stable H | apply setXmState_stable H | apply setXmFlag_stable H | apply xmSignal_stable H | apply setXmSrc_stable H | apply setXmDst_stable H | apply ite_stable P | dsimp only | split))

theorem xmPlace_stable {P : State → Prop} (HM : StableMem P) {s : State} (h : P s) (n : Nat) (placed : Option (List Byte)) : P (State.xmPlace s n placed) := by
  have H := HM.toStable
  unfold State.xmPlace
  try dsimp only
  repeat' (with_reducible (first | intro _ | ((conv => arg 1; arg 27); first | apply H.upd | apply HM.dram | apply HM.sram) | assumption | apply ite_stable P | split))

theorem xmStartFw_stable {P : State → Prop} (H : Stable P) {s : State} (h : P s) (n : Nat) (program : List (List Byte)) : P (State.xmStartFw s n program) := by
  unfold State.xmStartFw
  try dsimp only
  repeat' (with_reducible (first | intro _ | assumption | apply draw_stable H | apply setXmChan_stable H | apply setXmLoop_stable H | apply setFld_stable H | apply setReg_stable H | apply setXmPc_stable H | apply setXmState_stable H | apply foldl_stable P | apply foldl_fst_stable P | apply foldl_snd_stable P | dsimp only))

theorem xmStopFw_stable {P : State → Prop} (H : Stable P) {s : State} (h : P s) (n : Nat) : P (State.xmStopFw s n) := by
  unfold State.xmStopFw
  try dsimp only
  repeat' (with_reducible (first | intro _ | assumption | apply setXmState_stable H | apply ite_stable P | split))

theorem xmSettle_stable {P : State → Prop} (H : Stable P) {s : State} (h : P s) (n : Nat) : P (State.xmSettle s n) := by
  unfold State.xmSettle
  try dsimp only
  repeat' (with_reducible (first | intro _ | assumption | apply setXmState_stable H | apply ite_stable P | split))

theorem xmCtlWrite_stable {P : State → Prop} (H : Stable P) {s : State} (h : P s) (n : Nat) (v : Word) : P (xmCtlWrite n v s) := by
  unfold xmCtlWrite
  try dsimp only
  repeat' (with_reducible (first | intro _ | assumption | apply setFld_stable H | apply setXmChan_stable H | apply setXmLoop_stable H | apply setReg_stable H | apply setXmState_stable H | apply xmTake_stable H | apply xmSettle_stable H | apply ite_stable P | apply foldl_stable P | apply foldl_fst_stable P | apply foldl_snd_stable P | dsimp only | split))

theorem xmEventSetWrite_stable {P : State → Prop} (H : Stable P) {s : State} (h : P s) (v : Word) : P (xmEventSetWrite v s) := by
  unfold xmEventSetWrite
  try dsimp only
  repeat' (with_reducible (first | intro _ | assumption | apply each_stable H | apply xmSignal_stable H | apply each_stable P | dsimp only))

theorem xmSetLine_stable {P : State → Prop} (H : Stable P) {s : State} (h : P s) (l : Nat) (level : Bool) : P (State.xmSetLine s l level) := by
  unfold State.xmSetLine
  try dsimp only
  repeat' (with_reducible (first | intro _ | assumption | apply setFld_stable H | apply each_stable H | apply xmWake_stable H | apply xmTake_stable H | apply ite_stable P | apply each_stable P | dsimp only | split))

theorem hostBytes_stable {P : State → Prop} (H : Stable P) {s : State} (h : P s) (b : Nat) : P (State.hostBytes s b).2 := by
  unfold State.hostBytes
  try dsimp only
  repeat' (with_reducible (first | intro _ | ((conv => arg 1; arg 27); first | apply H.upd | apply H.draws) | assumption | dsimp only))

theorem xmSource_stable {P : State → Prop} (H : Stable P) {s : State} (h : P s) (sp : Nat) (a : Nat) (b : Nat) : P (State.xmSource s sp a b).2 := by
  unfold State.xmSource
  try dsimp only
  repeat' (with_reducible (first | intro _ | ((conv => arg 1; arg 27); apply H.upd) | assumption | apply xmSetLine_stable H | apply hostBytes_stable H | apply ite_stable P | split))

theorem xmStore_stable {P : State → Prop} (HM : StableMem P) {s : State} (h : P s) (n : Nat) (sp : Nat) (a : Nat) (bs : List Byte) : P (State.xmStore s n sp a bs) := by
  have H := HM.toStable
  unfold State.xmStore
  try dsimp only
  repeat' (with_reducible (first | intro _ | ((conv => arg 1; arg 27); first | apply H.upd | apply HM.dram | apply HM.sram) | assumption | apply emit_stable H | apply hostWrite_stable H | apply ite_stable P | split))

theorem xmBurst_stable {P : State → Prop} (HM : StableMem P) {s : State} (h : P s) (n : Nat) (bytes : Nat) : P (xmBurst s n bytes) := by
  have H := HM.toStable
  unfold xmBurst
  try dsimp only
  repeat' (with_reducible (first | intro _ | ((conv => arg 1; arg 27); apply H.upd) | assumption | apply xmSource_stable H | apply xmStore_stable HM | apply xmShow_stable H | apply setFld_stable H | apply setXmChan_stable H | apply xmSettle_stable H | apply xmTake_stable H | apply ite_stable P | dsimp only | split))

theorem xmBusError_stable {P : State → Prop} (H : Stable P) {s : State} (h : P s) (n : Nat) (isWrite : Bool) : P (xmBusError s n isWrite) := by
  unfold xmBusError
  try dsimp only
  repeat' (with_reducible (first | intro _ | ((conv => arg 1; arg 27); apply H.upd) | assumption | apply bump_stable H | apply raise_stable H | apply setFld_stable H | apply setXmChan_stable H | apply xmFail_stable H | apply ite_stable P | dsimp only | split))

theorem xmCfgWrite_stable {P : State → Prop} (H : Stable P) {s : State} (h : P s) (n : Nat) (v : Word) : P (xmCfgWrite n v s) := by
  unfold xmCfgWrite
  try dsimp only
  repeat' (with_reducible (first | intro _ | assumption | apply writeByType_stable H | apply setFld_stable H | apply ite_stable P | dsimp only | split))

theorem xmHalt_stable {P : State → Prop} (H : Stable P) {s : State} (h : P s) (n : Nat) (v : Nat) : P (State.xmHalt s n v) := by
  unfold State.xmHalt
  try dsimp only
  repeat' (with_reducible (first | intro _ | assumption | apply setXmChan_stable H | apply setXmState_stable H))

end Sys2Proof.Machine
end

