-- ==== Sys2Proof/Laws/StableRebuild.lean ====
section
/-! SUPPORT. What the record updates and register writes of the model keep, every operation of Machine/Rebuild.lean keeps (`Stable`). -/

namespace Sys2Proof.Machine

open Sys2Proof

theorem settleBands_stable {P : State → Prop} (H : Stable P) {s : State} (h : P s) (i : Nat) (slot : Nat) (q : Params) (below : Nat) : P (State.settleBands s i slot q below) := by
  unfold State.settleBands
  try dsimp only
  repeat' (with_reducible (first | intro _ | assumption | apply each_stable H | apply substitute_stable H | apply setBand_stable H | apply ite_stable P | apply each_stable P | dsimp only | split))

theorem closeRecords_stable {P : State → Prop} (H : Stable P) {s : State} (h : P s) (i : Nat) : P (State.closeRecords s i) := by
  unfold State.closeRecords
  try dsimp only
  repeat' (with_reducible (first | intro _ | ((conv => arg 1; arg 27); apply H.upd) | assumption | apply each_stable H | apply settleBands_stable H | apply modSet_stable H | apply gradePool_stable H | apply ite_stable P | apply each_stable P | dsimp only | split))

theorem endPass_stable {P : State → Prop} (H : Stable P) {s : State} (h : P s) (i : Nat) : P (State.endPass s i) := by
  unfold State.endPass
  try dsimp only
  repeat' (with_reducible (first | intro _ | ((conv => arg 1; arg 27); apply H.upd) | assumption | apply modSet_stable H | dsimp only))

theorem setPass_stable {P : State → Prop} (H : Stable P) {s : State} (h : P s) (i : Nat) (p : Pass) : P (State.setPass s i p) := by
  unfold State.setPass
  try dsimp only
  repeat' (with_reducible (first | intro _ | ((conv => arg 1; arg 27); apply H.upd) | assumption))

theorem passOffset_stable {P : State → Prop} (H : Stable P) {s : State} (h : P s) (i : Nat) (o : Nat) (only : Nat → Bool) : P (State.passOffset s i o only) := by
  unfold State.passOffset
  try dsimp only
  repeat' (with_reducible (first | intro _ | ((conv => arg 1; arg 27); apply H.upd) | assumption | apply modSet_stable H | apply each_stable H | apply settleBands_stable H | apply ite_stable P | apply each_stable P | dsimp only | split))

theorem issuePasses_stable {P : State → Prop} (H : Stable P) {s : State} (h : P s)  : P (State.issuePasses s) := by
  unfold State.issuePasses
  try dsimp only
  repeat' (with_reducible (first | intro _ | ((conv => arg 1; arg 27); apply H.upd) | assumption | apply each_stable H | apply setPass_stable H | apply driveOut_stable H | apply ite_stable P | apply each_stable P | dsimp only | split))

theorem passWrites_stable {P : State → Prop} (H : Stable P) {s : State} (h : P s) (i : Nat) (p : Pass) (positions : List Nat) : P (State.passWrites s i p positions) := by
  unfold State.passWrites
  try dsimp only
  repeat' (with_reducible (first | intro _ | ((conv => arg 1; arg 27); apply H.upd) | assumption | apply passOffset_stable H | apply setPass_stable H | apply each_stable H | apply driveOut_stable H | apply ite_stable P | apply each_stable P | dsimp only | split))

theorem passStripe_stable {P : State → Prop} (H : Stable P) {s : State} (h : P s) (i : Nat) (o : Nat) : P (State.passStripe s i o).2 := by
  unfold State.passStripe
  try dsimp only
  repeat' (with_reducible (first | intro _ | ((conv => arg 1; arg 27); apply H.upd) | assumption | apply checkBroken_stable H | apply passWrites_stable H | apply setPass_stable H | apply wake_stable H | apply issuePasses_stable H | apply ite_stable P | dsimp only | split))

theorem passNext_stable {P : State → Prop} (H : Stable P) {s : State} (h : P s) (x0 : Nat) (x2 : Nat) : P (State.passNext x0 s x2) := by
  induction x0 generalizing s x2 with
  | zero =>
    unfold State.passNext
    try dsimp only
    repeat' (with_reducible (first | intro _ | ((conv => arg 1; arg 27); apply H.upd) | assumption | apply endPass_stable H | apply closeRecords_stable H | apply passStripe_stable H | apply ite_stable P | apply foldl_stable P | apply foldl_fst_stable P | apply foldl_snd_stable P | dsimp only | split))
  | succ n ih =>
    unfold State.passNext
    try dsimp only
    repeat' (with_reducible (first | intro _ | ((conv => arg 1; arg 27); apply H.upd) | assumption | apply ih | apply endPass_stable H | apply closeRecords_stable H | apply passStripe_stable H | apply ite_stable P | apply foldl_stable P | apply foldl_fst_stable P | apply foldl_snd_stable P | dsimp only | split))

theorem startPass_stable {P : State → Prop} (H : Stable P) {s : State} (h : P s)  : P (State.startPass s) := by
  unfold State.startPass
  try dsimp only
  repeat' (with_reducible (first | intro _ | ((conv => arg 1; arg 27); apply H.upd) | assumption | apply modSet_stable H | apply passNext_stable H | apply ite_stable P | dsimp only | split))

theorem passReady_stable {P : State → Prop} (H : Stable P) {s : State} (h : P s) (i : Nat) : P (State.passReady s i) := by
  unfold State.passReady
  try dsimp only
  repeat' (with_reducible (first | intro _ | ((conv => arg 1; arg 27); apply H.upd) | assumption | apply setPass_stable H | apply ceSubmit_stable H | apply ite_stable P | split))

theorem passRead_stable {P : State → Prop} (H : Stable P) {s : State} (h : P s) (i : Nat) (pos : Nat) (o : ChunkOutcome) : P (State.passRead s i pos o) := by
  unfold State.passRead
  try dsimp only
  repeat' (with_reducible (first | intro _ | ((conv => arg 1; arg 27); apply H.upd) | assumption | apply setPass_stable H | apply issuePasses_stable H | apply passReady_stable H | apply readError_stable H | apply chunkBad_stable H | apply passNext_stable H | apply ite_stable P | dsimp only | split))

theorem passCoded_stable {P : State → Prop} (H : Stable P) {s : State} (h : P s) (i : Nat) : P (State.passCoded s i) := by
  unfold State.passCoded
  try dsimp only
  repeat' (with_reducible (first | intro _ | ((conv => arg 1; arg 27); apply H.upd) | assumption | apply passWrites_stable H | apply passNext_stable H | apply ite_stable P | dsimp only | split))

theorem passWritten_stable {P : State → Prop} (H : Stable P) {s : State} (h : P s) (i : Nat) : P (State.passWritten s i) := by
  unfold State.passWritten
  try dsimp only
  repeat' (with_reducible (first | intro _ | ((conv => arg 1; arg 27); apply H.upd) | assumption | apply passOffset_stable H | apply setPass_stable H | apply modStripe_stable H | apply passNext_stable H | apply ite_stable P | dsimp only | split))

end Sys2Proof.Machine
end

