-- ==== Sys2Proof/Laws/StableCodingEngine.lean ====
section
/-! SUPPORT. What the record updates and register writes of the model keep, every operation of Machine/CodingEngine.lean keeps (`Stable`). -/

namespace Sys2Proof.Machine

open Sys2Proof

theorem ceInstall_stable {P : State → Prop} (H : Stable P) {s : State} (h : P s) (k : MatrixKey) : P (State.ceInstall s k) := by
  unfold State.ceInstall
  try dsimp only
  repeat' (with_reducible (first | intro _ | ((conv => arg 1; arg 27); apply H.upd) | assumption))

theorem ceInvertNext_stable {P : State → Prop} (H : Stable P) {s : State} (h : P s)  : P (State.ceInvertNext s) := by
  unfold State.ceInvertNext
  try dsimp only
  repeat' (with_reducible (first | intro _ | ((conv => arg 1; arg 27); apply H.upd) | assumption | split))

theorem ceLookup_stable {P : State → Prop} (H : Stable P) {s : State} (h : P s) (n : Nat) (k : MatrixKey) : P (State.ceLookup s n k) := by
  unfold State.ceLookup
  try dsimp only
  repeat' (with_reducible (first | intro _ | ((conv => arg 1; arg 27); apply H.upd) | assumption | apply ceInvertNext_stable H | apply bump_stable H | apply ceInstall_stable H | apply ite_stable P | dsimp only | split))

theorem ceStart_stable {P : State → Prop} (H : Stable P) {s : State} (h : P s) (n : Nat) (j : CeJob) : P (State.ceStart s n j) := by
  unfold State.ceStart
  try dsimp only
  repeat' (with_reducible (first | intro _ | ((conv => arg 1; arg 27); apply H.upd) | assumption | apply ceLookup_stable H | dsimp only | split))

theorem ceAbsent_stable {P : State → Prop} (H : Stable P) {s : State} (h : P s) (j : CeJob) : P (State.ceAbsent s j) := by
  unfold State.ceAbsent
  try dsimp only
  repeat' (with_reducible (first | intro _ | ((conv => arg 1; arg 27); apply H.upd) | assumption | apply endPass_stable H | apply complete_stable H | apply ite_stable P | split))

theorem ceDispatch_stable {P : State → Prop} (H : Stable P) {s : State} (h : P s)  : P (State.ceDispatch s) := by
  unfold State.ceDispatch
  try dsimp only
  repeat' (with_reducible (first | intro _ | ((conv => arg 1; arg 27); apply H.upd) | assumption | apply ceAbsent_stable H | apply ceStart_stable H | apply ite_stable P | dsimp only | split))

theorem hashChunks_stable {P : State → Prop} (H : Stable P) {s : State} (h : P s) (p : Nat) (n : Nat) : P (State.hashChunks s p n) := by
  unfold State.hashChunks
  try dsimp only
  repeat' (with_reducible (first | intro _ | ((conv => arg 1; arg 27); apply H.upd) | assumption | apply each_stable H | apply hashSubmit_stable H | apply each_stable P | dsimp only | split))

theorem encodeDone_stable {P : State → Prop} (H : Stable P) {s : State} (h : P s) (p : Nat) (n : Nat) : P (State.encodeDone s p n) := by
  unfold State.encodeDone
  try dsimp only
  repeat' (with_reducible (first | intro _ | ((conv => arg 1; arg 27); apply H.upd) | assumption | apply modStripe_stable H | apply hashChunks_stable H | apply ite_stable P | dsimp only | split))

theorem copyWrites_stable {P : State → Prop} (H : Stable P) {s : State} (h : P s) (p : Nat) (n : Nat) : P (State.copyWrites s p n) := by
  unfold State.copyWrites
  try dsimp only
  repeat' (with_reducible (first | intro _ | ((conv => arg 1; arg 27); apply H.upd) | assumption | apply each_stable H | apply driveOut_stable H | apply each_stable P | dsimp only | split))

theorem ceFinish_stable {P : State → Prop} (H : Stable P) {s : State} (h : P s) (n : Nat) (mismatch : List (Nat × Nat)) : P (State.ceFinish s n mismatch) := by
  unfold State.ceFinish
  try dsimp only
  repeat' (with_reducible (first | intro _ | ((conv => arg 1; arg 27); apply H.upd) | assumption | apply setReg64_stable H | apply bumpWrap_stable H | apply copyWrites_stable H | apply encodeDone_stable H | apply passCoded_stable H | apply readTogether_stable H | apply ReadNext_follow_stable H | apply bump_stable H | apply ite_stable P | dsimp only | split))

theorem ceInverted_stable {P : State → Prop} (H : Stable P) {s : State} (h : P s)  : P (State.ceInverted s) := by
  unfold State.ceInverted
  try dsimp only
  repeat' (with_reducible (first | intro _ | ((conv => arg 1; arg 27); apply H.upd) | assumption | apply ceInstall_stable H | apply ceInvertNext_stable H | apply ite_stable P | dsimp only | split))

theorem noteClusters_stable {P : State → Prop} (H : Stable P) {s : State} (h : P s)  : P (State.noteClusters s) := by
  unfold State.noteClusters
  try dsimp only
  repeat' (with_reducible (first | intro _ | ((conv => arg 1; arg 27); apply H.upd) | assumption | apply raise_stable H | apply ite_stable P | split))

theorem ceDrop_stable {P : State → Prop} (H : Stable P) {s : State} (h : P s) (n : Nat) : P (State.ceDrop s n) := by
  unfold State.ceDrop
  try dsimp only
  repeat' (with_reducible (first | intro _ | ((conv => arg 1; arg 27); apply H.upd) | assumption | apply ceInvertNext_stable H | apply ite_stable P | dsimp only | split))

theorem ceFault_stable {P : State → Prop} (H : Stable P) {s : State} (h : P s) (n : Nat) : P (State.ceFault s n) := by
  unfold State.ceFault
  try dsimp only
  repeat' (with_reducible (first | intro _ | ((conv => arg 1; arg 27); apply H.upd) | assumption | apply ceDrop_stable H | apply setFld_stable H | apply raise_stable H | apply noteClusters_stable H | apply ite_stable P | dsimp only | split))

theorem ceCtlWrite_stable {P : State → Prop} (H : Stable P) {s : State} (h : P s) (v : Word) : P (ceCtlWrite v s) := by
  unfold ceCtlWrite
  try dsimp only
  repeat' (with_reducible (first | intro _ | ((conv => arg 1; arg 27); apply H.upd) | assumption | apply writeByType_stable H | apply setFld_stable H | apply ite_stable P | dsimp only | split))

theorem ceEnWrite_stable {P : State → Prop} (H : Stable P) {s : State} (h : P s) (v : Word) : P (ceEnWrite v s) := by
  unfold ceEnWrite
  try dsimp only
  repeat' (with_reducible (first | intro _ | assumption | apply writeByType_stable H | apply noteClusters_stable H))

theorem ceReset_stable {P : State → Prop} (H : Stable P) {s : State} (h : P s)  : P (State.ceReset s) := by
  unfold State.ceReset
  try dsimp only
  repeat' (with_reducible (first | intro _ | ((conv => arg 1; arg 27); first | apply H.upd | apply H.updRegs) | assumption | dsimp only))

end Sys2Proof.Machine
end

