-- ==== Sys2Proof/Laws/StableTide.lean ====
section
/-! SUPPORT. What the record updates and register writes of the model keep, every operation of Machine/Tide.lean keeps (`Stable`). -/

namespace Sys2Proof.Machine

open Sys2Proof

theorem tideEnd_stable {P : State → Prop} (H : Stable P) {s : State} (h : P s) (p : Nat) : P (State.tideEnd s p) := by
  unfold State.tideEnd
  try dsimp only
  repeat' (with_reducible (first | intro _ | ((conv => arg 1; arg 27); apply H.upd) | assumption | apply each_stable H | apply modSet_stable H | apply modPool_stable H | apply ite_stable P | apply each_stable P | dsimp only | split))

theorem tideStart_stable {P : State → Prop} (H : Stable P) {s : State} (h : P s) (p : Nat) : P (State.tideStart s p) := by
  unfold State.tideStart
  try dsimp only
  repeat' (with_reducible (first | intro _ | ((conv => arg 1; arg 27); apply H.upd) | assumption | apply modPool_stable H | apply each_stable H | apply modSet_stable H | apply ite_stable P | apply each_stable P | dsimp only | split))

theorem tideAsk_stable {P : State → Prop} (H : Stable P) {s : State} (h : P s) (p : Nat) : P (State.tideAsk s p) := by
  unfold State.tideAsk
  try dsimp only
  repeat' (with_reducible (first | intro _ | ((conv => arg 1; arg 27); apply H.upd) | assumption | apply modPool_stable H | apply wake_stable H | apply ite_stable P | dsimp only | split))

theorem tideRelease_stable {P : State → Prop} (H : Stable P) {s : State} (h : P s) (p : Nat) : P (State.tideRelease s p) := by
  unfold State.tideRelease
  try dsimp only
  repeat' (with_reducible (first | intro _ | ((conv => arg 1; arg 27); apply H.upd) | assumption | apply modPool_stable H | apply ite_stable P | dsimp only | split))

theorem tideMinute_stable {P : State → Prop} (H : Stable P) {s : State} (h : P s) (p : Nat) : P (State.tideMinute s p) := by
  unfold State.tideMinute
  try dsimp only
  repeat' (with_reducible (first | intro _ | ((conv => arg 1; arg 27); apply H.upd) | assumption | apply modPool_stable H | apply tideEnd_stable H | apply tideRelease_stable H | apply tideAsk_stable H | apply ite_stable P | dsimp only | split))

theorem rewriteParity_stable {P : State → Prop} (H : Stable P) {s : State} (h : P s) (p : Nat) (n : Nat) : P (State.rewriteParity s p n) := by
  unfold State.rewriteParity
  try dsimp only
  repeat' (with_reducible (first | intro _ | ((conv => arg 1; arg 27); apply H.upd) | assumption | apply relocate_stable H | apply each_stable H | apply driveOut_stable H | apply modStripe_stable H | apply bump_stable H | apply raise_stable H | apply delta_stable H | apply ite_stable P | apply each_stable P | dsimp only | split))

theorem tideExtent_stable {P : State → Prop} (H : Stable P) {s : State} (h : P s) (p : Nat) (n : Nat) (slot : Nat) : P (State.tideExtent s p n slot) := by
  unfold State.tideExtent
  try dsimp only
  repeat' (with_reducible (first | intro _ | ((conv => arg 1; arg 27); apply H.upd) | assumption | apply addLoss_stable H | apply bump_stable H | apply raise_stable H | apply ite_stable P | dsimp only | split))

theorem tideCount_stable {P : State → Prop} (H : Stable P) {s : State} (h : P s) (p : Nat) (n : Nat) (t : Stripe) (x : Pool) : P (State.tideCount s p n t x) := by
  unfold State.tideCount
  try dsimp only
  repeat' (with_reducible (first | intro _ | ((conv => arg 1; arg 27); apply H.upd) | assumption | apply modStripe_stable H | apply modSet_stable H | apply modPool_stable H | apply bump_stable H | apply tideEnd_stable H | dsimp only))

theorem tideVerify_stable {P : State → Prop} (H : Stable P) {s : State} (h : P s) (p : Nat) (n : Nat) (f : TideFinding) : P (State.tideVerify s p n f) := by
  unfold State.tideVerify
  try dsimp only
  repeat' (with_reducible (first | intro _ | ((conv => arg 1; arg 27); apply H.upd) | assumption | apply each_stable H | apply readError_stable H | apply chunkBad_stable H | apply bump_stable H | apply rewriteParity_stable H | apply tideExtent_stable H | apply tideCount_stable H | apply ite_stable P | apply each_stable P | dsimp only | split))

theorem tideLateNow_stable {P : State → Prop} (H : Stable P) {s : State} (h : P s) (p : Nat) : P (State.tideLateNow s p) := by
  unfold State.tideLateNow
  try dsimp only
  repeat' (with_reducible (first | intro _ | ((conv => arg 1; arg 27); apply H.upd) | assumption | apply modPool_stable H | apply raise_stable H | apply tideAsk_stable H | apply ite_stable P | dsimp only | split))

end Sys2Proof.Machine
end

