-- ==== Sys2Proof/Laws/StableWindow.lean ====
section
/-! SUPPORT. What the record updates and register writes of the model keep, every operation of Machine/Window.lean keeps (`Stable`). -/

namespace Sys2Proof.Machine

open Sys2Proof

theorem shrinkSeals_stable {P : State → Prop} (H : Stable P) {s : State} (h : P s) (x0 : Nat) : P (State.shrinkSeals x0 s) := by
  induction x0 generalizing s  with
  | zero =>
    unfold State.shrinkSeals
    try dsimp only
    repeat' (with_reducible (first | intro _ | ((conv => arg 1; arg 27); apply H.upd) | assumption | apply startSeal_stable H | apply ite_stable P | dsimp only | split))
  | succ n ih =>
    unfold State.shrinkSeals
    try dsimp only
    repeat' (with_reducible (first | intro _ | ((conv => arg 1; arg 27); apply H.upd) | assumption | apply ih | apply startSeal_stable H | apply ite_stable P | dsimp only | split))

theorem winShrunk_stable {P : State → Prop} (H : Stable P) {s : State} (h : P s)  : P (State.winShrunk s) := by
  unfold State.winShrunk
  try dsimp only
  repeat' (with_reducible (first | intro _ | ((conv => arg 1; arg 27); apply H.upd) | assumption | apply raise_stable H | apply shrinkSeals_stable H | apply ite_stable P | dsimp only | split))

theorem tryAllAcks_stable {P : State → Prop} (H : Stable P) {s : State} (h : P s)  : P (State.tryAllAcks s) := by
  unfold State.tryAllAcks
  try dsimp only
  repeat' (with_reducible (first | intro _ | assumption | apply each_stable H | apply tryAck_stable H | apply each_stable P | dsimp only))

theorem winRecompute_stable {P : State → Prop} (H : Stable P) {s : State} (h : P s)  : P (State.winRecompute s) := by
  unfold State.winRecompute
  try dsimp only
  repeat' (with_reducible (first | intro _ | ((conv => arg 1; arg 27); apply H.upd) | assumption | apply setFld_stable H | apply raise_stable H | apply winShrunk_stable H | apply noteU_stable H | apply tryAllAcks_stable H | apply admitHeld_stable H | apply ite_stable P | dsimp only | split))

theorem winStep_stable {P : State → Prop} (H : Stable P) {s : State} (h : P s)  : P (State.winStep s) := by
  unfold State.winStep
  try dsimp only
  repeat' (with_reducible (first | intro _ | ((conv => arg 1; arg 27); apply H.upd) | assumption | apply noteU_stable H | apply admitHeld_stable H | apply ite_stable P | split))

theorem creditTick_stable {P : State → Prop} (H : Stable P) {s : State} (h : P s)  : P (State.creditTick s) := by
  unfold State.creditTick
  try dsimp only
  repeat' (with_reducible (first | intro _ | ((conv => arg 1; arg 27); apply H.upd) | assumption | apply admitHeld_stable H | dsimp only))

theorem setEbSlot_stable {P : State → Prop} (H : Stable P) {s : State} (h : P s) (i : Nat) (x : EbSlot) : P (State.setEbSlot s i x) := by
  unfold State.setEbSlot
  try dsimp only
  repeat' (with_reducible (first | intro _ | ((conv => arg 1; arg 27); apply H.upd) | assumption))

theorem ebErase_stable {P : State → Prop} (H : Stable P) {s : State} (h : P s) (i : Nat) : P (State.ebErase s i) := by
  unfold State.ebErase
  try dsimp only
  repeat' (with_reducible (first | intro _ | ((conv => arg 1; arg 27); apply H.upd) | assumption | apply setEbSlot_stable H))

theorem ebFault_stable {P : State → Prop} (H : Stable P) {s : State} (h : P s)  : P (State.ebFault s) := by
  unfold State.ebFault
  try dsimp only
  repeat' (with_reducible (first | intro _ | ((conv => arg 1; arg 27); apply H.upd) | assumption | apply raise_stable H | apply winRecompute_stable H | apply ite_stable P | split))

theorem ebErased_stable {P : State → Prop} (H : Stable P) {s : State} (h : P s) (i : Nat) (ok : Bool) : P (State.ebErased s i ok) := by
  unfold State.ebErased
  try dsimp only
  repeat' (with_reducible (first | intro _ | ((conv => arg 1; arg 27); apply H.upd) | assumption | apply setEbSlot_stable H | apply winRecompute_stable H | apply ebFault_stable H | apply ite_stable P | dsimp only | split))

theorem ebMeasured_stable {P : State → Prop} (H : Stable P) {s : State} (h : P s) (rate : Nat) : P (State.ebMeasured s rate) := by
  unfold State.ebMeasured
  try dsimp only
  repeat' (with_reducible (first | intro _ | ((conv => arg 1; arg 27); apply H.upd) | assumption | apply setFld_stable H | apply winRecompute_stable H | apply ite_stable P | dsimp only | split))

theorem startEbb_stable {P : State → Prop} (H : Stable P) {s : State} (h : P s) (trigger : Nat) : P (State.startEbb s trigger) := by
  unfold State.startEbb
  try dsimp only
  repeat' (with_reducible (first | intro _ | ((conv => arg 1; arg 27); apply H.upd) | assumption | apply ite_stable P | split))

theorem gateAll_stable {P : State → Prop} (H : Stable P) {s : State} (h : P s)  : P (State.gateAll s) := by
  unfold State.gateAll
  try dsimp only
  repeat' (with_reducible (first | intro _ | ((conv => arg 1; arg 27); apply H.upd) | assumption | apply ite_stable P | dsimp only | split))

theorem endEbb_stable {P : State → Prop} (H : Stable P) {s : State} (h : P s) (headerRead : Bool) : P (State.endEbb s headerRead) := by
  unfold State.endEbb
  try dsimp only
  repeat' (with_reducible (first | intro _ | ((conv => arg 1; arg 27); apply H.upd) | assumption | apply draw_stable H | apply setEbSlot_stable H | apply gateAll_stable H | apply ite_stable P | dsimp only | split))

end Sys2Proof.Machine
end

