-- ==== Sys2Proof/Laws/StableAdmin.lean ====
section
/-! SUPPORT. What the record updates and register writes of the model keep, every operation of Machine/Admin.lean keeps (`Stable`). -/

namespace Sys2Proof.Machine

open Sys2Proof

theorem inTurn_stable {P : State → Prop} (H : Stable P) {s : State} (h : P s) (id : Nat) (c : HostCmd) (go : State → State) (hgo : ∀ t, P t → P (go t)) : P (State.inTurn s id c go) := by
  unfold State.inTurn
  try dsimp only
  repeat' (with_reducible (first | intro _ | assumption | apply hgo | apply setBody_stable H | apply ite_stable P | split))

theorem claimed_stable {P : State → Prop} (H : Stable P) {s : State} (h : P s) (id : Nat) (pool : Nat) (slots : List Nat) (c : HostCmd) (granted : Bool) (go : State → State) (hgo : ∀ t, P t → P (go t)) : P (State.claimed s id pool slots c granted go) := by
  unfold State.claimed
  try dsimp only
  repeat' (with_reducible (first | intro _ | assumption | apply hgo | apply complete_stable H | apply sendClaim_stable H | apply setBody_stable H | apply ite_stable P | split))

theorem addSets_stable {P : State → Prop} (H : Stable P) {s : State} (h : P s) (pool : Nat) (q : Params) (sets : List (List Nat)) : P (State.addSets s pool q sets) := by
  unfold State.addSets
  try dsimp only
  repeat' (with_reducible (first | intro _ | ((conv => arg 1; arg 27); apply H.upd) | assumption | apply each_stable H | apply each_stable P | dsimp only))

theorem layBands_stable {P : State → Prop} (H : Stable P) {s : State} (h : P s) (slot : Nat) (bandMiB : Nat) (n : Nat) : P (State.layBands s slot bandMiB n) := by
  unfold State.layBands
  try dsimp only
  repeat' (with_reducible (first | intro _ | assumption | apply each_stable H | apply setBand_stable H | apply each_stable P | dsimp only))

theorem newUuid_stable {P : State → Prop} (H : Stable P) {s : State} (h : P s)  : P (State.newUuid s).2 := by
  unfold State.newUuid
  try dsimp only
  repeat' (with_reducible (first | intro _ | assumption | apply draw_stable H | dsimp only))

theorem dropBands_stable {P : State → Prop} (H : Stable P) {s : State} (h : P s) (slot : Nat) : P (State.dropBands s slot) := by
  unfold State.dropBands
  try dsimp only
  repeat' (with_reducible (first | intro _ | ((conv => arg 1; arg 27); apply H.upd) | assumption | dsimp only))

theorem returnDrives_stable {P : State → Prop} (H : Stable P) {s : State} (h : P s) (pool : Nat) (taken : List (Nat × MemberState)) : P (State.returnDrives s pool taken) := by
  unfold State.returnDrives
  try dsimp only
  repeat' (with_reducible (first | intro _ | ((conv => arg 1; arg 27); apply H.upd) | assumption | apply modPool_stable H | apply each_stable H | apply modDrive_stable H | apply dropBands_stable H | apply writeLabel_stable H | apply ite_stable P | apply each_stable P | dsimp only | split))

end Sys2Proof.Machine
end

