-- ==== Sys2Proof/Laws/StablePoolCommands.lean ====
section
/-! SUPPORT. What the record updates and register writes of the model keep, every operation of Machine/PoolCommands.lean keeps (`Stable`). -/

namespace Sys2Proof.Machine

open Sys2Proof

theorem createPool_stable {P : State → Prop} (H : Stable P) {s : State} (h : P s) (id : Nat) (c : HostCmd) : P (State.createPool s id c) := by
  unfold State.createPool
  try dsimp only
  repeat' (with_reducible (first | intro _ | ((conv => arg 1; arg 27); apply H.upd) | assumption | apply journal_stable H | apply newUuid_stable H | apply setPool_stable H | apply modPool_stable H | apply each_stable H | apply modDrive_stable H | apply layBands_stable H | apply addSets_stable H | apply joinPool_stable H | apply setBody_stable H | apply each_stable P | dsimp only))

theorem goPoolCreate_stable {P : State → Prop} (H : Stable P) {s : State} (h : P s) (id : Nat) (c : HostCmd) (granted : Bool) : P (State.goPoolCreate s id c granted) := by
  unfold State.goPoolCreate
  try dsimp only
  repeat' (with_reducible (first | intro _ | assumption | apply checked_stable H | apply claimed_stable H | apply createPool_stable H | apply ite_stable P | dsimp only | split))

theorem runPoolCreate_stable {P : State → Prop} (H : Stable P) {s : State} (h : P s) (id : Nat) (c : HostCmd) : P (State.runPoolCreate s id c) := by
  unfold State.runPoolCreate
  try dsimp only
  repeat' (with_reducible (first | intro _ | assumption | apply checked_stable H | apply inTurn_stable H | apply goPoolCreate_stable H | dsimp only))

theorem undoCreate_stable {P : State → Prop} (H : Stable P) {s : State} (h : P s) (id : Nat) (p : Nat) (taken : List (Nat × MemberState)) (slot : Nat) : P (State.undoCreate s id p taken slot) := by
  unfold State.undoCreate
  try dsimp only
  repeat' (with_reducible (first | intro _ | ((conv => arg 1; arg 27); apply H.upd) | assumption | apply returnDrives_stable H | apply complete_stable H | dsimp only))

theorem createLabelled_stable {P : State → Prop} (H : Stable P) {s : State} (h : P s) (p : Nat) : P (State.createLabelled s p) := by
  unfold State.createLabelled
  try dsimp only
  repeat' (with_reducible (first | intro _ | ((conv => arg 1; arg 27); apply H.upd) | assumption | apply modPool_stable H | apply startCkpt_stable H | dsimp only))

theorem createDone_stable {P : State → Prop} (H : Stable P) {s : State} (h : P s) (p : Nat) : P (State.createDone s p) := by
  unfold State.createDone
  try dsimp only
  repeat' (with_reducible (first | intro _ | ((conv => arg 1; arg 27); apply H.upd) | assumption | apply modPool_stable H | apply tideStart_stable H | apply keepReserved_stable H | apply complete_stable H | dsimp only | split))

theorem growPool_stable {P : State → Prop} (H : Stable P) {s : State} (h : P s) (id : Nat) (c : HostCmd) : P (State.growPool s id c) := by
  unfold State.growPool
  try dsimp only
  repeat' (with_reducible (first | intro _ | ((conv => arg 1; arg 27); apply H.upd) | assumption | apply modPool_stable H | apply each_stable H | apply joinPool_stable H | apply setBody_stable H | apply each_stable P | dsimp only))

theorem goPoolGrow_stable {P : State → Prop} (H : Stable P) {s : State} (h : P s) (id : Nat) (c : HostCmd) (granted : Bool) : P (State.goPoolGrow s id c granted) := by
  unfold State.goPoolGrow
  try dsimp only
  repeat' (with_reducible (first | intro _ | assumption | apply checked_stable H | apply claimed_stable H | apply growPool_stable H | dsimp only))

theorem runPoolGrow_stable {P : State → Prop} (H : Stable P) {s : State} (h : P s) (id : Nat) (c : HostCmd) : P (State.runPoolGrow s id c) := by
  unfold State.runPoolGrow
  try dsimp only
  repeat' (with_reducible (first | intro _ | assumption | apply checked_stable H | apply inTurn_stable H | apply goPoolGrow_stable H | dsimp only))

theorem growDone_stable {P : State → Prop} (H : Stable P) {s : State} (h : P s) (id : Nat) (p : Nat) (taken : List (Nat × MemberState)) : P (State.growDone s id p taken) := by
  unfold State.growDone
  try dsimp only
  repeat' (with_reducible (first | intro _ | ((conv => arg 1; arg 27); apply H.upd) | assumption | apply addSets_stable H | apply modPool_stable H | apply newDescriptor_stable H | apply startCkpt_stable H | apply complete_stable H | apply admitHeld_stable H | dsimp only | split))

theorem undoGrow_stable {P : State → Prop} (H : Stable P) {s : State} (h : P s) (id : Nat) (p : Nat) (taken : List (Nat × MemberState)) (slot : Nat) : P (State.undoGrow s id p taken slot) := by
  unfold State.undoGrow
  try dsimp only
  repeat' (with_reducible (first | intro _ | assumption | apply returnDrives_stable H | apply complete_stable H))

theorem applyPoolSet_stable {P : State → Prop} (H : Stable P) {s : State} (h : P s) (c : HostCmd) : P (State.applyPoolSet s c) := by
  unfold State.applyPoolSet
  try dsimp only
  repeat' (with_reducible (first | intro _ | ((conv => arg 1; arg 27); apply H.upd) | assumption | apply modPool_stable H | apply wake_stable H | apply each_stable H | apply startSeal_stable H | apply newDescriptor_stable H | apply substitute_stable H | apply ite_stable P | apply each_stable P | dsimp only | split))

theorem endOnPool_stable {P : State → Prop} (H : Stable P) {s : State} (h : P s) (p : Nat) : P (State.endOnPool s p) := by
  unfold State.endOnPool
  try dsimp only
  repeat' (with_reducible (first | intro _ | ((conv => arg 1; arg 27); apply H.upd) | assumption | apply each_stable H | apply setBody_stable H | apply endAppend_stable H | apply complete_stable H | apply ite_stable P | apply each_stable P | dsimp only | split))

theorem reclaimPool_stable {P : State → Prop} (H : Stable P) {s : State} (h : P s) (p : Nat) : P (State.reclaimPool s p) := by
  unfold State.reclaimPool
  try dsimp only
  repeat' (with_reducible (first | intro _ | ((conv => arg 1; arg 27); apply H.upd) | assumption | apply each_stable H | apply modSet_stable H | apply substitute_stable H | apply drained_stable H | apply setBand_stable H | apply reclaimBand_stable H | apply ite_stable P | apply each_stable P | dsimp only | split))

theorem goPoolDelete_stable {P : State → Prop} (H : Stable P) {s : State} (h : P s) (id : Nat) (c : HostCmd) : P (State.goPoolDelete s id c) := by
  unfold State.goPoolDelete
  try dsimp only
  repeat' (with_reducible (first | intro _ | ((conv => arg 1; arg 27); apply H.upd) | assumption | apply checked_stable H | apply setBody_stable H | apply modPool_stable H | apply endOnPool_stable H | apply reclaimPool_stable H | dsimp only))

theorem runPoolDelete_stable {P : State → Prop} (H : Stable P) {s : State} (h : P s) (id : Nat) (c : HostCmd) : P (State.runPoolDelete s id c) := by
  unfold State.runPoolDelete
  try dsimp only
  repeat' (with_reducible (first | intro _ | assumption | apply checked_stable H | apply inTurn_stable H | apply goPoolDelete_stable H | dsimp only))

theorem deleteProgress_stable {P : State → Prop} (H : Stable P) {s : State} (h : P s) (id : Nat) (p : Nat) : P (State.deleteProgress s id p) := by
  unfold State.deleteProgress
  try dsimp only
  repeat' (with_reducible (first | intro _ | ((conv => arg 1; arg 27); apply H.upd) | assumption | apply drained_stable H | apply each_stable H | apply writeLabel_stable H | apply modPool_stable H | apply modDrive_stable H | apply dropBands_stable H | apply modSet_stable H | apply complete_stable H | apply ite_stable P | apply each_stable P | dsimp only | split))

theorem goLossClear_stable {P : State → Prop} (H : Stable P) {s : State} (h : P s) (id : Nat) (c : HostCmd) : P (State.goLossClear s id c) := by
  unfold State.goLossClear
  try dsimp only
  repeat' (with_reducible (first | intro _ | ((conv => arg 1; arg 27); apply H.upd) | assumption | apply checked_stable H | apply modPool_stable H | apply each_stable H | apply modStripe_stable H | apply delta_stable H | apply drainIfDead_stable H | apply gradePool_stable H | apply complete_stable H | apply ite_stable P | apply each_stable P | dsimp only | split))

theorem runLossClear_stable {P : State → Prop} (H : Stable P) {s : State} (h : P s) (id : Nat) (c : HostCmd) : P (State.runLossClear s id c) := by
  unfold State.runLossClear
  try dsimp only
  repeat' (with_reducible (first | intro _ | assumption | apply checked_stable H | apply inTurn_stable H | apply goLossClear_stable H | dsimp only))

theorem retireBands_stable {P : State → Prop} (H : Stable P) {s : State} (h : P s) (n : Nat) (d : Nat) (bandMiB : Nat) : P (State.retireBands s n d bandMiB) := by
  unfold State.retireBands
  try dsimp only
  repeat' (with_reducible (first | intro _ | assumption | apply each_stable H | apply drained_stable H | apply setBand_stable H | apply substitute_stable H | apply driveOut_stable H | apply ite_stable P | apply each_stable P | dsimp only | split))

theorem retireMember_stable {P : State → Prop} (H : Stable P) {s : State} (h : P s) (n : Nat) (d : Nat) : P (State.retireMember s n d) := by
  unfold State.retireMember
  try dsimp only
  repeat' (with_reducible (first | intro _ | ((conv => arg 1; arg 27); apply H.upd) | assumption | apply joinPool_stable H | apply modDrive_stable H | apply each_stable H | apply modSet_stable H | apply startSeal_stable H | apply retireBands_stable H | apply newDescriptor_stable H | apply gradePool_stable H | apply each_stable P | dsimp only | split))

theorem retireClose_stable {P : State → Prop} (H : Stable P) {s : State} (h : P s) (i : Nat) (q : Params) : P (State.retireClose s i q) := by
  unfold State.retireClose
  try dsimp only
  repeat' (with_reducible (first | intro _ | ((conv => arg 1; arg 27); apply H.upd) | assumption | apply each_stable H | apply setBand_stable H | apply modSet_stable H | apply drainIfDead_stable H | apply ite_stable P | apply each_stable P | dsimp only | split))

theorem retireSettle_stable {P : State → Prop} (H : Stable P) {s : State} (h : P s) (n : Nat) : P (State.retireSettle s n) := by
  unfold State.retireSettle
  try dsimp only
  repeat' (with_reducible (first | intro _ | ((conv => arg 1; arg 27); apply H.upd) | assumption | apply each_stable H | apply retireClose_stable H | apply retireBands_stable H | apply modSet_stable H | apply modDrive_stable H | apply layBands_stable H | apply modPool_stable H | apply journal_stable H | apply newDescriptor_stable H | apply gradePool_stable H | apply ite_stable P | apply each_stable P | dsimp only | split))

theorem retireHook_stable {P : State → Prop} (H : Stable P) {s : State} (h : P s)  : P (State.retireHook s) := by
  unfold State.retireHook
  try dsimp only
  repeat' (with_reducible (first | intro _ | assumption | apply each_stable H | apply retireSettle_stable H | apply each_stable P | dsimp only))

theorem retireCopied_stable {P : State → Prop} (H : Stable P) {s : State} (h : P s) (n : Nat) (b : Nat) : P (State.retireCopied s n b) := by
  unfold State.retireCopied
  try dsimp only
  repeat' (with_reducible (first | intro _ | ((conv => arg 1; arg 27); apply H.upd) | assumption | apply substitute_stable H | apply setBand_stable H | apply retireSettle_stable H | apply ite_stable P | dsimp only | split))

theorem goDriveSet_stable {P : State → Prop} (H : Stable P) {s : State} (h : P s) (id : Nat) (c : HostCmd) (granted : Bool) : P (State.goDriveSet s id c granted) := by
  unfold State.goDriveSet
  try dsimp only
  repeat' (with_reducible (first | intro _ | ((conv => arg 1; arg 27); apply H.upd) | assumption | apply complete_stable H | apply modSlot_stable H | apply setBody_stable H | apply writeLabel_stable H | apply failMember_stable H | apply claimed_stable H | apply retireMember_stable H | apply ite_stable P | dsimp only | split))

theorem runDriveSet_stable {P : State → Prop} (H : Stable P) {s : State} (h : P s) (id : Nat) (c : HostCmd) : P (State.runDriveSet s id c) := by
  unfold State.runDriveSet
  try dsimp only
  repeat' (with_reducible (first | intro _ | assumption | apply checked_stable H | apply inTurn_stable H | apply goDriveSet_stable H | dsimp only))

theorem labelHook_stable {P : State → Prop} (H : Stable P) {s : State} (h : P s)  : P (State.labelHook s) := by
  unfold State.labelHook
  try dsimp only
  repeat' (with_reducible (first | intro _ | ((conv => arg 1; arg 27); apply H.upd) | assumption | apply each_stable H | apply undoCreate_stable H | apply createLabelled_stable H | apply growDone_stable H | apply modDrive_stable H | apply dropBands_stable H | apply complete_stable H | apply substitute_stable H | apply deleteProgress_stable H | apply ite_stable P | apply each_stable P | dsimp only | split))

theorem labelFailed_stable {P : State → Prop} (H : Stable P) {s : State} (h : P s) (n : Nat) : P (State.labelFailed s n) := by
  unfold State.labelFailed
  try dsimp only
  repeat' (with_reducible (first | intro _ | ((conv => arg 1; arg 27); apply H.upd) | assumption | apply modDrive_stable H | apply each_stable H | apply undoCreate_stable H | apply undoGrow_stable H | apply complete_stable H | apply ite_stable P | apply each_stable P | dsimp only | split))

theorem labelDone_stable {P : State → Prop} (H : Stable P) {s : State} (h : P s) (n : Nat) (ok : Bool) : P (State.labelDone s n ok) := by
  unfold State.labelDone
  try dsimp only
  repeat' (with_reducible (first | intro _ | ((conv => arg 1; arg 27); apply H.upd) | assumption | apply labelFailed_stable H | apply modDrive_stable H | apply issueLabel_stable H | apply labelHook_stable H | apply ite_stable P | dsimp only | split))

end Sys2Proof.Machine
end

