-- ==== Sys2Proof/Laws/StableScarf.lean ====
section
/-! SUPPORT. What the record updates and register writes of the model keep, every operation of Machine/Scarf.lean keeps (`Stable`). -/

namespace Sys2Proof.Machine

open Sys2Proof

theorem modScarf_stable {P : State → Prop} (H : Stable P) {s : State} (h : P s) (p : Nat) (f : Scarf → Scarf) : P (State.modScarf s p f) := by
  unfold State.modScarf
  try dsimp only
  repeat' (with_reducible (first | intro _ | ((conv => arg 1; arg 27); apply H.upd) | assumption | apply modPool_stable H | dsimp only))

theorem startScarf_stable {P : State → Prop} (H : Stable P) {s : State} (h : P s) (id : Nat) (c : HostCmd) : P (State.startScarf s id c) := by
  unfold State.startScarf
  try dsimp only
  repeat' (with_reducible (first | intro _ | ((conv => arg 1; arg 27); apply H.upd) | assumption | apply journal_stable H | apply modPool_stable H | apply each_stable H | apply layBands_stable H | apply addSets_stable H | apply joinPool_stable H | apply setBody_stable H | apply complete_stable H | apply each_stable P | dsimp only | split))

theorem goScarfStart_stable {P : State → Prop} (H : Stable P) {s : State} (h : P s) (id : Nat) (c : HostCmd) (granted : Bool) : P (State.goScarfStart s id c granted) := by
  unfold State.goScarfStart
  try dsimp only
  repeat' (with_reducible (first | intro _ | assumption | apply checked_stable H | apply claimed_stable H | apply startScarf_stable H | apply ite_stable P | dsimp only | split))

theorem runScarfStart_stable {P : State → Prop} (H : Stable P) {s : State} (h : P s) (id : Nat) (c : HostCmd) : P (State.runScarfStart s id c) := by
  unfold State.runScarfStart
  try dsimp only
  repeat' (with_reducible (first | intro _ | assumption | apply checked_stable H | apply inTurn_stable H | apply goScarfStart_stable H | dsimp only))

theorem freeSill_stable {P : State → Prop} (H : Stable P) {s : State} (h : P s) (slots : List Nat) (bands : Nat) : P (State.freeSill s slots bands) := by
  unfold State.freeSill
  try dsimp only
  repeat' (with_reducible (first | intro _ | assumption | apply each_stable H | apply setBand_stable H | apply each_stable P | dsimp only))

theorem dropNewLayout_stable {P : State → Prop} (H : Stable P) {s : State} (h : P s) (p : Nat) : P (State.dropNewLayout s p) := by
  unfold State.dropNewLayout
  try dsimp only
  repeat' (with_reducible (first | intro _ | ((conv => arg 1; arg 27); apply H.upd) | assumption | apply freeSill_stable H | apply modPool_stable H | apply journal_stable H | dsimp only | split))

theorem undoScarf_stable {P : State → Prop} (H : Stable P) {s : State} (h : P s) (id : Nat) (p : Nat) (slot : Nat) : P (State.undoScarf s id p slot) := by
  unfold State.undoScarf
  try dsimp only
  repeat' (with_reducible (first | intro _ | ((conv => arg 1; arg 27); apply H.upd) | assumption | apply dropNewLayout_stable H | apply returnDrives_stable H | apply complete_stable H | split))

theorem scarfBegun_stable {P : State → Prop} (H : Stable P) {s : State} (h : P s) (p : Nat) : P (State.scarfBegun s p) := by
  unfold State.scarfBegun
  try dsimp only
  repeat' (with_reducible (first | intro _ | ((conv => arg 1; arg 27); apply H.upd) | assumption | apply modPool_stable H | apply sealPool_stable H | apply newDescriptor_stable H | apply complete_stable H | apply admitHeld_stable H | dsimp only | split))

theorem scarfStarting_stable {P : State → Prop} (H : Stable P) {s : State} (h : P s) (id : Nat) (p : Nat) : P (State.scarfStarting s id p) := by
  unfold State.scarfStarting
  try dsimp only
  repeat' (with_reducible (first | intro _ | ((conv => arg 1; arg 27); apply H.upd) | assumption | apply undoScarf_stable H | apply modPool_stable H | apply modScarf_stable H | apply sealPool_stable H | apply startCkpt_stable H | apply ite_stable P | dsimp only | split))

theorem copyStripe_stable {P : State → Prop} (H : Stable P) {s : State} (h : P s) (p : Nat) (n : Nat) (lost : List Nat) : P (State.copyStripe s p n lost) := by
  unfold State.copyStripe
  try dsimp only
  repeat' (with_reducible (first | intro _ | ((conv => arg 1; arg 27); apply H.upd) | assumption | apply modStripe_stable H | apply checkBroken_stable H | apply bump_stable H | apply stallScarf_stable H | apply modPool_stable H | apply ceSubmit_stable H | apply wake_stable H | apply ite_stable P | refine takeOffset_stable_of H (by assumption) ?_ | dsimp only | split))

theorem scarfCheck_stable {P : State → Prop} (H : Stable P) {s : State} (h : P s) (p : Nat) : P (State.scarfCheck s p) := by
  unfold State.scarfCheck
  try dsimp only
  repeat' (with_reducible (first | intro _ | ((conv => arg 1; arg 27); apply H.upd) | assumption | apply modScarf_stable H | apply ite_stable P | dsimp only | split))

theorem reclaimGen_stable {P : State → Prop} (H : Stable P) {s : State} (h : P s) (p : Nat) (gen : Nat) : P (State.reclaimGen s p gen) := by
  unfold State.reclaimGen
  try dsimp only
  repeat' (with_reducible (first | intro _ | ((conv => arg 1; arg 27); apply H.upd) | assumption | apply each_stable H | apply modSet_stable H | apply setBand_stable H | apply drained_stable H | apply reclaimBand_stable H | apply ite_stable P | apply each_stable P | dsimp only | split))

theorem goScarfCommit_stable {P : State → Prop} (H : Stable P) {s : State} (h : P s) (id : Nat) (c : HostCmd) : P (State.goScarfCommit s id c) := by
  unfold State.goScarfCommit
  try dsimp only
  repeat' (with_reducible (first | intro _ | ((conv => arg 1; arg 27); apply H.upd) | assumption | apply checked_stable H | apply setBody_stable H | apply modScarf_stable H | apply startCkpt_stable H | dsimp only))

theorem runScarfCommit_stable {P : State → Prop} (H : Stable P) {s : State} (h : P s) (id : Nat) (c : HostCmd) : P (State.runScarfCommit s id c) := by
  unfold State.runScarfCommit
  try dsimp only
  repeat' (with_reducible (first | intro _ | assumption | apply checked_stable H | apply inTurn_stable H | apply goScarfCommit_stable H | dsimp only))

theorem commitPoint_stable {P : State → Prop} (H : Stable P) {s : State} (h : P s) (p : Nat) : P (State.commitPoint s p) := by
  unfold State.commitPoint
  try dsimp only
  repeat' (with_reducible (first | intro _ | ((conv => arg 1; arg 27); apply H.upd) | assumption | apply complete_stable H | apply modScarf_stable H | apply each_stable H | apply modSet_stable H | apply ite_stable P | apply each_stable P | dsimp only | split))

theorem oldReclaim_stable {P : State → Prop} (H : Stable P) {s : State} (h : P s) (p : Nat) : P (State.oldReclaim s p) := by
  unfold State.oldReclaim
  try dsimp only
  repeat' (with_reducible (first | intro _ | ((conv => arg 1; arg 27); apply H.upd) | assumption | apply reclaimGen_stable H | apply ite_stable P | split))

theorem commitEnd_stable {P : State → Prop} (H : Stable P) {s : State} (h : P s) (p : Nat) (c : Scarf) : P (State.commitEnd s p c) := by
  unfold State.commitEnd
  try dsimp only
  repeat' (with_reducible (first | intro _ | ((conv => arg 1; arg 27); apply H.upd) | assumption | apply each_stable H | apply journal_stable H | apply modDrive_stable H | apply modPool_stable H | apply newDescriptor_stable H | apply each_stable P | dsimp only | split))

theorem startAbort_stable {P : State → Prop} (H : Stable P) {s : State} (h : P s) (id : Nat) (p : Nat) : P (State.startAbort s id p) := by
  unfold State.startAbort
  try dsimp only
  repeat' (with_reducible (first | intro _ | ((conv => arg 1; arg 27); apply H.upd) | assumption | apply modPool_stable H | apply complete_stable H | apply sealPool_stable H | apply newDescriptor_stable H | apply ite_stable P | dsimp only | split))

theorem goScarfAbort_stable {P : State → Prop} (H : Stable P) {s : State} (h : P s) (id : Nat) (c : HostCmd) : P (State.goScarfAbort s id c) := by
  unfold State.goScarfAbort
  try dsimp only
  repeat' (with_reducible (first | intro _ | assumption | apply checked_stable H | apply startAbort_stable H | dsimp only))

theorem runScarfAbort_stable {P : State → Prop} (H : Stable P) {s : State} (h : P s) (id : Nat) (c : HostCmd) : P (State.runScarfAbort s id c) := by
  unfold State.runScarfAbort
  try dsimp only
  repeat' (with_reducible (first | intro _ | assumption | apply checked_stable H | apply inTurn_stable H | apply goScarfAbort_stable H | dsimp only))

theorem abortCheck_stable {P : State → Prop} (H : Stable P) {s : State} (h : P s) (p : Nat) : P (State.abortCheck s p) := by
  unfold State.abortCheck
  try dsimp only
  repeat' (with_reducible (first | intro _ | ((conv => arg 1; arg 27); apply H.upd) | assumption | apply startCkpt_stable H | apply ite_stable P | dsimp only | split))

theorem abortPoint_stable {P : State → Prop} (H : Stable P) {s : State} (h : P s) (p : Nat) : P (State.abortPoint s p) := by
  unfold State.abortPoint
  try dsimp only
  repeat' (with_reducible (first | intro _ | ((conv => arg 1; arg 27); apply H.upd) | assumption | apply modScarf_stable H | apply reclaimGen_stable H | dsimp only | split))

theorem abortEnd_stable {P : State → Prop} (H : Stable P) {s : State} (h : P s) (p : Nat) (c : Scarf) : P (State.abortEnd s p c) := by
  unfold State.abortEnd
  try dsimp only
  repeat' (with_reducible (first | intro _ | assumption | apply dropNewLayout_stable H | apply returnDrives_stable H | apply newDescriptor_stable H | dsimp only))

theorem scarfHook_stable {P : State → Prop} (H : Stable P) {s : State} (h : P s)  : P (State.scarfHook s) := by
  unfold State.scarfHook
  try dsimp only
  repeat' (with_reducible (first | intro _ | ((conv => arg 1; arg 27); apply H.upd) | assumption | apply each_stable H | apply scarfStarting_stable H | apply scarfCheck_stable H | apply abortCheck_stable H | apply commitEnd_stable H | apply abortEnd_stable H | apply ite_stable P | apply each_stable P | dsimp only | split))

theorem scarfLabelFailed_stable {P : State → Prop} (H : Stable P) {s : State} (h : P s) (n : Nat) : P (State.scarfLabelFailed s n) := by
  unfold State.scarfLabelFailed
  try dsimp only
  repeat' (with_reducible (first | intro _ | ((conv => arg 1; arg 27); apply H.upd) | assumption | apply each_stable H | apply undoScarf_stable H | apply ite_stable P | apply each_stable P | dsimp only | split))

end Sys2Proof.Machine
end

