-- ==== Sys2Proof/Laws/StableResync.lean ====
section
/-! SUPPORT. What the record updates and register writes of the model keep, every operation of Machine/Resync.lean keeps (`Stable`). -/

namespace Sys2Proof.Machine

open Sys2Proof

theorem reportUnknown_stable {P : State → Prop} (H : Stable P) {s : State} (h : P s) (p : Nat) (bands : List (Nat × Nat)) : P (State.reportUnknown s p bands) := by
  unfold State.reportUnknown
  try dsimp only
  repeat' (with_reducible (first | intro _ | assumption | apply each_stable H | apply raise_stable H | apply addLoss_stable H | apply each_stable P | dsimp only))

end Sys2Proof.Machine
end

