-- ==== Sys2Proof/Laws/StableRecovery.lean ====
section
/-! SUPPORT. What the record updates and register writes of the model keep, every operation of Machine/Recovery.lean keeps (`Stable`). -/

namespace Sys2Proof.Machine

open Sys2Proof

theorem classifyBy_stable {P : State → Prop} (H : Stable P) {s : State} (h : P s) (d : DescInfo) : P (State.classifyBy s d) := by
  unfold State.classifyBy
  try dsimp only
  repeat' (with_reducible (first | intro _ | ((conv => arg 1; arg 27); apply H.upd) | assumption | apply each_stable H | apply failMember_stable H | apply modDrive_stable H | apply ite_stable P | apply each_stable P | dsimp only | split))

theorem wakeForStart_stable {P : State → Prop} (H : Stable P) {s : State} (h : P s) (p : Nat) : P (State.wakeForStart s p) := by
  unfold State.wakeForStart
  try dsimp only
  repeat' (with_reducible (first | intro _ | ((conv => arg 1; arg 27); apply H.upd) | assumption | apply journal_stable H | apply wake_stable H | dsimp only | split))

theorem adoptDesc_stable {P : State → Prop} (H : Stable P) {s : State} (h : P s) (d : DescInfo) : P (State.adoptDesc s d) := by
  unfold State.adoptDesc
  try dsimp only
  repeat' (with_reducible (first | intro _ | ((conv => arg 1; arg 27); apply H.upd) | assumption | apply setPool_stable H | apply classifyBy_stable H | apply wakeForStart_stable H | apply modPool_stable H | apply ite_stable P | dsimp only | split))

theorem loadTables_stable {P : State → Prop} (H : Stable P) {s : State} (h : P s) (p : Nat) (t : PoolTables) (f : Nat → Nat) (imported : Bool) : P (State.loadTables s p t f imported) := by
  unfold State.loadTables
  try dsimp only
  repeat' (with_reducible (first | intro _ | ((conv => arg 1; arg 27); apply H.upd) | assumption | apply ite_stable P | apply foldl_stable P | apply foldl_fst_stable P | apply foldl_snd_stable P | dsimp only | split))

theorem placeMembers_stable {P : State → Prop} (H : Stable P) {s : State} (h : P s) (p : Nat) (ms : List MemberEntry) : P (State.placeMembers s p ms) := by
  unfold State.placeMembers
  try dsimp only
  repeat' (with_reducible (first | intro _ | ((conv => arg 1; arg 27); apply H.upd) | assumption | apply each_stable H | apply modDrive_stable H | apply degradeSet_stable H | apply ite_stable P | apply each_stable P | dsimp only | split))

theorem takeProt_stable {P : State → Prop} (H : Stable P) {s : State} (h : P s) (g : Option (Nat × Nat × Tab ProtEntry)) : P (State.takeProt s g) := by
  unfold State.takeProt
  try dsimp only
  repeat' (with_reducible (first | intro _ | ((conv => arg 1; arg 27); first | apply H.upd | apply H.updSec) | assumption | apply ite_stable P | apply foldl_stable P | apply foldl_fst_stable P | apply foldl_snd_stable P | dsimp only | split))

theorem voidPlaced_stable {P : State → Prop} (H : Stable P) {s : State} (h : P s) (p : Nat) (placed : List (Nat × Nat)) : P (State.voidPlaced s p placed) := by
  unfold State.voidPlaced
  try dsimp only
  repeat' (with_reducible (first | intro _ | assumption | apply each_stable H | apply voidEntry_stable H | apply each_stable P | dsimp only))

theorem rewriteSealed_stable {P : State → Prop} (H : Stable P) {s : State} (h : P s) (p : Nat) (n : Nat) (matching : List Nat) (past : Bool) : P (State.rewriteSealed s p n matching past) := by
  unfold State.rewriteSealed
  try dsimp only
  repeat' (with_reducible (first | intro _ | ((conv => arg 1; arg 27); apply H.upd) | assumption | apply modStripe_stable H | apply moveSealed_stable H | apply ceSubmit_stable H | apply ite_stable P | dsimp only | split))

theorem replayWindow_stable {P : State → Prop} (H : Stable P) {s : State} (h : P s) (p : Nat) (r : RecoveryInfo) : P (State.replayWindow s p r) := by
  unfold State.replayWindow
  try dsimp only
  repeat' (with_reducible (first | intro _ | ((conv => arg 1; arg 27); apply H.upd) | assumption | apply each_stable H | apply journal_stable H | apply rewriteSealed_stable H | apply modStripe_stable H | apply driveOut_stable H | apply ite_stable P | apply each_stable P | dsimp only | split))

theorem endLayer_stable {P : State → Prop} (H : Stable P) {s : State} (h : P s) (p : Nat) (layer : Nat) : P (State.endLayer s p layer) := by
  unfold State.endLayer
  try dsimp only
  repeat' (with_reducible (first | intro _ | ((conv => arg 1; arg 27); apply H.upd) | assumption | apply modPool_stable H | apply startCkpt_stable H | dsimp only))

theorem dropWindow_stable {P : State → Prop} (H : Stable P) {s : State} (h : P s) (p : Nat) : P (State.dropWindow s p) := by
  unfold State.dropWindow
  try dsimp only
  repeat' (with_reducible (first | intro _ | ((conv => arg 1; arg 27); apply H.upd) | assumption | apply modPool_stable H | dsimp only))

theorem keepFound_stable {P : State → Prop} (H : Stable P) {s : State} (h : P s) (p : Nat) (n : Nat) (t : Stripe) (repaired : Bool) : P (State.keepFound s p n t repaired) := by
  unfold State.keepFound
  try dsimp only
  repeat' (with_reducible (first | intro _ | ((conv => arg 1; arg 27); apply H.upd) | assumption | apply setStripe_stable H | apply modPool_stable H | apply modSet_stable H | apply each_stable H | apply setBand_stable H | apply ite_stable P | apply each_stable P | dsimp only | split))

theorem takeScans_stable {P : State → Prop} (H : Stable P) {s : State} (h : P s) (x : Pool) (scans : List Scan) (found : List (FoundChunk × Scan)) : P (State.takeScans s x scans found) := by
  unfold State.takeScans
  try dsimp only
  repeat' (with_reducible (first | intro _ | ((conv => arg 1; arg 27); apply H.upd) | assumption | apply each_stable H | apply setBand_stable H | apply modSet_stable H | apply ite_stable P | apply each_stable P | apply foldl_stable P | apply foldl_fst_stable P | apply foldl_snd_stable P | dsimp only | split))

theorem rewriteFound_stable {P : State → Prop} (H : Stable P) {s : State} (h : P s) (p : Nat) (v : Verdict) : P (State.rewriteFound s p v) := by
  unfold State.rewriteFound
  try dsimp only
  repeat' (with_reducible (first | intro _ | ((conv => arg 1; arg 27); apply H.upd) | assumption | apply relocate_stable H | apply wake_stable H | apply each_stable H | apply driveOut_stable H | apply ite_stable P | apply each_stable P | dsimp only | split))

theorem applyVerdict_stable {P : State → Prop} (H : Stable P) {s : State} (h : P s) (p : Nat) (x : Pool) (r : RecoveryInfo) (v : Verdict) : P (State.applyVerdict s p x r v) := by
  unfold State.applyVerdict
  try dsimp only
  repeat' (with_reducible (first | intro _ | ((conv => arg 1; arg 27); apply H.upd) | assumption | apply keepFound_stable H | apply modPool_stable H | apply rewriteFound_stable H | apply ite_stable P | dsimp only | split))

theorem reportLoss_stable {P : State → Prop} (H : Stable P) {s : State} (h : P s) (p : Nat) (r : RecoveryInfo) (ckptTime : Nat) (unreadable : Bool) (lost : List Nat) (unconfirmed : List Nat) : P (State.reportLoss s p r ckptTime unreadable lost unconfirmed) := by
  unfold State.reportLoss
  try dsimp only
  repeat' (with_reducible (first | intro _ | ((conv => arg 1; arg 27); apply H.upd) | assumption | apply each_stable H | apply addLoss_stable H | apply raise_stable H | apply ite_stable P | apply each_stable P | dsimp only | split))

theorem resync_stable {P : State → Prop} (H : Stable P) {s : State} (h : P s) (p : Nat) (r : RecoveryInfo) (unreadable : Bool) : P (State.resync s p r unreadable) := by
  unfold State.resync
  try dsimp only
  repeat' (with_reducible (first | intro _ | ((conv => arg 1; arg 27); apply H.upd) | assumption | apply dropWindow_stable H | apply takeScans_stable H | apply each_stable H | apply applyVerdict_stable H | apply modPool_stable H | apply reportLoss_stable H | apply endLayer_stable H | apply ite_stable P | apply each_stable P | apply foldl_stable P | apply foldl_fst_stable P | apply foldl_snd_stable P | dsimp only | split))

theorem settleCommit_stable {P : State → Prop} (H : Stable P) {s : State} (h : P s) (p : Nat) (r : RecoveryInfo) : P (State.settleCommit s p r) := by
  unfold State.settleCommit
  try dsimp only
  repeat' (with_reducible (first | intro _ | ((conv => arg 1; arg 27); apply H.upd) | assumption | apply modScarf_stable H | apply commitPoint_stable H | apply ite_stable P | dsimp only | split))

theorem takePending_stable {P : State → Prop} (H : Stable P) {s : State} (h : P s) (p : Nat) (l : List PendRel) : P (State.takePending s p l) := by
  unfold State.takePending
  try dsimp only
  repeat' (with_reducible (first | intro _ | ((conv => arg 1; arg 27); apply H.upd) | assumption | dsimp only))

theorem loadPool_stable {P : State → Prop} (H : Stable P) {s : State} (h : P s) (p : Nat) (r : RecoveryInfo) (t : PoolTables) : P (State.loadPool s p r t) := by
  unfold State.loadPool
  try dsimp only
  repeat' (with_reducible (first | intro _ | ((conv => arg 1; arg 27); first | apply H.upd | apply H.updSec) | assumption | apply loadTables_stable H | apply modPool_stable H | apply takePending_stable H | apply placeMembers_stable H | apply reportUnknown_stable H | dsimp only | split))

theorem takeJournal_stable {P : State → Prop} (H : Stable P) {s : State} (h : P s) (p : Nat) (r : RecoveryInfo) : P (State.takeJournal s p r) := by
  unfold State.takeJournal
  try dsimp only
  repeat' (with_reducible (first | intro _ | assumption | apply modPool_stable H | dsimp only))

theorem takeWaiting_stable {P : State → Prop} (H : Stable P) {s : State} (h : P s) (p : Nat) (e : EbbImage) : P (State.takeWaiting s p e) := by
  unfold State.takeWaiting
  try dsimp only
  repeat' (with_reducible (first | intro _ | ((conv => arg 1; arg 27); apply H.upd) | assumption | dsimp only))

theorem restorePool_stable {P : State → Prop} (H : Stable P) {s : State} (h : P s) (p : Nat) (r : RecoveryInfo) (e : EbbImage) (t : PoolTables) : P (State.restorePool s p r e t) := by
  unfold State.restorePool
  try dsimp only
  repeat' (with_reducible (first | intro _ | ((conv => arg 1; arg 27); apply H.upd) | assumption | apply loadPool_stable H | apply takeWaiting_stable H | apply voidPlaced_stable H | apply modPool_stable H | apply settleCommit_stable H | apply replayWindow_stable H | apply takeJournal_stable H | apply endLayer_stable H | dsimp only))

theorem recoverLate_stable {P : State → Prop} (H : Stable P) {s : State} (h : P s) (p : Nat) (r : RecoveryInfo) : P (State.recoverLate s p r) := by
  unfold State.recoverLate
  try dsimp only
  repeat' (with_reducible (first | intro _ | ((conv => arg 1; arg 27); apply H.upd) | assumption | apply journal_stable H | apply resync_stable H | apply takeJournal_stable H | dsimp only | split))

theorem recoverMirror_stable {P : State → Prop} (H : Stable P) {s : State} (h : P s) (p : Nat) (r : RecoveryInfo) : P (State.recoverMirror s p r) := by
  unfold State.recoverMirror
  try dsimp only
  repeat' (with_reducible (first | intro _ | ((conv => arg 1; arg 27); apply H.upd) | assumption | apply dropWindow_stable H | apply each_stable H | apply setStripe_stable H | apply modPool_stable H | apply voidPlaced_stable H | apply replayWindow_stable H | apply takeJournal_stable H | apply endLayer_stable H | apply each_stable P | dsimp only))

theorem awaitMirror_stable {P : State → Prop} (H : Stable P) {s : State} (h : P s) (p : Nat) (r : RecoveryInfo) : P (State.awaitMirror s p r) := by
  unfold State.awaitMirror
  try dsimp only
  repeat' (with_reducible (first | intro _ | ((conv => arg 1; arg 27); apply H.upd) | assumption | apply modPool_stable H | apply sendFrame_stable H | apply ite_stable P | dsimp only | split))

theorem recoverSearch_stable {P : State → Prop} (H : Stable P) {s : State} (h : P s) (p : Nat) (r : RecoveryInfo) (t : PoolTables) : P (State.recoverSearch s p r t) := by
  unfold State.recoverSearch
  try dsimp only
  repeat' (with_reducible (first | intro _ | assumption | apply loadPool_stable H | apply awaitMirror_stable H | apply recoverLate_stable H | apply ite_stable P | dsimp only | split))

theorem recoverPool_stable {P : State → Prop} (H : Stable P) {s : State} (h : P s) (p : Nat) (r : RecoveryInfo) : P (State.recoverPool s p r) := by
  unfold State.recoverPool
  try dsimp only
  repeat' (with_reducible (first | intro _ | ((conv => arg 1; arg 27); apply H.upd) | assumption | apply adoptDesc_stable H | apply modPool_stable H | apply takeProt_stable H | apply placeMembers_stable H | apply settleCommit_stable H | apply journal_stable H | apply endLayer_stable H | apply voidPlaced_stable H | apply replayWindow_stable H | apply raise_stable H | apply loadPool_stable H | apply dropWindow_stable H | apply takeJournal_stable H | apply restorePool_stable H | apply recoverSearch_stable H | apply ite_stable P | dsimp only | split))

theorem endWait_stable {P : State → Prop} (H : Stable P) {s : State} (h : P s) (p : Nat) : P (State.endWait s p) := by
  unfold State.endWait
  try dsimp only
  repeat' (with_reducible (first | intro _ | ((conv => arg 1; arg 27); apply H.upd) | assumption | apply recoverLate_stable H | apply ite_stable P | split))

theorem consumeImage_stable {P : State → Prop} (H : Stable P) {s : State} (h : P s)  : P (State.consumeImage s) := by
  unfold State.consumeImage
  try dsimp only
  repeat' (with_reducible (first | intro _ | ((conv => arg 1; arg 27); apply H.upd) | assumption | apply each_stable H | apply setEbSlot_stable H | apply ebErase_stable H | apply ite_stable P | apply each_stable P | dsimp only | split))

theorem recovered_stable {P : State → Prop} (H : Stable P) {s : State} (h : P s) (p : Nat) : P (State.recovered s p) := by
  unfold State.recovered
  try dsimp only
  repeat' (with_reducible (first | intro _ | ((conv => arg 1; arg 27); apply H.upd) | assumption | apply modPool_stable H | apply gradePool_stable H | apply newDescriptor_stable H | apply keepReserved_stable H | apply tideStart_stable H | apply consumeImage_stable H | apply substitute_stable H | apply admitHeld_stable H | dsimp only))

theorem goPoolRecover_stable {P : State → Prop} (H : Stable P) {s : State} (h : P s) (id : Nat) (c : HostCmd) : P (State.goPoolRecover s id c) := by
  unfold State.goPoolRecover
  try dsimp only
  repeat' (with_reducible (first | intro _ | ((conv => arg 1; arg 27); apply H.upd) | assumption | apply checked_stable H | apply complete_stable H | apply endWait_stable H | dsimp only | split))

theorem runPoolRecover_stable {P : State → Prop} (H : Stable P) {s : State} (h : P s) (id : Nat) (c : HostCmd) : P (State.runPoolRecover s id c) := by
  unfold State.runPoolRecover
  try dsimp only
  repeat' (with_reducible (first | intro _ | assumption | apply checked_stable H | apply inTurn_stable H | apply goPoolRecover_stable H | dsimp only))

end Sys2Proof.Machine
end

