-- ==== Sys2Proof/Laws/StableSecurity.lean ====
section
/-! SUPPORT. What the record updates and register writes of the model keep, every operation of Machine/Security.lean keeps (`Stable`). -/

namespace Sys2Proof.Machine

open Sys2Proof

theorem dropStaged_stable {P : State → Prop} (H : Stable P) {s : State} (h : P s)  : P (State.dropStaged s) := by
  unfold State.dropStaged
  try dsimp only
  repeat' (with_reducible (first | intro _ | ((conv => arg 1; arg 27); apply H.upd) | assumption | apply ite_stable P | dsimp only | split))

theorem endSession_stable {P : State → Prop} (H : Stable P) {s : State} (h : P s) (cause : Nat) : P (State.endSession s cause) := by
  unfold State.endSession
  try dsimp only
  repeat' (with_reducible (first | intro _ | ((conv => arg 1; arg 27); first | apply H.upd | apply H.updSec) | assumption | apply dropStaged_stable H | apply raise_stable H | apply ite_stable P | dsimp only | split))

theorem endSessionOn_stable {P : State → Prop} (H : Stable P) {s : State} (h : P s) (x : Nat) (cause : Nat) : P (State.endSessionOn s x cause) := by
  unfold State.endSessionOn
  try dsimp only
  repeat' (with_reducible (first | intro _ | assumption | apply endSession_stable H | apply ite_stable P | split))

theorem goSessionOpen_stable {P : State → Prop} (H : Stable P) {s : State} (h : P s) (id : Nat) (c : HostCmd) : P (State.goSessionOpen s id c) := by
  unfold State.goSessionOpen
  try dsimp only
  repeat' (with_reducible (first | intro _ | ((conv => arg 1; arg 27); first | apply H.upd | apply H.updSec) | assumption | apply draw_stable H | apply toHost_stable H | apply complete_stable H | dsimp only))

theorem runSessionOpen_stable {P : State → Prop} (H : Stable P) {s : State} (h : P s) (id : Nat) (c : HostCmd) : P (State.runSessionOpen s id c) := by
  unfold State.runSessionOpen
  try dsimp only
  repeat' (with_reducible (first | intro _ | assumption | apply checked_stable H | apply inTurn_stable H | apply goSessionOpen_stable H | dsimp only))

theorem dropChallenge_stable {P : State → Prop} (H : Stable P) {s : State} (h : P s) (x : Nat) : P (State.dropChallenge s x) := by
  unfold State.dropChallenge
  try dsimp only
  repeat' (with_reducible (first | intro _ | ((conv => arg 1; arg 27); first | apply H.upd | apply H.updSec) | assumption))

theorem goSessionProve_stable {P : State → Prop} (H : Stable P) {s : State} (h : P s) (id : Nat) (c : HostCmd) : P (State.goSessionProve s id c) := by
  unfold State.goSessionProve
  try dsimp only
  repeat' (with_reducible (first | intro _ | ((conv => arg 1; arg 27); first | apply H.upd | apply H.updSec) | assumption | apply dropChallenge_stable H | apply complete_stable H | apply endSession_stable H | apply raise_stable H | apply bump_stable H | apply ite_stable P | dsimp only | split))

theorem runSessionProve_stable {P : State → Prop} (H : Stable P) {s : State} (h : P s) (id : Nat) (c : HostCmd) : P (State.runSessionProve s id c) := by
  unfold State.runSessionProve
  try dsimp only
  repeat' (with_reducible (first | intro _ | assumption | apply checked_stable H | apply inTurn_stable H | apply goSessionProve_stable H | dsimp only))

theorem goSessionClose_stable {P : State → Prop} (H : Stable P) {s : State} (h : P s) (id : Nat) (c : HostCmd) : P (State.goSessionClose s id c) := by
  unfold State.goSessionClose
  try dsimp only
  repeat' (with_reducible (first | intro _ | assumption | apply endSession_stable H | apply complete_stable H | apply ite_stable P | split))

theorem runSessionClose_stable {P : State → Prop} (H : Stable P) {s : State} (h : P s) (id : Nat) (c : HostCmd) : P (State.runSessionClose s id c) := by
  unfold State.runSessionClose
  try dsimp only
  repeat' (with_reducible (first | intro _ | assumption | apply checked_stable H | apply inTurn_stable H | apply goSessionClose_stable H | dsimp only))

theorem goProtectSet_stable {P : State → Prop} (H : Stable P) {s : State} (h : P s) (id : Nat) (c : HostCmd) : P (State.goProtectSet s id c) := by
  unfold State.goProtectSet
  try dsimp only
  repeat' (with_reducible (first | intro _ | ((conv => arg 1; arg 27); first | apply H.upd | apply H.updSec) | assumption | apply complete_stable H | apply setBody_stable H | apply ite_stable P | dsimp only | split))

theorem runProtectSet_stable {P : State → Prop} (H : Stable P) {s : State} (h : P s) (id : Nat) (c : HostCmd) : P (State.runProtectSet s id c) := by
  unfold State.runProtectSet
  try dsimp only
  repeat' (with_reducible (first | intro _ | assumption | apply checked_stable H | apply inTurn_stable H | apply goProtectSet_stable H | dsimp only))

theorem goProtectCommit_stable {P : State → Prop} (H : Stable P) {s : State} (h : P s) (id : Nat) : P (State.goProtectCommit s id) := by
  unfold State.goProtectCommit
  try dsimp only
  repeat' (with_reducible (first | intro _ | ((conv => arg 1; arg 27); first | apply H.upd | apply H.updSec) | assumption | apply complete_stable H | apply each_stable H | apply modPool_stable H | apply wake_stable H | apply writeProt_stable H | apply setBody_stable H | apply ite_stable P | apply each_stable P | dsimp only | split))

theorem runProtectCommit_stable {P : State → Prop} (H : Stable P) {s : State} (h : P s) (id : Nat) (c : HostCmd) : P (State.runProtectCommit s id c) := by
  unfold State.runProtectCommit
  try dsimp only
  repeat' (with_reducible (first | intro _ | assumption | apply checked_stable H | apply inTurn_stable H | apply goProtectCommit_stable H | dsimp only))

theorem protHook_stable {P : State → Prop} (H : Stable P) {s : State} (h : P s)  : P (State.protHook s) := by
  unfold State.protHook
  try dsimp only
  repeat' (with_reducible (first | intro _ | ((conv => arg 1; arg 27); first | apply H.upd | apply H.updSec) | assumption | apply each_stable H | apply modPool_stable H | apply complete_stable H | apply ite_stable P | apply each_stable P | dsimp only | split))

theorem protWritten_stable {P : State → Prop} (H : Stable P) {s : State} (h : P s) (p : Nat) (n : Nat) : P (State.protWritten s p n) := by
  unfold State.protWritten
  try dsimp only
  repeat' (with_reducible (first | intro _ | ((conv => arg 1; arg 27); apply H.upd) | assumption | apply modPool_stable H | apply protHook_stable H | dsimp only))

theorem enrollResult_stable {P : State → Prop} (H : Stable P) {s : State} (h : P s) (r : Nat) : P (State.enrollResult s r) := by
  unfold State.enrollResult
  try dsimp only
  repeat' (with_reducible (first | intro _ | assumption | apply setFld_stable H))

theorem enrollGo_stable {P : State → Prop} (H : Stable P) {s : State} (h : P s) (port : Nat) : P (State.enrollGo s port) := by
  unfold State.enrollGo
  try dsimp only
  repeat' (with_reducible (first | intro _ | ((conv => arg 1; arg 27); first | apply H.upd | apply H.updSec) | assumption | apply each_stable H | apply setReg_stable H | apply enrollResult_stable H | apply ite_stable P | apply each_stable P | dsimp only | split))

theorem enrollCtlWrite_stable {P : State → Prop} (H : Stable P) {s : State} (h : P s) (port : Nat) (v : Word) : P (State.enrollCtlWrite s port v) := by
  unfold State.enrollCtlWrite
  try dsimp only
  repeat' (with_reducible (first | intro _ | assumption | apply gatedEvent_stable H | apply writeByType_stable H | apply enrollGo_stable H | apply ite_stable P | dsimp only | split))

theorem blow_stable {P : State → Prop} (H : Stable P) {s : State} (h : P s) (fs : List Nat) : P (s.blow fs) := H.blow h fs

theorem enrol_stable {P : State → Prop} (H : Stable P) {s : State} (h : P s) (index : Nat) (key : BitVec 256) : P (s.enrol index key) := H.enrol h index key

theorem useArea_stable {P : State → Prop} (H : Stable P) {s : State} (h : P s) (index : Nat) : P (State.useArea s index) := by
  unfold State.useArea
  try dsimp only
  repeat' (with_reducible (first | intro _ | ((conv => arg 1; arg 27); first | apply H.upd | apply H.updSec) | assumption))

theorem fuseDone_stable {P : State → Prop} (H : Stable P) {s : State} (h : P s) (ok : Bool) : P (State.fuseDone s ok) := by
  unfold State.fuseDone
  try dsimp only
  repeat' (with_reducible (first | intro _ | ((conv => arg 1; arg 27); first | apply H.upd | apply H.updSec) | assumption | apply useArea_stable H | apply enrollResult_stable H | apply enrol_stable H | apply blow_stable H | apply raise_stable H | apply endSession_stable H | apply ite_stable P | dsimp only | split))

theorem enrollKeyWrite_stable {P : State → Prop} (H : Stable P) {s : State} (h : P s) (port : Nat) (a : Nat) (v : Word) : P (State.enrollKeyWrite s port a v) := by
  unfold State.enrollKeyWrite
  try dsimp only
  repeat' (with_reducible (first | intro _ | assumption | apply gatedEvent_stable H | apply setReg_stable H | apply ite_stable P | split))

theorem runAttest_stable {P : State → Prop} (H : Stable P) {s : State} (h : P s) (id : Nat) (c : HostCmd) : P (State.runAttest s id c) := by
  unfold State.runAttest
  try dsimp only
  repeat' (with_reducible (first | intro _ | assumption | apply checked_stable H | apply draw_stable H | apply toHost_stable H | apply complete_stable H | dsimp only))

end Sys2Proof.Machine
end

