-- ==== Sys2Proof/Laws/StableQueueCommands.lean ====
section
/-! SUPPORT. What the record updates and register writes of the model keep, every operation of Machine/QueueCommands.lean keeps (`Stable`). -/

namespace Sys2Proof.Machine

open Sys2Proof

theorem bindQueue_stable_of {P : State → Prop} (H : Stable P) {s t : State} {x loc q : Nat} (e : s.bindQueue x loc = some (q, t))
    (h : P s) : P t := by
  unfold State.bindQueue at e
  split at e
  · cases e
    exact h
  · dsimp only at e
    split at e
    · cases e
    · cases e
      exact H.upd h


theorem makeQueue_stable {P : State → Prop} (H : Stable P) {s : State} (h : P s) (c : HostCmd) (q : Nat) : P (State.makeQueue s c q) := by
  unfold State.makeQueue
  try dsimp only
  repeat' (with_reducible (first | intro _ | ((conv => arg 1; arg 27); apply H.upd) | assumption | apply modDq_stable H | apply ite_stable P | dsimp only | split))

theorem runQueueCreate_stable {P : State → Prop} (H : Stable P) {s : State} (h : P s) (id : Nat) (c : HostCmd) : P (State.runQueueCreate s id c) := by
  unfold State.runQueueCreate
  try dsimp only
  repeat' (with_reducible (first | intro _ | ((conv => arg 1; arg 27); apply H.upd) | assumption | apply checked_stable H | apply makeQueue_stable H | apply complete_stable H | refine bindQueue_stable_of H (by assumption) ?_ | dsimp only | split))

theorem runQueueDelete_stable {P : State → Prop} (H : Stable P) {s : State} (h : P s) (id : Nat) (c : HostCmd) : P (State.runQueueDelete s id c) := by
  unfold State.runQueueDelete
  try dsimp only
  repeat' (with_reducible (first | intro _ | ((conv => arg 1; arg 27); apply H.upd) | assumption | apply checked_stable H | apply setBody_stable H | apply settle_stable H | apply settleCtlq_stable H | apply complete_stable H | apply dropCq_stable H | apply ite_stable P | dsimp only | split))

theorem enableCtlq_stable {P : State → Prop} (H : Stable P) {s : State} (h : P s) (x : Nat) (v : Word) : P (State.enableCtlq s x v) := by
  unfold State.enableCtlq
  try dsimp only
  repeat' (with_reducible (first | intro _ | ((conv => arg 1; arg 27); apply H.upd) | assumption | apply setFn_stable H | apply fnError_stable H | apply modDq_stable H | apply ite_stable P | refine bindQueue_stable_of H (by assumption) ?_ | dsimp only | split))

theorem disableCtlq_stable {P : State → Prop} (H : Stable P) {s : State} (h : P s) (x : Nat) : P (State.disableCtlq s x) := by
  unfold State.disableCtlq
  try dsimp only
  repeat' (with_reducible (first | intro _ | ((conv => arg 1; arg 27); apply H.upd) | assumption | apply fnError_stable H | apply setFn_stable H | apply settleCtlq_stable H | apply ite_stable P | dsimp only | split))

theorem strayDoorbell_stable {P : State → Prop} (H : Stable P) {s : State} (h : P s) (x : Nat) (n : Nat) : P (State.strayDoorbell s x n) := by
  unfold State.strayDoorbell
  try dsimp only
  repeat' (with_reducible (first | intro _ | ((conv => arg 1; arg 27); apply H.upd) | assumption | apply fnError_stable H | apply setFn_stable H | apply raise_stable H | apply ite_stable P | dsimp only | split))

theorem sqTail_stable {P : State → Prop} (H : Stable P) {s : State} (h : P s) (x : Nat) (n : Nat) (t : Word) : P (State.sqTail s x n t) := by
  unfold State.sqTail
  try dsimp only
  repeat' (with_reducible (first | intro _ | ((conv => arg 1; arg 27); apply H.upd) | assumption | apply strayDoorbell_stable H | apply modSq_stable H | apply fnError_stable H | apply ite_stable P | dsimp only | split))

theorem cqHead_stable {P : State → Prop} (H : Stable P) {s : State} (h : P s) (x : Nat) (n : Nat) (t : Word) : P (State.cqHead s x n t) := by
  unfold State.cqHead
  try dsimp only
  repeat' (with_reducible (first | intro _ | ((conv => arg 1; arg 27); apply H.upd) | assumption | apply strayDoorbell_stable H | apply modCq_stable H | apply cqRefill_stable H | apply breakwaterOpen_stable H | apply cqSignal_stable H | apply fnError_stable H | apply ite_stable P | dsimp only | split))

theorem keepOrphan_stable {P : State → Prop} (H : Stable P) {s : State} (h : P s) (o : Option Orphan) : P (State.keepOrphan s o) := by
  unfold State.keepOrphan
  try dsimp only
  repeat' (with_reducible (first | intro _ | ((conv => arg 1; arg 27); apply H.upd) | assumption | apply bump_stable H | apply voidEntry_stable H | apply releaseItem_stable H | apply ite_stable P | dsimp only | split))

theorem dropCmd_stable {P : State → Prop} (H : Stable P) {s : State} (h : P s) (id : Nat) : P (State.dropCmd s id) := by
  unfold State.dropCmd
  try dsimp only
  repeat' (with_reducible (first | intro _ | ((conv => arg 1; arg 27); apply H.upd) | assumption))

theorem silence_stable {P : State → Prop} (H : Stable P) {s : State} (h : P s) (id : Nat) : P (State.silence s id) := by
  unfold State.silence
  try dsimp only
  repeat' (with_reducible (first | intro _ | ((conv => arg 1; arg 27); apply H.upd) | assumption | dsimp only))

theorem resetCmd_stable {P : State → Prop} (H : Stable P) {s : State} (h : P s) (id : Nat) : P (State.resetCmd s id) := by
  unfold State.resetCmd
  try dsimp only
  repeat' (with_reducible (first | intro _ | ((conv => arg 1; arg 27); apply H.upd) | assumption | apply silence_stable H | apply keepOrphan_stable H | apply dropCmd_stable H | apply failAppend_stable H | apply each_stable H | apply ite_stable P | apply each_stable P | dsimp only | split))

theorem spillOrphans_stable {P : State → Prop} (H : Stable P) {s : State} (h : P s) (x : Nat) : P (State.spillOrphans s x) := by
  unfold State.spillOrphans
  try dsimp only
  repeat' (with_reducible (first | intro _ | ((conv => arg 1; arg 27); apply H.upd) | assumption | apply each_stable H | apply keepOrphan_stable H | apply each_stable P | dsimp only | split))

theorem resetFn_stable {P : State → Prop} (H : Stable P) {s : State} (h : P s) (x : Nat) (cause : Nat) : P (State.resetFn s x cause) := by
  unfold State.resetFn
  try dsimp only
  repeat' (with_reducible (first | intro _ | ((conv => arg 1; arg 27); apply H.upd) | assumption | apply each_stable H | apply resetCmd_stable H | apply spillOrphans_stable H | apply setFn_stable H | apply endSessionOn_stable H | apply each_stable P | dsimp only))

theorem resetFunction_stable {P : State → Prop} (H : Stable P) {s : State} (h : P s) (x : Nat) (cause : FnResetCause) : P (State.resetFunction s x cause) := by
  unfold State.resetFunction
  try dsimp only
  repeat' (with_reducible (first | intro _ | ((conv => arg 1; arg 27); apply H.upd) | assumption | apply each_stable H | apply resetFn_stable H | apply setFn_stable H | apply ite_stable P | apply each_stable P | dsimp only | split))

theorem linkGone_stable {P : State → Prop} (H : Stable P) {s : State} (h : P s) (port : Nat) (link : Nat) : P (State.linkGone s port link) := by
  unfold State.linkGone
  try dsimp only
  repeat' (with_reducible (first | intro _ | ((conv => arg 1; arg 27); apply H.upd) | assumption | apply setFld_stable H | apply each_stable H | apply setFn_stable H | apply ite_stable P | apply each_stable P | dsimp only | split))

theorem resetPort_stable {P : State → Prop} (H : Stable P) {s : State} (h : P s) (port : Nat) (link : Nat) : P (State.resetPort s port link) := by
  unfold State.resetPort
  try dsimp only
  repeat' (with_reducible (first | intro _ | assumption | apply each_stable H | apply resetFn_stable H | apply linkGone_stable H | apply each_stable P | dsimp only))

theorem linkTrained_stable {P : State → Prop} (H : Stable P) {s : State} (h : P s) (port : Nat) (link : Nat) (rate : Nat) (width : Nat) (flit : Bool) : P (State.linkTrained s port link rate width flit) := by
  unfold State.linkTrained
  try dsimp only
  repeat' (with_reducible (first | intro _ | ((conv => arg 1; arg 27); apply H.upd) | assumption | apply setFld_stable H | apply each_stable H | apply setFn_stable H | apply ite_stable P | apply each_stable P | dsimp only | split))

theorem runOrphanList_stable {P : State → Prop} (H : Stable P) {s : State} (h : P s) (id : Nat) (c : HostCmd) : P (State.runOrphanList s id c) := by
  unfold State.runOrphanList
  try dsimp only
  repeat' (with_reducible (first | intro _ | ((conv => arg 1; arg 27); apply H.upd) | assumption | apply checked_stable H | apply toHost_stable H | apply complete_stable H | dsimp only | split))

theorem dropOrphan_stable {P : State → Prop} (H : Stable P) {s : State} (h : P s) (o : Orphan) : P (State.dropOrphan s o) := by
  unfold State.dropOrphan
  try dsimp only
  repeat' (with_reducible (first | intro _ | ((conv => arg 1; arg 27); apply H.upd) | assumption))

theorem settleOrphan_stable {P : State → Prop} (H : Stable P) {s : State} (h : P s) (x : Nat) (release : Bool) (pool : Nat) (seq : Nat) : P (State.settleOrphan s x release pool seq).2 := by
  unfold State.settleOrphan
  try dsimp only
  repeat' (with_reducible (first | intro _ | ((conv => arg 1; arg 27); apply H.upd) | assumption | apply dropOrphan_stable H | apply releaseItem_stable H | apply ite_stable P | dsimp only | split))

theorem runOrphanSettle_stable {P : State → Prop} (H : Stable P) {s : State} (h : P s) (id : Nat) (c : HostCmd) : P (State.runOrphanSettle s id c) := by
  unfold State.runOrphanSettle
  try dsimp only
  repeat' (with_reducible (first | intro _ | assumption | apply checked_stable H | apply settleOrphan_stable H | apply complete_stable H | apply foldl_stable P | apply foldl_fst_stable P | apply foldl_snd_stable P | dsimp only))

end Sys2Proof.Machine
end

