-- ==== Sys2Proof/Laws/StableDrives.lean ====
section
/-! SUPPORT. What the record updates and register writes of the model keep, every operation of Machine/Drives.lean keeps (`Stable`). -/

namespace Sys2Proof.Machine

open Sys2Proof

theorem setSlot_stable {P : State → Prop} (H : Stable P) {s : State} (h : P s) (n : Nat) (x : Slot) : P (State.setSlot s n x) := by
  unfold State.setSlot
  try dsimp only
  repeat' (with_reducible (first | intro _ | ((conv => arg 1; arg 27); apply H.upd) | assumption))

theorem laneDomain_stable {P : State → Prop} (H : Stable P) {s : State} (h : P s) (n : Nat) : P (State.laneDomain s n) := by
  unfold State.laneDomain
  try dsimp only
  repeat' (with_reducible (first | intro _ | ((conv => arg 1; arg 27); apply H.upd) | assumption | apply setDomain_stable H | apply ite_stable P | dsimp only | split))

theorem sendStandby_stable {P : State → Prop} (H : Stable P) {s : State} (h : P s) (slots : List Nat) : P (State.sendStandby s slots) := by
  unfold State.sendStandby
  try dsimp only
  repeat' (with_reducible (first | intro _ | ((conv => arg 1; arg 27); apply H.upd) | assumption | apply each_stable H | apply driveOut_stable H | apply modSlot_stable H | apply ite_stable P | apply each_stable P | dsimp only | split))

theorem groupIdle_stable {P : State → Prop} (H : Stable P) {s : State} (h : P s) (g : Nat) : P (State.groupIdle s g) := by
  unfold State.groupIdle
  try dsimp only
  repeat' (with_reducible (first | intro _ | assumption | apply sendStandby_stable H | apply ite_stable P | dsimp only | split))

theorem standbyDone_stable {P : State → Prop} (H : Stable P) {s : State} (h : P s) (g : Nat) : P (State.standbyDone s g) := by
  unfold State.standbyDone
  try dsimp only
  repeat' (with_reducible (first | intro _ | ((conv => arg 1; arg 27); apply H.upd) | assumption | apply each_stable H | apply modSlot_stable H | apply wake_stable H | apply each_stable P | dsimp only | split))

theorem readsReplan_stable {P : State → Prop} (H : Stable P) {s : State} (h : P s)  : P (State.readsReplan s) := by
  unfold State.readsReplan
  try dsimp only
  repeat' (with_reducible (first | intro _ | ((conv => arg 1; arg 27); apply H.upd) | assumption | apply each_stable H | apply issueRead_stable H | apply setRead_stable H | apply readReady_stable H | apply ite_stable P | apply each_stable P | dsimp only | split))

theorem linkLost_stable {P : State → Prop} (H : Stable P) {s : State} (h : P s) (n : Nat) : P (State.linkLost s n) := by
  unfold State.linkLost
  try dsimp only
  repeat' (with_reducible (first | intro _ | ((conv => arg 1; arg 27); apply H.upd) | assumption | apply modSlot_stable H | apply modDrive_stable H | apply each_stable H | apply endPass_stable H | apply each_stable P | dsimp only | split))

theorem unhold_stable {P : State → Prop} (H : Stable P) {s : State} (h : P s)  : P (State.unhold s) := by
  unfold State.unhold
  try dsimp only
  repeat' (with_reducible (first | intro _ | ((conv => arg 1; arg 27); apply H.upd) | assumption | apply each_stable H | apply modSet_stable H | apply ite_stable P | apply each_stable P | dsimp only | split))

theorem releaseWrites_stable {P : State → Prop} (H : Stable P) {s : State} (h : P s) (n : Nat) : P (State.releaseWrites s n) := by
  unfold State.releaseWrites
  try dsimp only
  repeat' (with_reducible (first | intro _ | assumption | apply each_stable H | apply issueWrites_stable H | apply each_stable P | dsimp only))

theorem linkRestored_stable {P : State → Prop} (H : Stable P) {s : State} (h : P s) (n : Nat) : P (State.linkRestored s n) := by
  unfold State.linkRestored
  try dsimp only
  repeat' (with_reducible (first | intro _ | ((conv => arg 1; arg 27); apply H.upd) | assumption | apply modDrive_stable H | apply unhold_stable H | apply releaseWrites_stable H | apply issuePasses_stable H | apply ite_stable P | dsimp only | split))

theorem graceOver_stable {P : State → Prop} (H : Stable P) {s : State} (h : P s) (n : Nat) : P (State.graceOver s n) := by
  unfold State.graceOver
  try dsimp only
  repeat' (with_reducible (first | intro _ | ((conv => arg 1; arg 27); apply H.upd) | assumption | apply each_stable H | apply modSet_stable H | apply raise_stable H | apply failMember_stable H | apply ite_stable P | apply each_stable P | dsimp only | split))

theorem driveGood_stable {P : State → Prop} (H : Stable P) {s : State} (h : P s) (n : Nat) : P (State.driveGood s n) := by
  unfold State.driveGood
  try dsimp only
  repeat' (with_reducible (first | intro _ | ((conv => arg 1; arg 27); apply H.upd) | assumption | apply modDrive_stable H | dsimp only))

theorem driveSense_stable {P : State → Prop} (H : Stable P) {s : State} (h : P s) (n : Nat) (sense : Option DriveSense) : P (State.driveSense s n sense) := by
  unfold State.driveSense
  try dsimp only
  repeat' (with_reducible (first | intro _ | ((conv => arg 1; arg 27); apply H.upd) | assumption | apply modDrive_stable H | apply failMember_stable H | apply driveGood_stable H | apply suspectMember_stable H | apply ite_stable P | dsimp only | split))

theorem commandTimeout_stable {P : State → Prop} (H : Stable P) {s : State} (h : P s) (n : Nat) : P (State.commandTimeout s n) := by
  unfold State.commandTimeout
  try dsimp only
  repeat' (with_reducible (first | intro _ | ((conv => arg 1; arg 27); apply H.upd) | assumption | apply bump_stable H | apply modDrive_stable H | apply judge_stable H | dsimp only | split))

theorem bandBad_stable {P : State → Prop} (H : Stable P) {s : State} (h : P s) (n : Nat) (b : Nat) : P (State.bandBad s n b) := by
  unfold State.bandBad
  try dsimp only
  repeat' (with_reducible (first | intro _ | ((conv => arg 1; arg 27); apply H.upd) | assumption | apply setBand_stable H | apply each_stable H | apply modSet_stable H | apply moveSealed_stable H | apply modStripe_stable H | apply driveOut_stable H | apply drainIfDead_stable H | apply ite_stable P | apply each_stable P | refine takeOffset_stable_of H (by assumption) ?_ | dsimp only | split))

theorem writeFailed_stable {P : State → Prop} (H : Stable P) {s : State} (h : P s) (p : Nat) (n : Nat) (q : Nat) (conflict : Bool) (sense : Option DriveSense) : P (State.writeFailed s p n q conflict sense) := by
  unfold State.writeFailed
  try dsimp only
  repeat' (with_reducible (first | intro _ | ((conv => arg 1; arg 27); apply H.upd) | assumption | apply conflict_stable H | apply modPool_stable H | apply raise_stable H | apply bandBad_stable H | apply badBandCount_stable H | apply driveSense_stable H | apply ite_stable P | dsimp only | split))

theorem zoneGone_stable {P : State → Prop} (H : Stable P) {s : State} (h : P s) (n : Nat) (b : Nat) (readOnly : Bool) : P (State.zoneGone s n b readOnly) := by
  unfold State.zoneGone
  try dsimp only
  repeat' (with_reducible (first | intro _ | ((conv => arg 1; arg 27); apply H.upd) | assumption | apply bandBad_stable H | apply suspectMember_stable H | apply each_stable H | apply chunkBad_stable H | apply ite_stable P | apply each_stable P | dsimp only | split))

theorem powerFault_stable {P : State → Prop} (H : Stable P) {s : State} (h : P s) (n : Nat) : P (State.powerFault s n) := by
  unfold State.powerFault
  try dsimp only
  repeat' (with_reducible (first | intro _ | ((conv => arg 1; arg 27); apply H.upd) | assumption | apply setSlot_stable H | apply driveOut_stable H | apply linkLost_stable H | apply laneDomain_stable H | apply ite_stable P | dsimp only | split))

theorem powerTimeout_stable {P : State → Prop} (H : Stable P) {s : State} (h : P s) (n : Nat) : P (State.powerTimeout s n) := by
  unfold State.powerTimeout
  try dsimp only
  repeat' (with_reducible (first | intro _ | ((conv => arg 1; arg 27); apply H.upd) | assumption | apply powerFault_stable H | apply ite_stable P | split))

theorem unqueue_stable {P : State → Prop} (H : Stable P) {s : State} (h : P s) (n : Nat) : P (State.unqueue s n) := by
  unfold State.unqueue
  try dsimp only
  repeat' (with_reducible (first | intro _ | ((conv => arg 1; arg 27); apply H.upd) | assumption | dsimp only))

theorem presence_stable {P : State → Prop} (H : Stable P) {s : State} (h : P s) (n : Nat) (here : Bool) : P (State.presence s n here) := by
  unfold State.presence
  try dsimp only
  repeat' (with_reducible (first | intro _ | ((conv => arg 1; arg 27); apply H.upd) | assumption | apply setSlot_stable H | apply unqueue_stable H | apply driveOut_stable H | apply linkLost_stable H | apply laneDomain_stable H | apply ite_stable P | dsimp only | split))

theorem slotInput_stable {P : State → Prop} (H : Stable P) {s : State} (h : P s) (n : Nat) (b : BitVec 6) : P (State.slotInput s n b) := by
  unfold State.slotInput
  try dsimp only
  repeat' (with_reducible (first | intro _ | ((conv => arg 1; arg 27); apply H.upd) | assumption | apply powerFault_stable H | apply setSlot_stable H | apply ite_stable P | dsimp only | split))

theorem chainOut_stable {P : State → Prop} (H : Stable P) {s : State} (h : P s) (c : Nat) : P (State.chainOut s c) := by
  unfold State.chainOut
  try dsimp only
  repeat' (with_reducible (first | intro _ | assumption | apply emit_stable H | apply ite_stable P | dsimp only | split))

theorem sgpio_stable {P : State → Prop} (H : Stable P) {s : State} (h : P s) (c : Nat) (inputs : List (BitVec 6)) : P (State.sgpio s c inputs) := by
  unfold State.sgpio
  try dsimp only
  repeat' (with_reducible (first | intro _ | ((conv => arg 1; arg 27); apply H.upd) | assumption | apply chainOut_stable H | apply bump_stable H | apply raise_stable H | apply each_stable H | apply slotInput_stable H | apply ite_stable P | apply each_stable P | dsimp only | split))

theorem slotOff_stable {P : State → Prop} (H : Stable P) {s : State} (h : P s) (n : Nat) : P (State.slotOff s n) := by
  unfold State.slotOff
  try dsimp only
  repeat' (with_reducible (first | intro _ | ((conv => arg 1; arg 27); apply H.upd) | assumption | apply setSlot_stable H | apply driveOut_stable H | apply laneDomain_stable H | apply ite_stable P | split))

theorem admitSpin_stable {P : State → Prop} (H : Stable P) {s : State} (h : P s) (q : WakeReq) : P (State.admitSpin s q) := by
  unfold State.admitSpin
  try dsimp only
  repeat' (with_reducible (first | intro _ | ((conv => arg 1; arg 27); apply H.upd) | assumption | apply unqueue_stable H | apply powerFault_stable H | apply setSlot_stable H | apply driveOut_stable H | apply laneDomain_stable H | apply ite_stable P | dsimp only | split))

theorem admitList_stable {P : State → Prop} (H : Stable P) {s : State} (h : P s) (x0 : List WakeReq) : P (State.admitList x0 s) := by
  induction x0 generalizing s  with
  | nil =>
    unfold State.admitList
    try dsimp only
    repeat' (with_reducible (first | intro _ | assumption | apply admitSpin_stable H | apply ite_stable P | split))
  | cons a as ih =>
    unfold State.admitList
    try dsimp only
    repeat' (with_reducible (first | intro _ | assumption | apply ih | apply admitSpin_stable H | apply ite_stable P | split))

theorem spinAdmission_stable {P : State → Prop} (H : Stable P) {s : State} (h : P s)  : P (State.spinAdmission s) := by
  unfold State.spinAdmission
  try dsimp only
  repeat' (with_reducible (first | intro _ | ((conv => arg 1; arg 27); apply H.upd) | assumption | apply each_stable H | apply setFld_stable H | apply admitList_stable H | apply ite_stable P | apply each_stable P | dsimp only | split))

theorem spinHook_stable {P : State → Prop} (H : Stable P) {s : State} (h : P s)  : P (State.spinHook s) := by
  unfold State.spinHook
  try dsimp only
  repeat' (with_reducible (first | intro _ | assumption | apply spinAdmission_stable H | apply ite_stable P | split))

theorem peakOver_stable {P : State → Prop} (H : Stable P) {s : State} (h : P s) (n : Nat) : P (State.peakOver s n) := by
  unfold State.peakOver
  try dsimp only
  repeat' (with_reducible (first | intro _ | ((conv => arg 1; arg 27); apply H.upd) | assumption | apply modSlot_stable H | apply spinAdmission_stable H | dsimp only))

theorem registerKey_stable {P : State → Prop} (H : Stable P) {s : State} (h : P s) (n : Nat) : P (State.registerKey s n) := by
  unfold State.registerKey
  try dsimp only
  repeat' (with_reducible (first | intro _ | ((conv => arg 1; arg 27); apply H.upd) | assumption | apply driveOut_stable H | apply modDrive_stable H | apply ite_stable P | dsimp only | split))

theorem reserveMember_stable {P : State → Prop} (H : Stable P) {s : State} (h : P s) (n : Nat) : P (State.reserveMember s n) := by
  unfold State.reserveMember
  try dsimp only
  repeat' (with_reducible (first | intro _ | ((conv => arg 1; arg 27); apply H.upd) | assumption | apply modDrive_stable H | apply driveOut_stable H | apply ite_stable P | dsimp only | split))

theorem reserveHook_stable {P : State → Prop} (H : Stable P) {s : State} (h : P s)  : P (State.reserveHook s) := by
  unfold State.reserveHook
  try dsimp only
  repeat' (with_reducible (first | intro _ | assumption | apply each_stable H | apply reserveMember_stable H | apply each_stable P | dsimp only))

theorem memberByLabel_stable {P : State → Prop} (H : Stable P) {s : State} (h : P s) (n : Nat) (d : Drive) : P (State.memberByLabel s n d) := by
  unfold State.memberByLabel
  try dsimp only
  repeat' (with_reducible (first | intro _ | ((conv => arg 1; arg 27); apply H.upd) | assumption | apply modDrive_stable H | apply ite_stable P | dsimp only | split))

theorem readLabel_stable {P : State → Prop} (H : Stable P) {s : State} (h : P s) (n : Nat) : P (State.readLabel s n) := by
  unfold State.readLabel
  try dsimp only
  repeat' (with_reducible (first | intro _ | ((conv => arg 1; arg 27); apply H.upd) | assumption | apply modDrive_stable H | apply adoptDesc_stable H | apply memberByLabel_stable H | apply ite_stable P | dsimp only | split))

theorem adoptPair_stable {P : State → Prop} (H : Stable P) {s : State} (h : P s)  : P (State.adoptPair s) := by
  unfold State.adoptPair
  try dsimp only
  repeat' (with_reducible (first | intro _ | ((conv => arg 1; arg 27); apply H.upd) | assumption | apply raise_stable H | apply each_stable H | apply readLabel_stable H | apply ite_stable P | apply each_stable P | dsimp only | split))

theorem moveSlot_stable {P : State → Prop} (H : Stable P) {s : State} (h : P s) (o : Nat) (n : Nat) : P (State.moveSlot s o n) := by
  unfold State.moveSlot
  try dsimp only
  repeat' (with_reducible (first | intro _ | ((conv => arg 1; arg 27); apply H.upd) | assumption | apply journal_stable H | apply ite_stable P | apply foldl_stable P | apply foldl_fst_stable P | apply foldl_snd_stable P | dsimp only | split))

theorem foundDrive_stable {P : State → Prop} (H : Stable P) {s : State} (h : P s) (n : Nat) (d : DriveInfo) : P (State.foundDrive s n d) := by
  unfold State.foundDrive
  try dsimp only
  repeat' (with_reducible (first | intro _ | ((conv => arg 1; arg 27); apply H.upd) | assumption | apply modDrive_stable H | apply linkRestored_stable H | apply graceOver_stable H | apply modPool_stable H | apply moveSlot_stable H | apply ite_stable P | dsimp only | split))

theorem labelsRead_stable {P : State → Prop} (H : Stable P) {s : State} (h : P s) (n : Nat) : P (State.labelsRead s n) := by
  unfold State.labelsRead
  try dsimp only
  repeat' (with_reducible (first | intro _ | assumption | apply readLabel_stable H | apply adoptPair_stable H | apply substitute_stable H))

theorem awakened_stable {P : State → Prop} (H : Stable P) {s : State} (h : P s) (n : Nat) (cls : Nat) : P (State.awakened s n cls) := by
  unfold State.awakened
  try dsimp only
  repeat' (with_reducible (first | intro _ | ((conv => arg 1; arg 27); apply H.upd) | assumption | apply labelsRead_stable H | apply writeLabel_stable H | apply readsAwake_stable H | apply issuePasses_stable H | apply sendStandby_stable H | apply ite_stable P | dsimp only | split))

theorem linkFound_stable {P : State → Prop} (H : Stable P) {s : State} (h : P s) (n : Nat) (d : DriveInfo) : P (State.linkFound s n d) := by
  unfold State.linkFound
  try dsimp only
  repeat' (with_reducible (first | intro _ | ((conv => arg 1; arg 27); apply H.upd) | assumption | apply setSlot_stable H | apply foundDrive_stable H | apply registerKey_stable H | apply awakened_stable H | apply labelsRead_stable H | apply wake_stable H | apply ite_stable P | dsimp only | split))

theorem bringUp_stable {P : State → Prop} (H : Stable P) {s : State} (h : P s) (n : Nat) (rate : Nat) (ok : Bool) : P (State.bringUp s n rate ok) := by
  unfold State.bringUp
  try dsimp only
  repeat' (with_reducible (first | intro _ | ((conv => arg 1; arg 27); apply H.upd) | assumption | apply driveOut_stable H | apply setSlot_stable H | apply bump_stable H | apply raise_stable H | apply linkLost_stable H | apply ite_stable P | dsimp only | split))

theorem bringUpAgain_stable {P : State → Prop} (H : Stable P) {s : State} (h : P s) (n : Nat) : P (State.bringUpAgain s n) := by
  unfold State.bringUpAgain
  try dsimp only
  repeat' (with_reducible (first | intro _ | ((conv => arg 1; arg 27); apply H.upd) | assumption | apply modSlot_stable H | dsimp only))

theorem laneReset_stable {P : State → Prop} (H : Stable P) {s : State} (h : P s) (n : Nat) : P (State.laneReset s n) := by
  unfold State.laneReset
  try dsimp only
  repeat' (with_reducible (first | intro _ | ((conv => arg 1; arg 27); apply H.upd) | assumption | apply setReg_stable H | apply bump_stable H | apply setSlot_stable H | apply powerFault_stable H | apply linkLost_stable H | apply driveOut_stable H | apply ite_stable P | dsimp only | split))

theorem spinupDone_stable {P : State → Prop} (H : Stable P) {s : State} (h : P s) (n : Nat) (ds : Nat) : P (State.spinupDone s n ds) := by
  unfold State.spinupDone
  try dsimp only
  repeat' (with_reducible (first | intro _ | ((conv => arg 1; arg 27); apply H.upd) | assumption | apply setSlot_stable H | apply bumpWrap_stable H | apply setFld_stable H | apply modDrive_stable H | apply awakened_stable H | apply ite_stable P | dsimp only | split))

theorem spinupLate_stable {P : State → Prop} (H : Stable P) {s : State} (h : P s) (n : Nat) : P (State.spinupLate s n) := by
  unfold State.spinupLate
  try dsimp only
  repeat' (with_reducible (first | intro _ | ((conv => arg 1; arg 27); apply H.upd) | assumption | apply setSlot_stable H | apply modDrive_stable H | apply judge_stable H | apply ite_stable P | dsimp only | split))

end Sys2Proof.Machine
end

