-- ==== Sys2Proof/Laws/StableClimate.lean ====
section
/-! SUPPORT. What the record updates and register writes of the model keep, every operation of Machine/Climate.lean keeps (`Stable`). -/

namespace Sys2Proof.Machine

open Sys2Proof

theorem setSfld_stable {P : State → Prop} (H : Stable P) {s : State} (h : P s) (r : Reg) (i : Nat) (f : Fld) (v : Int) : P (State.setSfld s r i f v) := by
  unfold State.setSfld
  try dsimp only
  repeat' (with_reducible (first | intro _ | assumption | apply setFld_stable H))

theorem showEnclosure_stable {P : State → Prop} (H : Stable P) {s : State} (h : P s) (e : Nat) : P (State.showEnclosure s e) := by
  unfold State.showEnclosure
  try dsimp only
  repeat' (with_reducible (first | intro _ | assumption | apply setFld_stable H | apply setSfld_stable H | dsimp only))

theorem trip_stable {P : State → Prop} (H : Stable P) {s : State} (h : P s) (f : Fld) : P (State.trip s f) := by
  unfold State.trip
  try dsimp only
  repeat' (with_reducible (first | intro _ | assumption | apply setFld_stable H))

theorem ainUpdate_stable {P : State → Prop} (H : Stable P) {s : State} (h : P s) (k : Nat) (code : Nat) : P (State.ainUpdate s k code) := by
  unfold State.ainUpdate
  try dsimp only
  repeat' (with_reducible (first | intro _ | ((conv => arg 1; arg 27); apply H.upd) | assumption | apply setSfld_stable H | apply setFld_stable H | apply trip_stable H | apply ite_stable P | dsimp only | split))

theorem sensorRead_stable {P : State → Prop} (H : Stable P) {s : State} (h : P s) (k : Nat) (r : Option (Int × Nat)) : P (State.sensorRead s k r) := by
  unfold State.sensorRead
  try dsimp only
  repeat' (with_reducible (first | intro _ | ((conv => arg 1; arg 27); apply H.upd) | assumption | apply setFld_stable H | apply setSfld_stable H | apply trip_stable H | apply ite_stable P | dsimp only | split))

theorem fanFailed_stable {P : State → Prop} (H : Stable P) {s : State} (h : P s) (f : Nat) (rpm : Nat) : P (State.fanFailed s f rpm) := by
  unfold State.fanFailed
  try dsimp only
  repeat' (with_reducible (first | intro _ | assumption | apply setFld_stable H | apply trip_stable H | apply raise_stable H | apply ite_stable P | dsimp only | split))

theorem fanBack_stable {P : State → Prop} (H : Stable P) {s : State} (h : P s) (f : Nat) (rpm : Nat) : P (State.fanBack s f rpm) := by
  unfold State.fanBack
  try dsimp only
  repeat' (with_reducible (first | intro _ | assumption | apply setFld_stable H | apply ite_stable P | dsimp only | split))

theorem applyDuty_stable {P : State → Prop} (H : Stable P) {s : State} (h : P s) (n : Nat) (duty : Nat) : P (State.applyDuty s n duty) := by
  unfold State.applyDuty
  try dsimp only
  repeat' (with_reducible (first | intro _ | assumption | apply each_stable H | apply setFld_stable H | apply each_stable P | dsimp only))

theorem setDuty_stable {P : State → Prop} (H : Stable P) {s : State} (h : P s) (n : Nat) (u : Int) : P (State.setDuty s n u) := by
  unfold State.setDuty
  try dsimp only
  repeat' (with_reducible (first | intro _ | ((conv => arg 1; arg 27); apply H.upd) | assumption | apply setFld_stable H | apply applyDuty_stable H | dsimp only))

theorem enginePeriod_stable {P : State → Prop} (H : Stable P) {s : State} (h : P s) (n : Nat) (y : Int) : P (State.enginePeriod s n y) := by
  unfold State.enginePeriod
  try dsimp only
  repeat' (with_reducible (first | intro _ | ((conv => arg 1; arg 27); apply H.upd) | assumption | apply setFld_stable H | apply setSfld_stable H | apply setDuty_stable H | apply ite_stable P | dsimp only | split))

theorem loopPeriod_stable {P : State → Prop} (H : Stable P) {s : State} (h : P s) (n : Nat) : P (State.loopPeriod s n) := by
  unfold State.loopPeriod
  try dsimp only
  repeat' (with_reducible (first | intro _ | ((conv => arg 1; arg 27); apply H.upd) | assumption | apply enginePeriod_stable H | apply setFld_stable H | apply applyDuty_stable H | apply ite_stable P | dsimp only | split))

theorem capture_stable {P : State → Prop} (H : Stable P) {s : State} (h : P s) (stream : Nat) (bs : List Byte) : P (State.capture s stream bs) := by
  unfold State.capture
  try dsimp only
  repeat' (with_reducible (first | intro _ | ((conv => arg 1; arg 27); apply H.upd) | assumption | apply bump_stable H | apply xmSetLine_stable H | apply ite_stable P | dsimp only | split))

theorem headroomTick_stable {P : State → Prop} (H : Stable P) {s : State} (h : P s)  : P (State.headroomTick s) := by
  unfold State.headroomTick
  try dsimp only
  repeat' (with_reducible (first | intro _ | assumption | apply each_stable H | apply showEnclosure_stable H | apply setSfld_stable H | apply setFld_stable H | apply trip_stable H | apply raise_stable H | apply issuePasses_stable H | apply ite_stable P | apply each_stable P | dsimp only | split))

theorem enterCrit_stable {P : State → Prop} (H : Stable P) {s : State} (h : P s) (e : Nat) : P (State.enterCrit s e) := by
  unfold State.enterCrit
  try dsimp only
  repeat' (with_reducible (first | intro _ | assumption | apply setFld_stable H | apply trip_stable H | apply raise_stable H | apply sendStandby_stable H | apply ite_stable P | dsimp only | split))

theorem leaveHot_stable {P : State → Prop} (H : Stable P) {s : State} (h : P s) (e : Nat) : P (State.leaveHot s e) := by
  unfold State.leaveHot
  try dsimp only
  repeat' (with_reducible (first | intro _ | ((conv => arg 1; arg 27); apply H.upd) | assumption | apply setFld_stable H | apply ite_stable P | dsimp only | split))

theorem setHold_stable {P : State → Prop} (H : Stable P) {s : State} (h : P s) (e : Nat) (on : Bool) : P (State.setHold s e on) := by
  unfold State.setHold
  try dsimp only
  repeat' (with_reducible (first | intro _ | ((conv => arg 1; arg 27); apply H.upd) | assumption | apply setFld_stable H | apply ite_stable P | dsimp only | split))

theorem evaluateHold_stable {P : State → Prop} (H : Stable P) {s : State} (h : P s)  : P (State.evaluateHold s) := by
  unfold State.evaluateHold
  try dsimp only
  repeat' (with_reducible (first | intro _ | ((conv => arg 1; arg 27); apply H.upd) | assumption | apply each_stable H | apply showEnclosure_stable H | apply setHold_stable H | apply ite_stable P | apply each_stable P | dsimp only | split))

theorem holdOver_stable {P : State → Prop} (H : Stable P) {s : State} (h : P s) (e : Nat) : P (State.holdOver s e) := by
  unfold State.holdOver
  try dsimp only
  repeat' (with_reducible (first | intro _ | assumption | apply setHold_stable H | apply ite_stable P | split))

theorem holdLong_stable {P : State → Prop} (H : Stable P) {s : State} (h : P s) (e : Nat) : P (State.holdLong s e) := by
  unfold State.holdLong
  try dsimp only
  repeat' (with_reducible (first | intro _ | assumption | apply trip_stable H | apply raise_stable H | apply ite_stable P | split))

theorem humidHigh_stable {P : State → Prop} (H : Stable P) {s : State} (h : P s) (e : Nat) : P (State.humidHigh s e) := by
  unfold State.humidHigh
  try dsimp only
  repeat' (with_reducible (first | intro _ | ((conv => arg 1; arg 27); apply H.upd) | assumption | apply trip_stable H | apply raise_stable H | apply ite_stable P | split))

theorem setCharger_stable {P : State → Prop} (H : Stable P) {s : State} (h : P s) (v : Nat) : P (State.setCharger s v) := by
  unfold State.setCharger
  try dsimp only
  repeat' (with_reducible (first | intro _ | ((conv => arg 1; arg 27); apply H.upd) | assumption | apply setFld_stable H | apply emit_stable H | apply ite_stable P | dsimp only | split))

theorem followBank_stable {P : State → Prop} (H : Stable P) {s : State} (h : P s) (vMv : Nat) : P (State.followBank s vMv) := by
  unfold State.followBank
  try dsimp only
  repeat' (with_reducible (first | intro _ | assumption | apply setCharger_stable H | apply ite_stable P | dsimp only | split))

theorem reportEu_stable {P : State → Prop} (H : Stable P) {s : State} (h : P s) (e : Nat) : P (State.reportEu s e) := by
  unfold State.reportEu
  try dsimp only
  repeat' (with_reducible (first | intro _ | ((conv => arg 1; arg 27); apply H.upd) | assumption | apply winRecompute_stable H))

theorem euCompute_stable {P : State → Prop} (H : Stable P) {s : State} (h : P s) (vMv : Nat) (iMa : Int) : P (State.euCompute s vMv iMa) := by
  unfold State.euCompute
  try dsimp only
  repeat' (with_reducible (first | intro _ | assumption | apply setFld_stable H | apply setSfld_stable H | apply followBank_stable H | apply reportEu_stable H | apply ite_stable P | dsimp only | split))

theorem euReport_stable {P : State → Prop} (H : Stable P) {s : State} (h : P s)  : P (State.euReport s) := by
  unfold State.euReport
  try dsimp only
  repeat' (with_reducible (first | intro _ | assumption | apply reportEu_stable H | apply ite_stable P | split))

theorem chargerFails_stable {P : State → Prop} (H : Stable P) {s : State} (h : P s)  : P (State.chargerFails s) := by
  unfold State.chargerFails
  try dsimp only
  repeat' (with_reducible (first | intro _ | assumption | apply setCharger_stable H | apply trip_stable H | apply raise_stable H | apply ite_stable P | split))

theorem switchLoad_stable {P : State → Prop} (H : Stable P) {s : State} (h : P s) (on : Bool) : P (State.switchLoad s on) := by
  unfold State.switchLoad
  try dsimp only
  repeat' (with_reducible (first | intro _ | assumption | apply each_stable H | apply setFld_stable H | apply ite_stable P | apply each_stable P | dsimp only | split))

theorem dropTest_stable {P : State → Prop} (H : Stable P) {s : State} (h : P s)  : P (State.dropTest s) := by
  unfold State.dropTest
  try dsimp only
  repeat' (with_reducible (first | intro _ | ((conv => arg 1; arg 27); apply H.upd) | assumption | apply xmStopFw_stable H | apply switchLoad_stable H | apply setFld_stable H | apply ite_stable P | dsimp only | split))

theorem climateEbb_stable {P : State → Prop} (H : Stable P) {s : State} (h : P s)  : P (State.climateEbb s) := by
  unfold State.climateEbb
  try dsimp only
  repeat' (with_reducible (first | intro _ | assumption | apply dropTest_stable H | apply each_stable H | apply setFld_stable H | apply setCharger_stable H | apply ite_stable P | apply each_stable P | dsimp only | split))

theorem bankTrip_stable {P : State → Prop} (H : Stable P) {s : State} (h : P s)  : P (State.bankTrip s) := by
  unfold State.bankTrip
  try dsimp only
  repeat' (with_reducible (first | intro _ | assumption | apply trip_stable H | apply raise_stable H | apply startEbb_stable H | apply climateEbb_stable H | apply ite_stable P | split))

theorem testStart_stable {P : State → Prop} (H : Stable P) {s : State} (h : P s)  : P (State.testStart s) := by
  unfold State.testStart
  try dsimp only
  repeat' (with_reducible (first | intro _ | ((conv => arg 1; arg 27); apply H.upd) | assumption | apply setCharger_stable H | apply setFld_stable H | apply reportEu_stable H | apply ite_stable P | dsimp only | split))

theorem startStream1_stable {P : State → Prop} (H : Stable P) {s : State} (h : P s)  : P (State.startStream1 s) := by
  unfold State.startStream1
  try dsimp only
  repeat' (with_reducible (first | intro _ | ((conv => arg 1; arg 27); apply H.upd) | assumption | apply draw_stable H | apply xmStartFw_stable H | apply ite_stable P | dsimp only | split))

theorem testOnset_stable {P : State → Prop} (H : Stable P) {s : State} (h : P s) (v0 : Nat) : P (State.testOnset s v0) := by
  unfold State.testOnset
  try dsimp only
  repeat' (with_reducible (first | intro _ | ((conv => arg 1; arg 27); apply H.upd) | assumption | apply xmStartFw_stable H | apply switchLoad_stable H | apply ite_stable P | dsimp only | split))

theorem testEnd_stable {P : State → Prop} (H : Stable P) {s : State} (h : P s) (f : PulseFit) : P (State.testEnd s f) := by
  unfold State.testEnd
  try dsimp only
  repeat' (with_reducible (first | intro _ | ((conv => arg 1; arg 27); apply H.upd) | assumption | apply dropTest_stable H | apply setCharger_stable H | apply raise_stable H | apply setFld_stable H | apply trip_stable H | apply ite_stable P | dsimp only | split))

theorem testPostponed_stable {P : State → Prop} (H : Stable P) {s : State} (h : P s)  : P (State.testPostponed s) := by
  unfold State.testPostponed
  try dsimp only
  repeat' (with_reducible (first | intro _ | assumption | apply trip_stable H | apply raise_stable H | apply ite_stable P | split))

theorem clReset_stable {P : State → Prop} (H : Stable P) {s : State} (h : P s)  : P (State.clReset s) := by
  unfold State.clReset
  try dsimp only
  repeat' (with_reducible (first | intro _ | ((conv => arg 1; arg 27); apply H.upd) | assumption | apply dropTest_stable H | apply each_stable H | apply setFld_stable H | apply setReg_stable H | apply setHold_stable H | apply ite_stable P | apply each_stable P | dsimp only | split))

end Sys2Proof.Machine
end

