-- ==== Sys2Proof/Laws/StableStandby.lean ====
section
/-! SUPPORT. What the record updates and register writes of the model keep, every operation of Machine/Standby.lean keeps (`Stable`). -/

namespace Sys2Proof.Machine

open Sys2Proof

theorem refreshStandby_stable {P : State → Prop} (H : Stable P) {s : State} (h : P s) (p : Nat) : P (State.refreshStandby s p) := by
  unfold State.refreshStandby
  try dsimp only
  repeat' (with_reducible (first | intro _ | ((conv => arg 1; arg 27); apply H.upd) | assumption))

theorem takeSection_stable {P : State → Prop} (H : Stable P) {s : State} (h : P s) (p : Nat) (sect : Nat) (off : Nat) (bytes : List Byte) : P (State.takeSection s p sect off bytes) := by
  unfold State.takeSection
  try dsimp only
  repeat' (with_reducible (first | intro _ | ((conv => arg 1; arg 27); apply H.upd) | assumption | apply refreshStandby_stable H | apply ite_stable P | dsimp only | split))

theorem applyDelta_stable {P : State → Prop} (H : Stable P) {s : State} (h : P s) (r : DeltaRec) : P (State.applyDelta s r) := by
  unfold State.applyDelta
  try dsimp only
  repeat' (with_reducible (first | intro _ | ((conv => arg 1; arg 27); apply H.upd) | assumption | apply each_stable H | apply ite_stable P | apply each_stable P | dsimp only | split))

end Sys2Proof.Machine
end

