-- ==== Sys2Proof/Laws/StablePeer.lean ====
section
/-! SUPPORT. What the record updates and register writes of the model keep, every operation of Machine/Peer.lean keeps (`Stable`). -/

namespace Sys2Proof.Machine

open Sys2Proof

theorem endGives_stable {P : State → Prop} (H : Stable P) {s : State} (h : P s)  : P (State.endGives s) := by
  unfold State.endGives
  try dsimp only
  repeat' (with_reducible (first | intro _ | ((conv => arg 1; arg 27); apply H.upd) | assumption | apply each_stable H | apply complete_stable H | apply each_stable P | dsimp only | split))

theorem dropClaims_stable {P : State → Prop} (H : Stable P) {s : State} (h : P s)  : P (State.dropClaims s) := by
  unfold State.dropClaims
  try dsimp only
  repeat' (with_reducible (first | intro _ | ((conv => arg 1; arg 27); apply H.upd) | assumption | dsimp only | split))

theorem releaseHeld_stable {P : State → Prop} (H : Stable P) {s : State} (h : P s)  : P (State.releaseHeld s) := by
  unfold State.releaseHeld
  try dsimp only
  repeat' (with_reducible (first | intro _ | ((conv => arg 1; arg 27); apply H.upd) | assumption | apply each_stable H | apply issueWrites_stable H | apply sendBlock_stable H | apply writeCkpt_stable H | apply writeProt_stable H | apply writeLabel_stable H | apply ite_stable P | apply each_stable P | dsimp only | split))

theorem enterPaired_stable {P : State → Prop} (H : Stable P) {s : State} (h : P s)  : P (State.enterPaired s) := by
  unfold State.enterPaired
  try dsimp only
  repeat' (with_reducible (first | intro _ | ((conv => arg 1; arg 27); apply H.upd) | assumption | apply releaseHeld_stable H | apply winRecompute_stable H | apply tryAllAcks_stable H | apply each_stable H | apply sendFrame_stable H | apply ite_stable P | apply each_stable P | dsimp only | split))

theorem sendHello_stable {P : State → Prop} (H : Stable P) {s : State} (h : P s)  : P (State.sendHello s) := by
  unfold State.sendHello
  try dsimp only
  repeat' (with_reducible (first | intro _ | assumption | apply sendFrame_stable H))

theorem peerTrained_stable {P : State → Prop} (H : Stable P) {s : State} (h : P s) (rate : Nat) (width : Nat) : P (State.peerTrained s rate width) := by
  unfold State.peerTrained
  try dsimp only
  repeat' (with_reducible (first | intro _ | ((conv => arg 1; arg 27); apply H.upd) | assumption | apply hello_stable H | apply endGives_stable H | apply dropClaims_stable H | apply sendHello_stable H | apply ite_stable P | dsimp only | split))

theorem sendCopies_stable {P : State → Prop} (H : Stable P) {s : State} (h : P s)  : P (State.sendCopies s) := by
  unfold State.sendCopies
  try dsimp only
  repeat' (with_reducible (first | intro _ | ((conv => arg 1; arg 27); apply H.upd) | assumption | apply each_stable H | apply sendFrame_stable H | apply sendM_stable H | apply ite_stable P | apply each_stable P | apply foldl_stable P | apply foldl_fst_stable P | apply foldl_snd_stable P | dsimp only | split))

theorem conflict_stable {P : State → Prop} (H : Stable P) {s : State} (h : P s)  : P (State.conflict s) := by
  unfold State.conflict
  try dsimp only
  repeat' (with_reducible (first | intro _ | ((conv => arg 1; arg 27); apply H.upd) | assumption | apply draw_stable H | apply endGives_stable H | apply dropClaims_stable H | apply raise_stable H | dsimp only))

theorem hello_stable {P : State → Prop} (H : Stable P) {s : State} (h : P s) (h : HelloFrame) : P (State.hello s h) := by
  unfold State.hello
  try dsimp only
  repeat' (with_reducible (first | intro _ | ((conv => arg 1; arg 27); apply H.upd) | assumption | apply conflict_stable H | apply each_stable H | apply registerKey_stable H | apply endGives_stable H | apply dropClaims_stable H | apply sendCopies_stable H | apply winRecompute_stable H | apply tryAllAcks_stable H | apply ite_stable P | apply each_stable P | dsimp only | split))

theorem mirConfirm_stable {P : State → Prop} (H : Stable P) {s : State} (h : P s) (q : Nat) : P (State.mirConfirm s q) := by
  unfold State.mirConfirm
  try dsimp only
  repeat' (with_reducible (first | intro _ | ((conv => arg 1; arg 27); apply H.upd) | assumption | apply enterPaired_stable H | apply tryAllAcks_stable H | apply ite_stable P | dsimp only | split))

theorem mirResync_stable {P : State → Prop} (H : Stable P) {s : State} (h : P s) (q : Nat) : P (State.mirResync s q) := by
  unfold State.mirResync
  try dsimp only
  repeat' (with_reducible (first | intro _ | ((conv => arg 1; arg 27); apply H.upd) | assumption | apply sendCopies_stable H | apply raise_stable H | apply tryAllAcks_stable H | apply ite_stable P | dsimp only | split))

theorem frameBad_stable {P : State → Prop} (H : Stable P) {s : State} (h : P s) (isM : Bool) : P (State.frameBad s isM) := by
  unfold State.frameBad
  try dsimp only
  repeat' (with_reducible (first | intro _ | ((conv => arg 1; arg 27); apply H.upd) | assumption | apply bump_stable H | apply sendFrame_stable H | apply raise_stable H | apply ite_stable P | dsimp only | split))

theorem answerGives_stable {P : State → Prop} (H : Stable P) {s : State} (h : P s)  : P (State.answerGives s) := by
  unfold State.answerGives
  try dsimp only
  repeat' (with_reducible (first | intro _ | ((conv => arg 1; arg 27); apply H.upd) | assumption | apply each_stable H | apply sendFrame_stable H | apply each_stable P | dsimp only | split))

theorem applyM_stable {P : State → Prop} (H : Stable P) {s : State} (h : P s) (mseq : Nat) (act : State → State) (hact : ∀ t, P t → P (act t)) : P (State.applyM s mseq act) := by
  unfold State.applyM
  try dsimp only
  repeat' (with_reducible (first | intro _ | ((conv => arg 1; arg 27); apply H.upd) | assumption | apply hact | apply sendFrame_stable H | apply answerGives_stable H | apply ite_stable P | dsimp only | split))

theorem modMirror_stable {P : State → Prop} (H : Stable P) {s : State} (h : P s) (p : Nat) (n : Nat) (f : Stripe → Stripe) : P (State.modMirror s p n f) := by
  unfold State.modMirror
  try dsimp only
  repeat' (with_reducible (first | intro _ | ((conv => arg 1; arg 27); apply H.upd) | assumption | apply ite_stable P | dsimp only | split))

theorem mirPayload_stable {P : State → Prop} (H : Stable P) {s : State} (h : P s) (p : Nat) (n : Nat) (unit : Nat) (off : Nat) (bytes : List Byte) : P (State.mirPayload s p n unit off bytes) := by
  unfold State.mirPayload
  try dsimp only
  repeat' (with_reducible (first | intro _ | ((conv => arg 1; arg 27); apply H.upd) | assumption | apply modMirror_stable H | dsimp only))

theorem mirDirent_stable {P : State → Prop} (H : Stable P) {s : State} (h : P s) (p : Nat) (n : Nat) (slot : Nat) (entry : List Byte) : P (State.mirDirent s p n slot entry) := by
  unfold State.mirDirent
  try dsimp only
  repeat' (with_reducible (first | intro _ | ((conv => arg 1; arg 27); apply H.upd) | assumption | apply modMirror_stable H | dsimp only))

theorem mirSeal_stable {P : State → Prop} (H : Stable P) {s : State} (h : P s) (p : Nat) (n : Nat) (seq : Nat) (off : Nat) (set : Nat) : P (State.mirSeal s p n seq off set) := by
  unfold State.mirSeal
  try dsimp only
  repeat' (with_reducible (first | intro _ | ((conv => arg 1; arg 27); apply H.upd) | assumption | apply modMirror_stable H | dsimp only))

theorem mirDelta_stable {P : State → Prop} (H : Stable P) {s : State} (h : P s) (rs : List DeltaRec) : P (State.mirDelta s rs) := by
  unfold State.mirDelta
  try dsimp only
  repeat' (with_reducible (first | intro _ | assumption | apply each_stable H | apply applyDelta_stable H | apply each_stable P | dsimp only))

theorem mirRelease_stable {P : State → Prop} (H : Stable P) {s : State} (h : P s) (p : Nat) (kind : Nat) (rs : List (List Byte)) : P (State.mirRelease s p kind rs) := by
  unfold State.mirRelease
  try dsimp only
  repeat' (with_reducible (first | intro _ | ((conv => arg 1; arg 27); apply H.upd) | assumption | apply each_stable H | apply ite_stable P | apply each_stable P | dsimp only | split))

theorem mirRetire_stable {P : State → Prop} (H : Stable P) {s : State} (h : P s) (p : Nat) (n : Nat) : P (State.mirRetire s p n) := by
  unfold State.mirRetire
  try dsimp only
  repeat' (with_reducible (first | intro _ | ((conv => arg 1; arg 27); apply H.upd) | assumption | dsimp only | split))

theorem takeWindow_stable {P : State → Prop} (H : Stable P) {s : State} (h : P s) (off : Nat) (bytes : List Byte) (held : Tab (Tab Stripe)) : P (State.takeWindow s off bytes held) := by
  unfold State.takeWindow
  try dsimp only
  repeat' (with_reducible (first | intro _ | ((conv => arg 1; arg 27); apply H.upd) | assumption | apply each_stable H | apply each_stable P | apply foldl_stable P | apply foldl_fst_stable P | apply foldl_snd_stable P | dsimp only))

theorem dropMirror_stable {P : State → Prop} (H : Stable P) {s : State} (h : P s)  : P (State.dropMirror s) := by
  unfold State.dropMirror
  try dsimp only
  repeat' (with_reducible (first | intro _ | ((conv => arg 1; arg 27); apply H.upd) | assumption))

theorem answerPull_stable {P : State → Prop} (H : Stable P) {s : State} (h : P s) (p : Nat) : P (State.answerPull s p) := by
  unfold State.answerPull
  try dsimp only
  repeat' (with_reducible (first | intro _ | assumption | apply each_stable H | apply sendFrame_stable H | apply ite_stable P | apply each_stable P | dsimp only | split))

theorem takePull_stable {P : State → Prop} (H : Stable P) {s : State} (h : P s) (off : Nat) (bytes : List Byte) : P (State.takePull s off bytes) := by
  unfold State.takePull
  try dsimp only
  repeat' (with_reducible (first | intro _ | ((conv => arg 1; arg 27); apply H.upd) | assumption))

theorem endPull_stable {P : State → Prop} (H : Stable P) {s : State} (h : P s) (p : Nat) (noMirror : Bool) : P (State.endPull s p noMirror) := by
  unfold State.endPull
  try dsimp only
  repeat' (with_reducible (first | intro _ | ((conv => arg 1; arg 27); apply H.upd) | assumption | apply recoverLate_stable H | apply recoverMirror_stable H | apply ite_stable P | dsimp only | split))

theorem dropTables_stable {P : State → Prop} (H : Stable P) {s : State} (h : P s) (p : Nat) : P (State.dropTables s p) := by
  unfold State.dropTables
  try dsimp only
  repeat' (with_reducible (first | intro _ | ((conv => arg 1; arg 27); apply H.upd) | assumption | apply modPool_stable H | dsimp only | split))

theorem cedePool_stable {P : State → Prop} (H : Stable P) {s : State} (h : P s) (p : Nat) : P (State.cedePool s p) := by
  unfold State.cedePool
  try dsimp only
  repeat' (with_reducible (first | intro _ | ((conv => arg 1; arg 27); apply H.upd) | assumption | apply endOnPool_stable H | apply dropTables_stable H | apply noteU_stable H | dsimp only))

theorem toStandby_stable {P : State → Prop} (H : Stable P) {s : State} (h : P s) (p : Nat) : P (State.toStandby s p) := by
  unfold State.toStandby
  try dsimp only
  repeat' (with_reducible (first | intro _ | ((conv => arg 1; arg 27); apply H.upd) | assumption | apply foldl_stable P | apply foldl_fst_stable P | apply foldl_snd_stable P | dsimp only | split))

theorem takePool_stable {P : State → Prop} (H : Stable P) {s : State} (h : P s) (p : Nat) : P (State.takePool s p) := by
  unfold State.takePool
  try dsimp only
  repeat' (with_reducible (first | intro _ | ((conv => arg 1; arg 27); apply H.upd) | assumption | apply loadTables_stable H | apply draw_stable H | apply modPool_stable H | apply journal_stable H | apply each_stable H | apply modDrive_stable H | apply placeMembers_stable H | apply setStripe_stable H | apply modStripe_stable H | apply voidEntry_stable H | apply replayWindow_stable H | apply endLayer_stable H | apply ite_stable P | apply each_stable P | apply foldl_stable P | apply foldl_fst_stable P | apply foldl_snd_stable P | dsimp only | split))

theorem sendHeartbeat_stable {P : State → Prop} (H : Stable P) {s : State} (h : P s)  : P (State.sendHeartbeat s) := by
  unfold State.sendHeartbeat
  try dsimp only
  repeat' (with_reducible (first | intro _ | assumption | apply sendFrame_stable H | apply ite_stable P | split))

theorem heartbeat_stable {P : State → Prop} (H : Stable P) {s : State} (h : P s) (f : Nat) (owned : BitVec 64) : P (State.heartbeat s f owned) := by
  unfold State.heartbeat
  try dsimp only
  repeat' (with_reducible (first | intro _ | ((conv => arg 1; arg 27); apply H.upd) | assumption | apply setReg64_stable H | apply enterPaired_stable H | apply winRecompute_stable H | apply ite_stable P | dsimp only | split))

theorem peerSilent_stable {P : State → Prop} (H : Stable P) {s : State} (h : P s)  : P (State.peerSilent s) := by
  unfold State.peerSilent
  try dsimp only
  repeat' (with_reducible (first | intro _ | ((conv => arg 1; arg 27); apply H.upd) | assumption | apply hello_stable H | apply ite_stable P | split))

theorem startResolution_stable {P : State → Prop} (H : Stable P) {s : State} (h : P s)  : P (State.startResolution s) := by
  unfold State.startResolution
  try dsimp only
  repeat' (with_reducible (first | intro _ | ((conv => arg 1; arg 27); apply H.upd) | assumption | apply journal_stable H | apply each_stable H | apply driveOut_stable H | apply ite_stable P | apply each_stable P | dsimp only | split))

theorem preempt_stable {P : State → Prop} (H : Stable P) {s : State} (h : P s)  : P (State.preempt s) := by
  unfold State.preempt
  try dsimp only
  repeat' (with_reducible (first | intro _ | ((conv => arg 1; arg 27); apply H.upd) | assumption | apply each_stable H | apply raise_stable H | apply journal_stable H | apply driveOut_stable H | apply each_stable P | dsimp only | split))

theorem keysRead_stable {P : State → Prop} (H : Stable P) {s : State} (h : P s) (ownKey : Bool) : P (State.keysRead s ownKey) := by
  unfold State.keysRead
  try dsimp only
  repeat' (with_reducible (first | intro _ | ((conv => arg 1; arg 27); apply H.upd) | assumption | apply preempt_stable H | apply endGives_stable H | apply dropClaims_stable H | apply each_stable H | apply cedePool_stable H | apply dropMirror_stable H | apply winRecompute_stable H | apply raise_stable H | apply ite_stable P | apply each_stable P | dsimp only | split))

theorem preempted_stable {P : State → Prop} (H : Stable P) {s : State} (h : P s)  : P (State.preempted s) := by
  unfold State.preempted
  try dsimp only
  repeat' (with_reducible (first | intro _ | ((conv => arg 1; arg 27); apply H.upd) | assumption | apply bumpWrap_stable H | apply endGives_stable H | apply dropClaims_stable H | apply raise_stable H | apply releaseHeld_stable H | apply winRecompute_stable H | apply each_stable H | apply takePool_stable H | apply tryAllAcks_stable H | apply substitute_stable H | apply admitHeld_stable H | apply ite_stable P | apply each_stable P | dsimp only | split))

theorem claimIn_stable {P : State → Prop} (H : Stable P) {s : State} (h : P s) (pool : Nat) (id : Nat) (slots : List Nat) : P (State.claimIn s pool id slots) := by
  unfold State.claimIn
  try dsimp only
  repeat' (with_reducible (first | intro _ | assumption | apply sendFrame_stable H | apply ite_stable P | split))

theorem giveHook_stable {P : State → Prop} (H : Stable P) {s : State} (h : P s)  : P (State.giveHook s) := by
  unfold State.giveHook
  try dsimp only
  repeat' (with_reducible (first | intro _ | ((conv => arg 1; arg 27); apply H.upd) | assumption | apply each_stable H | apply sendFrame_stable H | apply ite_stable P | apply each_stable P | dsimp only | split))

theorem giveEnded_stable {P : State → Prop} (H : Stable P) {s : State} (h : P s) (id : Nat) (p : Nat) (refused : Bool) : P (State.giveEnded s id p refused) := by
  unfold State.giveEnded
  try dsimp only
  repeat' (with_reducible (first | intro _ | ((conv => arg 1; arg 27); apply H.upd) | assumption | apply setBody_stable H | apply complete_stable H | apply draw_stable H | apply ite_stable P | dsimp only | split))

theorem giveReady_stable {P : State → Prop} (H : Stable P) {s : State} (h : P s) (p : Nat) (refused : Bool) : P (State.giveReady s p refused) := by
  unfold State.giveReady
  try dsimp only
  repeat' (with_reducible (first | intro _ | ((conv => arg 1; arg 27); apply H.upd) | assumption | apply modPool_stable H | apply giveEnded_stable H | apply newDescriptor_stable H | apply toStandby_stable H | apply cedePool_stable H | apply sendFrame_stable H | apply ite_stable P | dsimp only | split))

theorem giveReq_stable {P : State → Prop} (H : Stable P) {s : State} (h : P s) (p : Nat) (mseq : Nat) : P (State.giveReq s p mseq) := by
  unfold State.giveReq
  try dsimp only
  repeat' (with_reducible (first | intro _ | ((conv => arg 1; arg 27); apply H.upd) | assumption | apply answerGives_stable H | apply ite_stable P | split))

theorem giveDone_stable {P : State → Prop} (H : Stable P) {s : State} (h : P s) (p : Nat) (descSeq : Nat) : P (State.giveDone s p descSeq) := by
  unfold State.giveDone
  try dsimp only
  repeat' (with_reducible (first | intro _ | ((conv => arg 1; arg 27); apply H.upd) | assumption | apply takePool_stable H | apply bumpWrap_stable H | apply modPool_stable H | apply winRecompute_stable H | apply ite_stable P | dsimp only | split))

theorem goPoolGive_stable {P : State → Prop} (H : Stable P) {s : State} (h : P s) (id : Nat) (c : HostCmd) : P (State.goPoolGive s id c) := by
  unfold State.goPoolGive
  try dsimp only
  repeat' (with_reducible (first | intro _ | ((conv => arg 1; arg 27); apply H.upd) | assumption | apply checked_stable H | apply setBody_stable H | apply complete_stable H | apply each_stable H | apply modPool_stable H | apply failAppend_stable H | apply sealPool_stable H | apply ite_stable P | apply each_stable P | dsimp only | split))

theorem runPoolGive_stable {P : State → Prop} (H : Stable P) {s : State} (h : P s) (id : Nat) (c : HostCmd) : P (State.runPoolGive s id c) := by
  unfold State.runPoolGive
  try dsimp only
  repeat' (with_reducible (first | intro _ | assumption | apply checked_stable H | apply inTurn_stable H | apply goPoolGive_stable H | dsimp only))

theorem replay_stable {P : State → Prop} (H : Stable P) {s : State} (h : P s)  : P (State.replay s) := by
  unfold State.replay
  try dsimp only
  repeat' (with_reducible (first | intro _ | assumption | apply bump_stable H | apply emit_stable H))

theorem flitNak_stable {P : State → Prop} (H : Stable P) {s : State} (h : P s) (ack : Nat) : P (State.flitNak s ack) := by
  unfold State.flitNak
  try dsimp only
  repeat' (with_reducible (first | intro _ | ((conv => arg 1; arg 27); apply H.upd) | assumption | apply replay_stable H | apply ite_stable P | split))

theorem flitCrcFail_stable {P : State → Prop} (H : Stable P) {s : State} (h : P s)  : P (State.flitCrcFail s) := by
  unfold State.flitCrcFail
  try dsimp only
  repeat' (with_reducible (first | intro _ | assumption | apply emit_stable H | apply ite_stable P | split))

theorem retrain_stable {P : State → Prop} (H : Stable P) {s : State} (h : P s)  : P (State.retrain s) := by
  unfold State.retrain
  try dsimp only
  repeat' (with_reducible (first | intro _ | ((conv => arg 1; arg 27); apply H.upd) | assumption))

theorem retrainDone_stable {P : State → Prop} (H : Stable P) {s : State} (h : P s) (rate : Nat) (width : Nat) : P (State.retrainDone s rate width) := by
  unfold State.retrainDone
  try dsimp only
  repeat' (with_reducible (first | intro _ | ((conv => arg 1; arg 27); apply H.upd) | assumption | apply ite_stable P | split))

end Sys2Proof.Machine
end

