-- ==== Sys2Proof/Laws/StableModes.lean ====
section
/-! SUPPORT. What the record updates and register writes of the model keep, every operation of Machine/Modes.lean keeps (`Stable`). -/

namespace Sys2Proof.Machine

open Sys2Proof

theorem freqEnded_stable {P : State → Prop} (H : Stable P) {s : State} (h : P s) (result : Nat) (point : Option Nat) : P (State.freqEnded s result point) := by
  unfold State.freqEnded
  try dsimp only
  repeat' (with_reducible (first | intro _ | ((conv => arg 1; arg 27); apply H.upd) | assumption | apply setFld_stable H | dsimp only | split))

theorem abortEpoch_stable {P : State → Prop} (H : Stable P) {s : State} (h : P s) (unit : Nat) (result : Nat) : P (State.abortEpoch s unit result) := by
  unfold State.abortEpoch
  try dsimp only
  repeat' (with_reducible (first | intro _ | ((conv => arg 1; arg 27); apply H.upd) | assumption | apply raise_stable H | apply complete_stable H | apply freqEnded_stable H | apply ite_stable P | dsimp only | split))

theorem startEpoch_stable {P : State → Prop} (H : Stable P) {s : State} (h : P s) (kind : EpochKind) (cmd : Option Nat) : P (State.startEpoch s kind cmd) := by
  unfold State.startEpoch
  try dsimp only
  repeat' (with_reducible (first | intro _ | ((conv => arg 1; arg 27); apply H.upd) | assumption | apply abortEpoch_stable H | apply ite_stable P | dsimp only | split))

theorem commitEpoch_stable {P : State → Prop} (H : Stable P) {s : State} (h : P s) (k : Epoch) : P (State.commitEpoch s k) := by
  unfold State.commitEpoch
  try dsimp only
  repeat' (with_reducible (first | intro _ | ((conv => arg 1; arg 27); apply H.upd) | assumption | apply applyPoolSet_stable H | apply complete_stable H | apply freqEnded_stable H | apply startRetrain_stable H | dsimp only | split))

theorem epochAck_stable {P : State → Prop} (H : Stable P) {s : State} (h : P s) (unit : Nat) : P (State.epochAck s unit) := by
  unfold State.epochAck
  try dsimp only
  repeat' (with_reducible (first | intro _ | ((conv => arg 1; arg 27); apply H.upd) | assumption | apply ite_stable P | dsimp only | split))

theorem epochRefused_stable {P : State → Prop} (H : Stable P) {s : State} (h : P s) (unit : Nat) : P (State.epochRefused s unit) := by
  unfold State.epochRefused
  try dsimp only
  repeat' (with_reducible (first | intro _ | ((conv => arg 1; arg 27); apply H.upd) | assumption | apply abortEpoch_stable H | apply ite_stable P | split))

theorem epochTimeout_stable {P : State → Prop} (H : Stable P) {s : State} (h : P s)  : P (State.epochTimeout s) := by
  unfold State.epochTimeout
  try dsimp only
  repeat' (with_reducible (first | intro _ | ((conv => arg 1; arg 27); apply H.upd) | assumption | apply abortEpoch_stable H | apply ite_stable P | split))

theorem epochSwitched_stable {P : State → Prop} (H : Stable P) {s : State} (h : P s) (unit : Nat) : P (State.epochSwitched s unit) := by
  unfold State.epochSwitched
  try dsimp only
  repeat' (with_reducible (first | intro _ | ((conv => arg 1; arg 27); apply H.upd) | assumption | apply commitEpoch_stable H | apply ite_stable P | dsimp only | split))

theorem mcFreqWrite_stable {P : State → Prop} (H : Stable P) {s : State} (h : P s) (v : Word) : P (mcFreqWrite v s) := by
  unfold mcFreqWrite
  try dsimp only
  repeat' (with_reducible (first | intro _ | assumption | apply setFld_stable H | apply startEpoch_stable H | apply ite_stable P | dsimp only | split))

theorem goPoolSet_stable {P : State → Prop} (H : Stable P) {s : State} (h : P s) (id : Nat) (c : HostCmd) : P (State.goPoolSet s id c) := by
  unfold State.goPoolSet
  try dsimp only
  repeat' (with_reducible (first | intro _ | assumption | apply checked_stable H | apply setBody_stable H | apply startEpoch_stable H | apply ite_stable P | dsimp only | split))

theorem runPoolSet_stable {P : State → Prop} (H : Stable P) {s : State} (h : P s) (id : Nat) (c : HostCmd) : P (State.runPoolSet s id c) := by
  unfold State.runPoolSet
  try dsimp only
  repeat' (with_reducible (first | intro _ | assumption | apply checked_stable H | apply inTurn_stable H | apply goPoolSet_stable H | dsimp only))

theorem goDeviceMode_stable {P : State → Prop} (H : Stable P) {s : State} (h : P s) (id : Nat) (c : HostCmd) : P (State.goDeviceMode s id c) := by
  unfold State.goDeviceMode
  try dsimp only
  repeat' (with_reducible (first | intro _ | ((conv => arg 1; arg 27); apply H.upd) | assumption | apply complete_stable H | apply checked_stable H | apply setBody_stable H | dsimp only | split))

theorem runDeviceMode_stable {P : State → Prop} (H : Stable P) {s : State} (h : P s) (id : Nat) (c : HostCmd) : P (State.runDeviceMode s id c) := by
  unfold State.runDeviceMode
  try dsimp only
  repeat' (with_reducible (first | intro _ | assumption | apply checked_stable H | apply inTurn_stable H | apply goDeviceMode_stable H | dsimp only))

theorem harbourHook_stable {P : State → Prop} (H : Stable P) {s : State} (h : P s)  : P (State.harbourHook s) := by
  unfold State.harbourHook
  try dsimp only
  repeat' (with_reducible (first | intro _ | ((conv => arg 1; arg 27); apply H.upd) | assumption | apply each_stable H | apply startSeal_stable H | apply startCkpt_stable H | apply journal_stable H | apply sendBlock_stable H | apply dropMirror_stable H | apply driveOut_stable H | apply modSlot_stable H | apply startEpoch_stable H | apply ite_stable P | apply each_stable P | dsimp only | split))

theorem epochHook_stable {P : State → Prop} (H : Stable P) {s : State} (h : P s)  : P (State.epochHook s) := by
  unfold State.epochHook
  try dsimp only
  repeat' (with_reducible (first | intro _ | assumption | apply startEpoch_stable H | apply ite_stable P | split))

theorem harbourLinks_stable {P : State → Prop} (H : Stable P) {s : State} (h : P s)  : P (State.harbourLinks s) := by
  unfold State.harbourLinks
  try dsimp only
  repeat' (with_reducible (first | intro _ | ((conv => arg 1; arg 27); apply H.upd) | assumption | apply each_stable H | apply resetPort_stable H | apply modSlot_stable H | apply ite_stable P | apply each_stable P | dsimp only | split))

theorem harbourMemory_stable {P : State → Prop} (H : Stable P) {s : State} (h : P s)  : P (State.harbourMemory s) := by
  unfold State.harbourMemory
  try dsimp only
  repeat' (with_reducible (first | intro _ | assumption | apply each_stable H | apply setFld_stable H | apply each_stable P | dsimp only))

theorem harbourGate_stable {P : State → Prop} (H : Stable P) {s : State} (h : P s)  : P (State.harbourGate s) := by
  unfold State.harbourGate
  try dsimp only
  repeat' (with_reducible (first | intro _ | ((conv => arg 1; arg 27); first | apply H.upd | apply H.updSec) | assumption | apply ite_stable P | dsimp only | split))

theorem harbourDown_stable {P : State → Prop} (H : Stable P) {s : State} (h : P s)  : P (State.harbourDown s) := by
  unfold State.harbourDown
  try dsimp only
  repeat' (with_reducible (first | intro _ | assumption | apply harbourLinks_stable H | apply harbourMemory_stable H | apply harbourGate_stable H | apply ite_stable P | split))

end Sys2Proof.Machine
end

