-- ==== Sys2Proof/Laws/StableRegView.lean ====
section
/-! SUPPORT. What the record updates and register writes of the model keep, every operation of Machine/RegView.lean keeps (`Stable`). -/

namespace Sys2Proof.Machine

open Sys2Proof

theorem readReg_stable {P : State → Prop} (H : Stable P) {s : State} (h : P s) (a : Nat) : P (State.readReg s a).2 := by
  unfold State.readReg
  try dsimp only
  repeat' (with_reducible (first | intro _ | ((conv => arg 1; arg 27); apply H.upd) | assumption | apply gatedEvent_stable H | apply regAccessEvent_stable H | apply setReg_stable H | apply ite_stable P | dsimp only | split))

end Sys2Proof.Machine
end

