-- ==== Sys2Proof/Laws/StableEvents.lean ====
section
/-! SUPPORT. What the record updates and register writes of the model keep, every operation of Machine/Events.lean keeps (`Stable`). -/

namespace Sys2Proof.Machine

open Sys2Proof

theorem recordFormed_stable {P : State → Prop} (H : Stable P) {s : State} (h : P s) (e : RaisedEvent) (always : Bool) : P (State.recordFormed s e always) := by
  unfold State.recordFormed
  try dsimp only
  repeat' (with_reducible (first | intro _ | ((conv => arg 1; arg 27); apply H.upd) | assumption | dsimp only))

theorem dropRecord_stable {P : State → Prop} (H : Stable P) {s : State} (h : P s)  : P (State.dropRecord s) := by
  unfold State.dropRecord
  try dsimp only
  repeat' (with_reducible (first | intro _ | ((conv => arg 1; arg 27); apply H.upd) | assumption | apply bump_stable H | dsimp only))

theorem toRing_stable {P : State → Prop} (H : Stable P) {s : State} (h : P s) (r : EvRecord) : P (State.toRing s r) := by
  unfold State.toRing
  try dsimp only
  repeat' (with_reducible (first | intro _ | ((conv => arg 1; arg 27); apply H.upd) | assumption | apply dropRecord_stable H | split))

theorem toLog_stable {P : State → Prop} (H : Stable P) {s : State} (h : P s) (r : EvRecord) : P (State.toLog s r) := by
  unfold State.toLog
  try dsimp only
  repeat' (with_reducible (first | intro _ | ((conv => arg 1; arg 27); apply H.upd) | assumption | apply dropRecord_stable H | split))

theorem formNow_stable {P : State → Prop} (H : Stable P) {s : State} (h : P s) (e : RaisedEvent) (always : Bool) : P (State.formNow s e always) := by
  unfold State.formNow
  try dsimp only
  repeat' (with_reducible (first | intro _ | assumption | apply recordFormed_stable H | apply toRing_stable H | dsimp only))

theorem formRecord_stable {P : State → Prop} (H : Stable P) {s : State} (h : P s)  : P (State.formRecord s) := by
  unfold State.formRecord
  try dsimp only
  repeat' (with_reducible (first | intro _ | ((conv => arg 1; arg 27); apply H.upd) | assumption | apply formNow_stable H | apply ite_stable P | split))

theorem ringOut_stable {P : State → Prop} (H : Stable P) {s : State} (h : P s) (n : Nat) : P (State.ringOut s n) := by
  unfold State.ringOut
  try dsimp only
  repeat' (with_reducible (first | intro _ | ((conv => arg 1; arg 27); apply H.upd) | assumption | apply each_stable H | apply toLog_stable H | apply each_stable P | dsimp only))

theorem logWritten_stable {P : State → Prop} (H : Stable P) {s : State} (h : P s)  : P (State.logWritten s) := by
  unfold State.logWritten
  try dsimp only
  repeat' (with_reducible (first | intro _ | assumption | apply ringOut_stable H | apply ite_stable P | split))

theorem ringSaved_stable {P : State → Prop} (H : Stable P) {s : State} (h : P s)  : P (State.ringSaved s) := by
  unfold State.ringSaved
  try dsimp only
  repeat' (with_reducible (first | intro _ | assumption | apply ringOut_stable H | apply ite_stable P | split))

theorem evStoreFault_stable {P : State → Prop} (H : Stable P) {s : State} (h : P s)  : P (State.evStoreFault s) := by
  unfold State.evStoreFault
  try dsimp only
  repeat' (with_reducible (first | intro _ | ((conv => arg 1; arg 27); apply H.upd) | assumption | apply formNow_stable H | apply ite_stable P | dsimp only | split))

theorem copiedBack_stable {P : State → Prop} (H : Stable P) {s : State} (h : P s)  : P (State.copiedBack s) := by
  unfold State.copiedBack
  try dsimp only
  repeat' (with_reducible (first | intro _ | ((conv => arg 1; arg 27); apply H.upd) | assumption | apply ringOut_stable H | apply formNow_stable H | dsimp only))

theorem evStoreBack_stable {P : State → Prop} (H : Stable P) {s : State} (h : P s)  : P (State.evStoreBack s) := by
  unfold State.evStoreBack
  try dsimp only
  repeat' (with_reducible (first | intro _ | ((conv => arg 1; arg 27); apply H.upd) | assumption | apply copiedBack_stable H | apply ite_stable P | split))

theorem scanDone_stable {P : State → Prop} (H : Stable P) {s : State} (h : P s)  : P (State.scanDone s) := by
  unfold State.scanDone
  try dsimp only
  repeat' (with_reducible (first | intro _ | ((conv => arg 1; arg 27); apply H.upd) | assumption))

theorem evReset_stable {P : State → Prop} (H : Stable P) {s : State} (h : P s)  : P (State.evReset s) := by
  unfold State.evReset
  try dsimp only
  repeat' (with_reducible (first | intro _ | ((conv => arg 1; arg 27); apply H.upd) | assumption | apply setReg_stable H | apply each_stable H | apply evLose_stable H | apply each_stable P | dsimp only))

theorem refillToken_stable {P : State → Prop} (H : Stable P) {s : State} (h : P s) (code : Nat) : P (State.refillToken s code) := by
  unfold State.refillToken
  try dsimp only
  repeat' (with_reducible (first | intro _ | ((conv => arg 1; arg 27); apply H.upd) | assumption | apply ite_stable P | dsimp only | split))

theorem notifyTick_stable {P : State → Prop} (H : Stable P) {s : State} (h : P s) (port : Nat) : P (State.notifyTick s port) := by
  unfold State.notifyTick
  try dsimp only
  repeat' (with_reducible (first | intro _ | ((conv => arg 1; arg 27); apply H.upd) | assumption | apply sendMsix_stable H | apply ite_stable P | dsimp only | split))

theorem runEvRead_stable {P : State → Prop} (H : Stable P) {s : State} (h : P s) (id : Nat) (c : HostCmd) : P (State.runEvRead s id c) := by
  unfold State.runEvRead
  try dsimp only
  repeat' (with_reducible (first | intro _ | ((conv => arg 1; arg 27); apply H.upd) | assumption | apply checked_stable H | apply toHost_stable H | apply complete_stable H | dsimp only | split))

theorem goEvClear_stable {P : State → Prop} (H : Stable P) {s : State} (h : P s) (id : Nat) : P (State.goEvClear s id) := by
  unfold State.goEvClear
  try dsimp only
  repeat' (with_reducible (first | intro _ | ((conv => arg 1; arg 27); apply H.upd) | assumption | apply recordFormed_stable H | apply setBody_stable H | apply complete_stable H | apply ite_stable P | apply foldl_stable P | apply foldl_fst_stable P | apply foldl_snd_stable P | dsimp only | split))

theorem runEvClear_stable {P : State → Prop} (H : Stable P) {s : State} (h : P s) (id : Nat) (c : HostCmd) : P (State.runEvClear s id c) := by
  unfold State.runEvClear
  try dsimp only
  repeat' (with_reducible (first | intro _ | assumption | apply checked_stable H | apply inTurn_stable H | apply goEvClear_stable H | dsimp only))

theorem eraseDone_stable {P : State → Prop} (H : Stable P) {s : State} (h : P s)  : P (State.eraseDone s) := by
  unfold State.eraseDone
  try dsimp only
  repeat' (with_reducible (first | intro _ | ((conv => arg 1; arg 27); apply H.upd) | assumption | apply each_stable H | apply complete_stable H | apply copiedBack_stable H | apply ite_stable P | apply each_stable P | dsimp only | split))

end Sys2Proof.Machine
end

