-- ==== Sys2Proof/Laws/StableBoot.lean ====
section
/-! SUPPORT. What the record updates and register writes of the model keep, every operation of Machine/Boot.lean keeps (`Stable`). -/

namespace Sys2Proof.Machine

open Sys2Proof

theorem imageEntries_stable {P : State → Prop} (H : Stable P) {s : State} (h : P s) (i : Image) (lo : Nat) (hi : Nat) : P (State.imageEntries s i lo hi) := by
  unfold State.imageEntries
  try dsimp only
  repeat' (with_reducible (first | intro _ | assumption | apply each_stable H | apply setReg_stable H | apply each_stable P | dsimp only))

theorem imageDl_stable {P : State → Prop} (H : Stable P) {s : State} (h : P s) (i : Image) : P (State.imageDl s i) := by
  unfold State.imageDl
  try dsimp only
  repeat' (with_reducible (first | intro _ | ((conv => arg 1; arg 27); apply H.upd) | assumption | apply each_stable H | apply setFld_stable H | apply ite_stable P | apply each_stable P | dsimp only | split))

theorem imageCl_stable {P : State → Prop} (H : Stable P) {s : State} (h : P s) (i : Image) : P (State.imageCl s i) := by
  unfold State.imageCl
  try dsimp only
  repeat' (with_reducible (first | intro _ | assumption | apply each_stable H | apply setFld_stable H | apply setReg_stable H | apply ite_stable P | apply each_stable P | dsimp only | split))

theorem imageSpan_stable {P : State → Prop} (H : Stable P) {s : State} (h : P s) (lo : Nat) (hi : Nat) : P (State.imageSpan s lo hi) := by
  unfold State.imageSpan
  try dsimp only
  repeat' (with_reducible (first | intro _ | ((conv => arg 1; arg 27); apply H.upd) | assumption | apply imageEntries_stable H | apply imageCl_stable H | apply imageDl_stable H | apply ite_stable P | dsimp only | split))

theorem clearSpan_stable {P : State → Prop} (H : Stable P) {s : State} (h : P s) (lo : Nat) (hi : Nat) : P (State.clearSpan s lo hi) := by
  unfold State.clearSpan
  try dsimp only
  repeat' (with_reducible (first | intro _ | ((conv => arg 1; arg 27); first | apply H.upd | apply H.updRegs) | assumption | dsimp only))

theorem bootRegs_stable {P : State → Prop} (H : Stable P) {s : State} (h : P s) (b : BootInfo) (fwPref : Nat) (imgPref : Nat) (fw : Option Nat × Nat × Nat) (img : Option Nat × Nat × Nat) (seq : Nat) : P (State.bootRegs s b fwPref imgPref fw img seq) := by
  unfold State.bootRegs
  try dsimp only
  repeat' (with_reducible (first | intro _ | assumption | apply setReg_stable H | apply setReg64_stable H | apply ite_stable P | dsimp only | split))

theorem startTable_stable {P : State → Prop} (H : Stable P) {s : State} (h : P s)  : P (State.startTable s) := by
  unfold State.startTable
  try dsimp only
  repeat' (with_reducible (first | intro _ | ((conv => arg 1; arg 27); first | apply H.upd | apply H.updSec) | assumption | apply ite_stable P | dsimp only | split))

theorem runGates_stable {P : State → Prop} (H : Stable P) {s : State} (h : P s)  : P (State.runGates s) := by
  unfold State.runGates
  try dsimp only
  repeat' (with_reducible (first | intro _ | assumption | apply setDomain_stable H | apply ite_stable P | dsimp only | split))

theorem configure_stable {P : State → Prop} (H : Stable P) {s : State} (h : P s)  : P (State.configure s) := by
  unfold State.configure
  try dsimp only
  repeat' (with_reducible (first | intro _ | ((conv => arg 1; arg 27); apply H.upd) | assumption | apply startTable_stable H | apply imageSpan_stable H | apply runGates_stable H | apply setCharger_stable H | apply each_stable H | apply setFld_stable H | apply ite_stable P | apply each_stable P | dsimp only | split))

theorem startEvents_stable {P : State → Prop} (H : Stable P) {s : State} (h : P s) (b : BootInfo) : P (State.startEvents s b) := by
  unfold State.startEvents
  try dsimp only
  repeat' (with_reducible (first | intro _ | ((conv => arg 1; arg 27); apply H.upd) | assumption | apply raise_stable H | apply ite_stable P | dsimp only | split))

theorem startFirmware_stable {P : State → Prop} (H : Stable P) {s : State} (h : P s) (b : BootInfo) : P (State.startFirmware s b) := by
  unfold State.startFirmware
  try dsimp only
  repeat' (with_reducible (first | intro _ | ((conv => arg 1; arg 27); first | apply H.upd | apply H.updSec) | assumption | apply bootRegs_stable H | apply configure_stable H | apply startStream1_stable H | apply startEvents_stable H | apply ite_stable P | dsimp only | split))

theorem scanSlots_stable {P : State → Prop} (H : Stable P) {s : State} (h : P s)  : P (State.scanSlots s) := by
  unfold State.scanSlots
  try dsimp only
  repeat' (with_reducible (first | intro _ | ((conv => arg 1; arg 27); apply H.upd) | assumption | apply each_stable H | apply setEbSlot_stable H | apply ebErase_stable H | apply ite_stable P | apply each_stable P | apply foldl_stable P | apply foldl_fst_stable P | apply foldl_snd_stable P | dsimp only | split))

theorem coldKeep_stable {P : State → Prop} (HM : StableMem P) {s : State} (h : P s) : P (s.coldKeep) := HM.coldKeep h

theorem trainMemory_stable {P : State → Prop} (H : Stable P) {s : State} (h : P s) (trained : Nat) : P (State.trainMemory s trained) := by
  unfold State.trainMemory
  try dsimp only
  repeat' (with_reducible (first | intro _ | assumption | apply setReg_stable H | apply each_stable H | apply each_stable P | dsimp only))

theorem nameplateBank_stable {P : State → Prop} (H : Stable P) {s : State} (h : P s)  : P (State.nameplateBank s) := by
  unfold State.nameplateBank
  try dsimp only
  repeat' (with_reducible (first | intro _ | assumption | apply setFld_stable H | apply ite_stable P | split))

theorem gateLanes_stable {P : State → Prop} (H : Stable P) {s : State} (h : P s)  : P (State.gateLanes s) := by
  unfold State.gateLanes
  try dsimp only
  repeat' (with_reducible (first | intro _ | assumption | apply each_stable H | apply laneDomain_stable H | apply each_stable P | dsimp only))

theorem restoreMirror_stable {P : State → Prop} (H : Stable P) {s : State} (h : P s)  : P (State.restoreMirror s) := by
  unfold State.restoreMirror
  try dsimp only
  repeat' (with_reducible (first | intro _ | ((conv => arg 1; arg 27); apply H.upd) | assumption | apply ite_stable P | dsimp only | split))

theorem findOutputs_stable {P : State → Prop} (H : Stable P) {s : State} (h : P s)  : P (State.findOutputs s) := by
  unfold State.findOutputs
  try dsimp only
  repeat' (with_reducible (first | intro _ | ((conv => arg 1; arg 27); apply H.upd) | assumption | dsimp only | split))

theorem coldStart_stable {P : State → Prop} (HM : StableMem P) {s : State} (h : P s) (kind : Nat) (b : BootInfo) : P (State.coldStart s kind b) := by
  have H := HM.toStable
  unfold State.coldStart
  try dsimp only
  repeat' (with_reducible (first | intro _ | ((conv => arg 1; arg 27); apply H.upd) | assumption | apply coldKeep_stable HM | apply setFld_stable H | apply each_stable H | apply newUuid_stable H | apply startFirmware_stable H | apply trainMemory_stable H | apply nameplateBank_stable H | apply raise_stable H | apply scanSlots_stable H | apply restoreMirror_stable H | apply gateLanes_stable H | apply findOutputs_stable H | apply winRecompute_stable H | apply ite_stable P | apply each_stable P | dsimp only | split))

theorem warmKeep_stable {P : State → Prop} (HM : StableMem P) {s : State} (h : P s) : P (s.warmKeep) := HM.warmKeep h

theorem wakeMemory_stable {P : State → Prop} (H : Stable P) {s : State} (h : P s)  : P (State.wakeMemory s) := by
  unfold State.wakeMemory
  try dsimp only
  repeat' (with_reducible (first | intro _ | assumption | apply each_stable H | apply setFld_stable H | apply queueRetrain_stable H | apply startRetrain_stable H | apply each_stable P | dsimp only))

theorem warmStart_stable {P : State → Prop} (HM : StableMem P) {s : State} (h : P s) (kind : Nat) (record : Bool) (b : BootInfo) : P (State.warmStart s kind record b) := by
  have H := HM.toStable
  unfold State.warmStart
  try dsimp only
  repeat' (with_reducible (first | intro _ | ((conv => arg 1; arg 27); apply H.upd) | assumption | apply warmKeep_stable HM | apply setReg_stable H | apply each_stable H | apply startFirmware_stable H | apply modPool_stable H | apply dropTest_stable H | apply findOutputs_stable H | apply wakeMemory_stable H | apply wakeForStart_stable H | apply winRecompute_stable H | apply ite_stable P | apply each_stable P | dsimp only | split))

theorem discardDram_stable {P : State → Prop} (HM : StableMem P) {s : State} (h : P s) : P (s.discardDram) := HM.discardDram h

theorem layTable_stable {P : State → Prop} (H : Stable P) {s : State} (h : P s)  : P (State.layTable s) := by
  unfold State.layTable
  try dsimp only
  repeat' (with_reducible (first | intro _ | ((conv => arg 1; arg 27); first | apply H.upd | apply H.updSec) | assumption | apply foldl_stable P | apply foldl_fst_stable P | apply foldl_snd_stable P | dsimp only | split))

theorem retentionDone_stable {P : State → Prop} (HM : StableMem P) {s : State} (h : P s) (srHeld : Bool) (eccOk : Bool) (recordOk : Bool) : P (State.retentionDone s srHeld eccOk recordOk) := by
  have H := HM.toStable
  unfold State.retentionDone
  try dsimp only
  repeat' (with_reducible (first | intro _ | ((conv => arg 1; arg 27); apply H.upd) | assumption | apply raise_stable H | apply layTable_stable H | apply discardDram_stable HM | apply winRecompute_stable H | apply admitHeld_stable H | apply ite_stable P | dsimp only | split))

end Sys2Proof.Machine
end

