-- ==== Sys2Proof/Laws/StablePower.lean ====
section
/-! SUPPORT. What the record updates and register writes of the model keep, every operation of Machine/Power.lean keeps (`Stable`). -/

namespace Sys2Proof.Machine

open Sys2Proof

theorem formAll_stable {P : State → Prop} (H : Stable P) {s : State} (h : P s)  : P (State.formAll s) := by
  unfold State.formAll
  try dsimp only
  repeat' (with_reducible (first | intro _ | assumption | apply each_stable H | apply formRecord_stable H | apply each_stable P | dsimp only))

theorem warmReset_stable {P : State → Prop} (HM : StableMem P) {s : State} (h : P s) (kind : Nat) (record : Bool) (b : BootInfo) : P (State.warmReset s kind record b) := by
  have H := HM.toStable
  unfold State.warmReset
  try dsimp only
  repeat' (with_reducible (first | intro _ | ((conv => arg 1; arg 27); apply H.upd) | assumption | apply formAll_stable H | apply ringSaved_stable H | apply warmStart_stable HM | apply ite_stable P | dsimp only | split))

theorem warmRequest_stable {P : State → Prop} (HM : StableMem P) {s : State} (h : P s) (b : BootInfo) : P (State.warmRequest s b) := by
  have H := HM.toStable
  unfold State.warmRequest
  try dsimp only
  repeat' (with_reducible (first | intro _ | ((conv => arg 1; arg 27); apply H.upd) | assumption | apply warmReset_stable HM | apply ite_stable P | split))

theorem prepTimeout_stable {P : State → Prop} (HM : StableMem P) {s : State} (h : P s) (b : BootInfo) : P (State.prepTimeout s b) := by
  have H := HM.toStable
  unfold State.prepTimeout
  try dsimp only
  repeat' (with_reducible (first | intro _ | assumption | apply warmReset_stable HM | apply ite_stable P | split))

theorem resetRise_stable {P : State → Prop} (HM : StableMem P) {s : State} (h : P s)  : P (State.resetRise s) := by
  have H := HM.toStable
  unfold State.resetRise
  try dsimp only
  repeat' (with_reducible (first | intro _ | ((conv => arg 1; arg 27); apply H.upd) | assumption | apply warmReset_stable HM | apply warmStart_stable HM | apply ite_stable P | dsimp only | split))

theorem warmNow_stable {P : State → Prop} (HM : StableMem P) {s : State} (h : P s) (b : BootInfo) : P (State.warmNow s b) := by
  have H := HM.toStable
  unfold State.warmNow
  try dsimp only
  repeat' (with_reducible (first | intro _ | assumption | apply warmReset_stable HM))

theorem startFlush_stable {P : State → Prop} (H : Stable P) {s : State} (h : P s)  : P (State.startFlush s) := by
  unfold State.startFlush
  try dsimp only
  repeat' (with_reducible (first | intro _ | ((conv => arg 1; arg 27); apply H.upd) | assumption | apply draw_stable H | apply setFld_stable H | apply xmStartFw_stable H | apply foldl_stable P | apply foldl_fst_stable P | apply foldl_snd_stable P | dsimp only | split))

theorem ebbPath_stable {P : State → Prop} (H : Stable P) {s : State} (h : P s)  : P (State.ebbPath s) := by
  unfold State.ebbPath
  try dsimp only
  repeat' (with_reducible (first | intro _ | ((conv => arg 1; arg 27); apply H.upd) | assumption | apply each_stable H | apply setFld_stable H | apply xmHalt_stable H | apply startFlush_stable H | apply ite_stable P | apply each_stable P | dsimp only | split))

theorem enterEbb_stable {P : State → Prop} (H : Stable P) {s : State} (h : P s) (trigger : Nat) : P (State.enterEbb s trigger) := by
  unfold State.enterEbb
  try dsimp only
  repeat' (with_reducible (first | intro _ | assumption | apply startEbb_stable H | apply climateEbb_stable H | apply ebbPath_stable H))

theorem tripEbb_stable {P : State → Prop} (H : Stable P) {s : State} (h : P s)  : P (State.tripEbb s) := by
  unfold State.tripEbb
  try dsimp only
  repeat' (with_reducible (first | intro _ | assumption | apply bankTrip_stable H | apply formAll_stable H | apply ringSaved_stable H | apply ebbPath_stable H | apply ite_stable P | dsimp only | split))

theorem powerFail_stable {P : State → Prop} (H : Stable P) {s : State} (h : P s)  : P (State.powerFail s) := by
  unfold State.powerFail
  try dsimp only
  repeat' (with_reducible (first | intro _ | ((conv => arg 1; arg 27); apply H.upd) | assumption | apply ringSaved_stable H | apply enterEbb_stable H | apply formAll_stable H | apply ite_stable P | split))

theorem powerBack_stable {P : State → Prop} (HM : StableMem P) {s : State} (h : P s) (b : BootInfo) : P (State.powerBack s b) := by
  have H := HM.toStable
  unfold State.powerBack
  try dsimp only
  repeat' (with_reducible (first | intro _ | ((conv => arg 1; arg 27); apply H.upd) | assumption | apply coldStart_stable HM | apply ite_stable P | split))

theorem goOff_stable {P : State → Prop} (HM : StableMem P) {s : State} (h : P s)  : P (State.goOff s) := by
  have H := HM.toStable
  unfold State.goOff
  try dsimp only
  repeat' (with_reducible (first | intro _ | ((conv => arg 1; arg 27); apply H.upd) | assumption | apply coldKeep_stable HM | dsimp only))

theorem powerLost_stable {P : State → Prop} (HM : StableMem P) {s : State} (h : P s)  : P (State.powerLost s) := by
  have H := HM.toStable
  unfold State.powerLost
  try dsimp only
  repeat' (with_reducible (first | intro _ | assumption | apply goOff_stable HM | apply ite_stable P | split))

theorem suppliesGone_stable {P : State → Prop} (HM : StableMem P) {s : State} (h : P s) (vaon : Bool) : P (State.suppliesGone s vaon) := by
  have H := HM.toStable
  unfold State.suppliesGone
  try dsimp only
  repeat' (with_reducible (first | intro _ | ((conv => arg 1; arg 27); apply H.upd) | assumption | apply setEbSlot_stable H | apply goOff_stable HM | apply ite_stable P | dsimp only | split))

theorem powerGood_stable {P : State → Prop} (HM : StableMem P) {s : State} (h : P s) (b : BootInfo) : P (State.powerGood s b) := by
  have H := HM.toStable
  unfold State.powerGood
  try dsimp only
  repeat' (with_reducible (first | intro _ | assumption | apply coldStart_stable HM | apply ite_stable P | split))

theorem leaveHarbour_stable {P : State → Prop} (H : Stable P) {s : State} (h : P s)  : P (State.leaveHarbour s) := by
  unfold State.leaveHarbour
  try dsimp only
  repeat' (with_reducible (first | intro _ | ((conv => arg 1; arg 27); apply H.upd) | assumption | apply harbourExit_stable H | apply runGates_stable H | apply gateLanes_stable H | apply wakeMemory_stable H | apply ite_stable P | apply foldl_stable P | apply foldl_fst_stable P | apply foldl_snd_stable P | dsimp only | split))

theorem harbourExit_stable {P : State → Prop} (H : Stable P) {s : State} (h : P s) (byPerst : Bool) : P (State.harbourExit s byPerst) := by
  unfold State.harbourExit
  try dsimp only
  repeat' (with_reducible (first | intro _ | assumption | apply leaveHarbour_stable H | apply ite_stable P | split))

theorem harbourTimer_stable {P : State → Prop} (H : Stable P) {s : State} (h : P s)  : P (State.harbourTimer s) := by
  unfold State.harbourTimer
  try dsimp only
  repeat' (with_reducible (first | intro _ | assumption | apply leaveHarbour_stable H | apply ite_stable P | split))

theorem xmReset_stable {P : State → Prop} (H : Stable P) {s : State} (h : P s)  : P (State.xmReset s) := by
  unfold State.xmReset
  try dsimp only
  repeat' (with_reducible (first | intro _ | ((conv => arg 1; arg 27); apply H.upd) | assumption | apply clearSpan_stable H | apply setReg_stable H | dsimp only))

theorem dieReset_stable {P : State → Prop} (H : Stable P) {s : State} (h : P s) (d : Nat) : P (State.dieReset s d) := by
  unfold State.dieReset
  try dsimp only
  repeat' (with_reducible (first | intro _ | ((conv => arg 1; arg 27); apply H.upd) | assumption | apply each_stable H | apply modSlot_stable H | apply linkLost_stable H | apply driveOut_stable H | apply clearSpan_stable H | apply imageSpan_stable H | apply ite_stable P | apply each_stable P | dsimp only | split))

theorem unitEffect_stable {P : State → Prop} (H : Stable P) {s : State} (h : P s) (u : Nat) : P (State.unitEffect s u) := by
  unfold State.unitEffect
  try dsimp only
  repeat' (with_reducible (first | intro _ | ((conv => arg 1; arg 27); apply H.upd) | assumption | apply evReset_stable H | apply ceReset_stable H | apply imageSpan_stable H | apply clearSpan_stable H | apply mdcLose_stable H | apply xmReset_stable H | apply clReset_stable H | apply setReg_stable H | apply retrain_stable H | apply dieReset_stable H | dsimp only | split))

theorem unitReset_stable {P : State → Prop} (H : Stable P) {s : State} (h : P s) (u : Nat) : P (State.unitReset s u) := by
  unfold State.unitReset
  try dsimp only
  repeat' (with_reducible (first | intro _ | ((conv => arg 1; arg 27); apply H.upd) | assumption | apply setDomain_stable H | apply unitEffect_stable H | apply ite_stable P | dsimp only | split))

theorem unitResetDone_stable {P : State → Prop} (H : Stable P) {s : State} (h : P s) (u : Nat) : P (State.unitResetDone s u) := by
  unfold State.unitResetDone
  try dsimp only
  repeat' (with_reducible (first | intro _ | ((conv => arg 1; arg 27); apply H.upd) | assumption | apply findOutputs_stable H | apply ite_stable P | dsimp only | split))

theorem unitHook_stable {P : State → Prop} (H : Stable P) {s : State} (h : P s)  : P (State.unitHook s) := by
  unfold State.unitHook
  try dsimp only
  repeat' (with_reducible (first | intro _ | ((conv => arg 1; arg 27); apply H.upd) | assumption | apply each_stable H | apply unitReset_stable H | apply ite_stable P | apply each_stable P | dsimp only | split))

theorem idleGate_stable {P : State → Prop} (H : Stable P) {s : State} (h : P s) (d : Nat) : P (State.idleGate s d) := by
  unfold State.idleGate
  try dsimp only
  repeat' (with_reducible (first | intro _ | ((conv => arg 1; arg 27); apply H.upd) | assumption | apply setDomain_stable H | apply ite_stable P | dsimp only | split))

theorem ungated_stable {P : State → Prop} (H : Stable P) {s : State} (h : P s) (d : Nat) : P (State.ungated s d) := by
  unfold State.ungated
  try dsimp only
  repeat' (with_reducible (first | intro _ | ((conv => arg 1; arg 27); apply H.upd) | assumption | apply setDomain_stable H | apply ite_stable P | dsimp only | split))

theorem slackWrite_stable {P : State → Prop} (H : Stable P) {s : State} (h : P s) (v : Word) : P (slackWrite v s) := by
  unfold slackWrite
  try dsimp only
  repeat' (with_reducible (first | intro _ | assumption | apply setFld_stable H | apply each_stable H | apply ungated_stable H | apply ite_stable P | apply each_stable P | dsimp only | split))

theorem domainRequest_stable {P : State → Prop} (H : Stable P) {s : State} (h : P s) (d : Nat) (off : Bool) : P (State.domainRequest s d off) := by
  unfold State.domainRequest
  try dsimp only
  repeat' (with_reducible (first | intro _ | ((conv => arg 1; arg 27); apply H.upd) | assumption | apply setDomain_stable H | apply ite_stable P | split))

theorem pdRequestWrite_stable {P : State → Prop} (H : Stable P) {s : State} (h : P s) (v : Word) : P (pdRequestWrite v s) := by
  unfold pdRequestWrite
  try dsimp only
  repeat' (with_reducible (first | intro _ | assumption | apply setReg_stable H | apply raise_stable H | apply each_stable H | apply domainRequest_stable H | apply ite_stable P | apply each_stable P | apply foldl_stable P | apply foldl_fst_stable P | apply foldl_snd_stable P | dsimp only | split))

theorem drained_stable {P : State → Prop} (H : Stable P) {s : State} (h : P s) (d : Nat) : P (State.drained s d) := by
  unfold State.drained
  try dsimp only
  repeat' (with_reducible (first | intro _ | ((conv => arg 1; arg 27); apply H.upd) | assumption | apply setDomain_stable H | apply ceDrop_stable H | apply each_stable H | apply linkLost_stable H | apply ite_stable P | apply each_stable P | dsimp only | split))

theorem aonLost_stable {P : State → Prop} (H : Stable P) {s : State} (h : P s)  : P (State.aonLost s) := by
  unfold State.aonLost
  try dsimp only
  repeat' (with_reducible (first | intro _ | ((conv => arg 1; arg 27); apply H.upd) | assumption | apply raise_stable H | apply ite_stable P | split))

theorem lockLost_stable {P : State → Prop} (HM : StableMem P) {s : State} (h : P s) (c : Nat) (b : BootInfo) : P (State.lockLost s c b) := by
  have H := HM.toStable
  unfold State.lockLost
  try dsimp only
  repeat' (with_reducible (first | intro _ | ((conv => arg 1; arg 27); apply H.upd) | assumption | apply resetPort_stable H | apply retrain_stable H | apply unitReset_stable H | apply warmNow_stable HM | apply ite_stable P | dsimp only | split))

theorem relocked_stable {P : State → Prop} (H : Stable P) {s : State} (h : P s) (c : Nat) : P (State.relocked s c) := by
  unfold State.relocked
  try dsimp only
  repeat' (with_reducible (first | intro _ | ((conv => arg 1; arg 27); apply H.upd) | assumption))

theorem dieTemps_stable {P : State → Prop} (HM : StableMem P) {s : State} (h : P s) (temps : List (Option Int)) : P (State.dieTemps s temps) := by
  have H := HM.toStable
  unfold State.dieTemps
  try dsimp only
  repeat' (with_reducible (first | intro _ | ((conv => arg 1; arg 27); apply H.upd) | assumption | apply powerLost_stable HM | apply trip_stable H | apply each_stable H | apply setReg_stable H | apply raise_stable H | apply emit_stable H | apply ite_stable P | apply each_stable P | dsimp only | split))

end Sys2Proof.Machine
end

