-- ==== Sys2Proof/Laws/StableDeviceCommands.lean ====
section
/-! SUPPORT. What the record updates and register writes of the model keep, every operation of Machine/DeviceCommands.lean keeps (`Stable`). -/

namespace Sys2Proof.Machine

open Sys2Proof

theorem goTimeSet_stable {P : State → Prop} (H : Stable P) {s : State} (h : P s) (id : Nat) (c : HostCmd) : P (State.goTimeSet s id c) := by
  unfold State.goTimeSet
  try dsimp only
  repeat' (with_reducible (first | intro _ | ((conv => arg 1; arg 27); apply H.upd) | assumption | apply raise_stable H | apply complete_stable H | apply ite_stable P | dsimp only | split))

theorem runTimeSet_stable {P : State → Prop} (H : Stable P) {s : State} (h : P s) (id : Nat) (c : HostCmd) : P (State.runTimeSet s id c) := by
  unfold State.runTimeSet
  try dsimp only
  repeat' (with_reducible (first | intro _ | assumption | apply checked_stable H | apply inTurn_stable H | apply goTimeSet_stable H | dsimp only))

theorem runTelemetryGet_stable {P : State → Prop} (H : Stable P) {s : State} (h : P s) (id : Nat) (c : HostCmd) : P (State.runTelemetryGet s id c) := by
  unfold State.runTelemetryGet
  try dsimp only
  repeat' (with_reducible (first | intro _ | ((conv => arg 1; arg 27); apply H.upd) | assumption | apply checked_stable H | apply complete_stable H | apply toHost_stable H | apply ite_stable P | dsimp only | split))

theorem setStageBuf_stable {P : State → Prop} (H : Stable P) {s : State} (h : P s) (target : Nat) (b : StageBuf) : P (State.setStageBuf s target b) := by
  unfold State.setStageBuf
  try dsimp only
  repeat' (with_reducible (first | intro _ | ((conv => arg 1; arg 27); apply H.upd) | assumption | apply ite_stable P | split))

theorem goStageWrite_stable {P : State → Prop} (H : Stable P) {s : State} (h : P s) (id : Nat) (c : HostCmd) : P (State.goStageWrite s id c) := by
  unfold State.goStageWrite
  try dsimp only
  repeat' (with_reducible (first | intro _ | ((conv => arg 1; arg 27); apply H.upd) | assumption | apply complete_stable H | apply setStageBuf_stable H | apply ite_stable P | apply foldl_stable P | apply foldl_fst_stable P | apply foldl_snd_stable P | dsimp only | split))

theorem runStageWrite_stable {P : State → Prop} (H : Stable P) {s : State} (h : P s) (id : Nat) (c : HostCmd) : P (State.runStageWrite s id c) := by
  unfold State.runStageWrite
  try dsimp only
  repeat' (with_reducible (first | intro _ | assumption | apply checked_stable H | apply inTurn_stable H | apply goStageWrite_stable H | dsimp only))

theorem writeDirectory_stable {P : State → Prop} (H : Stable P) {s : State} (h : P s) (target : Nat) (slot : Nat) (len : Option Nat) : P (State.writeDirectory s target slot len) := by
  unfold State.writeDirectory
  try dsimp only
  repeat' (with_reducible (first | intro _ | ((conv => arg 1; arg 27); apply H.upd) | assumption | apply ite_stable P | dsimp only | split))

theorem endStage_stable {P : State → Prop} (H : Stable P) {s : State} (h : P s) (id : Nat) (target : Nat) (status : Nat) (slot : Nat) : P (State.endStage s id target status slot) := by
  unfold State.endStage
  try dsimp only
  repeat' (with_reducible (first | intro _ | assumption | apply setStageBuf_stable H | apply complete_stable H | apply ite_stable P | dsimp only | split))

theorem setReason_stable {P : State → Prop} (H : Stable P) {s : State} (h : P s) (target : Nat) (slot : Nat) (reason : Nat) : P (State.setReason s target slot reason) := by
  unfold State.setReason
  try dsimp only
  repeat' (with_reducible (first | intro _ | ((conv => arg 1; arg 27); apply H.upd) | assumption | apply setFld_stable H | dsimp only | split))

theorem goStageCommit_stable {P : State → Prop} (H : Stable P) {s : State} (h : P s) (id : Nat) (c : HostCmd) (verdict : Nat) : P (State.goStageCommit s id c verdict) := by
  unfold State.goStageCommit
  try dsimp only
  repeat' (with_reducible (first | intro _ | ((conv => arg 1; arg 27); apply H.upd) | assumption | apply complete_stable H | apply writeDirectory_stable H | apply setReason_stable H | apply endStage_stable H | apply setDomain_stable H | apply setBody_stable H | apply ite_stable P | dsimp only | split))

theorem runStageCommit_stable {P : State → Prop} (H : Stable P) {s : State} (h : P s) (id : Nat) (c : HostCmd) (verdict : Nat) : P (State.runStageCommit s id c verdict) := by
  unfold State.runStageCommit
  try dsimp only
  repeat' (with_reducible (first | intro _ | assumption | apply checked_stable H | apply setBody_stable H | apply goStageCommit_stable H | apply ite_stable P | dsimp only | split))

theorem flashDone_stable {P : State → Prop} (H : Stable P) {s : State} (h : P s) (ok : Bool) : P (State.flashDone s ok) := by
  unfold State.flashDone
  try dsimp only
  repeat' (with_reducible (first | intro _ | ((conv => arg 1; arg 27); apply H.upd) | assumption | apply setDomain_stable H | apply writeDirectory_stable H | apply endStage_stable H | apply ite_stable P | dsimp only | split))

end Sys2Proof.Machine
end

