-- ==== Sys2Proof/Laws/StableFinish.lean ====
section
/-! SUPPORT. What the record updates and register writes of the model keep, every operation of Machine/Finish.lean keeps (`Stable`). -/

namespace Sys2Proof.Machine

open Sys2Proof

theorem runCommand_stable {P : State → Prop} (H : Stable P) {s : State} (h : P s) (id : Nat) (c : HostCmd) : P (s.runCommand id c) := by
  unfold State.runCommand
  have ht : P (if ownerEntry c && s.hasSession c.x then s.renewSession else s) := ite_stable P (renewSession_stable H h) h
  generalize (if ownerEntry c && s.hasSession c.x then s.renewSession else s) = t at ht
  dsimp only
  generalize entryOpcode c = op
  split
  all_goals with_reducible (first | apply runAppend_stable H | apply runRead_stable H | apply runRelease_stable H | apply runCopy_stable H | apply runSeal_stable H | apply runFlush_stable H | apply runQuery_stable H | apply runPoolCreate_stable H | apply runPoolGrow_stable H | apply runPoolSet_stable H | apply runPoolDelete_stable H | apply runPoolRecover_stable H | apply runLossClear_stable H | apply runPoolGive_stable H | apply runScarfStart_stable H | apply runScarfCommit_stable H | apply runScarfAbort_stable H | apply runDriveSet_stable H | apply runTimeSet_stable H | apply runTelemetryGet_stable H | apply runEvRead_stable H | apply runEvClear_stable H | apply runDeviceMode_stable H | apply runStageWrite_stable H | apply runStageCommit_stable H | apply runSessionOpen_stable H | apply runSessionProve_stable H | apply runSessionClose_stable H | apply runProtectSet_stable H | apply runProtectCommit_stable H | apply runAttest_stable H | apply runQueueCreate_stable H | apply runQueueDelete_stable H | apply runOrphanList_stable H | apply runOrphanSettle_stable H | apply complete_stable H)
  all_goals first | exact ht | exact draw_stable H ht _

theorem hostCommand_stable {P : State → Prop} (H : Stable P) {s : State} (h : P s) (op : Nat) (c : HostCmd) (run : State → Nat → State)
    (hrun : ∀ t n, P t → P (run t n)) : P (s.hostCommand op c run) := by
  unfold State.hostCommand
  dsimp only
  split
  · refine ite_stable P (ite_stable P (complete_stable H (consume_stable H h _ _ _ _) _ _ _ _ _) (hrun _ _ ?_)) h
    exact ite_stable P (renewSession_stable H (consume_stable H h _ _ _ _)) (consume_stable H h _ _ _ _)
  · exact h

theorem takeTurn_stable {P : State → Prop} (H : Stable P) {s : State} (h : P s) (id : Nat) (c : HostCmd) (granted : Bool) (verdict : Nat) : P (State.takeTurn s id c granted verdict) := by
  unfold State.takeTurn
  try dsimp only
  repeat' (with_reducible (first | intro _ | ((conv => arg 1; arg 27); apply H.upd) | assumption | apply goPoolCreate_stable H | apply goPoolGrow_stable H | apply goPoolSet_stable H | apply goPoolDelete_stable H | apply goPoolRecover_stable H | apply goLossClear_stable H | apply goPoolGive_stable H | apply goScarfStart_stable H | apply goScarfCommit_stable H | apply goScarfAbort_stable H | apply goDriveSet_stable H | apply goTimeSet_stable H | apply goEvClear_stable H | apply goDeviceMode_stable H | apply goStageWrite_stable H | apply goStageCommit_stable H | apply goSessionOpen_stable H | apply goSessionProve_stable H | apply goSessionClose_stable H | apply goProtectSet_stable H | apply goProtectCommit_stable H | apply complete_stable H | split))

theorem drainSerial_stable {P : State → Prop} (H : Stable P) {s : State} (h : P s)  : P (State.drainSerial s) := by
  unfold State.drainSerial
  try dsimp only
  repeat' (with_reducible (first | intro _ | ((conv => arg 1; arg 27); apply H.upd) | assumption | apply each_stable H | apply takeTurn_stable H | apply ite_stable P | apply each_stable P | dsimp only | split))

theorem wakesDone_stable {P : State → Prop} (H : Stable P) {s : State} (h : P s)  : P (State.wakesDone s) := by
  unfold State.wakesDone
  try dsimp only
  repeat' (with_reducible (first | intro _ | ((conv => arg 1; arg 27); apply H.upd) | assumption | dsimp only))

theorem settleOnce_stable {P : State → Prop} (H : Stable P) {s : State} (h : P s)  : P (State.settleOnce s) := by
  unfold State.settleOnce
  try dsimp only
  repeat' (with_reducible (first | intro _ | assumption | apply settleReads_stable H | apply readsReplan_stable H | apply flushHook_stable H | apply settle_stable H | apply settleCtlq_stable H | apply labelHook_stable H | apply retireHook_stable H | apply scarfHook_stable H | apply protHook_stable H | apply mediaHook_stable H | apply reserveHook_stable H | apply giveHook_stable H | apply harbourHook_stable H | apply epochHook_stable H | apply unitHook_stable H | apply drainSerial_stable H | apply spinHook_stable H | apply wakesDone_stable H | dsimp only))

theorem settleRounds_stable {P : State → Prop} (H : Stable P) {s : State} (h : P s) (x0 : Nat) : P (State.settleRounds x0 s) := by
  induction x0 generalizing s  with
  | zero =>
    unfold State.settleRounds
    try dsimp only
    repeat' (with_reducible (first | intro _ | assumption | apply settleOnce_stable H))
  | succ n ih =>
    unfold State.settleRounds
    try dsimp only
    repeat' (with_reducible (first | intro _ | assumption | apply ih | apply settleOnce_stable H))

theorem finish_stable {P : State → Prop} (H : Stable P) {s : State} (h : P s)  : P (State.finish s) := by
  unfold State.finish
  try dsimp only
  repeat' (with_reducible (first | intro _ | assumption | apply settleRounds_stable H))

theorem whenUp_stable {P : State → Prop} (H : Stable P) {s : State} (h : P s) (act : State → State) (hact : ∀ t, P t → P (act t)) : P (State.whenUp s act) := by
  unfold State.whenUp
  try dsimp only
  repeat' (with_reducible (first | intro _ | assumption | apply hact | apply finish_stable H | apply ite_stable P | split))

theorem whenPlant_stable {P : State → Prop} (H : Stable P) {s : State} (h : P s) (act : State → State) (hact : ∀ t, P t → P (act t)) : P (State.whenPlant s act) := by
  unfold State.whenPlant
  try dsimp only
  repeat' (with_reducible (first | intro _ | assumption | apply hact | apply finish_stable H | apply ite_stable P | split))

theorem hostRow_stable {P : State → Prop} (H : Stable P) {s : State} (h : P s) (op : Nat) (c : HostCmd) (run : State → Nat → State)
    (hrun : ∀ t n, P t → P (run t n)) : P (s.hostRow op c run) := by
  unfold State.hostRow
  exact whenUp_stable H h _ (fun t ht => hostCommand_stable H ht op c run hrun)

end Sys2Proof.Machine
end

