-- ==== Sys2Proof/Laws/StableRegisterCommands.lean ====
section
/-! SUPPORT. What the record updates and register writes of the model keep, every operation of Machine/RegisterCommands.lean keeps (`Stable`). -/

namespace Sys2Proof.Machine

open Sys2Proof

theorem stageLow_stable {P : State → Prop} (H : Stable P) {s : State} (h : P s) (lo : Nat) (v : Word) : P (State.stageLow s lo v) := by
  unfold State.stageLow
  try dsimp only
  repeat' (with_reducible (first | intro _ | ((conv => arg 1; arg 27); apply H.upd) | assumption))

theorem writePair_stable {P : State → Prop} (H : Stable P) {s : State} (h : P s) (lo : Nat) (hi : Nat) (v : Word) : P (State.writePair s lo hi v) := by
  unfold State.writePair
  try dsimp only
  repeat' (with_reducible (first | intro _ | ((conv => arg 1; arg 27); apply H.upd) | assumption | apply writeByType_stable H | dsimp only | split))

theorem qcArbSet_stable {P : State → Prop} (H : Stable P) {s : State} (h : P s) (q : Nat) (v : Word) : P (qcArbSet q v s) := by
  unfold qcArbSet
  try dsimp only
  repeat' (with_reducible (first | intro _ | ((conv => arg 1; arg 27); apply H.upd) | assumption | apply modSq_stable H | dsimp only))

theorem qcCoalSet_stable {P : State → Prop} (H : Stable P) {s : State} (h : P s) (q : Nat) (v : Word) : P (qcCoalSet q v s) := by
  unfold qcCoalSet
  try dsimp only
  repeat' (with_reducible (first | intro _ | ((conv => arg 1; arg 27); apply H.upd) | assumption | apply modCq_stable H | dsimp only))

theorem unitResetWrite_stable {P : State → Prop} (H : Stable P) {s : State} (h : P s) (v : Word) : P (unitResetWrite v s) := by
  unfold unitResetWrite
  try dsimp only
  repeat' (with_reducible (first | intro _ | assumption | apply each_stable H | apply unitReset_stable H | apply each_stable P | dsimp only))

theorem xmPcWrite_stable {P : State → Prop} (H : Stable P) {s : State} (h : P s) (n : Nat) (hi : Bool) (v : Word) : P (xmPcWrite n hi v s) := by
  unfold xmPcWrite
  try dsimp only
  repeat' (with_reducible (first | intro _ | assumption | apply writePair_stable H | apply stageLow_stable H | apply ite_stable P | dsimp only | split))

theorem regEffect_stable {P : State → Prop} (H : Stable P) {s : State} (h : P s) (r : Reg) (i : Nat) (a : Nat) (v : Word) : P (State.regEffect s r i a v) := by
  unfold State.regEffect
  try dsimp only
  repeat' (with_reducible (first | intro _ | assumption | apply ceCtlWrite_stable H | apply ceEnWrite_stable H | apply qcArbSet_stable H | apply qcCoalSet_stable H | apply laneReset_stable H | apply unitResetWrite_stable H | apply slackWrite_stable H | apply pdRequestWrite_stable H | apply mcFreqWrite_stable H | apply mcRetrainWrite_stable H | apply writeByType_stable H | apply setFld_stable H | apply mcDiagWrite_stable H | apply mdcCtlWrite_stable H | apply mdcWayWrite_stable H | apply mdcMaintWrite_stable H | apply stageLow_stable H | apply writePair_stable H | apply xmEventSetWrite_stable H | apply xmCtlWrite_stable H | apply xmCfgWrite_stable H | apply xmPcWrite_stable H | apply ite_stable P | split))

theorem barWrite_stable {P : State → Prop} (H : Stable P) {s : State} (h : P s) (port : Nat) (a : Nat) (v : Word) : P (State.barWrite s port a v) := by
  unfold State.barWrite
  try dsimp only
  repeat' (with_reducible (first | intro _ | ((conv => arg 1; arg 27); apply H.upd) | assumption | apply regAccessEvent_stable H | apply gatedEvent_stable H | apply enrollCtlWrite_stable H | apply enrollKeyWrite_stable H | apply hostWrite_stable H | apply regEffect_stable H | apply ite_stable P | dsimp only | split))

theorem capWrite_stable {P : State → Prop} (H : Stable P) {s : State} (h : P s) (x : Nat) (off : Nat) (v : Word) : P (State.capWrite s x off v) := by
  unfold State.capWrite
  try dsimp only
  repeat' (with_reducible (first | intro _ | ((conv => arg 1; arg 27); apply H.upd) | assumption | apply enableCtlq_stable H | apply disableCtlq_stable H | apply setFn_stable H | apply ite_stable P | dsimp only | split))

theorem hostRead_stable {P : State → Prop} (H : Stable P) {s : State} (h : P s) (a : Nat) : P (State.hostRead s a) := by
  unfold State.hostRead
  try dsimp only
  repeat' (with_reducible (first | intro _ | ((conv => arg 1; arg 27); apply H.upd) | assumption | apply readReg_stable H | apply emit_stable H | apply setFn_stable H | apply ite_stable P | dsimp only | split))

end Sys2Proof.Machine
end

