-- ==== Sys2Proof/Laws/StableQueueRows.lean ====
section
/-! SUPPORT. What the record updates and register writes of the model keep, every operation of Machine/QueueRows.lean keeps (`Stable`). -/

namespace Sys2Proof.Machine

open Sys2Proof

theorem readSlots_stable {P : State → Prop} (H : Stable P) {s : State} (h : P s) (q : Nat) (offsets : List Nat) : P (State.readSlots s q offsets) := by
  unfold State.readSlots
  try dsimp only
  repeat' (with_reducible (first | intro _ | ((conv => arg 1; arg 27); apply H.upd) | assumption | apply each_stable H | apply emit_stable H | apply hostRead_stable H | apply each_stable P | dsimp only | split))

theorem readAnnounced_stable {P : State → Prop} (H : Stable P) {s : State} (h : P s) (old : State) (x : Nat) (n : Nat) : P (State.readAnnounced old s x n) := by
  unfold State.readAnnounced
  try dsimp only
  repeat' (with_reducible (first | intro _ | ((conv => arg 1; arg 27); apply H.upd) | assumption | apply readSlots_stable H | dsimp only | split))

theorem consumeNext_stable {P : State → Prop} (H : Stable P) {s : State} (h : P s) (q : Nat) (read : HostRead) : P (State.consumeNext s q read) := by
  unfold State.consumeNext
  try dsimp only
  repeat' (with_reducible (first | intro _ | ((conv => arg 1; arg 27); apply H.upd) | assumption | apply consume_stable H | apply complete_stable H | apply runCommand_stable H | apply ite_stable P | dsimp only | split))

theorem visitGo_stable {P : State → Prop} (H : Stable P) {s : State} (h : P s) (x0 : Nat) (x2 : Nat) (x3 : Nat) (x4 : List HostRead) : P (State.visitGo x0 s x2 x3 x4) := by
  induction x0 generalizing s x2 x3 x4 with
  | zero =>
    unfold State.visitGo
    try dsimp only
    repeat' (with_reducible (first | intro _ | ((conv => arg 1; arg 27); apply H.upd) | assumption | apply consumeNext_stable H | apply modSq_stable H | apply ite_stable P | dsimp only | split))
  | succ n ih =>
    unfold State.visitGo
    try dsimp only
    repeat' (with_reducible (first | intro _ | ((conv => arg 1; arg 27); apply H.upd) | assumption | apply ih | apply consumeNext_stable H | apply modSq_stable H | apply ite_stable P | dsimp only | split))

theorem arbVisit_stable {P : State → Prop} (H : Stable P) {s : State} (h : P s) (port : Nat) (reads : List HostRead) : P (State.arbVisit s port reads) := by
  unfold State.arbVisit
  try dsimp only
  repeat' (with_reducible (first | intro _ | ((conv => arg 1; arg 27); apply H.upd) | assumption | apply each_stable H | apply modSq_stable H | apply visitGo_stable H | apply ite_stable P | apply each_stable P | dsimp only | split))

theorem visitOn_stable {P : State → Prop} (H : Stable P) {s : State} (h : P s) (q : Nat) (reads : List HostRead) : P (State.visitOn s q reads) := by
  unfold State.visitOn
  try dsimp only
  repeat' (with_reducible (first | intro _ | ((conv => arg 1; arg 27); apply H.upd) | assumption | apply visitGo_stable H | apply ite_stable P | dsimp only | split))

theorem slotBack_stable {P : State → Prop} (H : Stable P) {s : State} (h : P s) (q : Nat) (idx : Word) (slot : Option (List Byte)) : P (State.slotBack s q idx slot) := by
  unfold State.slotBack
  try dsimp only
  repeat' (with_reducible (first | intro _ | ((conv => arg 1; arg 27); apply H.upd) | assumption | apply fnError_stable H | apply modSq_stable H | apply ite_stable P | dsimp only | split))

theorem readEntry_stable {P : State → Prop} (H : Stable P) {s : State} (h : P s) (q : Nat) : P (State.readEntry s q) := by
  unfold State.readEntry
  try dsimp only
  repeat' (with_reducible (first | intro _ | ((conv => arg 1; arg 27); apply H.upd) | assumption | apply readSlots_stable H | apply ite_stable P | split))

end Sys2Proof.Machine
end

