-- ==== Sys2Proof/Laws/StableAppendRows.lean ====
section
/-! SUPPORT. What the record updates and register writes of the model keep, every operation of Machine/AppendRows.lean keeps (`Stable`). -/

namespace Sys2Proof.Machine

open Sys2Proof

theorem appendHashed_stable {P : State → Prop} (H : Stable P) {s : State} (h : P s) (id : Nat) (digest : BitVec 256) : P (State.appendHashed s id digest) := by
  unfold State.appendHashed
  try dsimp only
  repeat' (with_reducible (first | intro _ | ((conv => arg 1; arg 27); apply H.upd) | assumption | apply modEntry_stable H | apply sendM_stable H | apply tryAck_stable H | apply ite_stable P | dsimp only | split))

theorem chunkHashed_stable {P : State → Prop} (H : Stable P) {s : State} (h : P s) (p : Nat) (n : Nat) (q : Nat) : P (State.chunkHashed s p n q) := by
  unfold State.chunkHashed
  try dsimp only
  repeat' (with_reducible (first | intro _ | ((conv => arg 1; arg 27); apply H.upd) | assumption | apply writeChunk_stable H | apply ite_stable P | split))

theorem hashDone_stable {P : State → Prop} (H : Stable P) {s : State} (h : P s) (job : Nat) : P (State.hashDone s job) := by
  unfold State.hashDone
  try dsimp only
  repeat' (with_reducible (first | intro _ | ((conv => arg 1; arg 27); apply H.upd) | assumption | apply appendHashed_stable H | apply chunkHashed_stable H | apply readHashed_stable H | dsimp only | split))

theorem chunkAcked_stable {P : State → Prop} (H : Stable P) {s : State} (h : P s) (p : Nat) (n : Nat) (q : Nat) : P (State.chunkAcked s p n q) := by
  unfold State.chunkAcked
  try dsimp only
  repeat' (with_reducible (first | intro _ | ((conv => arg 1; arg 27); apply H.upd) | assumption | apply driveGood_stable H | apply modStripe_stable H | apply switchPlace_stable H | apply writeDone_stable H | apply ite_stable P | dsimp only | split))

end Sys2Proof.Machine
end

