-- ==== Sys2Proof/Laws/StableReadRows.lean ====
section
/-! SUPPORT. What the record updates and register writes of the model keep, every operation of Machine/ReadRows.lean keeps (`Stable`). -/

namespace Sys2Proof.Machine

open Sys2Proof

theorem readDone_stable {P : State → Prop} (H : Stable P) {s : State} (h : P s) (id : Nat) (pos : Nat) (r : ChunkOutcome) (sense : Option DriveSense) : P (State.readDone s id pos r sense) := by
  unfold State.readDone
  try dsimp only
  repeat' (with_reducible (first | intro _ | ((conv => arg 1; arg 27); apply H.upd) | assumption | apply passRead_stable H | apply chunkReadDone_stable H | apply driveSense_stable H | apply ite_stable P | dsimp only | split))

end Sys2Proof.Machine
end

