-- ==== Sys2Proof/Laws/StablePoolRows.lean ====
section
/-! SUPPORT. What the record updates and register writes of the model keep, every operation of Machine/PoolRows.lean keeps (`Stable`). -/

namespace Sys2Proof.Machine

open Sys2Proof

theorem checkpointWritten_stable {P : State → Prop} (H : Stable P) {s : State} (h : P s) (p : Nat) : P (State.checkpointWritten s p) := by
  unfold State.checkpointWritten
  try dsimp only
  repeat' (with_reducible (first | intro _ | ((conv => arg 1; arg 27); apply H.upd) | assumption | apply ckptDone_stable H | apply createDone_stable H | apply recovered_stable H | apply scarfBegun_stable H | apply commitPoint_stable H | apply abortPoint_stable H | apply ite_stable P | dsimp only | split))

theorem sillWritten_stable {P : State → Prop} (H : Stable P) {s : State} (h : P s) (p : Nat) (n : Nat) : P (State.sillWritten s p n) := by
  unfold State.sillWritten
  try dsimp only
  repeat' (with_reducible (first | intro _ | ((conv => arg 1; arg 27); apply H.upd) | assumption | apply driveGood_stable H | apply blockWritten_stable H | apply protWritten_stable H | apply ite_stable P | dsimp only | split))

end Sys2Proof.Machine
end

