-- ==== Sys2Proof/Laws/StableDriveRows.lean ====
section
/-! SUPPORT. What the record updates and register writes of the model keep, every operation of Machine/DriveRows.lean keeps (`Stable`). -/

namespace Sys2Proof.Machine

open Sys2Proof

theorem whenLinked_stable {P : State → Prop} (H : Stable P) {s : State} (h : P s) (act : State → State) (hact : ∀ t, P t → P (act t)) : P (State.whenLinked s act) := by
  unfold State.whenLinked
  try dsimp only
  repeat' (with_reducible (first | intro _ | assumption | apply hact | apply whenUp_stable H | apply ite_stable P | dsimp only | split))

theorem whenSlot_stable {P : State → Prop} (H : Stable P) {s : State} (h : P s) (n : Nat) (act : State → State) (hact : ∀ t, P t → P (act t)) : P (State.whenSlot s n act) := by
  unfold State.whenSlot
  try dsimp only
  repeat' (with_reducible (first | intro _ | assumption | apply hact | apply whenLinked_stable H | apply ite_stable P | dsimp only | split))

end Sys2Proof.Machine
end

