-- ==== Sys2Proof/Laws/StablePeerRows.lean ====
section
/-! SUPPORT. What the record updates and register writes of the model keep, every operation of Machine/PeerRows.lean keeps (`Stable`). -/

namespace Sys2Proof.Machine

open Sys2Proof

theorem substReply_stable {P : State → Prop} (H : Stable P) {s : State} (h : P s) (slots : List Nat) (refused : Bool) : P (State.substReply s slots refused) := by
  unfold State.substReply
  try dsimp only
  repeat' (with_reducible (first | intro _ | ((conv => arg 1; arg 27); apply H.upd) | assumption | apply substitute_stable H | apply ite_stable P | dsimp only | split))

theorem claimAnswered_stable {P : State → Prop} (H : Stable P) {s : State} (h : P s) (pool : Nat) (claimId : Nat) (refused : Bool) : P (State.claimAnswered s pool claimId refused) := by
  unfold State.claimAnswered
  try dsimp only
  repeat' (with_reducible (first | intro _ | ((conv => arg 1; arg 27); apply H.upd) | assumption | apply substReply_stable H | apply takeTurn_stable H | apply complete_stable H | apply ite_stable P | dsimp only | split))

end Sys2Proof.Machine
end

