-- ==== Sys2Proof/Laws/StableDeviceRows.lean ====
section
/-! SUPPORT. What the record updates and register writes of the model keep, every operation of Machine/DeviceRows.lean keeps (`Stable`). -/

namespace Sys2Proof.Machine

open Sys2Proof

theorem enrollRow_stable {P : State → Prop} (H : Stable P) {s : State} (h : P s) (op : Nat) (port : Nat) (v : Word) : P (enrollRow op port v s) := by
  unfold enrollRow
  try dsimp only
  repeat' (with_reducible (first | intro _ | assumption | apply whenPlant_stable H | apply enrollCtlWrite_stable H | apply ite_stable P | dsimp only | split))

end Sys2Proof.Machine
end

