-- ==== Sys2Proof/Laws/StablePowerRows.lean ====
section
/-! SUPPORT. What the record updates and register writes of the model keep, every operation of Machine/PowerRows.lean keeps (`Stable`). -/

namespace Sys2Proof.Machine

open Sys2Proof

theorem anyTime_stable {P : State → Prop} (H : Stable P) {s : State} (h : P s) (act : State → State) (hact : ∀ t, P t → P (act t)) : P (State.anyTime s act) := by
  unfold State.anyTime
  try dsimp only
  repeat' (with_reducible (first | intro _ | assumption | apply hact | apply finish_stable H | apply ite_stable P | dsimp only | split))

theorem epochStuck_stable {P : State → Prop} (HM : StableMem P) {s : State} (h : P s) (b : BootInfo) : P (State.epochStuck s b) := by
  have H := HM.toStable
  unfold State.epochStuck
  try dsimp only
  repeat' (with_reducible (first | intro _ | ((conv => arg 1; arg 27); apply H.upd) | assumption | apply raise_stable H | apply warmNow_stable HM | apply ite_stable P | dsimp only | split))

end Sys2Proof.Machine
end

