-- ==== Sys2Proof/Laws/RowsAppendRows.lean ====
section
/-! SUPPORT. Every command of Machine/AppendRows.lean answers a next state, which keeps every property that the model's updates keep (`Stable`). -/

namespace Sys2Proof.Machine

open Sys2Proof

theorem execAppend_stable {P : State → Prop} (H : Stable P) {s : State} (h : P s) (c : HostCmd) :
    Answers (execAppend c s) P := by
  unfold execAppend
  try dsimp only
  refine answers_next ?_
  try dsimp only
  repeat' (with_reducible (first | intro _ | assumption | apply hostRow_stable H | apply runAppend_stable H | dsimp only))

theorem execAppendAdmit_stable {P : State → Prop} (H : Stable P) {s : State} (h : P s)  :
    Answers (execAppendAdmit s) P := by
  unfold execAppendAdmit
  try dsimp only
  refine answers_next ?_
  try dsimp only
  repeat' (with_reducible (first | intro _ | assumption | apply whenUp_stable H | apply admitHeld_stable H | dsimp only))

theorem execPayloadArrival_stable {P : State → Prop} (H : Stable P) {s : State} (h : P s) (id : Nat) (off : Nat) (bytes : List Byte) :
    Answers (execPayloadArrival id off bytes s) P := by
  unfold execPayloadArrival
  try dsimp only
  refine answers_next ?_
  try dsimp only
  repeat' (with_reducible (first | intro _ | assumption | apply whenUp_stable H | apply payloadIn_stable H | dsimp only))

theorem execHostAccessError_stable {P : State → Prop} (H : Stable P) {s : State} (h : P s) (id : Nat) :
    Answers (execHostAccessError id s) P := by
  unfold execHostAccessError
  try dsimp only
  refine answers_next ?_
  try dsimp only
  repeat' (with_reducible (first | intro _ | ((conv => arg 1; arg 27); apply H.upd) | assumption | apply whenUp_stable H | apply failAppend_stable H | apply admitHeld_stable H | apply complete_stable H | apply ite_stable P | dsimp only | split))

theorem execAppendTransferDone_stable {P : State → Prop} (H : Stable P) {s : State} (h : P s) (id : Nat) :
    Answers (execAppendTransferDone id s) P := by
  unfold execAppendTransferDone
  try dsimp only
  refine answers_next ?_
  try dsimp only
  repeat' (with_reducible (first | intro _ | assumption | apply whenUp_stable H | apply tryAck_stable H | dsimp only))

theorem execSealTimerExpiry_stable {P : State → Prop} (H : Stable P) {s : State} (h : P s) (pool : Nat) (stripe : Nat) :
    Answers (execSealTimerExpiry pool stripe s) P := by
  unfold execSealTimerExpiry
  try dsimp only
  refine answers_next ?_
  try dsimp only
  repeat' (with_reducible (first | intro _ | ((conv => arg 1; arg 27); apply H.upd) | assumption | apply whenUp_stable H | apply startSeal_stable H | apply ite_stable P | dsimp only | split))

theorem execStripeSeal_stable {P : State → Prop} (H : Stable P) {s : State} (h : P s) (pool : Nat) (stripe : Nat) :
    Answers (execStripeSeal pool stripe s) P := by
  unfold execStripeSeal
  try dsimp only
  refine answers_next ?_
  try dsimp only
  repeat' (with_reducible (first | intro _ | assumption | apply whenUp_stable H | apply sealStripe_stable H | dsimp only))

theorem execHashJobComplete_stable {P : State → Prop} (H : Stable P) {s : State} (h : P s) (job : Nat) :
    Answers (execHashJobComplete job s) P := by
  unfold execHashJobComplete
  try dsimp only
  refine answers_next ?_
  try dsimp only
  repeat' (with_reducible (first | intro _ | assumption | apply whenUp_stable H | apply hashDone_stable H | apply ite_stable P | dsimp only | split))

theorem execChunkWriteAck_stable {P : State → Prop} (H : Stable P) {s : State} (h : P s) (pool : Nat) (stripe : Nat) (pos : Nat) :
    Answers (execChunkWriteAck pool stripe pos s) P := by
  unfold execChunkWriteAck
  try dsimp only
  refine answers_next ?_
  try dsimp only
  repeat' (with_reducible (first | intro _ | assumption | apply whenUp_stable H | apply chunkAcked_stable H | dsimp only))

theorem execDriveWriteFailed_stable {P : State → Prop} (H : Stable P) {s : State} (h : P s) (pool : Nat) (stripe : Nat) (pos : Nat) (conflict : Bool) (sense : Option DriveSense) :
    Answers (execDriveWriteFailed pool stripe pos conflict sense s) P := by
  unfold execDriveWriteFailed
  try dsimp only
  refine answers_next ?_
  try dsimp only
  repeat' (with_reducible (first | intro _ | assumption | apply whenUp_stable H | apply writeFailed_stable H | apply conflict_stable H | dsimp only))

theorem execSealCommand_stable {P : State → Prop} (H : Stable P) {s : State} (h : P s) (c : HostCmd) :
    Answers (execSealCommand c s) P := by
  unfold execSealCommand
  try dsimp only
  refine answers_next ?_
  try dsimp only
  repeat' (with_reducible (first | intro _ | assumption | apply hostRow_stable H | apply runSeal_stable H | dsimp only))

theorem execFlush_stable {P : State → Prop} (H : Stable P) {s : State} (h : P s) (c : HostCmd) :
    Answers (execFlush c s) P := by
  unfold execFlush
  try dsimp only
  refine answers_next ?_
  try dsimp only
  repeat' (with_reducible (first | intro _ | assumption | apply hostRow_stable H | apply runFlush_stable H | dsimp only))

theorem execRelease_stable {P : State → Prop} (H : Stable P) {s : State} (h : P s) (c : HostCmd) :
    Answers (execRelease c s) P := by
  unfold execRelease
  try dsimp only
  refine answers_next ?_
  try dsimp only
  repeat' (with_reducible (first | intro _ | assumption | apply hostRow_stable H | apply runRelease_stable H | dsimp only))

theorem execPendingReleaseResolve_stable {P : State → Prop} (H : Stable P) {s : State} (h : P s) (pool : Nat) (stripe : Nat) :
    Answers (execPendingReleaseResolve pool stripe s) P := by
  unfold execPendingReleaseResolve
  try dsimp only
  refine answers_next ?_
  try dsimp only
  repeat' (with_reducible (first | intro _ | assumption | apply whenUp_stable H | apply resolvePending_stable H | apply ite_stable P | dsimp only | split))

theorem execCopyForward_stable {P : State → Prop} (H : Stable P) {s : State} (h : P s) (c : HostCmd) (sources : List SourceRead) :
    Answers (execCopyForward c sources s) P := by
  unfold execCopyForward
  try dsimp only
  refine answers_next ?_
  try dsimp only
  repeat' (with_reducible (first | intro _ | assumption | apply hostRow_stable H | apply runCopy_stable H | dsimp only))

theorem execQueryLocator_stable {P : State → Prop} (H : Stable P) {s : State} (h : P s) (c : HostCmd) :
    Answers (execQueryLocator c s) P := by
  unfold execQueryLocator
  try dsimp only
  refine answers_next ?_
  try dsimp only
  repeat' (with_reducible (first | intro _ | assumption | apply hostRow_stable H | apply runQuery_stable H | dsimp only))

end Sys2Proof.Machine
end

