-- ==== Sys2Proof/Laws/RowsClimateRows.lean ====
section
/-! SUPPORT. Every command of Machine/ClimateRows.lean answers a next state, which keeps every property that the model's updates keep (`Stable`). -/

namespace Sys2Proof.Machine

open Sys2Proof

theorem execAnalogInputUpdate_stable {P : State → Prop} (H : Stable P) {s : State} (h : P s) (k : Nat) (code : Nat) :
    Answers (execAnalogInputUpdate k code s) P := by
  unfold execAnalogInputUpdate
  try dsimp only
  refine answers_next ?_
  try dsimp only
  repeat' (with_reducible (first | intro _ | assumption | apply whenPlant_stable H | apply ainUpdate_stable H | dsimp only))

theorem execSensorReadDone_stable {P : State → Prop} (H : Stable P) {s : State} (h : P s) (k : Nat) (r : Option (Int × Nat)) :
    Answers (execSensorReadDone k r s) P := by
  unfold execSensorReadDone
  try dsimp only
  refine answers_next ?_
  try dsimp only
  repeat' (with_reducible (first | intro _ | assumption | apply whenPlant_stable H | apply sensorRead_stable H | dsimp only))

theorem execFanFail_stable {P : State → Prop} (H : Stable P) {s : State} (h : P s) (f : Nat) (rpm : Nat) :
    Answers (execFanFail f rpm s) P := by
  unfold execFanFail
  try dsimp only
  refine answers_next ?_
  try dsimp only
  repeat' (with_reducible (first | intro _ | assumption | apply whenPlant_stable H | apply fanFailed_stable H | dsimp only))

theorem execFanFailClear_stable {P : State → Prop} (H : Stable P) {s : State} (h : P s) (f : Nat) (rpm : Nat) :
    Answers (execFanFailClear f rpm s) P := by
  unfold execFanFailClear
  try dsimp only
  refine answers_next ?_
  try dsimp only
  repeat' (with_reducible (first | intro _ | assumption | apply whenPlant_stable H | apply fanBack_stable H | dsimp only))

theorem execLoopPeriod_stable {P : State → Prop} (H : Stable P) {s : State} (h : P s) (n : Nat) :
    Answers (execLoopPeriod n s) P := by
  unfold execLoopPeriod
  try dsimp only
  refine answers_next ?_
  try dsimp only
  repeat' (with_reducible (first | intro _ | assumption | apply whenPlant_stable H | apply loopPeriod_stable H | dsimp only))

theorem execCaptureSample_stable {P : State → Prop} (H : Stable P) {s : State} (h : P s) (stream : Nat) (sample : List Byte) :
    Answers (execCaptureSample stream sample s) P := by
  unfold execCaptureSample
  try dsimp only
  refine answers_next ?_
  try dsimp only
  repeat' (with_reducible (first | intro _ | assumption | apply whenPlant_stable H | apply capture_stable H | dsimp only))

theorem execHeadroomTick_stable {P : State → Prop} (H : Stable P) {s : State} (h : P s)  :
    Answers (execHeadroomTick s) P := by
  unfold execHeadroomTick
  try dsimp only
  refine answers_next ?_
  try dsimp only
  repeat' (with_reducible (first | intro _ | assumption | apply whenPlant_stable H | apply headroomTick_stable H | dsimp only))

theorem execEncCrit_stable {P : State → Prop} (H : Stable P) {s : State} (h : P s) (e : Nat) :
    Answers (execEncCrit e s) P := by
  unfold execEncCrit
  try dsimp only
  refine answers_next ?_
  try dsimp only
  repeat' (with_reducible (first | intro _ | assumption | apply whenPlant_stable H | apply enterCrit_stable H | dsimp only))

theorem execEncHotExit_stable {P : State → Prop} (H : Stable P) {s : State} (h : P s) (e : Nat) :
    Answers (execEncHotExit e s) P := by
  unfold execEncHotExit
  try dsimp only
  refine answers_next ?_
  try dsimp only
  repeat' (with_reducible (first | intro _ | assumption | apply whenPlant_stable H | apply leaveHot_stable H | dsimp only))

theorem execHoldEvaluation_stable {P : State → Prop} (H : Stable P) {s : State} (h : P s)  :
    Answers (execHoldEvaluation s) P := by
  unfold execHoldEvaluation
  try dsimp only
  refine answers_next ?_
  try dsimp only
  repeat' (with_reducible (first | intro _ | assumption | apply whenPlant_stable H | apply evaluateHold_stable H | dsimp only))

theorem execHoldDwellExpiry_stable {P : State → Prop} (H : Stable P) {s : State} (h : P s) (e : Nat) :
    Answers (execHoldDwellExpiry e s) P := by
  unfold execHoldDwellExpiry
  try dsimp only
  refine answers_next ?_
  try dsimp only
  repeat' (with_reducible (first | intro _ | assumption | apply whenPlant_stable H | apply holdOver_stable H | dsimp only))

theorem execHoldLong_stable {P : State → Prop} (H : Stable P) {s : State} (h : P s) (e : Nat) :
    Answers (execHoldLong e s) P := by
  unfold execHoldLong
  try dsimp only
  refine answers_next ?_
  try dsimp only
  repeat' (with_reducible (first | intro _ | assumption | apply whenPlant_stable H | apply holdLong_stable H | dsimp only))

theorem execHumidHigh_stable {P : State → Prop} (H : Stable P) {s : State} (h : P s) (e : Nat) :
    Answers (execHumidHigh e s) P := by
  unfold execHumidHigh
  try dsimp only
  refine answers_next ?_
  try dsimp only
  repeat' (with_reducible (first | intro _ | assumption | apply whenPlant_stable H | apply humidHigh_stable H | dsimp only))

theorem execChargerFault_stable {P : State → Prop} (H : Stable P) {s : State} (h : P s)  :
    Answers (execChargerFault s) P := by
  unfold execChargerFault
  try dsimp only
  refine answers_next ?_
  try dsimp only
  repeat' (with_reducible (first | intro _ | assumption | apply whenPlant_stable H | apply chargerFails_stable H | dsimp only))

theorem execEuCompute_stable {P : State → Prop} (H : Stable P) {s : State} (h : P s) (vMv : Nat) (iMa : Int) :
    Answers (execEuCompute vMv iMa s) P := by
  unfold execEuCompute
  try dsimp only
  refine answers_next ?_
  try dsimp only
  repeat' (with_reducible (first | intro _ | assumption | apply whenPlant_stable H | apply euCompute_stable H | dsimp only))

theorem execEuReport_stable {P : State → Prop} (H : Stable P) {s : State} (h : P s)  :
    Answers (execEuReport s) P := by
  unfold execEuReport
  try dsimp only
  refine answers_next ?_
  try dsimp only
  repeat' (with_reducible (first | intro _ | assumption | apply whenPlant_stable H | apply euReport_stable H | dsimp only))

theorem execVbankTrip_stable {P : State → Prop} (H : Stable P) {s : State} (h : P s)  :
    Answers (execVbankTrip s) P := by
  unfold execVbankTrip
  try dsimp only
  refine answers_next ?_
  try dsimp only
  repeat' (with_reducible (first | intro _ | assumption | apply tripEbb_stable H | apply finish_stable H | apply ite_stable P | dsimp only | split))

theorem execPulseTestStart_stable {P : State → Prop} (H : Stable P) {s : State} (h : P s)  :
    Answers (execPulseTestStart s) P := by
  unfold execPulseTestStart
  try dsimp only
  refine answers_next ?_
  try dsimp only
  repeat' (with_reducible (first | intro _ | assumption | apply whenPlant_stable H | apply testStart_stable H | dsimp only))

theorem execPulseTestOnset_stable {P : State → Prop} (H : Stable P) {s : State} (h : P s) (v0Mv : Nat) :
    Answers (execPulseTestOnset v0Mv s) P := by
  unfold execPulseTestOnset
  try dsimp only
  refine answers_next ?_
  try dsimp only
  repeat' (with_reducible (first | intro _ | assumption | apply whenPlant_stable H | apply testOnset_stable H | dsimp only))

theorem execPulseTestEnd_stable {P : State → Prop} (H : Stable P) {s : State} (h : P s) (fit : PulseFit) :
    Answers (execPulseTestEnd fit s) P := by
  unfold execPulseTestEnd
  try dsimp only
  refine answers_next ?_
  try dsimp only
  repeat' (with_reducible (first | intro _ | assumption | apply whenPlant_stable H | apply testEnd_stable H | dsimp only))

theorem execTestPostponed_stable {P : State → Prop} (H : Stable P) {s : State} (h : P s)  :
    Answers (execTestPostponed s) P := by
  unfold execTestPostponed
  try dsimp only
  refine answers_next ?_
  try dsimp only
  repeat' (with_reducible (first | intro _ | assumption | apply whenPlant_stable H | apply testPostponed_stable H | dsimp only))

end Sys2Proof.Machine
end

