-- ==== Sys2Proof/Laws/RowsDeviceRows.lean ====
section
/-! SUPPORT. Every command of Machine/DeviceRows.lean answers a next state, which keeps every property that the model's updates keep (`Stable`). -/

namespace Sys2Proof.Machine

open Sys2Proof

theorem execTimeSet_stable {P : State → Prop} (H : Stable P) {s : State} (h : P s) (c : HostCmd) :
    Answers (execTimeSet c s) P := by
  unfold execTimeSet
  try dsimp only
  refine answers_next ?_
  try dsimp only
  repeat' (with_reducible (first | intro _ | assumption | apply hostRow_stable H | apply runTimeSet_stable H | dsimp only))

theorem execTelemetryGet_stable {P : State → Prop} (H : Stable P) {s : State} (h : P s) (c : HostCmd) :
    Answers (execTelemetryGet c s) P := by
  unfold execTelemetryGet
  try dsimp only
  refine answers_next ?_
  try dsimp only
  repeat' (with_reducible (first | intro _ | assumption | apply hostRow_stable H | apply runTelemetryGet_stable H | dsimp only))

theorem execEvRead_stable {P : State → Prop} (H : Stable P) {s : State} (h : P s) (c : HostCmd) :
    Answers (execEvRead c s) P := by
  unfold execEvRead
  try dsimp only
  refine answers_next ?_
  try dsimp only
  repeat' (with_reducible (first | intro _ | assumption | apply hostRow_stable H | apply runEvRead_stable H | dsimp only))

theorem execEvClear_stable {P : State → Prop} (H : Stable P) {s : State} (h : P s) (c : HostCmd) :
    Answers (execEvClear c s) P := by
  unfold execEvClear
  try dsimp only
  refine answers_next ?_
  try dsimp only
  repeat' (with_reducible (first | intro _ | assumption | apply hostRow_stable H | apply runEvClear_stable H | dsimp only))

theorem execDeviceMode_stable {P : State → Prop} (H : Stable P) {s : State} (h : P s) (c : HostCmd) :
    Answers (execDeviceMode c s) P := by
  unfold execDeviceMode
  try dsimp only
  refine answers_next ?_
  try dsimp only
  repeat' (with_reducible (first | intro _ | assumption | apply hostRow_stable H | apply runDeviceMode_stable H | dsimp only))

theorem execStageWrite_stable {P : State → Prop} (H : Stable P) {s : State} (h : P s) (c : HostCmd) :
    Answers (execStageWrite c s) P := by
  unfold execStageWrite
  try dsimp only
  refine answers_next ?_
  try dsimp only
  repeat' (with_reducible (first | intro _ | assumption | apply hostRow_stable H | apply runStageWrite_stable H | dsimp only))

theorem execStageCommit_stable {P : State → Prop} (H : Stable P) {s : State} (h : P s) (c : HostCmd) (verdict : Nat) :
    Answers (execStageCommit c verdict s) P := by
  unfold execStageCommit
  try dsimp only
  refine answers_next ?_
  try dsimp only
  repeat' (with_reducible (first | intro _ | assumption | apply hostRow_stable H | apply runStageCommit_stable H | dsimp only))

theorem execFlashProgramDone_stable {P : State → Prop} (H : Stable P) {s : State} (h : P s) (ok : Bool) :
    Answers (execFlashProgramDone ok s) P := by
  unfold execFlashProgramDone
  try dsimp only
  refine answers_next ?_
  try dsimp only
  repeat' (with_reducible (first | intro _ | assumption | apply whenUp_stable H | apply flashDone_stable H | dsimp only))

theorem execSessionOpen_stable {P : State → Prop} (H : Stable P) {s : State} (h : P s) (c : HostCmd) :
    Answers (execSessionOpen c s) P := by
  unfold execSessionOpen
  try dsimp only
  refine answers_next ?_
  try dsimp only
  repeat' (with_reducible (first | intro _ | assumption | apply hostRow_stable H | apply runSessionOpen_stable H | dsimp only))

theorem execSessionProve_stable {P : State → Prop} (H : Stable P) {s : State} (h : P s) (c : HostCmd) :
    Answers (execSessionProve c s) P := by
  unfold execSessionProve
  try dsimp only
  refine answers_next ?_
  try dsimp only
  repeat' (with_reducible (first | intro _ | assumption | apply hostRow_stable H | apply runSessionProve_stable H | dsimp only))

theorem execSessionClose_stable {P : State → Prop} (H : Stable P) {s : State} (h : P s) (c : HostCmd) :
    Answers (execSessionClose c s) P := by
  unfold execSessionClose
  try dsimp only
  refine answers_next ?_
  try dsimp only
  repeat' (with_reducible (first | intro _ | assumption | apply hostRow_stable H | apply runSessionClose_stable H | dsimp only))

theorem execProtectSet_stable {P : State → Prop} (H : Stable P) {s : State} (h : P s) (c : HostCmd) :
    Answers (execProtectSet c s) P := by
  unfold execProtectSet
  try dsimp only
  refine answers_next ?_
  try dsimp only
  repeat' (with_reducible (first | intro _ | assumption | apply hostRow_stable H | apply runProtectSet_stable H | dsimp only))

theorem execProtectCommit_stable {P : State → Prop} (H : Stable P) {s : State} (h : P s) (c : HostCmd) :
    Answers (execProtectCommit c s) P := by
  unfold execProtectCommit
  try dsimp only
  refine answers_next ?_
  try dsimp only
  repeat' (with_reducible (first | intro _ | assumption | apply hostRow_stable H | apply runProtectCommit_stable H | dsimp only))

theorem execAttest_stable {P : State → Prop} (H : Stable P) {s : State} (h : P s) (c : HostCmd) :
    Answers (execAttest c s) P := by
  unfold execAttest
  try dsimp only
  refine answers_next ?_
  try dsimp only
  repeat' (with_reducible (first | intro _ | assumption | apply hostRow_stable H | apply runAttest_stable H | dsimp only))

theorem execChallengeExpiry_stable {P : State → Prop} (H : Stable P) {s : State} (h : P s) (x : Nat) :
    Answers (execChallengeExpiry x s) P := by
  unfold execChallengeExpiry
  try dsimp only
  refine answers_next ?_
  try dsimp only
  repeat' (with_reducible (first | intro _ | assumption | apply whenUp_stable H | apply dropChallenge_stable H | dsimp only))

theorem execSessionIdleExpiry_stable {P : State → Prop} (H : Stable P) {s : State} (h : P s)  :
    Answers (execSessionIdleExpiry s) P := by
  unfold execSessionIdleExpiry
  try dsimp only
  refine answers_next ?_
  try dsimp only
  repeat' (with_reducible (first | intro _ | assumption | apply whenUp_stable H | apply endSession_stable H | dsimp only))

theorem execEnroll_stable {P : State → Prop} (H : Stable P) {s : State} (h : P s) (port : Nat) (v : Word) :
    Answers (execEnroll port v s) P := by
  unfold execEnroll
  try dsimp only
  refine answers_next ?_
  try dsimp only
  repeat' (with_reducible (first | intro _ | assumption | apply enrollRow_stable H))

theorem execRevokeOwner_stable {P : State → Prop} (H : Stable P) {s : State} (h : P s) (port : Nat) (v : Word) :
    Answers (execRevokeOwner port v s) P := by
  unfold execRevokeOwner
  try dsimp only
  refine answers_next ?_
  try dsimp only
  repeat' (with_reducible (first | intro _ | assumption | apply enrollRow_stable H))

theorem execRaiseSvn_stable {P : State → Prop} (H : Stable P) {s : State} (h : P s) (port : Nat) (v : Word) :
    Answers (execRaiseSvn port v s) P := by
  unfold execRaiseSvn
  try dsimp only
  refine answers_next ?_
  try dsimp only
  repeat' (with_reducible (first | intro _ | assumption | apply enrollRow_stable H))

theorem execRevokeVendor_stable {P : State → Prop} (H : Stable P) {s : State} (h : P s) (port : Nat) (v : Word) :
    Answers (execRevokeVendor port v s) P := by
  unfold execRevokeVendor
  try dsimp only
  refine answers_next ?_
  try dsimp only
  repeat' (with_reducible (first | intro _ | assumption | apply enrollRow_stable H))

theorem execFuseOp_stable {P : State → Prop} (H : Stable P) {s : State} (h : P s) (ok : Bool) :
    Answers (execFuseOp ok s) P := by
  unfold execFuseOp
  try dsimp only
  refine answers_next ?_
  try dsimp only
  repeat' (with_reducible (first | intro _ | assumption | apply whenPlant_stable H | apply fuseDone_stable H | dsimp only))

theorem execEventRaise_stable {P : State → Prop} (H : Stable P) {s : State} (h : P s) (e : RaisedEvent) :
    Answers (execEventRaise e s) P := by
  unfold execEventRaise
  try dsimp only
  refine answers_next ?_
  try dsimp only
  repeat' (with_reducible (first | intro _ | assumption | apply whenPlant_stable H | apply raiseEvent_stable H | dsimp only))

theorem execEvRecordForm_stable {P : State → Prop} (H : Stable P) {s : State} (h : P s)  :
    Answers (execEvRecordForm s) P := by
  unfold execEvRecordForm
  try dsimp only
  refine answers_next ?_
  try dsimp only
  repeat' (with_reducible (first | intro _ | assumption | apply whenPlant_stable H | apply formRecord_stable H | dsimp only))

theorem execEvLogWriteDone_stable {P : State → Prop} (H : Stable P) {s : State} (h : P s)  :
    Answers (execEvLogWriteDone s) P := by
  unfold execEvLogWriteDone
  try dsimp only
  refine answers_next ?_
  try dsimp only
  repeat' (with_reducible (first | intro _ | assumption | apply whenPlant_stable H | apply logWritten_stable H | dsimp only))

theorem execEvTokenRefill_stable {P : State → Prop} (H : Stable P) {s : State} (h : P s) (code : Nat) :
    Answers (execEvTokenRefill code s) P := by
  unfold execEvTokenRefill
  try dsimp only
  refine answers_next ?_
  try dsimp only
  repeat' (with_reducible (first | intro _ | assumption | apply whenPlant_stable H | apply refillToken_stable H | dsimp only))

theorem execEvNotifyTick_stable {P : State → Prop} (H : Stable P) {s : State} (h : P s) (port : Nat) :
    Answers (execEvNotifyTick port s) P := by
  unfold execEvNotifyTick
  try dsimp only
  refine answers_next ?_
  try dsimp only
  repeat' (with_reducible (first | intro _ | assumption | apply whenPlant_stable H | apply notifyTick_stable H | dsimp only))

theorem execEvScanDone_stable {P : State → Prop} (H : Stable P) {s : State} (h : P s)  :
    Answers (execEvScanDone s) P := by
  unfold execEvScanDone
  try dsimp only
  refine answers_next ?_
  try dsimp only
  repeat' (with_reducible (first | intro _ | assumption | apply whenPlant_stable H | apply scanDone_stable H | dsimp only))

theorem execEvClearEraseDone_stable {P : State → Prop} (H : Stable P) {s : State} (h : P s)  :
    Answers (execEvClearEraseDone s) P := by
  unfold execEvClearEraseDone
  try dsimp only
  refine answers_next ?_
  try dsimp only
  repeat' (with_reducible (first | intro _ | assumption | apply whenPlant_stable H | apply eraseDone_stable H | dsimp only))

theorem execStoreFault_stable {P : State → Prop} (H : Stable P) {s : State} (h : P s)  :
    Answers (execStoreFault s) P := by
  unfold execStoreFault
  try dsimp only
  refine answers_next ?_
  try dsimp only
  repeat' (with_reducible (first | intro _ | assumption | apply whenPlant_stable H | apply evStoreFault_stable H | dsimp only))

theorem execStoreBack_stable {P : State → Prop} (H : Stable P) {s : State} (h : P s)  :
    Answers (execStoreBack s) P := by
  unfold execStoreBack
  try dsimp only
  refine answers_next ?_
  try dsimp only
  repeat' (with_reducible (first | intro _ | assumption | apply whenPlant_stable H | apply evStoreBack_stable H | dsimp only))

end Sys2Proof.Machine
end

