-- ==== Sys2Proof/Laws/RowsDriveRows.lean ====
section
/-! SUPPORT. Every command of Machine/DriveRows.lean answers a next state, which keeps every property that the model's updates keep (`Stable`). -/

namespace Sys2Proof.Machine

open Sys2Proof

theorem execPresenceChange_stable {P : State → Prop} (H : Stable P) {s : State} (h : P s) (slot : Nat) (present : Bool) :
    Answers (execPresenceChange slot present s) P := by
  unfold execPresenceChange
  try dsimp only
  refine answers_next ?_
  try dsimp only
  repeat' (with_reducible (first | intro _ | assumption | apply whenSlot_stable H | apply presence_stable H | dsimp only))

theorem execSgpioFrame_stable {P : State → Prop} (H : Stable P) {s : State} (h : P s) (chain : Nat) (inputs : List (BitVec 6)) :
    Answers (execSgpioFrame chain inputs s) P := by
  unfold execSgpioFrame
  try dsimp only
  refine answers_next ?_
  try dsimp only
  repeat' (with_reducible (first | intro _ | assumption | apply whenSlot_stable H | apply sgpio_stable H | dsimp only))

theorem execPwrGoodTimeout_stable {P : State → Prop} (H : Stable P) {s : State} (h : P s) (slot : Nat) :
    Answers (execPwrGoodTimeout slot s) P := by
  unfold execPwrGoodTimeout
  try dsimp only
  refine answers_next ?_
  try dsimp only
  repeat' (with_reducible (first | intro _ | assumption | apply whenSlot_stable H | apply powerTimeout_stable H | dsimp only))

theorem execLinkBringupAttempt_stable {P : State → Prop} (H : Stable P) {s : State} (h : P s) (slot : Nat) (rate : Nat) (ok : Bool) :
    Answers (execLinkBringupAttempt slot rate ok s) P := by
  unfold execLinkBringupAttempt
  try dsimp only
  refine answers_next ?_
  try dsimp only
  repeat' (with_reducible (first | intro _ | assumption | apply whenSlot_stable H | apply bringUp_stable H | dsimp only))

theorem execLinkBringupRetry_stable {P : State → Prop} (H : Stable P) {s : State} (h : P s) (slot : Nat) :
    Answers (execLinkBringupRetry slot s) P := by
  unfold execLinkBringupRetry
  try dsimp only
  refine answers_next ?_
  try dsimp only
  repeat' (with_reducible (first | intro _ | assumption | apply whenSlot_stable H | apply bringUpAgain_stable H | dsimp only))

theorem execLinkUp_stable {P : State → Prop} (H : Stable P) {s : State} (h : P s) (slot : Nat) (d : DriveInfo) :
    Answers (execLinkUp slot d s) P := by
  unfold execLinkUp
  try dsimp only
  refine answers_next ?_
  try dsimp only
  repeat' (with_reducible (first | intro _ | assumption | apply whenSlot_stable H | apply linkFound_stable H | dsimp only))

theorem execSpinAdmissionTick_stable {P : State → Prop} (H : Stable P) {s : State} (h : P s)  :
    Answers (execSpinAdmissionTick s) P := by
  unfold execSpinAdmissionTick
  try dsimp only
  refine answers_next ?_
  try dsimp only
  repeat' (with_reducible (first | intro _ | assumption | apply whenLinked_stable H | apply spinAdmission_stable H | dsimp only))

theorem execSpinPeakExpiry_stable {P : State → Prop} (H : Stable P) {s : State} (h : P s) (slot : Nat) :
    Answers (execSpinPeakExpiry slot s) P := by
  unfold execSpinPeakExpiry
  try dsimp only
  refine answers_next ?_
  try dsimp only
  repeat' (with_reducible (first | intro _ | assumption | apply whenSlot_stable H | apply peakOver_stable H | dsimp only))

theorem execSpinupComplete_stable {P : State → Prop} (H : Stable P) {s : State} (h : P s) (slot : Nat) (durationDs : Nat) :
    Answers (execSpinupComplete slot durationDs s) P := by
  unfold execSpinupComplete
  try dsimp only
  refine answers_next ?_
  try dsimp only
  repeat' (with_reducible (first | intro _ | assumption | apply whenSlot_stable H | apply spinupDone_stable H | dsimp only))

theorem execSpinupTimeout_stable {P : State → Prop} (H : Stable P) {s : State} (h : P s) (slot : Nat) :
    Answers (execSpinupTimeout slot s) P := by
  unfold execSpinupTimeout
  try dsimp only
  refine answers_next ?_
  try dsimp only
  repeat' (with_reducible (first | intro _ | assumption | apply whenSlot_stable H | apply spinupLate_stable H | dsimp only))

theorem execWakeGroupIdleExpiry_stable {P : State → Prop} (H : Stable P) {s : State} (h : P s) (group : Nat) :
    Answers (execWakeGroupIdleExpiry group s) P := by
  unfold execWakeGroupIdleExpiry
  try dsimp only
  refine answers_next ?_
  try dsimp only
  repeat' (with_reducible (first | intro _ | assumption | apply whenLinked_stable H | apply groupIdle_stable H | dsimp only))

theorem execStandbyComplete_stable {P : State → Prop} (H : Stable P) {s : State} (h : P s) (group : Nat) :
    Answers (execStandbyComplete group s) P := by
  unfold execStandbyComplete
  try dsimp only
  refine answers_next ?_
  try dsimp only
  repeat' (with_reducible (first | intro _ | assumption | apply whenLinked_stable H | apply standbyDone_stable H | dsimp only))

theorem execSlotPowerOff_stable {P : State → Prop} (H : Stable P) {s : State} (h : P s) (slot : Nat) :
    Answers (execSlotPowerOff slot s) P := by
  unfold execSlotPowerOff
  try dsimp only
  refine answers_next ?_
  try dsimp only
  repeat' (with_reducible (first | intro _ | assumption | apply whenSlot_stable H | apply slotOff_stable H | dsimp only))

end Sys2Proof.Machine
end

