-- ==== Sys2Proof/Laws/RowsMemory.lean ====
section
/-! SUPPORT. Every command of Machine/Memory.lean answers a next state, which keeps every property that the model's updates keep (`Stable`). -/

namespace Sys2Proof.Machine

open Sys2Proof

theorem execDramReadComplete_stable {P : State → Prop} (H : Stable P) {s : State} (h : P s) (ch : Nat) (laddr : Nat) (_port : Nat) (e : EccResult) :
    Answers (execDramReadComplete ch laddr _port e s) P := by
  unfold execDramReadComplete
  try dsimp only
  refine answers_next ?_
  try dsimp only
  repeat' (with_reducible (first | intro _ | assumption | apply whenMemory_stable H | apply dramReadDone_stable H | dsimp only))

theorem execRowLimit_stable {P : State → Prop} (H : Stable P) {s : State} (h : P s) (ch : Nat) (bank : Nat) (row : Nat) (port : Nat) :
    Answers (execRowLimit ch bank row port s) P := by
  unfold execRowLimit
  try dsimp only
  refine answers_next ?_
  try dsimp only
  repeat' (with_reducible (first | intro _ | ((conv => arg 1; arg 27); apply H.upd) | assumption | apply whenMemory_stable H | apply bump_stable H | apply raise_stable H | apply showThrottle_stable H | apply ite_stable P | dsimp only | split))

theorem execThrottleExpiry_stable {P : State → Prop} (H : Stable P) {s : State} (h : P s) (ch : Nat) (bank : Nat) (port : Nat) :
    Answers (execThrottleExpiry ch bank port s) P := by
  unfold execThrottleExpiry
  try dsimp only
  refine answers_next ?_
  try dsimp only
  repeat' (with_reducible (first | intro _ | ((conv => arg 1; arg 27); apply H.upd) | assumption | apply whenMemory_stable H | apply showThrottle_stable H | apply ite_stable P | dsimp only | split))

theorem execDramTempPoll_stable {P : State → Prop} (H : Stable P) {s : State} (h : P s) (ch : Nat) (temp : Int) :
    Answers (execDramTempPoll ch temp s) P := by
  unfold execDramTempPoll
  try dsimp only
  refine answers_next ?_
  try dsimp only
  repeat' (with_reducible (first | intro _ | assumption | apply whenMemory_stable H | apply dramTempPolled_stable H | dsimp only))

theorem execChannelPowerDown_stable {P : State → Prop} (H : Stable P) {s : State} (h : P s) (ch : Nat) :
    Answers (execChannelPowerDown ch s) P := by
  unfold execChannelPowerDown
  try dsimp only
  refine answers_next ?_
  try dsimp only
  repeat' (with_reducible (first | intro _ | assumption | apply whenMemory_stable H | apply setFld_stable H | apply ite_stable P | dsimp only | split))

theorem execMcRetrainGo_stable {P : State → Prop} (H : Stable P) {s : State} (h : P s) (port : Nat) (v : Word) :
    Answers (execMcRetrainGo port v s) P := by
  unfold execMcRetrainGo
  try dsimp only
  refine answers_next ?_
  try dsimp only
  repeat' (with_reducible (first | intro _ | assumption | apply hostWrite_stable H | apply mcRetrainWrite_stable H))

theorem execRetrainStepDone_stable {P : State → Prop} (H : Stable P) {s : State} (h : P s) (ch : Nat) (pass : Bool) :
    Answers (execRetrainStepDone ch pass s) P := by
  unfold execRetrainStepDone
  try dsimp only
  refine answers_next ?_
  try dsimp only
  repeat' (with_reducible (first | intro _ | assumption | apply whenMemory_stable H | apply retrainStepped_stable H | dsimp only))

theorem execMcDiagGo_stable {P : State → Prop} (H : Stable P) {s : State} (h : P s) (port : Nat) (ch : Nat) (v : Word) :
    Answers (execMcDiagGo port ch v s) P := by
  unfold execMcDiagGo
  try dsimp only
  refine answers_next ?_
  try dsimp only
  repeat' (with_reducible (first | intro _ | assumption | apply hostWrite_stable H | apply mcDiagWrite_stable H | apply ite_stable P | split))

theorem execMcDiagDone_stable {P : State → Prop} (H : Stable P) {s : State} (h : P s) (ch : Nat) (dqFail : Nat) (errors : Nat) :
    Answers (execMcDiagDone ch dqFail errors s) P := by
  unfold execMcDiagDone
  try dsimp only
  refine answers_next ?_
  try dsimp only
  repeat' (with_reducible (first | intro _ | assumption | apply whenMemory_stable H | apply setFld_stable H | apply ite_stable P | dsimp only | split))

end Sys2Proof.Machine
end

