-- ==== Sys2Proof/Laws/RowsMetaCache.lean ====
section
/-! SUPPORT. Every command of Machine/MetaCache.lean answers a next state, which keeps every property that the model's updates keep (`Stable`). -/

namespace Sys2Proof.Machine

open Sys2Proof

theorem execMdcFillReturn_stable {P : State → Prop} (H : Stable P) {s : State} (h : P s) (a : CacheAccess) (block : Nat) (e : CacheError) :
    Answers (execMdcFillReturn a block e s) P := by
  unfold execMdcFillReturn
  try dsimp only
  refine answers_next ?_
  try dsimp only
  repeat' (with_reducible (first | intro _ | assumption | apply whenUnit_stable H | apply mdcAccess_stable H | dsimp only))

theorem execMdcRange_stable {P : State → Prop} (H : Stable P) {s : State} (h : P s) (port : Nat) (v : Word) :
    Answers (execMdcRange port v s) P := by
  unfold execMdcRange
  try dsimp only
  refine answers_next ?_
  try dsimp only
  repeat' (with_reducible (first | intro _ | assumption | apply mdcMaintRow_stable H))

theorem execMdcAll_stable {P : State → Prop} (H : Stable P) {s : State} (h : P s) (port : Nat) (v : Word) :
    Answers (execMdcAll port v s) P := by
  unfold execMdcAll
  try dsimp only
  refine answers_next ?_
  try dsimp only
  repeat' (with_reducible (first | intro _ | assumption | apply mdcMaintRow_stable H))

theorem execMdcClass_stable {P : State → Prop} (H : Stable P) {s : State} (h : P s) (port : Nat) (v : Word) :
    Answers (execMdcClass port v s) P := by
  unfold execMdcClass
  try dsimp only
  refine answers_next ?_
  try dsimp only
  repeat' (with_reducible (first | intro _ | assumption | apply mdcMaintRow_stable H))

theorem execMaintDone_stable {P : State → Prop} (H : Stable P) {s : State} (h : P s)  :
    Answers (execMaintDone s) P := by
  unfold execMaintDone
  try dsimp only
  refine answers_next ?_
  try dsimp only
  repeat' (with_reducible (first | intro _ | ((conv => arg 1; arg 27); apply H.upd) | assumption | apply whenUnit_stable H | apply setFld_stable H | apply ite_stable P | dsimp only | split))

theorem execMdcCtlWrite_stable {P : State → Prop} (H : Stable P) {s : State} (h : P s) (port : Nat) (v : Word) :
    Answers (execMdcCtlWrite port v s) P := by
  unfold execMdcCtlWrite
  try dsimp only
  refine answers_next ?_
  try dsimp only
  repeat' (with_reducible (first | intro _ | assumption | apply hostWrite_stable H | apply mdcCtlWrite_stable H))

end Sys2Proof.Machine
end

