-- ==== Sys2Proof/Laws/RowsMover.lean ====
section
/-! SUPPORT. Every command of Machine/Mover.lean answers a next state, which keeps every property that the model's updates keep (`Stable`). -/

namespace Sys2Proof.Machine

open Sys2Proof

theorem execXmInstruction_stable {P : State → Prop} (HM : StableMem P) {s : State} (h : P s) (n : Nat) (failed : Bool) (placed : Option (List Byte)) :
    Answers (execXmInstruction n failed placed s) P := by
  have H := HM.toStable
  unfold execXmInstruction
  try dsimp only
  refine answers_next ?_
  try dsimp only
  repeat' (with_reducible (first | intro _ | ((conv => arg 1; arg 27); apply H.upd) | assumption | apply whenMemory_stable H | apply xmPlace_stable HM | apply xmExecute_stable H | apply xmFail_stable H | apply ite_stable P | dsimp only | split))

theorem xmPlace_none_stable {P : State → Prop} (_ : Stable P) {s : State} (h : P s) (n : Nat) : P (State.xmPlace s n none) := h

theorem execXmInstruction_none_stable {P : State → Prop} (H : Stable P) {s : State} (h : P s) (n : Nat) (failed : Bool) :
    Answers (execXmInstruction n failed none s) P := by
  unfold execXmInstruction
  try dsimp only
  refine answers_next ?_
  try dsimp only
  repeat' (with_reducible (first | intro _ | ((conv => arg 1; arg 27); apply H.upd) | assumption | apply whenMemory_stable H | apply xmPlace_none_stable H | apply xmExecute_stable H | apply xmFail_stable H | apply ite_stable P | dsimp only | split))


theorem execXmStart_stable {P : State → Prop} (H : Stable P) {s : State} (h : P s) (port : Nat) (n : Nat) (v : Word) :
    Answers (execXmStart port n v s) P := by
  unfold execXmStart
  try dsimp only
  refine answers_next ?_
  try dsimp only
  repeat' (with_reducible (first | intro _ | assumption | apply hostWrite_stable H | apply xmCtlWrite_stable H | apply ite_stable P | split))

theorem execXmPause_stable {P : State → Prop} (H : Stable P) {s : State} (h : P s) (port : Nat) (n : Nat) (v : Word) :
    Answers (execXmPause port n v s) P := by
  unfold execXmPause
  try dsimp only
  refine answers_next ?_
  try dsimp only
  repeat' (with_reducible (first | intro _ | assumption | apply hostWrite_stable H | apply xmCtlWrite_stable H | apply ite_stable P | split))

theorem execXmStop_stable {P : State → Prop} (H : Stable P) {s : State} (h : P s) (port : Nat) (n : Nat) (v : Word) :
    Answers (execXmStop port n v s) P := by
  unfold execXmStop
  try dsimp only
  refine answers_next ?_
  try dsimp only
  repeat' (with_reducible (first | intro _ | assumption | apply hostWrite_stable H | apply xmCtlWrite_stable H | apply ite_stable P | split))

theorem execXmEventSet_stable {P : State → Prop} (H : Stable P) {s : State} (h : P s) (port : Nat) (v : Word) :
    Answers (execXmEventSet port v s) P := by
  unfold execXmEventSet
  try dsimp only
  refine answers_next ?_
  try dsimp only
  repeat' (with_reducible (first | intro _ | assumption | apply hostWrite_stable H | apply xmEventSetWrite_stable H))

theorem execXmRequestLine_stable {P : State → Prop} (H : Stable P) {s : State} (h : P s) (line : Nat) (level : Bool) :
    Answers (execXmRequestLine line level s) P := by
  unfold execXmRequestLine
  try dsimp only
  refine answers_next ?_
  try dsimp only
  repeat' (with_reducible (first | intro _ | assumption | apply whenMemory_stable H | apply xmSetLine_stable H | apply ite_stable P | dsimp only | split))

theorem execXmBurstDone_stable {P : State → Prop} (HM : StableMem P) {s : State} (h : P s) (n : Nat) (bytes : Nat) :
    Answers (execXmBurstDone n bytes s) P := by
  have H := HM.toStable
  unfold execXmBurstDone
  try dsimp only
  refine answers_next ?_
  try dsimp only
  repeat' (with_reducible (first | intro _ | assumption | apply whenMemory_stable H | apply xmBurst_stable HM | dsimp only))

theorem execBusError_stable {P : State → Prop} (H : Stable P) {s : State} (h : P s) (n : Nat) (isWrite : Bool) :
    Answers (execBusError n isWrite s) P := by
  unfold execBusError
  try dsimp only
  refine answers_next ?_
  try dsimp only
  repeat' (with_reducible (first | intro _ | assumption | apply whenMemory_stable H | apply xmBusError_stable H | dsimp only))

theorem execXmRetryExpiry_stable {P : State → Prop} (H : Stable P) {s : State} (h : P s) (n : Nat) :
    Answers (execXmRetryExpiry n s) P := by
  unfold execXmRetryExpiry
  try dsimp only
  refine answers_next ?_
  try dsimp only
  repeat' (with_reducible (first | intro _ | ((conv => arg 1; arg 27); apply H.upd) | assumption | apply whenMemory_stable H | apply setXmChan_stable H | apply ite_stable P | dsimp only | split))

end Sys2Proof.Machine
end

