-- ==== Sys2Proof/Laws/RowsPeerRows.lean ====
section
/-! SUPPORT. Every command of Machine/PeerRows.lean answers a next state, which keeps every property that the model's updates keep (`Stable`). -/

namespace Sys2Proof.Machine

open Sys2Proof

theorem execPeerLinkTrained_stable {P : State → Prop} (H : Stable P) {s : State} (h : P s) (rate : Nat) (width : Nat) :
    Answers (execPeerLinkTrained rate width s) P := by
  unfold execPeerLinkTrained
  try dsimp only
  refine answers_next ?_
  try dsimp only
  repeat' (with_reducible (first | intro _ | assumption | apply whenLinked_stable H | apply peerTrained_stable H | apply relocked_stable H | dsimp only))

theorem execPeerHello_stable {P : State → Prop} (H : Stable P) {s : State} (h : P s) (h : HelloFrame) :
    Answers (execPeerHello h s) P := by
  unfold execPeerHello
  try dsimp only
  refine answers_next ?_
  try dsimp only
  repeat' (with_reducible (first | intro _ | assumption | apply whenLinked_stable H | apply hello_stable H | dsimp only))

theorem execHeartbeat_stable {P : State → Prop} (H : Stable P) {s : State} (h : P s) (f : Nat) (owned : BitVec 64) (_lastMseq : Nat) :
    Answers (execHeartbeat f owned _lastMseq s) P := by
  unfold execHeartbeat
  try dsimp only
  refine answers_next ?_
  try dsimp only
  repeat' (with_reducible (first | intro _ | assumption | apply whenLinked_stable H | apply heartbeat_stable H | dsimp only))

theorem execHeartbeatSend_stable {P : State → Prop} (H : Stable P) {s : State} (h : P s)  :
    Answers (execHeartbeatSend s) P := by
  unfold execHeartbeatSend
  try dsimp only
  refine answers_next ?_
  try dsimp only
  repeat' (with_reducible (first | intro _ | assumption | apply whenLinked_stable H | apply sendHeartbeat_stable H | dsimp only))

theorem execPeerSilent_stable {P : State → Prop} (H : Stable P) {s : State} (h : P s)  :
    Answers (execPeerSilent s) P := by
  unfold execPeerSilent
  try dsimp only
  refine answers_next ?_
  try dsimp only
  repeat' (with_reducible (first | intro _ | assumption | apply whenLinked_stable H | apply peerSilent_stable H | dsimp only))

theorem execResolutionStart_stable {P : State → Prop} (H : Stable P) {s : State} (h : P s)  :
    Answers (execResolutionStart s) P := by
  unfold execResolutionStart
  try dsimp only
  refine answers_next ?_
  try dsimp only
  repeat' (with_reducible (first | intro _ | assumption | apply whenLinked_stable H | apply startResolution_stable H | dsimp only))

theorem execReservationKeysRead_stable {P : State → Prop} (H : Stable P) {s : State} (h : P s) (ownKeyOnAll : Bool) :
    Answers (execReservationKeysRead ownKeyOnAll s) P := by
  unfold execReservationKeysRead
  try dsimp only
  refine answers_next ?_
  try dsimp only
  repeat' (with_reducible (first | intro _ | assumption | apply whenLinked_stable H | apply keysRead_stable H | dsimp only))

theorem execPreemptComplete_stable {P : State → Prop} (H : Stable P) {s : State} (h : P s)  :
    Answers (execPreemptComplete s) P := by
  unfold execPreemptComplete
  try dsimp only
  refine answers_next ?_
  try dsimp only
  repeat' (with_reducible (first | intro _ | assumption | apply whenLinked_stable H | apply preempted_stable H | dsimp only))

theorem execClaim_stable {P : State → Prop} (H : Stable P) {s : State} (h : P s) (pool : Nat) (claimId : Nat) (slots : List Nat) :
    Answers (execClaim pool claimId slots s) P := by
  unfold execClaim
  try dsimp only
  refine answers_next ?_
  try dsimp only
  repeat' (with_reducible (first | intro _ | assumption | apply whenLinked_stable H | apply claimIn_stable H | dsimp only))

theorem execClaimReply_stable {P : State → Prop} (H : Stable P) {s : State} (h : P s) (pool : Nat) (claimId : Nat) (refused : Bool) :
    Answers (execClaimReply pool claimId refused s) P := by
  unfold execClaimReply
  try dsimp only
  refine answers_next ?_
  try dsimp only
  repeat' (with_reducible (first | intro _ | assumption | apply whenLinked_stable H | apply claimAnswered_stable H | dsimp only))

theorem execMirPayload_stable {P : State → Prop} (H : Stable P) {s : State} (h : P s) (mseq : Nat) (pool : Nat) (stripe : Nat) (unit : Nat) (off : Nat) (bytes : List Byte) :
    Answers (execMirPayload mseq pool stripe unit off bytes s) P := by
  unfold execMirPayload
  try dsimp only
  refine answers_next ?_
  try dsimp only
  repeat' (with_reducible (first | intro _ | assumption | apply whenLinked_stable H | apply applyM_stable H | apply mirPayload_stable H | dsimp only))

theorem execMirDirent_stable {P : State → Prop} (H : Stable P) {s : State} (h : P s) (mseq : Nat) (pool : Nat) (stripe : Nat) (slot : Nat) (entry : List Byte) :
    Answers (execMirDirent mseq pool stripe slot entry s) P := by
  unfold execMirDirent
  try dsimp only
  refine answers_next ?_
  try dsimp only
  repeat' (with_reducible (first | intro _ | assumption | apply whenLinked_stable H | apply applyM_stable H | apply mirDirent_stable H | dsimp only))

theorem execMirSeal_stable {P : State → Prop} (H : Stable P) {s : State} (h : P s) (mseq : Nat) (pool : Nat) (stripe : Nat) (sealSeq : Nat) (chunkOffset : Nat) (set : Nat) :
    Answers (execMirSeal mseq pool stripe sealSeq chunkOffset set s) P := by
  unfold execMirSeal
  try dsimp only
  refine answers_next ?_
  try dsimp only
  repeat' (with_reducible (first | intro _ | assumption | apply whenLinked_stable H | apply applyM_stable H | apply mirSeal_stable H | dsimp only))

theorem execMirDelta_stable {P : State → Prop} (H : Stable P) {s : State} (h : P s) (mseq : Nat) (records : List DeltaRec) :
    Answers (execMirDelta mseq records s) P := by
  unfold execMirDelta
  try dsimp only
  refine answers_next ?_
  try dsimp only
  repeat' (with_reducible (first | intro _ | assumption | apply whenLinked_stable H | apply applyM_stable H | apply mirDelta_stable H | dsimp only))

theorem execMirRelease_stable {P : State → Prop} (H : Stable P) {s : State} (h : P s) (mseq : Nat) (pool : Nat) (kind : Nat) (records : List (List Byte)) :
    Answers (execMirRelease mseq pool kind records s) P := by
  unfold execMirRelease
  try dsimp only
  refine answers_next ?_
  try dsimp only
  repeat' (with_reducible (first | intro _ | assumption | apply whenLinked_stable H | apply applyM_stable H | apply mirRelease_stable H | dsimp only))

theorem execMirRetire_stable {P : State → Prop} (H : Stable P) {s : State} (h : P s) (mseq : Nat) (pool : Nat) (stripe : Nat) :
    Answers (execMirRetire mseq pool stripe s) P := by
  unfold execMirRetire
  try dsimp only
  refine answers_next ?_
  try dsimp only
  repeat' (with_reducible (first | intro _ | assumption | apply whenLinked_stable H | apply applyM_stable H | apply mirRetire_stable H | dsimp only))

theorem execMirConfirm_stable {P : State → Prop} (H : Stable P) {s : State} (h : P s) (mseq : Nat) :
    Answers (execMirConfirm mseq s) P := by
  unfold execMirConfirm
  try dsimp only
  refine answers_next ?_
  try dsimp only
  repeat' (with_reducible (first | intro _ | assumption | apply whenLinked_stable H | apply mirConfirm_stable H | dsimp only))

theorem execStandbyCopy_stable {P : State → Prop} (H : Stable P) {s : State} (h : P s) (pool : Nat) (sect : Nat) (off : Nat) (bytes : List Byte) :
    Answers (execStandbyCopy pool sect off bytes s) P := by
  unfold execStandbyCopy
  try dsimp only
  refine answers_next ?_
  try dsimp only
  repeat' (with_reducible (first | intro _ | assumption | apply whenLinked_stable H | apply takeSection_stable H | dsimp only))

theorem execWindowCopy_stable {P : State → Prop} (H : Stable P) {s : State} (h : P s) (mseq : Nat) (off : Nat) (bytes : List Byte) (held : Tab (Tab Stripe)) :
    Answers (execWindowCopy mseq off bytes held s) P := by
  unfold execWindowCopy
  try dsimp only
  refine answers_next ?_
  try dsimp only
  repeat' (with_reducible (first | intro _ | assumption | apply whenLinked_stable H | apply applyM_stable H | apply takeWindow_stable H | dsimp only))

theorem execMirResync_stable {P : State → Prop} (H : Stable P) {s : State} (h : P s) (mseq : Nat) :
    Answers (execMirResync mseq s) P := by
  unfold execMirResync
  try dsimp only
  refine answers_next ?_
  try dsimp only
  repeat' (with_reducible (first | intro _ | assumption | apply whenLinked_stable H | apply mirResync_stable H | dsimp only))

theorem execPeerFrameBad_stable {P : State → Prop} (H : Stable P) {s : State} (h : P s) (isM : Bool) :
    Answers (execPeerFrameBad isM s) P := by
  unfold execPeerFrameBad
  try dsimp only
  refine answers_next ?_
  try dsimp only
  repeat' (with_reducible (first | intro _ | assumption | apply whenLinked_stable H | apply frameBad_stable H | dsimp only))

theorem execGiveReq_stable {P : State → Prop} (H : Stable P) {s : State} (h : P s) (pool : Nat) (lastMseq : Nat) :
    Answers (execGiveReq pool lastMseq s) P := by
  unfold execGiveReq
  try dsimp only
  refine answers_next ?_
  try dsimp only
  repeat' (with_reducible (first | intro _ | assumption | apply whenLinked_stable H | apply giveReq_stable H | dsimp only))

theorem execGiveReady_stable {P : State → Prop} (H : Stable P) {s : State} (h : P s) (pool : Nat) (refused : Bool) :
    Answers (execGiveReady pool refused s) P := by
  unfold execGiveReady
  try dsimp only
  refine answers_next ?_
  try dsimp only
  repeat' (with_reducible (first | intro _ | assumption | apply whenLinked_stable H | apply giveReady_stable H | dsimp only))

theorem execGiveDone_stable {P : State → Prop} (H : Stable P) {s : State} (h : P s) (pool : Nat) (descSeq : Nat) :
    Answers (execGiveDone pool descSeq s) P := by
  unfold execGiveDone
  try dsimp only
  refine answers_next ?_
  try dsimp only
  repeat' (with_reducible (first | intro _ | assumption | apply whenLinked_stable H | apply giveDone_stable H | dsimp only))

theorem execPullReq_stable {P : State → Prop} (H : Stable P) {s : State} (h : P s) (pool : Nat) :
    Answers (execPullReq pool s) P := by
  unfold execPullReq
  try dsimp only
  refine answers_next ?_
  try dsimp only
  repeat' (with_reducible (first | intro _ | assumption | apply whenLinked_stable H | apply answerPull_stable H | dsimp only))

theorem execPullData_stable {P : State → Prop} (H : Stable P) {s : State} (h : P s) (off : Nat) (bytes : List Byte) :
    Answers (execPullData off bytes s) P := by
  unfold execPullData
  try dsimp only
  refine answers_next ?_
  try dsimp only
  repeat' (with_reducible (first | intro _ | assumption | apply whenLinked_stable H | apply takePull_stable H | dsimp only))

theorem execPullEnd_stable {P : State → Prop} (H : Stable P) {s : State} (h : P s) (pool : Nat) (noMirror : Bool) :
    Answers (execPullEnd pool noMirror s) P := by
  unfold execPullEnd
  try dsimp only
  refine answers_next ?_
  try dsimp only
  repeat' (with_reducible (first | intro _ | assumption | apply whenLinked_stable H | apply endPull_stable H | dsimp only))

theorem execFlitNak_stable {P : State → Prop} (H : Stable P) {s : State} (h : P s) (ack : Nat) :
    Answers (execFlitNak ack s) P := by
  unfold execFlitNak
  try dsimp only
  refine answers_next ?_
  try dsimp only
  repeat' (with_reducible (first | intro _ | assumption | apply whenLinked_stable H | apply flitNak_stable H | dsimp only))

theorem execReplayTimeout_stable {P : State → Prop} (H : Stable P) {s : State} (h : P s)  :
    Answers (execReplayTimeout s) P := by
  unfold execReplayTimeout
  try dsimp only
  refine answers_next ?_
  try dsimp only
  repeat' (with_reducible (first | intro _ | assumption | apply whenLinked_stable H | apply replay_stable H | dsimp only))

theorem execPeerRetrain_stable {P : State → Prop} (H : Stable P) {s : State} (h : P s)  :
    Answers (execPeerRetrain s) P := by
  unfold execPeerRetrain
  try dsimp only
  refine answers_next ?_
  try dsimp only
  repeat' (with_reducible (first | intro _ | assumption | apply whenLinked_stable H | apply retrain_stable H | dsimp only))

theorem execPeerRetrainDone_stable {P : State → Prop} (H : Stable P) {s : State} (h : P s) (rate : Nat) (width : Nat) :
    Answers (execPeerRetrainDone rate width s) P := by
  unfold execPeerRetrainDone
  try dsimp only
  refine answers_next ?_
  try dsimp only
  repeat' (with_reducible (first | intro _ | assumption | apply whenLinked_stable H | apply retrainDone_stable H | apply relocked_stable H | dsimp only))

theorem execPeerFlitCrcFail_stable {P : State → Prop} (H : Stable P) {s : State} (h : P s)  :
    Answers (execPeerFlitCrcFail s) P := by
  unfold execPeerFlitCrcFail
  try dsimp only
  refine answers_next ?_
  try dsimp only
  repeat' (with_reducible (first | intro _ | assumption | apply whenLinked_stable H | apply flitCrcFail_stable H | dsimp only))

end Sys2Proof.Machine
end

