-- ==== Sys2Proof/Laws/RowsPoolRows.lean ====
section
/-! SUPPORT. Every command of Machine/PoolRows.lean answers a next state, which keeps every property that the model's updates keep (`Stable`). -/

namespace Sys2Proof.Machine

open Sys2Proof

theorem execPoolCreate_stable {P : State → Prop} (H : Stable P) {s : State} (h : P s) (c : HostCmd) :
    Answers (execPoolCreate c s) P := by
  unfold execPoolCreate
  try dsimp only
  refine answers_next ?_
  try dsimp only
  repeat' (with_reducible (first | intro _ | assumption | apply hostRow_stable H | apply runPoolCreate_stable H | dsimp only))

theorem execPoolGrow_stable {P : State → Prop} (H : Stable P) {s : State} (h : P s) (c : HostCmd) :
    Answers (execPoolGrow c s) P := by
  unfold execPoolGrow
  try dsimp only
  refine answers_next ?_
  try dsimp only
  repeat' (with_reducible (first | intro _ | assumption | apply hostRow_stable H | apply runPoolGrow_stable H | dsimp only))

theorem execPoolSet_stable {P : State → Prop} (H : Stable P) {s : State} (h : P s) (c : HostCmd) :
    Answers (execPoolSet c s) P := by
  unfold execPoolSet
  try dsimp only
  refine answers_next ?_
  try dsimp only
  repeat' (with_reducible (first | intro _ | assumption | apply hostRow_stable H | apply runPoolSet_stable H | dsimp only))

theorem execPoolDelete_stable {P : State → Prop} (H : Stable P) {s : State} (h : P s) (c : HostCmd) :
    Answers (execPoolDelete c s) P := by
  unfold execPoolDelete
  try dsimp only
  refine answers_next ?_
  try dsimp only
  repeat' (with_reducible (first | intro _ | assumption | apply hostRow_stable H | apply runPoolDelete_stable H | dsimp only))

theorem execPoolRecover_stable {P : State → Prop} (H : Stable P) {s : State} (h : P s) (c : HostCmd) :
    Answers (execPoolRecover c s) P := by
  unfold execPoolRecover
  try dsimp only
  refine answers_next ?_
  try dsimp only
  repeat' (with_reducible (first | intro _ | assumption | apply hostRow_stable H | apply runPoolRecover_stable H | dsimp only))

theorem execLossClear_stable {P : State → Prop} (H : Stable P) {s : State} (h : P s) (c : HostCmd) :
    Answers (execLossClear c s) P := by
  unfold execLossClear
  try dsimp only
  refine answers_next ?_
  try dsimp only
  repeat' (with_reducible (first | intro _ | assumption | apply hostRow_stable H | apply runLossClear_stable H | dsimp only))

theorem execPoolGive_stable {P : State → Prop} (H : Stable P) {s : State} (h : P s) (c : HostCmd) :
    Answers (execPoolGive c s) P := by
  unfold execPoolGive
  try dsimp only
  refine answers_next ?_
  try dsimp only
  repeat' (with_reducible (first | intro _ | assumption | apply hostRow_stable H | apply runPoolGive_stable H | dsimp only))

theorem execDriveSet_stable {P : State → Prop} (H : Stable P) {s : State} (h : P s) (c : HostCmd) :
    Answers (execDriveSet c s) P := by
  unfold execDriveSet
  try dsimp only
  refine answers_next ?_
  try dsimp only
  repeat' (with_reducible (first | intro _ | assumption | apply hostRow_stable H | apply runDriveSet_stable H | dsimp only))

theorem execRetireCopyComplete_stable {P : State → Prop} (H : Stable P) {s : State} (h : P s) (slot : Nat) (band : Nat) :
    Answers (execRetireCopyComplete slot band s) P := by
  unfold execRetireCopyComplete
  try dsimp only
  refine answers_next ?_
  try dsimp only
  repeat' (with_reducible (first | intro _ | assumption | apply whenUp_stable H | apply retireCopied_stable H | dsimp only))

theorem execLabelWriteDone_stable {P : State → Prop} (H : Stable P) {s : State} (h : P s) (slot : Nat) (ok : Bool) :
    Answers (execLabelWriteDone slot ok s) P := by
  unfold execLabelWriteDone
  try dsimp only
  refine answers_next ?_
  try dsimp only
  repeat' (with_reducible (first | intro _ | ((conv => arg 1; arg 27); apply H.upd) | assumption | apply whenUp_stable H | apply driveGood_stable H | apply labelDone_stable H | apply scarfLabelFailed_stable H | apply ite_stable P | dsimp only | split))

theorem execReclaimActionDone_stable {P : State → Prop} (H : Stable P) {s : State} (h : P s) (slot : Nat) (band : Nat) (ok : Bool) :
    Answers (execReclaimActionDone slot band ok s) P := by
  unfold execReclaimActionDone
  try dsimp only
  refine answers_next ?_
  try dsimp only
  repeat' (with_reducible (first | intro _ | assumption | apply whenUp_stable H | apply reclaimDone_stable H | dsimp only))

theorem execReclaimRetry_stable {P : State → Prop} (H : Stable P) {s : State} (h : P s) (slot : Nat) (band : Nat) :
    Answers (execReclaimRetry slot band s) P := by
  unfold execReclaimRetry
  try dsimp only
  refine answers_next ?_
  try dsimp only
  repeat' (with_reducible (first | intro _ | assumption | apply whenUp_stable H | apply reclaimRetry_stable H | dsimp only))

theorem execCheckpointComplete_stable {P : State → Prop} (H : Stable P) {s : State} (h : P s) (pool : Nat) :
    Answers (execCheckpointComplete pool s) P := by
  unfold execCheckpointComplete
  try dsimp only
  refine answers_next ?_
  try dsimp only
  repeat' (with_reducible (first | intro _ | assumption | apply whenUp_stable H | apply checkpointWritten_stable H | dsimp only))

theorem execCheckpointTimer_stable {P : State → Prop} (H : Stable P) {s : State} (h : P s) (pool : Nat) :
    Answers (execCheckpointTimer pool s) P := by
  unfold execCheckpointTimer
  try dsimp only
  refine answers_next ?_
  try dsimp only
  repeat' (with_reducible (first | intro _ | assumption | apply whenUp_stable H | apply startCkpt_stable H | apply ite_stable P | dsimp only | split))

theorem execJournalGatherExpiry_stable {P : State → Prop} (H : Stable P) {s : State} (h : P s) (pool : Nat) :
    Answers (execJournalGatherExpiry pool s) P := by
  unfold execJournalGatherExpiry
  try dsimp only
  refine answers_next ?_
  try dsimp only
  repeat' (with_reducible (first | intro _ | assumption | apply whenUp_stable H | apply sendBlock_stable H | dsimp only))

theorem execJournalFillTimer_stable {P : State → Prop} (H : Stable P) {s : State} (h : P s) (set : Nat) :
    Answers (execJournalFillTimer set s) P := by
  unfold execJournalFillTimer
  try dsimp only
  refine answers_next ?_
  try dsimp only
  repeat' (with_reducible (first | intro _ | assumption | apply whenUp_stable H | apply fillTimer_stable H | dsimp only))

theorem execSillRecordWritten_stable {P : State → Prop} (H : Stable P) {s : State} (h : P s) (pool : Nat) (slot : Nat) :
    Answers (execSillRecordWritten pool slot s) P := by
  unfold execSillRecordWritten
  try dsimp only
  refine answers_next ?_
  try dsimp only
  repeat' (with_reducible (first | intro _ | assumption | apply whenUp_stable H | apply sillWritten_stable H | dsimp only))

theorem execWindowRecompute_stable {P : State → Prop} (H : Stable P) {s : State} (h : P s)  :
    Answers (execWindowRecompute s) P := by
  unfold execWindowRecompute
  try dsimp only
  refine answers_next ?_
  try dsimp only
  repeat' (with_reducible (first | intro _ | assumption | apply whenUp_stable H | apply winRecompute_stable H | dsimp only))

theorem execWindowStepUp_stable {P : State → Prop} (H : Stable P) {s : State} (h : P s)  :
    Answers (execWindowStepUp s) P := by
  unfold execWindowStepUp
  try dsimp only
  refine answers_next ?_
  try dsimp only
  repeat' (with_reducible (first | intro _ | assumption | apply whenUp_stable H | apply winStep_stable H | dsimp only))

theorem execAdmitCreditTick_stable {P : State → Prop} (H : Stable P) {s : State} (h : P s)  :
    Answers (execAdmitCreditTick s) P := by
  unfold execAdmitCreditTick
  try dsimp only
  refine answers_next ?_
  try dsimp only
  repeat' (with_reducible (first | intro _ | assumption | apply whenUp_stable H | apply creditTick_stable H | dsimp only))

theorem execEbRateMeasured_stable {P : State → Prop} (H : Stable P) {s : State} (h : P s) (rateMBs : Nat) :
    Answers (execEbRateMeasured rateMBs s) P := by
  unfold execEbRateMeasured
  try dsimp only
  refine answers_next ?_
  try dsimp only
  repeat' (with_reducible (first | intro _ | assumption | apply whenUp_stable H | apply ebMeasured_stable H | dsimp only))

theorem execSlotEraseDone_stable {P : State → Prop} (H : Stable P) {s : State} (h : P s) (slot : Nat) (ok : Bool) :
    Answers (execSlotEraseDone slot ok s) P := by
  unfold execSlotEraseDone
  try dsimp only
  refine answers_next ?_
  try dsimp only
  repeat' (with_reducible (first | intro _ | assumption | apply whenUp_stable H | apply ebErased_stable H | apply ite_stable P | dsimp only | split))

theorem execPoolRecovery_stable {P : State → Prop} (H : Stable P) {s : State} (h : P s) (pool : Nat) (r : RecoveryInfo) :
    Answers (execPoolRecovery pool r s) P := by
  unfold execPoolRecovery
  try dsimp only
  refine answers_next ?_
  try dsimp only
  repeat' (with_reducible (first | intro _ | assumption | apply whenUp_stable H | apply recoverPool_stable H | dsimp only))

theorem execPartnerWaitExpiry_stable {P : State → Prop} (H : Stable P) {s : State} (h : P s) (pool : Nat) :
    Answers (execPartnerWaitExpiry pool s) P := by
  unfold execPartnerWaitExpiry
  try dsimp only
  refine answers_next ?_
  try dsimp only
  repeat' (with_reducible (first | intro _ | assumption | apply whenUp_stable H | apply endWait_stable H | dsimp only))

theorem execScarfStart_stable {P : State → Prop} (H : Stable P) {s : State} (h : P s) (c : HostCmd) :
    Answers (execScarfStart c s) P := by
  unfold execScarfStart
  try dsimp only
  refine answers_next ?_
  try dsimp only
  repeat' (with_reducible (first | intro _ | assumption | apply hostRow_stable H | apply runScarfStart_stable H | dsimp only))

theorem execScarfCopyStripe_stable {P : State → Prop} (H : Stable P) {s : State} (h : P s) (pool : Nat) (stripe : Nat) (lost : List Nat) :
    Answers (execScarfCopyStripe pool stripe lost s) P := by
  unfold execScarfCopyStripe
  try dsimp only
  refine answers_next ?_
  try dsimp only
  repeat' (with_reducible (first | intro _ | assumption | apply whenUp_stable H | apply copyStripe_stable H | dsimp only))

theorem execScarfCommit_stable {P : State → Prop} (H : Stable P) {s : State} (h : P s) (c : HostCmd) :
    Answers (execScarfCommit c s) P := by
  unfold execScarfCommit
  try dsimp only
  refine answers_next ?_
  try dsimp only
  repeat' (with_reducible (first | intro _ | assumption | apply hostRow_stable H | apply runScarfCommit_stable H | dsimp only))

theorem execScarfOldReclaim_stable {P : State → Prop} (H : Stable P) {s : State} (h : P s) (pool : Nat) :
    Answers (execScarfOldReclaim pool s) P := by
  unfold execScarfOldReclaim
  try dsimp only
  refine answers_next ?_
  try dsimp only
  repeat' (with_reducible (first | intro _ | assumption | apply whenUp_stable H | apply oldReclaim_stable H | dsimp only))

theorem execScarfAbort_stable {P : State → Prop} (H : Stable P) {s : State} (h : P s) (c : HostCmd) :
    Answers (execScarfAbort c s) P := by
  unfold execScarfAbort
  try dsimp only
  refine answers_next ?_
  try dsimp only
  repeat' (with_reducible (first | intro _ | assumption | apply hostRow_stable H | apply runScarfAbort_stable H | dsimp only))

end Sys2Proof.Machine
end

