-- ==== Sys2Proof/Laws/RowsPowerRows.lean ====
section
/-! SUPPORT. Every command of Machine/PowerRows.lean answers a next state, which keeps every property that the model's updates keep (`Stable`). -/

namespace Sys2Proof.Machine

open Sys2Proof

theorem execEbbEntry_stable {P : State → Prop} (H : Stable P) {s : State} (h : P s)  :
    Answers (execEbbEntry s) P := by
  unfold execEbbEntry
  try dsimp only
  refine answers_next ?_
  try dsimp only
  repeat' (with_reducible (first | intro _ | assumption | apply anyTime_stable H | apply powerFail_stable H | dsimp only))

theorem execEbbLastUpdate_stable {P : State → Prop} (H : Stable P) {s : State} (h : P s)  :
    Answers (execEbbLastUpdate s) P := by
  unfold execEbbLastUpdate
  try dsimp only
  refine answers_next ?_
  try dsimp only
  repeat' (with_reducible (first | intro _ | ((conv => arg 1; arg 27); apply H.upd) | assumption | apply ite_stable P | split))

theorem execEbbEnd_stable {P : State → Prop} (H : Stable P) {s : State} (h : P s) (headerRead : Bool) :
    Answers (execEbbEnd headerRead s) P := by
  unfold execEbbEnd
  try dsimp only
  refine answers_next ?_
  try dsimp only
  repeat' (with_reducible (first | intro _ | assumption | apply anyTime_stable H | apply endEbb_stable H | dsimp only))

theorem execEbbRestart_stable {P : State → Prop} (HM : StableMem P) {s : State} (h : P s) (b : BootInfo) :
    Answers (execEbbRestart b s) P := by
  have H := HM.toStable
  unfold execEbbRestart
  try dsimp only
  refine answers_next ?_
  try dsimp only
  repeat' (with_reducible (first | intro _ | assumption | apply anyTime_stable H | apply powerBack_stable HM | dsimp only))

theorem execColdReset_stable {P : State → Prop} (HM : StableMem P) {s : State} (h : P s) (b : BootInfo) :
    Answers (execColdReset b s) P := by
  have H := HM.toStable
  unfold execColdReset
  try dsimp only
  refine answers_next ?_
  try dsimp only
  repeat' (with_reducible (first | intro _ | assumption | apply anyTime_stable H | apply powerGood_stable HM | dsimp only))

theorem execWarmReset_stable {P : State → Prop} (HM : StableMem P) {s : State} (h : P s) (b : BootInfo) :
    Answers (execWarmReset b s) P := by
  have H := HM.toStable
  unfold execWarmReset
  try dsimp only
  refine answers_next ?_
  try dsimp only
  repeat' (with_reducible (first | intro _ | assumption | apply anyTime_stable H | apply warmRequest_stable HM | dsimp only))

theorem execWarmPrepTimeout_stable {P : State → Prop} (HM : StableMem P) {s : State} (h : P s) (b : BootInfo) :
    Answers (execWarmPrepTimeout b s) P := by
  have H := HM.toStable
  unfold execWarmPrepTimeout
  try dsimp only
  refine answers_next ?_
  try dsimp only
  repeat' (with_reducible (first | intro _ | assumption | apply anyTime_stable H | apply prepTimeout_stable HM | dsimp only))

theorem execResetNRise_stable {P : State → Prop} (HM : StableMem P) {s : State} (h : P s)  :
    Answers (execResetNRise s) P := by
  have H := HM.toStable
  unfold execResetNRise
  try dsimp only
  refine answers_next ?_
  try dsimp only
  repeat' (with_reducible (first | intro _ | assumption | apply anyTime_stable H | apply resetRise_stable HM | dsimp only))

theorem execRetentionCheckDone_stable {P : State → Prop} (HM : StableMem P) {s : State} (h : P s) (srHeld : Bool) (eccOk : Bool) (recordOk : Bool) :
    Answers (execRetentionCheckDone srHeld eccOk recordOk s) P := by
  have H := HM.toStable
  unfold execRetentionCheckDone
  try dsimp only
  refine answers_next ?_
  try dsimp only
  repeat' (with_reducible (first | intro _ | assumption | apply anyTime_stable H | apply retentionDone_stable HM | dsimp only))

theorem execPwrgdFall_stable {P : State → Prop} (HM : StableMem P) {s : State} (h : P s)  :
    Answers (execPwrgdFall s) P := by
  have H := HM.toStable
  unfold execPwrgdFall
  try dsimp only
  refine answers_next ?_
  try dsimp only
  repeat' (with_reducible (first | intro _ | assumption | apply anyTime_stable H | apply powerLost_stable HM | dsimp only))

theorem execSuppliesRemoved_stable {P : State → Prop} (HM : StableMem P) {s : State} (h : P s) (vaon : Bool) :
    Answers (execSuppliesRemoved vaon s) P := by
  have H := HM.toStable
  unfold execSuppliesRemoved
  try dsimp only
  refine answers_next ?_
  try dsimp only
  repeat' (with_reducible (first | intro _ | assumption | apply anyTime_stable H | apply suppliesGone_stable HM | dsimp only))

theorem execHarbourPhyDown_stable {P : State → Prop} (H : Stable P) {s : State} (h : P s)  :
    Answers (execHarbourPhyDown s) P := by
  unfold execHarbourPhyDown
  try dsimp only
  refine answers_next ?_
  try dsimp only
  repeat' (with_reducible (first | intro _ | assumption | apply anyTime_stable H | apply harbourDown_stable H | dsimp only))

theorem execHarbourExit_stable {P : State → Prop} (H : Stable P) {s : State} (h : P s) (byPerst : Bool) :
    Answers (execHarbourExit byPerst s) P := by
  unfold execHarbourExit
  try dsimp only
  refine answers_next ?_
  try dsimp only
  repeat' (with_reducible (first | intro _ | assumption | apply anyTime_stable H | apply harbourExit_stable H | dsimp only))

theorem execHarbourTimer_stable {P : State → Prop} (H : Stable P) {s : State} (h : P s)  :
    Answers (execHarbourTimer s) P := by
  unfold execHarbourTimer
  try dsimp only
  refine answers_next ?_
  try dsimp only
  repeat' (with_reducible (first | intro _ | assumption | apply anyTime_stable H | apply harbourTimer_stable H | dsimp only))

theorem execUnitResetEv_stable {P : State → Prop} (H : Stable P) {s : State} (h : P s)  :
    Answers (execUnitResetEv s) P := by
  unfold execUnitResetEv
  try dsimp only
  refine answers_next ?_
  try dsimp only
  repeat' (with_reducible (first | intro _ | assumption | apply whenUp_stable H | apply unitReset_stable H | dsimp only))

theorem execUnitResetCe_stable {P : State → Prop} (H : Stable P) {s : State} (h : P s)  :
    Answers (execUnitResetCe s) P := by
  unfold execUnitResetCe
  try dsimp only
  refine answers_next ?_
  try dsimp only
  repeat' (with_reducible (first | intro _ | assumption | apply whenUp_stable H | apply unitReset_stable H | dsimp only))

theorem execUnitResetHe_stable {P : State → Prop} (H : Stable P) {s : State} (h : P s)  :
    Answers (execUnitResetHe s) P := by
  unfold execUnitResetHe
  try dsimp only
  refine answers_next ?_
  try dsimp only
  repeat' (with_reducible (first | intro _ | assumption | apply whenUp_stable H | apply unitReset_stable H | dsimp only))

theorem execUnitResetMdc_stable {P : State → Prop} (H : Stable P) {s : State} (h : P s)  :
    Answers (execUnitResetMdc s) P := by
  unfold execUnitResetMdc
  try dsimp only
  refine answers_next ?_
  try dsimp only
  repeat' (with_reducible (first | intro _ | assumption | apply whenUp_stable H | apply unitReset_stable H | dsimp only))

theorem execUnitResetXm_stable {P : State → Prop} (H : Stable P) {s : State} (h : P s)  :
    Answers (execUnitResetXm s) P := by
  unfold execUnitResetXm
  try dsimp only
  refine answers_next ?_
  try dsimp only
  repeat' (with_reducible (first | intro _ | assumption | apply whenUp_stable H | apply unitReset_stable H | dsimp only))

theorem execUnitResetCl_stable {P : State → Prop} (H : Stable P) {s : State} (h : P s)  :
    Answers (execUnitResetCl s) P := by
  unfold execUnitResetCl
  try dsimp only
  refine answers_next ?_
  try dsimp only
  repeat' (with_reducible (first | intro _ | assumption | apply whenUp_stable H | apply unitReset_stable H | dsimp only))

theorem execUnitResetEb_stable {P : State → Prop} (H : Stable P) {s : State} (h : P s)  :
    Answers (execUnitResetEb s) P := by
  unfold execUnitResetEb
  try dsimp only
  refine answers_next ?_
  try dsimp only
  repeat' (with_reducible (first | intro _ | assumption | apply whenUp_stable H | apply unitReset_stable H | dsimp only))

theorem execUnitResetPl_stable {P : State → Prop} (H : Stable P) {s : State} (h : P s)  :
    Answers (execUnitResetPl s) P := by
  unfold execUnitResetPl
  try dsimp only
  refine answers_next ?_
  try dsimp only
  repeat' (with_reducible (first | intro _ | assumption | apply whenUp_stable H | apply unitReset_stable H | dsimp only))

theorem execUnitResetDl_stable {P : State → Prop} (H : Stable P) {s : State} (h : P s) (die : Nat) :
    Answers (execUnitResetDl die s) P := by
  unfold execUnitResetDl
  try dsimp only
  refine answers_next ?_
  try dsimp only
  repeat' (with_reducible (first | intro _ | assumption | apply whenUp_stable H | apply unitReset_stable H | apply ite_stable P | dsimp only | split))

theorem execUnitResetComplete_stable {P : State → Prop} (H : Stable P) {s : State} (h : P s) (unit : Nat) :
    Answers (execUnitResetComplete unit s) P := by
  unfold execUnitResetComplete
  try dsimp only
  refine answers_next ?_
  try dsimp only
  repeat' (with_reducible (first | intro _ | assumption | apply whenUp_stable H | apply unitResetDone_stable H | dsimp only))

theorem execSlackIdleGate_stable {P : State → Prop} (H : Stable P) {s : State} (h : P s) (dom : Nat) :
    Answers (execSlackIdleGate dom s) P := by
  unfold execSlackIdleGate
  try dsimp only
  refine answers_next ?_
  try dsimp only
  repeat' (with_reducible (first | intro _ | assumption | apply whenUp_stable H | apply idleGate_stable H | dsimp only))

theorem execDomainUngateDone_stable {P : State → Prop} (H : Stable P) {s : State} (h : P s) (dom : Nat) :
    Answers (execDomainUngateDone dom s) P := by
  unfold execDomainUngateDone
  try dsimp only
  refine answers_next ?_
  try dsimp only
  repeat' (with_reducible (first | intro _ | assumption | apply whenUp_stable H | apply ungated_stable H | dsimp only))

theorem execDomainDrainExpiry_stable {P : State → Prop} (H : Stable P) {s : State} (h : P s) (dom : Nat) :
    Answers (execDomainDrainExpiry dom s) P := by
  unfold execDomainDrainExpiry
  try dsimp only
  refine answers_next ?_
  try dsimp only
  repeat' (with_reducible (first | intro _ | assumption | apply whenUp_stable H | apply drained_stable H | dsimp only))

theorem execDrainComplete_stable {P : State → Prop} (H : Stable P) {s : State} (h : P s) (dom : Nat) :
    Answers (execDrainComplete dom s) P := by
  unfold execDrainComplete
  try dsimp only
  refine answers_next ?_
  try dsimp only
  repeat' (with_reducible (first | intro _ | assumption | apply whenUp_stable H | apply drained_stable H | dsimp only))

theorem execModeEpochAck_stable {P : State → Prop} (H : Stable P) {s : State} (h : P s) (unit : Nat) :
    Answers (execModeEpochAck unit s) P := by
  unfold execModeEpochAck
  try dsimp only
  refine answers_next ?_
  try dsimp only
  repeat' (with_reducible (first | intro _ | assumption | apply whenUp_stable H | apply epochAck_stable H | dsimp only))

theorem execModeRollback_stable {P : State → Prop} (H : Stable P) {s : State} (h : P s) (unit : Nat) :
    Answers (execModeRollback unit s) P := by
  unfold execModeRollback
  try dsimp only
  refine answers_next ?_
  try dsimp only
  repeat' (with_reducible (first | intro _ | assumption | apply whenUp_stable H | apply epochRefused_stable H | dsimp only))

theorem execModeEpochTimeout_stable {P : State → Prop} (H : Stable P) {s : State} (h : P s)  :
    Answers (execModeEpochTimeout s) P := by
  unfold execModeEpochTimeout
  try dsimp only
  refine answers_next ?_
  try dsimp only
  repeat' (with_reducible (first | intro _ | assumption | apply whenUp_stable H | apply epochTimeout_stable H | dsimp only))

theorem execModeSwitchDone_stable {P : State → Prop} (H : Stable P) {s : State} (h : P s) (unit : Nat) :
    Answers (execModeSwitchDone unit s) P := by
  unfold execModeSwitchDone
  try dsimp only
  refine answers_next ?_
  try dsimp only
  repeat' (with_reducible (first | intro _ | assumption | apply whenUp_stable H | apply epochSwitched_stable H | dsimp only))

theorem execModeStuck_stable {P : State → Prop} (HM : StableMem P) {s : State} (h : P s) (b : BootInfo) :
    Answers (execModeStuck b s) P := by
  have H := HM.toStable
  unfold execModeStuck
  try dsimp only
  refine answers_next ?_
  try dsimp only
  repeat' (with_reducible (first | intro _ | assumption | apply anyTime_stable H | apply epochStuck_stable HM | apply ite_stable P | dsimp only | split))

theorem execAonFallback_stable {P : State → Prop} (H : Stable P) {s : State} (h : P s)  :
    Answers (execAonFallback s) P := by
  unfold execAonFallback
  try dsimp only
  refine answers_next ?_
  try dsimp only
  repeat' (with_reducible (first | intro _ | assumption | apply whenPlant_stable H | apply aonLost_stable H | dsimp only))

theorem execPllLockLoss_stable {P : State → Prop} (HM : StableMem P) {s : State} (h : P s) (clock : Nat) (b : BootInfo) :
    Answers (execPllLockLoss clock b s) P := by
  have H := HM.toStable
  unfold execPllLockLoss
  try dsimp only
  refine answers_next ?_
  try dsimp only
  repeat' (with_reducible (first | intro _ | assumption | apply anyTime_stable H | apply lockLost_stable HM | apply ite_stable P | dsimp only | split))

theorem execDieTempRead_stable {P : State → Prop} (HM : StableMem P) {s : State} (h : P s) (temps : List (Option Int)) :
    Answers (execDieTempRead temps s) P := by
  have H := HM.toStable
  unfold execDieTempRead
  try dsimp only
  refine answers_next ?_
  try dsimp only
  repeat' (with_reducible (first | intro _ | assumption | apply anyTime_stable H | apply dieTemps_stable HM | apply ite_stable P | dsimp only | split))

end Sys2Proof.Machine
end

