-- ==== Sys2Proof/Laws/RowsQueueRows.lean ====
section
/-! SUPPORT. Every command of Machine/QueueRows.lean answers a next state, which keeps every property that the model's updates keep (`Stable`). -/

namespace Sys2Proof.Machine

open Sys2Proof

theorem execDbSqTailWrite_stable {P : State → Prop} (H : Stable P) {s : State} (h : P s) (x : Nat) (n : Nat) (size : Nat) (v : Word) :
    Answers (execDbSqTailWrite x n size v s) P := by
  unfold execDbSqTailWrite
  try dsimp only
  refine answers_next ?_
  try dsimp only
  repeat' (with_reducible (first | intro _ | assumption | apply whenUp_stable H | apply readAnnounced_stable H | apply sqTail_stable H | apply fnError_stable H | apply ite_stable P | dsimp only | split))

theorem execDbCqHeadWrite_stable {P : State → Prop} (H : Stable P) {s : State} (h : P s) (x : Nat) (n : Nat) (size : Nat) (v : Word) :
    Answers (execDbCqHeadWrite x n size v s) P := by
  unfold execDbCqHeadWrite
  try dsimp only
  refine answers_next ?_
  try dsimp only
  repeat' (with_reducible (first | intro _ | assumption | apply whenUp_stable H | apply cqHead_stable H | apply fnError_stable H | apply ite_stable P | dsimp only | split))

theorem execDoorbellPairWrite_stable {P : State → Prop} (H : Stable P) {s : State} (h : P s) (x : Nat) (n : Nat) (aligned : Bool) (tail : Word) (head : Word) :
    Answers (execDoorbellPairWrite x n aligned tail head s) P := by
  unfold execDoorbellPairWrite
  try dsimp only
  refine answers_next ?_
  try dsimp only
  repeat' (with_reducible (first | intro _ | assumption | apply whenUp_stable H | apply readAnnounced_stable H | apply sqTail_stable H | apply cqHead_stable H | apply fnError_stable H | apply ite_stable P | dsimp only | split))

theorem execSqFetch_stable {P : State → Prop} (H : Stable P) {s : State} (h : P s) (port : Nat) (reads : List HostRead) :
    Answers (execSqFetch port reads s) P := by
  unfold execSqFetch
  try dsimp only
  refine answers_next ?_
  try dsimp only
  repeat' (with_reducible (first | intro _ | assumption | apply whenUp_stable H | apply arbVisit_stable H | dsimp only))

theorem execSqSlotRead_stable {P : State → Prop} (H : Stable P) {s : State} (h : P s) (q : Nat) (idx : Word) (slot : Option (List Byte)) (reads : List HostRead) :
    Answers (execSqSlotRead q idx slot reads s) P := by
  unfold execSqSlotRead
  try dsimp only
  refine answers_next ?_
  try dsimp only
  repeat' (with_reducible (first | intro _ | ((conv => arg 1; arg 27); apply H.upd) | assumption | apply whenUp_stable H | apply slotBack_stable H | apply readEntry_stable H | apply visitOn_stable H | apply ite_stable P | dsimp only | split))

theorem execSlotRecheck_stable {P : State → Prop} (H : Stable P) {s : State} (h : P s) (q : Nat) :
    Answers (execSlotRecheck q s) P := by
  unfold execSlotRecheck
  try dsimp only
  refine answers_next ?_
  try dsimp only
  repeat' (with_reducible (first | intro _ | ((conv => arg 1; arg 27); apply H.upd) | assumption | apply whenUp_stable H | apply readSlots_stable H | dsimp only | split))

theorem execSlotLapTimeout_stable {P : State → Prop} (H : Stable P) {s : State} (h : P s) (q : Nat) :
    Answers (execSlotLapTimeout q s) P := by
  unfold execSlotLapTimeout
  try dsimp only
  refine answers_next ?_
  try dsimp only
  repeat' (with_reducible (first | intro _ | ((conv => arg 1; arg 27); apply H.upd) | assumption | apply whenUp_stable H | apply consume_stable H | apply complete_stable H | apply ite_stable P | dsimp only | split))

theorem execSqPoll_stable {P : State → Prop} (H : Stable P) {s : State} (h : P s) (q : Nat) :
    Answers (execSqPoll q s) P := by
  unfold execSqPoll
  try dsimp only
  refine answers_next ?_
  try dsimp only
  repeat' (with_reducible (first | intro _ | ((conv => arg 1; arg 27); apply H.upd) | assumption | apply whenUp_stable H | apply readSlots_stable H | apply ite_stable P | dsimp only | split))

theorem execCqCoalTimer_stable {P : State → Prop} (H : Stable P) {s : State} (h : P s) (q : Nat) :
    Answers (execCqCoalTimer q s) P := by
  unfold execCqCoalTimer
  try dsimp only
  refine answers_next ?_
  try dsimp only
  repeat' (with_reducible (first | intro _ | ((conv => arg 1; arg 27); apply H.upd) | assumption | apply whenUp_stable H | apply cqSignal_stable H | apply ite_stable P | dsimp only | split))

theorem execMsixUnmask_stable {P : State → Prop} (H : Stable P) {s : State} (h : P s) (x : Nat) (vector : Nat) :
    Answers (execMsixUnmask x vector s) P := by
  unfold execMsixUnmask
  try dsimp only
  refine answers_next ?_
  try dsimp only
  repeat' (with_reducible (first | intro _ | ((conv => arg 1; arg 27); apply H.upd) | assumption | apply whenUp_stable H | apply setFn_stable H | apply emit_stable H | apply ite_stable P | dsimp only | split))

theorem execBusMasterEnableChange_stable {P : State → Prop} (H : Stable P) {s : State} (h : P s) (x : Nat) (on : Bool) :
    Answers (execBusMasterEnableChange x on s) P := by
  unfold execBusMasterEnableChange
  try dsimp only
  refine answers_next ?_
  try dsimp only
  repeat' (with_reducible (first | intro _ | ((conv => arg 1; arg 27); apply H.upd) | assumption | apply whenUp_stable H | apply setFn_stable H | apply ite_stable P | dsimp only | split))

theorem execFunctionReset_stable {P : State → Prop} (H : Stable P) {s : State} (h : P s) (x : Nat) (cause : FnResetCause) :
    Answers (execFunctionReset x cause s) P := by
  unfold execFunctionReset
  try dsimp only
  refine answers_next ?_
  try dsimp only
  repeat' (with_reducible (first | intro _ | assumption | apply whenUp_stable H | apply resetFunction_stable H | apply ite_stable P | dsimp only | split))

theorem execPortReset_stable {P : State → Prop} (H : Stable P) {s : State} (h : P s) (port : Nat) (link : Nat) :
    Answers (execPortReset port link s) P := by
  unfold execPortReset
  try dsimp only
  refine answers_next ?_
  try dsimp only
  repeat' (with_reducible (first | intro _ | assumption | apply whenUp_stable H | apply resetPort_stable H | apply ite_stable P | dsimp only | split))

theorem execHostLinkUp_stable {P : State → Prop} (H : Stable P) {s : State} (h : P s) (port : Nat) (link : Nat) (rate : Nat) (width : Nat) (flit : Bool) :
    Answers (execHostLinkUp port link rate width flit s) P := by
  unfold execHostLinkUp
  try dsimp only
  refine answers_next ?_
  try dsimp only
  repeat' (with_reducible (first | intro _ | assumption | apply whenUp_stable H | apply linkTrained_stable H | apply relocked_stable H | apply ite_stable P | dsimp only | split))

theorem execQueueCreate_stable {P : State → Prop} (H : Stable P) {s : State} (h : P s) (c : HostCmd) :
    Answers (execQueueCreate c s) P := by
  unfold execQueueCreate
  try dsimp only
  refine answers_next ?_
  try dsimp only
  repeat' (with_reducible (first | intro _ | assumption | apply hostRow_stable H | apply runQueueCreate_stable H | dsimp only))

theorem execQueueDelete_stable {P : State → Prop} (H : Stable P) {s : State} (h : P s) (c : HostCmd) :
    Answers (execQueueDelete c s) P := by
  unfold execQueueDelete
  try dsimp only
  refine answers_next ?_
  try dsimp only
  repeat' (with_reducible (first | intro _ | assumption | apply hostRow_stable H | apply runQueueDelete_stable H | dsimp only))

theorem execOrphanList_stable {P : State → Prop} (H : Stable P) {s : State} (h : P s) (c : HostCmd) :
    Answers (execOrphanList c s) P := by
  unfold execOrphanList
  try dsimp only
  refine answers_next ?_
  try dsimp only
  repeat' (with_reducible (first | intro _ | assumption | apply hostRow_stable H | apply runOrphanList_stable H | dsimp only))

theorem execOrphanSettle_stable {P : State → Prop} (H : Stable P) {s : State} (h : P s) (c : HostCmd) :
    Answers (execOrphanSettle c s) P := by
  unfold execOrphanSettle
  try dsimp only
  refine answers_next ?_
  try dsimp only
  repeat' (with_reducible (first | intro _ | assumption | apply hostRow_stable H | apply runOrphanSettle_stable H | dsimp only))

end Sys2Proof.Machine
end

