-- ==== Sys2Proof/Laws/RowsReadRows.lean ====
section
/-! SUPPORT. Every command of Machine/ReadRows.lean answers a next state, which keeps every property that the model's updates keep (`Stable`). -/

namespace Sys2Proof.Machine

open Sys2Proof

theorem execRead_stable {P : State → Prop} (H : Stable P) {s : State} (h : P s) (c : HostCmd) :
    Answers (execRead c s) P := by
  unfold execRead
  try dsimp only
  refine answers_next ?_
  try dsimp only
  repeat' (with_reducible (first | intro _ | assumption | apply hostRow_stable H | apply runRead_stable H | dsimp only))

theorem execChunkReadDone_stable {P : State → Prop} (H : Stable P) {s : State} (h : P s) (id : Nat) (pos : Nat) (r : ChunkOutcome) (sense : Option DriveSense) :
    Answers (execChunkReadDone id pos r sense s) P := by
  unfold execChunkReadDone
  try dsimp only
  refine answers_next ?_
  try dsimp only
  repeat' (with_reducible (first | intro _ | assumption | apply whenUp_stable H | apply readDone_stable H | dsimp only))

theorem execWakeTimeout_stable {P : State → Prop} (H : Stable P) {s : State} (h : P s) (id : Nat) :
    Answers (execWakeTimeout id s) P := by
  unfold execWakeTimeout
  try dsimp only
  refine answers_next ?_
  try dsimp only
  repeat' (with_reducible (first | intro _ | assumption | apply whenUp_stable H | apply wakeTimeout_stable H | dsimp only))

theorem execDeferLimitExpiry_stable {P : State → Prop} (H : Stable P) {s : State} (h : P s) (id : Nat) :
    Answers (execDeferLimitExpiry id s) P := by
  unfold execDeferLimitExpiry
  try dsimp only
  refine answers_next ?_
  try dsimp only
  repeat' (with_reducible (first | intro _ | assumption | apply whenUp_stable H | apply deferExpiry_stable H | dsimp only))

theorem execDriveCommandTimeout_stable {P : State → Prop} (H : Stable P) {s : State} (h : P s) (slot : Nat) :
    Answers (execDriveCommandTimeout slot s) P := by
  unfold execDriveCommandTimeout
  try dsimp only
  refine answers_next ?_
  try dsimp only
  repeat' (with_reducible (first | intro _ | assumption | apply whenUp_stable H | apply commandTimeout_stable H | dsimp only))

theorem execDriveLinkDown_stable {P : State → Prop} (H : Stable P) {s : State} (h : P s) (slot : Nat) :
    Answers (execDriveLinkDown slot s) P := by
  unfold execDriveLinkDown
  try dsimp only
  refine answers_next ?_
  try dsimp only
  repeat' (with_reducible (first | intro _ | ((conv => arg 1; arg 27); apply H.upd) | assumption | apply whenUp_stable H | apply linkLost_stable H | apply ite_stable P | dsimp only | split))

theorem execLinkLossGraceExpiry_stable {P : State → Prop} (H : Stable P) {s : State} (h : P s) (slot : Nat) :
    Answers (execLinkLossGraceExpiry slot s) P := by
  unfold execLinkLossGraceExpiry
  try dsimp only
  refine answers_next ?_
  try dsimp only
  repeat' (with_reducible (first | intro _ | assumption | apply whenUp_stable H | apply graceOver_stable H | dsimp only))

theorem execZoneOffline_stable {P : State → Prop} (H : Stable P) {s : State} (h : P s) (slot : Nat) (band : Nat) (readOnly : Bool) :
    Answers (execZoneOffline slot band readOnly s) P := by
  unfold execZoneOffline
  try dsimp only
  refine answers_next ?_
  try dsimp only
  repeat' (with_reducible (first | intro _ | assumption | apply whenUp_stable H | apply zoneGone_stable H | apply ite_stable P | dsimp only | split))

theorem execCeJobDispatch_stable {P : State → Prop} (H : Stable P) {s : State} (h : P s)  :
    Answers (execCeJobDispatch s) P := by
  unfold execCeJobDispatch
  try dsimp only
  refine answers_next ?_
  try dsimp only
  repeat' (with_reducible (first | intro _ | assumption | apply whenUp_stable H | apply ceDispatch_stable H | apply ite_stable P | dsimp only | split))

theorem execCeJobComplete_stable {P : State → Prop} (H : Stable P) {s : State} (h : P s) (cluster : Nat) (mismatch : List (Nat × Nat)) :
    Answers (execCeJobComplete cluster mismatch s) P := by
  unfold execCeJobComplete
  try dsimp only
  refine answers_next ?_
  try dsimp only
  repeat' (with_reducible (first | intro _ | assumption | apply whenUp_stable H | apply ceFinish_stable H | dsimp only))

theorem execClusterFault_stable {P : State → Prop} (H : Stable P) {s : State} (h : P s) (cluster : Nat) :
    Answers (execClusterFault cluster s) P := by
  unfold execClusterFault
  try dsimp only
  refine answers_next ?_
  try dsimp only
  repeat' (with_reducible (first | intro _ | assumption | apply whenUp_stable H | apply ceFault_stable H | dsimp only))

theorem execMatrixInversionDone_stable {P : State → Prop} (H : Stable P) {s : State} (h : P s)  :
    Answers (execMatrixInversionDone s) P := by
  unfold execMatrixInversionDone
  try dsimp only
  refine answers_next ?_
  try dsimp only
  repeat' (with_reducible (first | intro _ | assumption | apply whenUp_stable H | apply ceInverted_stable H | dsimp only))

theorem execInvalidate_stable {P : State → Prop} (H : Stable P) {s : State} (h : P s) (port : Nat) (v : Word) :
    Answers (execInvalidate port v s) P := by
  unfold execInvalidate
  try dsimp only
  refine answers_next ?_
  try dsimp only
  repeat' (with_reducible (first | intro _ | assumption | apply whenUp_stable H | apply hostWrite_stable H | apply ceCtlWrite_stable H | dsimp only))

theorem execCeInvalidateDone_stable {P : State → Prop} (H : Stable P) {s : State} (h : P s)  :
    Answers (execCeInvalidateDone s) P := by
  unfold execCeInvalidateDone
  try dsimp only
  refine answers_next ?_
  try dsimp only
  repeat' (with_reducible (first | intro _ | assumption | apply whenUp_stable H | apply setFld_stable H | dsimp only))

theorem execCeClusterEnWrite_stable {P : State → Prop} (H : Stable P) {s : State} (h : P s) (port : Nat) (v : Word) :
    Answers (execCeClusterEnWrite port v s) P := by
  unfold execCeClusterEnWrite
  try dsimp only
  refine answers_next ?_
  try dsimp only
  repeat' (with_reducible (first | intro _ | assumption | apply whenUp_stable H | apply hostWrite_stable H | apply ceEnWrite_stable H | dsimp only))

theorem execRebuildPassStart_stable {P : State → Prop} (H : Stable P) {s : State} (h : P s)  :
    Answers (execRebuildPassStart s) P := by
  unfold execRebuildPassStart
  try dsimp only
  refine answers_next ?_
  try dsimp only
  repeat' (with_reducible (first | intro _ | assumption | apply whenUp_stable H | apply startPass_stable H | dsimp only))

theorem execRebuildChunkWritten_stable {P : State → Prop} (H : Stable P) {s : State} (h : P s) (set : Nat) :
    Answers (execRebuildChunkWritten set s) P := by
  unfold execRebuildChunkWritten
  try dsimp only
  refine answers_next ?_
  try dsimp only
  repeat' (with_reducible (first | intro _ | assumption | apply whenUp_stable H | apply passWritten_stable H | dsimp only))

theorem execTideRoundStart_stable {P : State → Prop} (H : Stable P) {s : State} (h : P s) (pool : Nat) :
    Answers (execTideRoundStart pool s) P := by
  unfold execTideRoundStart
  try dsimp only
  refine answers_next ?_
  try dsimp only
  repeat' (with_reducible (first | intro _ | assumption | apply whenUp_stable H | apply tideStart_stable H | apply tideAsk_stable H | dsimp only))

theorem execTideMarkTick_stable {P : State → Prop} (H : Stable P) {s : State} (h : P s)  :
    Answers (execTideMarkTick s) P := by
  unfold execTideMarkTick
  try dsimp only
  refine answers_next ?_
  try dsimp only
  repeat' (with_reducible (first | intro _ | assumption | apply whenUp_stable H | apply each_stable H | apply tideMinute_stable H | apply each_stable P | dsimp only))

theorem execTideStripeVerify_stable {P : State → Prop} (H : Stable P) {s : State} (h : P s) (pool : Nat) (stripe : Nat) (f : TideFinding) :
    Answers (execTideStripeVerify pool stripe f s) P := by
  unfold execTideStripeVerify
  try dsimp only
  refine answers_next ?_
  try dsimp only
  repeat' (with_reducible (first | intro _ | assumption | apply whenUp_stable H | apply tideVerify_stable H | dsimp only))

theorem execTideLate_stable {P : State → Prop} (H : Stable P) {s : State} (h : P s) (pool : Nat) :
    Answers (execTideLate pool s) P := by
  unfold execTideLate
  try dsimp only
  refine answers_next ?_
  try dsimp only
  repeat' (with_reducible (first | intro _ | assumption | apply whenUp_stable H | apply tideLateNow_stable H | dsimp only))

theorem execTideLateReminder_stable {P : State → Prop} (H : Stable P) {s : State} (h : P s) (pool : Nat) :
    Answers (execTideLateReminder pool s) P := by
  unfold execTideLateReminder
  try dsimp only
  refine answers_next ?_
  try dsimp only
  repeat' (with_reducible (first | intro _ | ((conv => arg 1; arg 27); apply H.upd) | assumption | apply whenUp_stable H | apply raise_stable H | apply ite_stable P | dsimp only | split))

theorem execTideWakeExpiry_stable {P : State → Prop} (H : Stable P) {s : State} (h : P s) (pool : Nat) :
    Answers (execTideWakeExpiry pool s) P := by
  unfold execTideWakeExpiry
  try dsimp only
  refine answers_next ?_
  try dsimp only
  repeat' (with_reducible (first | intro _ | ((conv => arg 1; arg 27); apply H.upd) | assumption | apply whenUp_stable H | apply modPool_stable H | dsimp only))

end Sys2Proof.Machine
end

