-- ==== Sys2Proof/Laws/RowsRegisterCommands.lean ====
section
/-! SUPPORT. Every command of Machine/RegisterCommands.lean answers a next state, which keeps every property that the model's updates keep (`Stable`). -/

namespace Sys2Proof.Machine

open Sys2Proof

theorem execRegisterWrite_stable {P : State → Prop} (H : Stable P) {s : State} (h : P s) (t : RegTarget) (v : Word) :
    Answers (execRegisterWrite t v s) P := by
  unfold execRegisterWrite
  try dsimp only
  refine answers_next ?_
  try dsimp only
  repeat' (with_reducible (first | intro _ | ((conv => arg 1; arg 27); apply H.upd) | assumption | apply whenUp_stable H | apply barWrite_stable H | apply capWrite_stable H | dsimp only | split))

theorem execRegAccess_stable {P : State → Prop} (H : Stable P) {s : State} (h : P s) (_port : Nat) (off : Nat) (size : Nat) (isWrite : Bool) :
    Answers (execRegAccess _port off size isWrite s) P := by
  unfold execRegAccess
  try dsimp only
  refine answers_next ?_
  try dsimp only
  repeat' (with_reducible (first | intro _ | ((conv => arg 1; arg 27); apply H.upd) | assumption | apply whenUp_stable H | apply regAccessEvent_stable H | apply emit_stable H | apply gatedEvent_stable H | apply hostRead_stable H | apply ite_stable P | dsimp only | split))

theorem execLatchedLowHalfRead_stable {P : State → Prop} (H : Stable P) {s : State} (h : P s) (off : Nat) :
    Answers (execLatchedLowHalfRead off s) P := by
  unfold execLatchedLowHalfRead
  try dsimp only
  refine answers_next ?_
  try dsimp only
  repeat' (with_reducible (first | intro _ | assumption | apply whenUp_stable H | apply hostRead_stable H | apply regAccessEvent_stable H | apply ite_stable P | dsimp only | split))

theorem execErrorCounterRead_stable {P : State → Prop} (H : Stable P) {s : State} (h : P s) (x : Nat) :
    Answers (execErrorCounterRead x s) P := by
  unfold execErrorCounterRead
  try dsimp only
  refine answers_next ?_
  try dsimp only
  repeat' (with_reducible (first | intro _ | assumption | apply whenUp_stable H | apply hostRead_stable H | apply ite_stable P | dsimp only | split))

theorem execQcArbWrite_stable {P : State → Prop} (H : Stable P) {s : State} (h : P s) (port : Nat) (q : Nat) (v : Word) :
    Answers (execQcArbWrite port q v s) P := by
  unfold execQcArbWrite
  try dsimp only
  refine answers_next ?_
  try dsimp only
  repeat' (with_reducible (first | intro _ | assumption | apply whenUp_stable H | apply hostWrite_stable H | apply qcArbSet_stable H | apply ite_stable P | dsimp only | split))

theorem execCtlqEnable_stable {P : State → Prop} (H : Stable P) {s : State} (h : P s) (x : Nat) (v : Word) :
    Answers (execCtlqEnable x v s) P := by
  unfold execCtlqEnable
  try dsimp only
  refine answers_next ?_
  try dsimp only
  repeat' (with_reducible (first | intro _ | assumption | apply whenUp_stable H | apply enableCtlq_stable H | dsimp only))

theorem execCtlqDisable_stable {P : State → Prop} (H : Stable P) {s : State} (h : P s) (x : Nat) :
    Answers (execCtlqDisable x s) P := by
  unfold execCtlqDisable
  try dsimp only
  refine answers_next ?_
  try dsimp only
  repeat' (with_reducible (first | intro _ | assumption | apply whenUp_stable H | apply disableCtlq_stable H | dsimp only))

theorem execPwSlackCtlWrite_stable {P : State → Prop} (H : Stable P) {s : State} (h : P s) (port : Nat) (v : Word) :
    Answers (execPwSlackCtlWrite port v s) P := by
  unfold execPwSlackCtlWrite
  try dsimp only
  refine answers_next ?_
  try dsimp only
  repeat' (with_reducible (first | intro _ | assumption | apply whenUp_stable H | apply hostWrite_stable H | apply slackWrite_stable H | dsimp only))

theorem execPdRequest_stable {P : State → Prop} (H : Stable P) {s : State} (h : P s) (port : Nat) (v : Word) :
    Answers (execPdRequest port v s) P := by
  unfold execPdRequest
  try dsimp only
  refine answers_next ?_
  try dsimp only
  repeat' (with_reducible (first | intro _ | assumption | apply whenUp_stable H | apply hostWrite_stable H | apply pdRequestWrite_stable H | dsimp only))

theorem execMcFreqTargetWrite_stable {P : State → Prop} (H : Stable P) {s : State} (h : P s) (port : Nat) (v : Word) :
    Answers (execMcFreqTargetWrite port v s) P := by
  unfold execMcFreqTargetWrite
  try dsimp only
  refine answers_next ?_
  try dsimp only
  repeat' (with_reducible (first | intro _ | assumption | apply whenUp_stable H | apply hostWrite_stable H | apply mcFreqWrite_stable H | dsimp only))

theorem execLaneReset_stable {P : State → Prop} (H : Stable P) {s : State} (h : P s) (port : Nat) (slot : Nat) :
    Answers (execLaneReset port slot s) P := by
  unfold execLaneReset
  try dsimp only
  refine answers_next ?_
  try dsimp only
  repeat' (with_reducible (first | intro _ | assumption | apply whenUp_stable H | apply hostWrite_stable H | apply laneReset_stable H | apply ite_stable P | dsimp only | split))

end Sys2Proof.Machine
end

