-- ==== Sys2Proof/Laws/Invariants.lean ====
section
/-! SUPPORT. Every command of the table answers a next state that keeps every property the model's updates keep, and the properties
they keep. -/

namespace Sys2Proof.Machine

open Sys2Proof

/-- Every command answers a state that keeps what the updates of the model keep, those of the memories among them. -/
theorem exec_stable {P : State → Prop} (HM : StableMem P) {s : State} (hs : P s) (c : Instr) : Answers (exec c s) P := by
  have H := HM.toStable
  cases c with
  | registerWrite t v => exact execRegisterWrite_stable H hs t v
  | regAccess port off size isWrite => exact execRegAccess_stable H hs port off size isWrite
  | latchedLowHalfRead off => exact execLatchedLowHalfRead_stable H hs off
  | errorCounterRead x => exact execErrorCounterRead_stable H hs x
  | dbSqTailWrite x n size v => exact execDbSqTailWrite_stable H hs x n size v
  | dbCqHeadWrite x n size v => exact execDbCqHeadWrite_stable H hs x n size v
  | doorbellPairWrite x n aligned tail head => exact execDoorbellPairWrite_stable H hs x n aligned tail head
  | ctlqEnable x v => exact execCtlqEnable_stable H hs x v
  | ctlqDisable x => exact execCtlqDisable_stable H hs x
  | qcArbWrite port q v => exact execQcArbWrite_stable H hs port q v
  | sqFetch port reads => exact execSqFetch_stable H hs port reads
  | sqSlotRead q idx slot reads => exact execSqSlotRead_stable H hs q idx slot reads
  | slotRecheck q => exact execSlotRecheck_stable H hs q
  | slotLapTimeout q => exact execSlotLapTimeout_stable H hs q
  | sqPoll q => exact execSqPoll_stable H hs q
  | cqCoalTimer q => exact execCqCoalTimer_stable H hs q
  | msixUnmask x vector => exact execMsixUnmask_stable H hs x vector
  | queueCreate c => exact execQueueCreate_stable H hs c
  | queueDelete c => exact execQueueDelete_stable H hs c
  | functionReset x cause => exact execFunctionReset_stable H hs x cause
  | portReset port link => exact execPortReset_stable H hs port link
  | orphanList c => exact execOrphanList_stable H hs c
  | orphanSettle c => exact execOrphanSettle_stable H hs c
  | append c => exact execAppend_stable H hs c
  | appendAdmit => exact execAppendAdmit_stable H hs
  | payloadArrival id off bytes => exact execPayloadArrival_stable H hs id off bytes
  | hostAccessError id => exact execHostAccessError_stable H hs id
  | appendTransferDone id => exact execAppendTransferDone_stable H hs id
  | sealTimerExpiry pool stripe => exact execSealTimerExpiry_stable H hs pool stripe
  | stripeSeal pool stripe => exact execStripeSeal_stable H hs pool stripe
  | hashJobComplete job => exact execHashJobComplete_stable H hs job
  | chunkWriteAck pool stripe pos => exact execChunkWriteAck_stable H hs pool stripe pos
  | driveWriteFailed pool stripe pos conflict sense => exact execDriveWriteFailed_stable H hs pool stripe pos conflict sense
  | sealCommand c => exact execSealCommand_stable H hs c
  | flush c => exact execFlush_stable H hs c
  | release c => exact execRelease_stable H hs c
  | pendingReleaseResolve pool stripe => exact execPendingReleaseResolve_stable H hs pool stripe
  | copyForward c sources => exact execCopyForward_stable H hs c sources
  | queryLocator c => exact execQueryLocator_stable H hs c
  | read c => exact execRead_stable H hs c
  | chunkReadDone id pos r sense => exact execChunkReadDone_stable H hs id pos r sense
  | wakeTimeout id => exact execWakeTimeout_stable H hs id
  | deferLimitExpiry id => exact execDeferLimitExpiry_stable H hs id
  | driveCommandTimeout slot => exact execDriveCommandTimeout_stable H hs slot
  | driveLinkDown slot => exact execDriveLinkDown_stable H hs slot
  | linkLossGraceExpiry slot => exact execLinkLossGraceExpiry_stable H hs slot
  | rebuildPassStart => exact execRebuildPassStart_stable H hs
  | rebuildChunkWritten set => exact execRebuildChunkWritten_stable H hs set
  | lossClear c => exact execLossClear_stable H hs c
  | reclaimActionDone slot band ok => exact execReclaimActionDone_stable H hs slot band ok
  | reclaimRetry slot band => exact execReclaimRetry_stable H hs slot band
  | zoneOffline slot band readOnly => exact execZoneOffline_stable H hs slot band readOnly
  | checkpointTimer pool => exact execCheckpointTimer_stable H hs pool
  | checkpointComplete pool => exact execCheckpointComplete_stable H hs pool
  | journalGatherExpiry pool => exact execJournalGatherExpiry_stable H hs pool
  | journalFillTimer set => exact execJournalFillTimer_stable H hs set
  | windowRecompute => exact execWindowRecompute_stable H hs
  | windowStepUp => exact execWindowStepUp_stable H hs
  | admitCreditTick => exact execAdmitCreditTick_stable H hs
  | ebRateMeasured rateMBs => exact execEbRateMeasured_stable H hs rateMBs
  | ebbEntry => exact execEbbEntry_stable H hs
  | ebbLastUpdate => exact execEbbLastUpdate_stable H hs
  | ebbEnd headerRead => exact execEbbEnd_stable H hs headerRead
  | ebbRestart b => exact execEbbRestart_stable HM hs b
  | slotEraseDone slot ok => exact execSlotEraseDone_stable H hs slot ok
  | poolRecovery pool r => exact execPoolRecovery_stable H hs pool r
  | partnerWaitExpiry pool => exact execPartnerWaitExpiry_stable H hs pool
  | poolRecover c => exact execPoolRecover_stable H hs c
  | tideRoundStart pool => exact execTideRoundStart_stable H hs pool
  | tideMarkTick => exact execTideMarkTick_stable H hs
  | tideStripeVerify pool stripe f => exact execTideStripeVerify_stable H hs pool stripe f
  | tideLate pool => exact execTideLate_stable H hs pool
  | tideLateReminder pool => exact execTideLateReminder_stable H hs pool
  | tideWakeExpiry pool => exact execTideWakeExpiry_stable H hs pool
  | poolCreate c => exact execPoolCreate_stable H hs c
  | poolGrow c => exact execPoolGrow_stable H hs c
  | poolSet c => exact execPoolSet_stable H hs c
  | poolDelete c => exact execPoolDelete_stable H hs c
  | poolGive c => exact execPoolGive_stable H hs c
  | scarfStart c => exact execScarfStart_stable H hs c
  | scarfCopyStripe pool stripe lost => exact execScarfCopyStripe_stable H hs pool stripe lost
  | scarfCommit c => exact execScarfCommit_stable H hs c
  | scarfOldReclaim pool => exact execScarfOldReclaim_stable H hs pool
  | scarfAbort c => exact execScarfAbort_stable H hs c
  | driveSet c => exact execDriveSet_stable H hs c
  | retireCopyComplete slot band => exact execRetireCopyComplete_stable H hs slot band
  | timeSet c => exact execTimeSet_stable H hs c
  | telemetryGet c => exact execTelemetryGet_stable H hs c
  | evRead c => exact execEvRead_stable H hs c
  | evClear c => exact execEvClear_stable H hs c
  | deviceMode c => exact execDeviceMode_stable H hs c
  | harbourPhyDown => exact execHarbourPhyDown_stable H hs
  | stageWrite c => exact execStageWrite_stable H hs c
  | stageCommit c verdict => exact execStageCommit_stable H hs c verdict
  | flashProgramDone ok => exact execFlashProgramDone_stable H hs ok
  | sessionOpen c => exact execSessionOpen_stable H hs c
  | sessionProve c => exact execSessionProve_stable H hs c
  | sessionClose c => exact execSessionClose_stable H hs c
  | challengeExpiry x => exact execChallengeExpiry_stable H hs x
  | sessionIdleExpiry => exact execSessionIdleExpiry_stable H hs
  | protectSet c => exact execProtectSet_stable H hs c
  | protectCommit c => exact execProtectCommit_stable H hs c
  | attest c => exact execAttest_stable H hs c
  | enroll port v => exact execEnroll_stable H hs port v
  | revokeOwner port v => exact execRevokeOwner_stable H hs port v
  | raiseSvn port v => exact execRaiseSvn_stable H hs port v
  | revokeVendor port v => exact execRevokeVendor_stable H hs port v
  | fuseOp ok => exact execFuseOp_stable H hs ok
  | coldReset b => exact execColdReset_stable HM hs b
  | warmReset b => exact execWarmReset_stable HM hs b
  | warmPrepTimeout b => exact execWarmPrepTimeout_stable HM hs b
  | retentionCheckDone srHeld eccOk recordOk => exact execRetentionCheckDone_stable HM hs srHeld eccOk recordOk
  | pwrgdFall => exact execPwrgdFall_stable HM hs
  | harbourExit byPerst => exact execHarbourExit_stable H hs byPerst
  | harbourTimer => exact execHarbourTimer_stable H hs
  | unitResetEv => exact execUnitResetEv_stable H hs
  | unitResetCe => exact execUnitResetCe_stable H hs
  | unitResetHe => exact execUnitResetHe_stable H hs
  | unitResetMdc => exact execUnitResetMdc_stable H hs
  | unitResetXm => exact execUnitResetXm_stable H hs
  | unitResetCl => exact execUnitResetCl_stable H hs
  | unitResetEb => exact execUnitResetEb_stable H hs
  | unitResetPl => exact execUnitResetPl_stable H hs
  | unitResetDl die => exact execUnitResetDl_stable H hs die
  | unitResetComplete unit => exact execUnitResetComplete_stable H hs unit
  | slackIdleGate dom => exact execSlackIdleGate_stable H hs dom
  | domainUngateDone dom => exact execDomainUngateDone_stable H hs dom
  | pwSlackCtlWrite port v => exact execPwSlackCtlWrite_stable H hs port v
  | pdRequest port v => exact execPdRequest_stable H hs port v
  | domainDrainExpiry dom => exact execDomainDrainExpiry_stable H hs dom
  | modeEpochAck unit => exact execModeEpochAck_stable H hs unit
  | modeRollback unit => exact execModeRollback_stable H hs unit
  | modeEpochTimeout => exact execModeEpochTimeout_stable H hs
  | modeSwitchDone unit => exact execModeSwitchDone_stable H hs unit
  | modeStuck b => exact execModeStuck_stable HM hs b
  | aonFallback => exact execAonFallback_stable H hs
  | pllLockLoss clock b => exact execPllLockLoss_stable HM hs clock b
  | dieTempRead temps => exact execDieTempRead_stable HM hs temps
  | dramReadComplete ch laddr port e => exact execDramReadComplete_stable H hs ch laddr port e
  | rowLimit ch bank row port => exact execRowLimit_stable H hs ch bank row port
  | throttleExpiry ch bank port => exact execThrottleExpiry_stable H hs ch bank port
  | dramTempPoll ch temp => exact execDramTempPoll_stable H hs ch temp
  | channelPowerDown ch => exact execChannelPowerDown_stable H hs ch
  | mcRetrainGo port v => exact execMcRetrainGo_stable H hs port v
  | retrainStepDone ch pass => exact execRetrainStepDone_stable H hs ch pass
  | mcFreqTargetWrite port v => exact execMcFreqTargetWrite_stable H hs port v
  | mcDiagGo port ch v => exact execMcDiagGo_stable H hs port ch v
  | mcDiagDone ch dqFail errors => exact execMcDiagDone_stable H hs ch dqFail errors
  | mdcFillReturn a block e => exact execMdcFillReturn_stable H hs a block e
  | mdcRange port v => exact execMdcRange_stable H hs port v
  | mdcAll port v => exact execMdcAll_stable H hs port v
  | mdcClass port v => exact execMdcClass_stable H hs port v
  | maintDone => exact execMaintDone_stable H hs
  | mdcCtlWrite port v => exact execMdcCtlWrite_stable H hs port v
  | xmStart port n v => exact execXmStart_stable H hs port n v
  | xmPause port n v => exact execXmPause_stable H hs port n v
  | xmStop port n v => exact execXmStop_stable H hs port n v
  | xmEventSet port v => exact execXmEventSet_stable H hs port v
  | xmInstruction n failed placed => exact execXmInstruction_stable HM hs n failed placed
  | xmRequestLine line level => exact execXmRequestLine_stable H hs line level
  | xmBurstDone n bytes => exact execXmBurstDone_stable HM hs n bytes
  | busError n isWrite => exact execBusError_stable H hs n isWrite
  | xmRetryExpiry n => exact execXmRetryExpiry_stable H hs n
  | eventRaise e => exact execEventRaise_stable H hs e
  | evRecordForm => exact execEvRecordForm_stable H hs
  | evLogWriteDone => exact execEvLogWriteDone_stable H hs
  | evTokenRefill code => exact execEvTokenRefill_stable H hs code
  | evNotifyTick port => exact execEvNotifyTick_stable H hs port
  | evScanDone => exact execEvScanDone_stable H hs
  | evClearEraseDone => exact execEvClearEraseDone_stable H hs
  | storeFault => exact execStoreFault_stable H hs
  | storeBack => exact execStoreBack_stable H hs
  | presenceChange slot present => exact execPresenceChange_stable H hs slot present
  | sgpioFrame chain inputs => exact execSgpioFrame_stable H hs chain inputs
  | pwrGoodTimeout slot => exact execPwrGoodTimeout_stable H hs slot
  | linkBringupAttempt slot rate ok => exact execLinkBringupAttempt_stable H hs slot rate ok
  | linkBringupRetry slot => exact execLinkBringupRetry_stable H hs slot
  | linkUp slot d => exact execLinkUp_stable H hs slot d
  | laneReset port slot => exact execLaneReset_stable H hs port slot
  | spinAdmissionTick => exact execSpinAdmissionTick_stable H hs
  | spinPeakExpiry slot => exact execSpinPeakExpiry_stable H hs slot
  | spinupComplete slot durationDs => exact execSpinupComplete_stable H hs slot durationDs
  | spinupTimeout slot => exact execSpinupTimeout_stable H hs slot
  | wakeGroupIdleExpiry group => exact execWakeGroupIdleExpiry_stable H hs group
  | standbyComplete group => exact execStandbyComplete_stable H hs group
  | slotPowerOff slot => exact execSlotPowerOff_stable H hs slot
  | loopPeriod n => exact execLoopPeriod_stable H hs n
  | sensorReadDone k r => exact execSensorReadDone_stable H hs k r
  | fanFail f rpm => exact execFanFail_stable H hs f rpm
  | headroomTick => exact execHeadroomTick_stable H hs
  | encCrit e => exact execEncCrit_stable H hs e
  | encHotExit e => exact execEncHotExit_stable H hs e
  | holdEvaluation => exact execHoldEvaluation_stable H hs
  | holdDwellExpiry e => exact execHoldDwellExpiry_stable H hs e
  | holdLong e => exact execHoldLong_stable H hs e
  | humidHigh e => exact execHumidHigh_stable H hs e
  | chargerFault => exact execChargerFault_stable H hs
  | euCompute vMv iMa => exact execEuCompute_stable H hs vMv iMa
  | euReport => exact execEuReport_stable H hs
  | vbankTrip => exact execVbankTrip_stable H hs
  | pulseTestStart => exact execPulseTestStart_stable H hs
  | pulseTestOnset v0Mv => exact execPulseTestOnset_stable H hs v0Mv
  | pulseTestEnd fit => exact execPulseTestEnd_stable H hs fit
  | testPostponed => exact execTestPostponed_stable H hs
  | ceJobDispatch => exact execCeJobDispatch_stable H hs
  | ceJobComplete cluster mismatch => exact execCeJobComplete_stable H hs cluster mismatch
  | clusterFault cluster => exact execClusterFault_stable H hs cluster
  | matrixInversionDone => exact execMatrixInversionDone_stable H hs
  | invalidate port v => exact execInvalidate_stable H hs port v
  | ceInvalidateDone => exact execCeInvalidateDone_stable H hs
  | ceClusterEnWrite port v => exact execCeClusterEnWrite_stable H hs port v
  | peerLinkTrained rate width => exact execPeerLinkTrained_stable H hs rate width
  | peerHello h => exact execPeerHello_stable H hs h
  | heartbeat f owned lastMseq => exact execHeartbeat_stable H hs f owned lastMseq
  | heartbeatSend => exact execHeartbeatSend_stable H hs
  | peerSilent => exact execPeerSilent_stable H hs
  | resolutionStart => exact execResolutionStart_stable H hs
  | reservationKeysRead ownKeyOnAll => exact execReservationKeysRead_stable H hs ownKeyOnAll
  | preemptComplete => exact execPreemptComplete_stable H hs
  | claim pool claimId slots => exact execClaim_stable H hs pool claimId slots
  | claimReply pool claimId refused => exact execClaimReply_stable H hs pool claimId refused
  | mirPayload mseq pool stripe unit off bytes => exact execMirPayload_stable H hs mseq pool stripe unit off bytes
  | mirDirent mseq pool stripe slot entry => exact execMirDirent_stable H hs mseq pool stripe slot entry
  | mirSeal mseq pool stripe sealSeq chunkOffset set => exact execMirSeal_stable H hs mseq pool stripe sealSeq chunkOffset set
  | mirDelta mseq records => exact execMirDelta_stable H hs mseq records
  | mirRelease mseq pool kind records => exact execMirRelease_stable H hs mseq pool kind records
  | mirRetire mseq pool stripe => exact execMirRetire_stable H hs mseq pool stripe
  | mirConfirm mseq => exact execMirConfirm_stable H hs mseq
  | standbyCopy pool sect off bytes => exact execStandbyCopy_stable H hs pool sect off bytes
  | windowCopy mseq off bytes held => exact execWindowCopy_stable H hs mseq off bytes held
  | mirResync mseq => exact execMirResync_stable H hs mseq
  | peerFrameBad isM => exact execPeerFrameBad_stable H hs isM
  | giveReq pool lastMseq => exact execGiveReq_stable H hs pool lastMseq
  | giveReady pool refused => exact execGiveReady_stable H hs pool refused
  | giveDone pool descSeq => exact execGiveDone_stable H hs pool descSeq
  | pullReq pool => exact execPullReq_stable H hs pool
  | pullData off bytes => exact execPullData_stable H hs off bytes
  | pullEnd pool noMirror => exact execPullEnd_stable H hs pool noMirror
  | flitNak ack => exact execFlitNak_stable H hs ack
  | replayTimeout => exact execReplayTimeout_stable H hs
  | peerRetrain => exact execPeerRetrain_stable H hs
  | peerRetrainDone rate width => exact execPeerRetrainDone_stable H hs rate width
  | resetNRise => exact execResetNRise_stable HM hs
  | suppliesRemoved vaon => exact execSuppliesRemoved_stable HM hs vaon
  | hostLinkUp port link rate width flit => exact execHostLinkUp_stable H hs port link rate width flit
  | busMasterEnableChange x on => exact execBusMasterEnableChange_stable H hs x on
  | labelWriteDone slot ok => exact execLabelWriteDone_stable H hs slot ok
  | sillRecordWritten pool slot => exact execSillRecordWritten_stable H hs pool slot
  | drainComplete dom => exact execDrainComplete_stable H hs dom
  | fanFailClear f rpm => exact execFanFailClear_stable H hs f rpm
  | analogInputUpdate k code => exact execAnalogInputUpdate_stable H hs k code
  | captureSample stream sample => exact execCaptureSample_stable H hs stream sample
  | peerFlitCrcFail => exact execPeerFlitCrcFail_stable H hs

/-- The same of a command that stores nothing to the memories, of what those that leave the memories keep. -/
theorem exec_stable_of_no_store {P : State → Prop} (H : Stable P) {s : State} (hs : P s) (c : Instr) (hc : c.storesMemory = false) :
    Answers (exec c s) P := by
  cases c with
  | registerWrite t v => exact execRegisterWrite_stable H hs t v
  | regAccess port off size isWrite => exact execRegAccess_stable H hs port off size isWrite
  | latchedLowHalfRead off => exact execLatchedLowHalfRead_stable H hs off
  | errorCounterRead x => exact execErrorCounterRead_stable H hs x
  | dbSqTailWrite x n size v => exact execDbSqTailWrite_stable H hs x n size v
  | dbCqHeadWrite x n size v => exact execDbCqHeadWrite_stable H hs x n size v
  | doorbellPairWrite x n aligned tail head => exact execDoorbellPairWrite_stable H hs x n aligned tail head
  | ctlqEnable x v => exact execCtlqEnable_stable H hs x v
  | ctlqDisable x => exact execCtlqDisable_stable H hs x
  | qcArbWrite port q v => exact execQcArbWrite_stable H hs port q v
  | sqFetch port reads => exact execSqFetch_stable H hs port reads
  | sqSlotRead q idx slot reads => exact execSqSlotRead_stable H hs q idx slot reads
  | slotRecheck q => exact execSlotRecheck_stable H hs q
  | slotLapTimeout q => exact execSlotLapTimeout_stable H hs q
  | sqPoll q => exact execSqPoll_stable H hs q
  | cqCoalTimer q => exact execCqCoalTimer_stable H hs q
  | msixUnmask x vector => exact execMsixUnmask_stable H hs x vector
  | queueCreate c => exact execQueueCreate_stable H hs c
  | queueDelete c => exact execQueueDelete_stable H hs c
  | functionReset x cause => exact execFunctionReset_stable H hs x cause
  | portReset port link => exact execPortReset_stable H hs port link
  | orphanList c => exact execOrphanList_stable H hs c
  | orphanSettle c => exact execOrphanSettle_stable H hs c
  | append c => exact execAppend_stable H hs c
  | appendAdmit => exact execAppendAdmit_stable H hs
  | payloadArrival id off bytes => exact execPayloadArrival_stable H hs id off bytes
  | hostAccessError id => exact execHostAccessError_stable H hs id
  | appendTransferDone id => exact execAppendTransferDone_stable H hs id
  | sealTimerExpiry pool stripe => exact execSealTimerExpiry_stable H hs pool stripe
  | stripeSeal pool stripe => exact execStripeSeal_stable H hs pool stripe
  | hashJobComplete job => exact execHashJobComplete_stable H hs job
  | chunkWriteAck pool stripe pos => exact execChunkWriteAck_stable H hs pool stripe pos
  | driveWriteFailed pool stripe pos conflict sense => exact execDriveWriteFailed_stable H hs pool stripe pos conflict sense
  | sealCommand c => exact execSealCommand_stable H hs c
  | flush c => exact execFlush_stable H hs c
  | release c => exact execRelease_stable H hs c
  | pendingReleaseResolve pool stripe => exact execPendingReleaseResolve_stable H hs pool stripe
  | copyForward c sources => exact execCopyForward_stable H hs c sources
  | queryLocator c => exact execQueryLocator_stable H hs c
  | read c => exact execRead_stable H hs c
  | chunkReadDone id pos r sense => exact execChunkReadDone_stable H hs id pos r sense
  | wakeTimeout id => exact execWakeTimeout_stable H hs id
  | deferLimitExpiry id => exact execDeferLimitExpiry_stable H hs id
  | driveCommandTimeout slot => exact execDriveCommandTimeout_stable H hs slot
  | driveLinkDown slot => exact execDriveLinkDown_stable H hs slot
  | linkLossGraceExpiry slot => exact execLinkLossGraceExpiry_stable H hs slot
  | rebuildPassStart => exact execRebuildPassStart_stable H hs
  | rebuildChunkWritten set => exact execRebuildChunkWritten_stable H hs set
  | lossClear c => exact execLossClear_stable H hs c
  | reclaimActionDone slot band ok => exact execReclaimActionDone_stable H hs slot band ok
  | reclaimRetry slot band => exact execReclaimRetry_stable H hs slot band
  | zoneOffline slot band readOnly => exact execZoneOffline_stable H hs slot band readOnly
  | checkpointTimer pool => exact execCheckpointTimer_stable H hs pool
  | checkpointComplete pool => exact execCheckpointComplete_stable H hs pool
  | journalGatherExpiry pool => exact execJournalGatherExpiry_stable H hs pool
  | journalFillTimer set => exact execJournalFillTimer_stable H hs set
  | windowRecompute => exact execWindowRecompute_stable H hs
  | windowStepUp => exact execWindowStepUp_stable H hs
  | admitCreditTick => exact execAdmitCreditTick_stable H hs
  | ebRateMeasured rateMBs => exact execEbRateMeasured_stable H hs rateMBs
  | ebbEntry => exact execEbbEntry_stable H hs
  | ebbLastUpdate => exact execEbbLastUpdate_stable H hs
  | ebbEnd headerRead => exact execEbbEnd_stable H hs headerRead
  | ebbRestart b => exact nomatch hc
  | slotEraseDone slot ok => exact execSlotEraseDone_stable H hs slot ok
  | poolRecovery pool r => exact execPoolRecovery_stable H hs pool r
  | partnerWaitExpiry pool => exact execPartnerWaitExpiry_stable H hs pool
  | poolRecover c => exact execPoolRecover_stable H hs c
  | tideRoundStart pool => exact execTideRoundStart_stable H hs pool
  | tideMarkTick => exact execTideMarkTick_stable H hs
  | tideStripeVerify pool stripe f => exact execTideStripeVerify_stable H hs pool stripe f
  | tideLate pool => exact execTideLate_stable H hs pool
  | tideLateReminder pool => exact execTideLateReminder_stable H hs pool
  | tideWakeExpiry pool => exact execTideWakeExpiry_stable H hs pool
  | poolCreate c => exact execPoolCreate_stable H hs c
  | poolGrow c => exact execPoolGrow_stable H hs c
  | poolSet c => exact execPoolSet_stable H hs c
  | poolDelete c => exact execPoolDelete_stable H hs c
  | poolGive c => exact execPoolGive_stable H hs c
  | scarfStart c => exact execScarfStart_stable H hs c
  | scarfCopyStripe pool stripe lost => exact execScarfCopyStripe_stable H hs pool stripe lost
  | scarfCommit c => exact execScarfCommit_stable H hs c
  | scarfOldReclaim pool => exact execScarfOldReclaim_stable H hs pool
  | scarfAbort c => exact execScarfAbort_stable H hs c
  | driveSet c => exact execDriveSet_stable H hs c
  | retireCopyComplete slot band => exact execRetireCopyComplete_stable H hs slot band
  | timeSet c => exact execTimeSet_stable H hs c
  | telemetryGet c => exact execTelemetryGet_stable H hs c
  | evRead c => exact execEvRead_stable H hs c
  | evClear c => exact execEvClear_stable H hs c
  | deviceMode c => exact execDeviceMode_stable H hs c
  | harbourPhyDown => exact execHarbourPhyDown_stable H hs
  | stageWrite c => exact execStageWrite_stable H hs c
  | stageCommit c verdict => exact execStageCommit_stable H hs c verdict
  | flashProgramDone ok => exact execFlashProgramDone_stable H hs ok
  | sessionOpen c => exact execSessionOpen_stable H hs c
  | sessionProve c => exact execSessionProve_stable H hs c
  | sessionClose c => exact execSessionClose_stable H hs c
  | challengeExpiry x => exact execChallengeExpiry_stable H hs x
  | sessionIdleExpiry => exact execSessionIdleExpiry_stable H hs
  | protectSet c => exact execProtectSet_stable H hs c
  | protectCommit c => exact execProtectCommit_stable H hs c
  | attest c => exact execAttest_stable H hs c
  | enroll port v => exact execEnroll_stable H hs port v
  | revokeOwner port v => exact execRevokeOwner_stable H hs port v
  | raiseSvn port v => exact execRaiseSvn_stable H hs port v
  | revokeVendor port v => exact execRevokeVendor_stable H hs port v
  | fuseOp ok => exact execFuseOp_stable H hs ok
  | coldReset b => exact nomatch hc
  | warmReset b => exact nomatch hc
  | warmPrepTimeout b => exact nomatch hc
  | retentionCheckDone srHeld eccOk recordOk => exact nomatch hc
  | pwrgdFall => exact nomatch hc
  | harbourExit byPerst => exact execHarbourExit_stable H hs byPerst
  | harbourTimer => exact execHarbourTimer_stable H hs
  | unitResetEv => exact execUnitResetEv_stable H hs
  | unitResetCe => exact execUnitResetCe_stable H hs
  | unitResetHe => exact execUnitResetHe_stable H hs
  | unitResetMdc => exact execUnitResetMdc_stable H hs
  | unitResetXm => exact execUnitResetXm_stable H hs
  | unitResetCl => exact execUnitResetCl_stable H hs
  | unitResetEb => exact execUnitResetEb_stable H hs
  | unitResetPl => exact execUnitResetPl_stable H hs
  | unitResetDl die => exact execUnitResetDl_stable H hs die
  | unitResetComplete unit => exact execUnitResetComplete_stable H hs unit
  | slackIdleGate dom => exact execSlackIdleGate_stable H hs dom
  | domainUngateDone dom => exact execDomainUngateDone_stable H hs dom
  | pwSlackCtlWrite port v => exact execPwSlackCtlWrite_stable H hs port v
  | pdRequest port v => exact execPdRequest_stable H hs port v
  | domainDrainExpiry dom => exact execDomainDrainExpiry_stable H hs dom
  | modeEpochAck unit => exact execModeEpochAck_stable H hs unit
  | modeRollback unit => exact execModeRollback_stable H hs unit
  | modeEpochTimeout => exact execModeEpochTimeout_stable H hs
  | modeSwitchDone unit => exact execModeSwitchDone_stable H hs unit
  | modeStuck b => exact nomatch hc
  | aonFallback => exact execAonFallback_stable H hs
  | pllLockLoss clock b => exact nomatch hc
  | dieTempRead temps => exact nomatch hc
  | dramReadComplete ch laddr port e => exact execDramReadComplete_stable H hs ch laddr port e
  | rowLimit ch bank row port => exact execRowLimit_stable H hs ch bank row port
  | throttleExpiry ch bank port => exact execThrottleExpiry_stable H hs ch bank port
  | dramTempPoll ch temp => exact execDramTempPoll_stable H hs ch temp
  | channelPowerDown ch => exact execChannelPowerDown_stable H hs ch
  | mcRetrainGo port v => exact execMcRetrainGo_stable H hs port v
  | retrainStepDone ch pass => exact execRetrainStepDone_stable H hs ch pass
  | mcFreqTargetWrite port v => exact execMcFreqTargetWrite_stable H hs port v
  | mcDiagGo port ch v => exact execMcDiagGo_stable H hs port ch v
  | mcDiagDone ch dqFail errors => exact execMcDiagDone_stable H hs ch dqFail errors
  | mdcFillReturn a block e => exact execMdcFillReturn_stable H hs a block e
  | mdcRange port v => exact execMdcRange_stable H hs port v
  | mdcAll port v => exact execMdcAll_stable H hs port v
  | mdcClass port v => exact execMdcClass_stable H hs port v
  | maintDone => exact execMaintDone_stable H hs
  | mdcCtlWrite port v => exact execMdcCtlWrite_stable H hs port v
  | xmStart port n v => exact execXmStart_stable H hs port n v
  | xmPause port n v => exact execXmPause_stable H hs port n v
  | xmStop port n v => exact execXmStop_stable H hs port n v
  | xmEventSet port v => exact execXmEventSet_stable H hs port v
  | xmInstruction n failed placed =>
    cases placed with
    | none => exact execXmInstruction_none_stable H hs n failed
    | some bs => exact nomatch hc
  | xmRequestLine line level => exact execXmRequestLine_stable H hs line level
  | xmBurstDone n bytes => exact nomatch hc
  | busError n isWrite => exact execBusError_stable H hs n isWrite
  | xmRetryExpiry n => exact execXmRetryExpiry_stable H hs n
  | eventRaise e => exact execEventRaise_stable H hs e
  | evRecordForm => exact execEvRecordForm_stable H hs
  | evLogWriteDone => exact execEvLogWriteDone_stable H hs
  | evTokenRefill code => exact execEvTokenRefill_stable H hs code
  | evNotifyTick port => exact execEvNotifyTick_stable H hs port
  | evScanDone => exact execEvScanDone_stable H hs
  | evClearEraseDone => exact execEvClearEraseDone_stable H hs
  | storeFault => exact execStoreFault_stable H hs
  | storeBack => exact execStoreBack_stable H hs
  | presenceChange slot present => exact execPresenceChange_stable H hs slot present
  | sgpioFrame chain inputs => exact execSgpioFrame_stable H hs chain inputs
  | pwrGoodTimeout slot => exact execPwrGoodTimeout_stable H hs slot
  | linkBringupAttempt slot rate ok => exact execLinkBringupAttempt_stable H hs slot rate ok
  | linkBringupRetry slot => exact execLinkBringupRetry_stable H hs slot
  | linkUp slot d => exact execLinkUp_stable H hs slot d
  | laneReset port slot => exact execLaneReset_stable H hs port slot
  | spinAdmissionTick => exact execSpinAdmissionTick_stable H hs
  | spinPeakExpiry slot => exact execSpinPeakExpiry_stable H hs slot
  | spinupComplete slot durationDs => exact execSpinupComplete_stable H hs slot durationDs
  | spinupTimeout slot => exact execSpinupTimeout_stable H hs slot
  | wakeGroupIdleExpiry group => exact execWakeGroupIdleExpiry_stable H hs group
  | standbyComplete group => exact execStandbyComplete_stable H hs group
  | slotPowerOff slot => exact execSlotPowerOff_stable H hs slot
  | loopPeriod n => exact execLoopPeriod_stable H hs n
  | sensorReadDone k r => exact execSensorReadDone_stable H hs k r
  | fanFail f rpm => exact execFanFail_stable H hs f rpm
  | headroomTick => exact execHeadroomTick_stable H hs
  | encCrit e => exact execEncCrit_stable H hs e
  | encHotExit e => exact execEncHotExit_stable H hs e
  | holdEvaluation => exact execHoldEvaluation_stable H hs
  | holdDwellExpiry e => exact execHoldDwellExpiry_stable H hs e
  | holdLong e => exact execHoldLong_stable H hs e
  | humidHigh e => exact execHumidHigh_stable H hs e
  | chargerFault => exact execChargerFault_stable H hs
  | euCompute vMv iMa => exact execEuCompute_stable H hs vMv iMa
  | euReport => exact execEuReport_stable H hs
  | vbankTrip => exact execVbankTrip_stable H hs
  | pulseTestStart => exact execPulseTestStart_stable H hs
  | pulseTestOnset v0Mv => exact execPulseTestOnset_stable H hs v0Mv
  | pulseTestEnd fit => exact execPulseTestEnd_stable H hs fit
  | testPostponed => exact execTestPostponed_stable H hs
  | ceJobDispatch => exact execCeJobDispatch_stable H hs
  | ceJobComplete cluster mismatch => exact execCeJobComplete_stable H hs cluster mismatch
  | clusterFault cluster => exact execClusterFault_stable H hs cluster
  | matrixInversionDone => exact execMatrixInversionDone_stable H hs
  | invalidate port v => exact execInvalidate_stable H hs port v
  | ceInvalidateDone => exact execCeInvalidateDone_stable H hs
  | ceClusterEnWrite port v => exact execCeClusterEnWrite_stable H hs port v
  | peerLinkTrained rate width => exact execPeerLinkTrained_stable H hs rate width
  | peerHello h => exact execPeerHello_stable H hs h
  | heartbeat f owned lastMseq => exact execHeartbeat_stable H hs f owned lastMseq
  | heartbeatSend => exact execHeartbeatSend_stable H hs
  | peerSilent => exact execPeerSilent_stable H hs
  | resolutionStart => exact execResolutionStart_stable H hs
  | reservationKeysRead ownKeyOnAll => exact execReservationKeysRead_stable H hs ownKeyOnAll
  | preemptComplete => exact execPreemptComplete_stable H hs
  | claim pool claimId slots => exact execClaim_stable H hs pool claimId slots
  | claimReply pool claimId refused => exact execClaimReply_stable H hs pool claimId refused
  | mirPayload mseq pool stripe unit off bytes => exact execMirPayload_stable H hs mseq pool stripe unit off bytes
  | mirDirent mseq pool stripe slot entry => exact execMirDirent_stable H hs mseq pool stripe slot entry
  | mirSeal mseq pool stripe sealSeq chunkOffset set => exact execMirSeal_stable H hs mseq pool stripe sealSeq chunkOffset set
  | mirDelta mseq records => exact execMirDelta_stable H hs mseq records
  | mirRelease mseq pool kind records => exact execMirRelease_stable H hs mseq pool kind records
  | mirRetire mseq pool stripe => exact execMirRetire_stable H hs mseq pool stripe
  | mirConfirm mseq => exact execMirConfirm_stable H hs mseq
  | standbyCopy pool sect off bytes => exact execStandbyCopy_stable H hs pool sect off bytes
  | windowCopy mseq off bytes held => exact execWindowCopy_stable H hs mseq off bytes held
  | mirResync mseq => exact execMirResync_stable H hs mseq
  | peerFrameBad isM => exact execPeerFrameBad_stable H hs isM
  | giveReq pool lastMseq => exact execGiveReq_stable H hs pool lastMseq
  | giveReady pool refused => exact execGiveReady_stable H hs pool refused
  | giveDone pool descSeq => exact execGiveDone_stable H hs pool descSeq
  | pullReq pool => exact execPullReq_stable H hs pool
  | pullData off bytes => exact execPullData_stable H hs off bytes
  | pullEnd pool noMirror => exact execPullEnd_stable H hs pool noMirror
  | flitNak ack => exact execFlitNak_stable H hs ack
  | replayTimeout => exact execReplayTimeout_stable H hs
  | peerRetrain => exact execPeerRetrain_stable H hs
  | peerRetrainDone rate width => exact execPeerRetrainDone_stable H hs rate width
  | resetNRise => exact nomatch hc
  | suppliesRemoved vaon => exact nomatch hc
  | hostLinkUp port link rate width flit => exact execHostLinkUp_stable H hs port link rate width flit
  | busMasterEnableChange x on => exact execBusMasterEnableChange_stable H hs x on
  | labelWriteDone slot ok => exact execLabelWriteDone_stable H hs slot ok
  | sillRecordWritten pool slot => exact execSillRecordWritten_stable H hs pool slot
  | drainComplete dom => exact execDrainComplete_stable H hs dom
  | fanFailClear f rpm => exact execFanFailClear_stable H hs f rpm
  | analogInputUpdate k code => exact execAnalogInputUpdate_stable H hs k code
  | captureSample stream sample => exact execCaptureSample_stable H hs stream sample
  | peerFlitCrcFail => exact execPeerFlitCrcFail_stable H hs

/-! ### What the updates keep -/

theorem wf_stableMem : StableMem State.wf where
  upd := id
  updSec := id
  updRegs := fun h => by
    refine ⟨?_, h.2⟩
    have h1 := h.1
    simp only [regsWf, Bool.and_eq_true, List.all_eq_true] at h1 ⊢
    exact ⟨Tab.sorted_filter h1.1 _, fun p hp => h1.2 p ((List.mem_filter.1 hp).1)⟩
  draws := id
  setReg := fun h a v => ⟨regsWf_regPut h.1 a v, h.2⟩
  emit := fun h _ => h
  blow := fun h _ => h
  enrol := fun h _ _ => h
  dram := fun h => ⟨h.1, memory_wf_memWrite h.2.1 _ _, h.2.2⟩
  sram := fun h => ⟨h.1, h.2.1, memory_wf_memWrite h.2.2 _ _⟩
  coldKeep := fun _ => ⟨rfl, rfl, rfl⟩
  warmKeep := fun h => by
    refine ⟨?_, h.2.1, rfl⟩
    have h1 := h.1
    simp only [State.warmKeep, warmRegs, regsWf, Bool.and_eq_true, List.all_eq_true] at h1 ⊢
    exact ⟨Tab.sorted_filter h1.1 _, fun p hp => h1.2 p ((List.mem_filter.1 hp).1)⟩
  discardDram := fun h => ⟨h.1, rfl, h.2.2⟩

/-- What no command touches: the queue, the part and the outputs already sent, against a state `t`. -/
def Since (t s : State) : Prop :=
  s.pending = t.pending ∧ s.variant = t.variant ∧ s.stepB0 = t.stepB0 ∧ t.out <+: s.out

theorem since_stableMem (t : State) : StableMem (Since t) where
  upd := id
  updSec := id
  updRegs := id
  draws := id
  setReg := fun h _ _ => h
  emit := fun h _ => ⟨h.1, h.2.1, h.2.2.1, List.IsPrefix.trans h.2.2.2 (List.prefix_append _ _)⟩
  blow := fun h _ => h
  enrol := fun h _ _ => h
  dram := id
  sram := id
  coldKeep := id
  warmKeep := id
  discardDram := id

/-- What the fuses, the enrolled keys and the identity keep, against a state `t`. -/
def FusedSince (t s : State) : Prop :=
  (∀ f ∈ t.sec.fuses, f ∈ s.sec.fuses) ∧ (∀ k ∈ t.sec.enrolled, k ∈ s.sec.enrolled) ∧
  s.sec.deviceId = t.sec.deviceId ∧ s.sec.cert = t.sec.cert

theorem fusedSince_stableMem (t : State) : StableMem (FusedSince t) where
  upd := id
  updSec := id
  updRegs := id
  draws := id
  setReg := fun h _ _ => h
  emit := fun h _ => h
  blow := fun h _ => ⟨fun f hf => List.mem_append_left _ (h.1 f hf), h.2⟩
  enrol := fun h _ _ => ⟨h.1, fun k hk => List.mem_append_left _ (h.2.1 k hk), h.2.2⟩
  dram := id
  sram := id
  coldKeep := id
  warmKeep := id
  discardDram := id

/-- The memories are those of `t`. -/
def SameMemory (t s : State) : Prop := s.dram = t.dram ∧ s.sram = t.sram

set_option Elab.async false in
theorem sameMemory_stable (t : State) : Stable (SameMemory t) where
  upd := id
  updSec := id
  updRegs := id
  draws := id
  setReg := fun h _ _ => h
  emit := fun h _ => h
  blow := fun h _ => h
  enrol := fun h _ _ => h

end Sys2Proof.Machine
end

