-- ==== Sys2Proof/Laws/State.lean ====
section
/-! SUPPORT. What each plain update of the state leaves and what it sets, one lemma for each field, so that no proof unfolds an update. -/

namespace Sys2Proof.Machine

open Sys2Proof

variable (s : State)

@[simp] theorem setReg_pending (a : Nat) (v : Word) : (s.setReg a v).pending = s.pending := rfl
@[simp] theorem setReg_variant (a : Nat) (v : Word) : (s.setReg a v).variant = s.variant := rfl
@[simp] theorem setReg_stepB0 (a : Nat) (v : Word) : (s.setReg a v).stepB0 = s.stepB0 := rfl
@[simp] theorem setReg_devNs (a : Nat) (v : Word) : (s.setReg a v).devNs = s.devNs := rfl
@[simp] theorem setReg_devFrac (a : Nat) (v : Word) : (s.setReg a v).devFrac = s.devFrac := rfl
@[simp] theorem setReg_timeSet (a : Nat) (v : Word) : (s.setReg a v).timeSet = s.timeSet := rfl
@[simp] theorem setReg_draws (a : Nat) (v : Word) : (s.setReg a v).draws = s.draws := rfl
@[simp] theorem setReg_latch (a : Nat) (v : Word) : (s.setReg a v).latch = s.latch := rfl
@[simp] theorem setReg_staged (a : Nat) (v : Word) : (s.setReg a v).staged = s.staged := rfl
@[simp] theorem setReg_regs (a : Nat) (v : Word) : (s.setReg a v).regs = regPut s.regs a v := rfl
@[simp] theorem setReg_dram (a : Nat) (v : Word) : (s.setReg a v).dram = s.dram := rfl
@[simp] theorem setReg_sram (a : Nat) (v : Word) : (s.setReg a v).sram = s.sram := rfl
@[simp] theorem setReg_out (a : Nat) (v : Word) : (s.setReg a v).out = s.out := rfl
@[simp] theorem setReg_ev (a : Nat) (v : Word) : (s.setReg a v).ev = s.ev := rfl
@[simp] theorem setReg_qm (a : Nat) (v : Word) : (s.setReg a v).qm = s.qm := rfl
@[simp] theorem setReg_sec (a : Nat) (v : Word) : (s.setReg a v).sec = s.sec := rfl
@[simp] theorem setReg_se (a : Nat) (v : Word) : (s.setReg a v).se = s.se := rfl
@[simp] theorem setReg_eb (a : Nat) (v : Word) : (s.setReg a v).eb = s.eb := rfl
@[simp] theorem setReg_dl (a : Nat) (v : Word) : (s.setReg a v).dl = s.dl := rfl
@[simp] theorem setReg_pl (a : Nat) (v : Word) : (s.setReg a v).pl = s.pl := rfl
@[simp] theorem setReg_boot (a : Nat) (v : Word) : (s.setReg a v).boot = s.boot := rfl
@[simp] theorem setReg_pw (a : Nat) (v : Word) : (s.setReg a v).pw = s.pw := rfl
@[simp] theorem setReg_mc (a : Nat) (v : Word) : (s.setReg a v).mc = s.mc := rfl
@[simp] theorem setReg_mdc (a : Nat) (v : Word) : (s.setReg a v).mdc = s.mdc := rfl
@[simp] theorem setReg_xm (a : Nat) (v : Word) : (s.setReg a v).xm = s.xm := rfl
@[simp] theorem setReg_ce (a : Nat) (v : Word) : (s.setReg a v).ce = s.ce := rfl
@[simp] theorem setReg_cl (a : Nat) (v : Word) : (s.setReg a v).cl = s.cl := rfl

@[simp] theorem setFld_pending (r : Reg) (i : Nat) (f : Fld) (v : Nat) : (s.setFld r i f v).pending = s.pending := rfl
@[simp] theorem setFld_variant (r : Reg) (i : Nat) (f : Fld) (v : Nat) : (s.setFld r i f v).variant = s.variant := rfl
@[simp] theorem setFld_stepB0 (r : Reg) (i : Nat) (f : Fld) (v : Nat) : (s.setFld r i f v).stepB0 = s.stepB0 := rfl
@[simp] theorem setFld_devNs (r : Reg) (i : Nat) (f : Fld) (v : Nat) : (s.setFld r i f v).devNs = s.devNs := rfl
@[simp] theorem setFld_devFrac (r : Reg) (i : Nat) (f : Fld) (v : Nat) : (s.setFld r i f v).devFrac = s.devFrac := rfl
@[simp] theorem setFld_timeSet (r : Reg) (i : Nat) (f : Fld) (v : Nat) : (s.setFld r i f v).timeSet = s.timeSet := rfl
@[simp] theorem setFld_draws (r : Reg) (i : Nat) (f : Fld) (v : Nat) : (s.setFld r i f v).draws = s.draws := rfl
@[simp] theorem setFld_latch (r : Reg) (i : Nat) (f : Fld) (v : Nat) : (s.setFld r i f v).latch = s.latch := rfl
@[simp] theorem setFld_staged (r : Reg) (i : Nat) (f : Fld) (v : Nat) : (s.setFld r i f v).staged = s.staged := rfl
@[simp] theorem setFld_dram (r : Reg) (i : Nat) (f : Fld) (v : Nat) : (s.setFld r i f v).dram = s.dram := rfl
@[simp] theorem setFld_sram (r : Reg) (i : Nat) (f : Fld) (v : Nat) : (s.setFld r i f v).sram = s.sram := rfl
@[simp] theorem setFld_out (r : Reg) (i : Nat) (f : Fld) (v : Nat) : (s.setFld r i f v).out = s.out := rfl
@[simp] theorem setFld_ev (r : Reg) (i : Nat) (f : Fld) (v : Nat) : (s.setFld r i f v).ev = s.ev := rfl
@[simp] theorem setFld_qm (r : Reg) (i : Nat) (f : Fld) (v : Nat) : (s.setFld r i f v).qm = s.qm := rfl
@[simp] theorem setFld_sec (r : Reg) (i : Nat) (f : Fld) (v : Nat) : (s.setFld r i f v).sec = s.sec := rfl
@[simp] theorem setFld_se (r : Reg) (i : Nat) (f : Fld) (v : Nat) : (s.setFld r i f v).se = s.se := rfl
@[simp] theorem setFld_eb (r : Reg) (i : Nat) (f : Fld) (v : Nat) : (s.setFld r i f v).eb = s.eb := rfl
@[simp] theorem setFld_dl (r : Reg) (i : Nat) (f : Fld) (v : Nat) : (s.setFld r i f v).dl = s.dl := rfl
@[simp] theorem setFld_pl (r : Reg) (i : Nat) (f : Fld) (v : Nat) : (s.setFld r i f v).pl = s.pl := rfl
@[simp] theorem setFld_boot (r : Reg) (i : Nat) (f : Fld) (v : Nat) : (s.setFld r i f v).boot = s.boot := rfl
@[simp] theorem setFld_pw (r : Reg) (i : Nat) (f : Fld) (v : Nat) : (s.setFld r i f v).pw = s.pw := rfl
@[simp] theorem setFld_mc (r : Reg) (i : Nat) (f : Fld) (v : Nat) : (s.setFld r i f v).mc = s.mc := rfl
@[simp] theorem setFld_mdc (r : Reg) (i : Nat) (f : Fld) (v : Nat) : (s.setFld r i f v).mdc = s.mdc := rfl
@[simp] theorem setFld_xm (r : Reg) (i : Nat) (f : Fld) (v : Nat) : (s.setFld r i f v).xm = s.xm := rfl
@[simp] theorem setFld_ce (r : Reg) (i : Nat) (f : Fld) (v : Nat) : (s.setFld r i f v).ce = s.ce := rfl
@[simp] theorem setFld_cl (r : Reg) (i : Nat) (f : Fld) (v : Nat) : (s.setFld r i f v).cl = s.cl := rfl

@[simp] theorem setReg64_pending (lo hi : Nat) (v : Nat) : (s.setReg64 lo hi v).pending = s.pending := rfl
@[simp] theorem setReg64_variant (lo hi : Nat) (v : Nat) : (s.setReg64 lo hi v).variant = s.variant := rfl
@[simp] theorem setReg64_stepB0 (lo hi : Nat) (v : Nat) : (s.setReg64 lo hi v).stepB0 = s.stepB0 := rfl
@[simp] theorem setReg64_devNs (lo hi : Nat) (v : Nat) : (s.setReg64 lo hi v).devNs = s.devNs := rfl
@[simp] theorem setReg64_devFrac (lo hi : Nat) (v : Nat) : (s.setReg64 lo hi v).devFrac = s.devFrac := rfl
@[simp] theorem setReg64_timeSet (lo hi : Nat) (v : Nat) : (s.setReg64 lo hi v).timeSet = s.timeSet := rfl
@[simp] theorem setReg64_draws (lo hi : Nat) (v : Nat) : (s.setReg64 lo hi v).draws = s.draws := rfl
@[simp] theorem setReg64_latch (lo hi : Nat) (v : Nat) : (s.setReg64 lo hi v).latch = s.latch := rfl
@[simp] theorem setReg64_staged (lo hi : Nat) (v : Nat) : (s.setReg64 lo hi v).staged = s.staged := rfl
@[simp] theorem setReg64_dram (lo hi : Nat) (v : Nat) : (s.setReg64 lo hi v).dram = s.dram := rfl
@[simp] theorem setReg64_sram (lo hi : Nat) (v : Nat) : (s.setReg64 lo hi v).sram = s.sram := rfl
@[simp] theorem setReg64_out (lo hi : Nat) (v : Nat) : (s.setReg64 lo hi v).out = s.out := rfl
@[simp] theorem setReg64_ev (lo hi : Nat) (v : Nat) : (s.setReg64 lo hi v).ev = s.ev := rfl
@[simp] theorem setReg64_qm (lo hi : Nat) (v : Nat) : (s.setReg64 lo hi v).qm = s.qm := rfl
@[simp] theorem setReg64_sec (lo hi : Nat) (v : Nat) : (s.setReg64 lo hi v).sec = s.sec := rfl
@[simp] theorem setReg64_se (lo hi : Nat) (v : Nat) : (s.setReg64 lo hi v).se = s.se := rfl
@[simp] theorem setReg64_eb (lo hi : Nat) (v : Nat) : (s.setReg64 lo hi v).eb = s.eb := rfl
@[simp] theorem setReg64_dl (lo hi : Nat) (v : Nat) : (s.setReg64 lo hi v).dl = s.dl := rfl
@[simp] theorem setReg64_pl (lo hi : Nat) (v : Nat) : (s.setReg64 lo hi v).pl = s.pl := rfl
@[simp] theorem setReg64_boot (lo hi : Nat) (v : Nat) : (s.setReg64 lo hi v).boot = s.boot := rfl
@[simp] theorem setReg64_pw (lo hi : Nat) (v : Nat) : (s.setReg64 lo hi v).pw = s.pw := rfl
@[simp] theorem setReg64_mc (lo hi : Nat) (v : Nat) : (s.setReg64 lo hi v).mc = s.mc := rfl
@[simp] theorem setReg64_mdc (lo hi : Nat) (v : Nat) : (s.setReg64 lo hi v).mdc = s.mdc := rfl
@[simp] theorem setReg64_xm (lo hi : Nat) (v : Nat) : (s.setReg64 lo hi v).xm = s.xm := rfl
@[simp] theorem setReg64_ce (lo hi : Nat) (v : Nat) : (s.setReg64 lo hi v).ce = s.ce := rfl
@[simp] theorem setReg64_cl (lo hi : Nat) (v : Nat) : (s.setReg64 lo hi v).cl = s.cl := rfl

@[simp] theorem emit_pending (o : Out) : (s.emit o).pending = s.pending := rfl
@[simp] theorem emit_variant (o : Out) : (s.emit o).variant = s.variant := rfl
@[simp] theorem emit_stepB0 (o : Out) : (s.emit o).stepB0 = s.stepB0 := rfl
@[simp] theorem emit_devNs (o : Out) : (s.emit o).devNs = s.devNs := rfl
@[simp] theorem emit_devFrac (o : Out) : (s.emit o).devFrac = s.devFrac := rfl
@[simp] theorem emit_timeSet (o : Out) : (s.emit o).timeSet = s.timeSet := rfl
@[simp] theorem emit_draws (o : Out) : (s.emit o).draws = s.draws := rfl
@[simp] theorem emit_latch (o : Out) : (s.emit o).latch = s.latch := rfl
@[simp] theorem emit_staged (o : Out) : (s.emit o).staged = s.staged := rfl
@[simp] theorem emit_regs (o : Out) : (s.emit o).regs = s.regs := rfl
@[simp] theorem emit_dram (o : Out) : (s.emit o).dram = s.dram := rfl
@[simp] theorem emit_sram (o : Out) : (s.emit o).sram = s.sram := rfl
@[simp] theorem emit_out (o : Out) : (s.emit o).out = s.out ++ [o] := rfl
@[simp] theorem emit_ev (o : Out) : (s.emit o).ev = s.ev := rfl
@[simp] theorem emit_qm (o : Out) : (s.emit o).qm = s.qm := rfl
@[simp] theorem emit_sec (o : Out) : (s.emit o).sec = s.sec := rfl
@[simp] theorem emit_se (o : Out) : (s.emit o).se = s.se := rfl
@[simp] theorem emit_eb (o : Out) : (s.emit o).eb = s.eb := rfl
@[simp] theorem emit_dl (o : Out) : (s.emit o).dl = s.dl := rfl
@[simp] theorem emit_pl (o : Out) : (s.emit o).pl = s.pl := rfl
@[simp] theorem emit_boot (o : Out) : (s.emit o).boot = s.boot := rfl
@[simp] theorem emit_pw (o : Out) : (s.emit o).pw = s.pw := rfl
@[simp] theorem emit_mc (o : Out) : (s.emit o).mc = s.mc := rfl
@[simp] theorem emit_mdc (o : Out) : (s.emit o).mdc = s.mdc := rfl
@[simp] theorem emit_xm (o : Out) : (s.emit o).xm = s.xm := rfl
@[simp] theorem emit_ce (o : Out) : (s.emit o).ce = s.ce := rfl
@[simp] theorem emit_cl (o : Out) : (s.emit o).cl = s.cl := rfl

@[simp] theorem setFn_pending (x : Nat) (f : Fn) : (s.setFn x f).pending = s.pending := rfl
@[simp] theorem setFn_variant (x : Nat) (f : Fn) : (s.setFn x f).variant = s.variant := rfl
@[simp] theorem setFn_stepB0 (x : Nat) (f : Fn) : (s.setFn x f).stepB0 = s.stepB0 := rfl
@[simp] theorem setFn_devNs (x : Nat) (f : Fn) : (s.setFn x f).devNs = s.devNs := rfl
@[simp] theorem setFn_devFrac (x : Nat) (f : Fn) : (s.setFn x f).devFrac = s.devFrac := rfl
@[simp] theorem setFn_timeSet (x : Nat) (f : Fn) : (s.setFn x f).timeSet = s.timeSet := rfl
@[simp] theorem setFn_draws (x : Nat) (f : Fn) : (s.setFn x f).draws = s.draws := rfl
@[simp] theorem setFn_latch (x : Nat) (f : Fn) : (s.setFn x f).latch = s.latch := rfl
@[simp] theorem setFn_staged (x : Nat) (f : Fn) : (s.setFn x f).staged = s.staged := rfl
@[simp] theorem setFn_regs (x : Nat) (f : Fn) : (s.setFn x f).regs = s.regs := rfl
@[simp] theorem setFn_dram (x : Nat) (f : Fn) : (s.setFn x f).dram = s.dram := rfl
@[simp] theorem setFn_sram (x : Nat) (f : Fn) : (s.setFn x f).sram = s.sram := rfl
@[simp] theorem setFn_out (x : Nat) (f : Fn) : (s.setFn x f).out = s.out := rfl
@[simp] theorem setFn_ev (x : Nat) (f : Fn) : (s.setFn x f).ev = s.ev := rfl
@[simp] theorem setFn_qm (x : Nat) (f : Fn) : (s.setFn x f).qm = { s.qm with fns := Tab.set s.qm.fns x f } := rfl
@[simp] theorem setFn_sec (x : Nat) (f : Fn) : (s.setFn x f).sec = s.sec := rfl
@[simp] theorem setFn_se (x : Nat) (f : Fn) : (s.setFn x f).se = s.se := rfl
@[simp] theorem setFn_eb (x : Nat) (f : Fn) : (s.setFn x f).eb = s.eb := rfl
@[simp] theorem setFn_dl (x : Nat) (f : Fn) : (s.setFn x f).dl = s.dl := rfl
@[simp] theorem setFn_pl (x : Nat) (f : Fn) : (s.setFn x f).pl = s.pl := rfl
@[simp] theorem setFn_boot (x : Nat) (f : Fn) : (s.setFn x f).boot = s.boot := rfl
@[simp] theorem setFn_pw (x : Nat) (f : Fn) : (s.setFn x f).pw = s.pw := rfl
@[simp] theorem setFn_mc (x : Nat) (f : Fn) : (s.setFn x f).mc = s.mc := rfl
@[simp] theorem setFn_mdc (x : Nat) (f : Fn) : (s.setFn x f).mdc = s.mdc := rfl
@[simp] theorem setFn_xm (x : Nat) (f : Fn) : (s.setFn x f).xm = s.xm := rfl
@[simp] theorem setFn_ce (x : Nat) (f : Fn) : (s.setFn x f).ce = s.ce := rfl
@[simp] theorem setFn_cl (x : Nat) (f : Fn) : (s.setFn x f).cl = s.cl := rfl

@[simp] theorem modDq_pending (q : Nat) (f : DevQueue → DevQueue) : (s.modDq q f).pending = s.pending := rfl
@[simp] theorem modDq_variant (q : Nat) (f : DevQueue → DevQueue) : (s.modDq q f).variant = s.variant := rfl
@[simp] theorem modDq_stepB0 (q : Nat) (f : DevQueue → DevQueue) : (s.modDq q f).stepB0 = s.stepB0 := rfl
@[simp] theorem modDq_devNs (q : Nat) (f : DevQueue → DevQueue) : (s.modDq q f).devNs = s.devNs := rfl
@[simp] theorem modDq_devFrac (q : Nat) (f : DevQueue → DevQueue) : (s.modDq q f).devFrac = s.devFrac := rfl
@[simp] theorem modDq_timeSet (q : Nat) (f : DevQueue → DevQueue) : (s.modDq q f).timeSet = s.timeSet := rfl
@[simp] theorem modDq_draws (q : Nat) (f : DevQueue → DevQueue) : (s.modDq q f).draws = s.draws := rfl
@[simp] theorem modDq_latch (q : Nat) (f : DevQueue → DevQueue) : (s.modDq q f).latch = s.latch := rfl
@[simp] theorem modDq_staged (q : Nat) (f : DevQueue → DevQueue) : (s.modDq q f).staged = s.staged := rfl
@[simp] theorem modDq_regs (q : Nat) (f : DevQueue → DevQueue) : (s.modDq q f).regs = s.regs := rfl
@[simp] theorem modDq_dram (q : Nat) (f : DevQueue → DevQueue) : (s.modDq q f).dram = s.dram := rfl
@[simp] theorem modDq_sram (q : Nat) (f : DevQueue → DevQueue) : (s.modDq q f).sram = s.sram := rfl
@[simp] theorem modDq_out (q : Nat) (f : DevQueue → DevQueue) : (s.modDq q f).out = s.out := rfl
@[simp] theorem modDq_ev (q : Nat) (f : DevQueue → DevQueue) : (s.modDq q f).ev = s.ev := rfl
@[simp] theorem modDq_qm (q : Nat) (f : DevQueue → DevQueue) : (s.modDq q f).qm = { s.qm with queues := Tab.modify s.qm.queues q f } := rfl
@[simp] theorem modDq_sec (q : Nat) (f : DevQueue → DevQueue) : (s.modDq q f).sec = s.sec := rfl
@[simp] theorem modDq_se (q : Nat) (f : DevQueue → DevQueue) : (s.modDq q f).se = s.se := rfl
@[simp] theorem modDq_eb (q : Nat) (f : DevQueue → DevQueue) : (s.modDq q f).eb = s.eb := rfl
@[simp] theorem modDq_dl (q : Nat) (f : DevQueue → DevQueue) : (s.modDq q f).dl = s.dl := rfl
@[simp] theorem modDq_pl (q : Nat) (f : DevQueue → DevQueue) : (s.modDq q f).pl = s.pl := rfl
@[simp] theorem modDq_boot (q : Nat) (f : DevQueue → DevQueue) : (s.modDq q f).boot = s.boot := rfl
@[simp] theorem modDq_pw (q : Nat) (f : DevQueue → DevQueue) : (s.modDq q f).pw = s.pw := rfl
@[simp] theorem modDq_mc (q : Nat) (f : DevQueue → DevQueue) : (s.modDq q f).mc = s.mc := rfl
@[simp] theorem modDq_mdc (q : Nat) (f : DevQueue → DevQueue) : (s.modDq q f).mdc = s.mdc := rfl
@[simp] theorem modDq_xm (q : Nat) (f : DevQueue → DevQueue) : (s.modDq q f).xm = s.xm := rfl
@[simp] theorem modDq_ce (q : Nat) (f : DevQueue → DevQueue) : (s.modDq q f).ce = s.ce := rfl
@[simp] theorem modDq_cl (q : Nat) (f : DevQueue → DevQueue) : (s.modDq q f).cl = s.cl := rfl

@[simp] theorem setCmd_pending (id : Nat) (c : Cmd) : (s.setCmd id c).pending = s.pending := rfl
@[simp] theorem setCmd_variant (id : Nat) (c : Cmd) : (s.setCmd id c).variant = s.variant := rfl
@[simp] theorem setCmd_stepB0 (id : Nat) (c : Cmd) : (s.setCmd id c).stepB0 = s.stepB0 := rfl
@[simp] theorem setCmd_devNs (id : Nat) (c : Cmd) : (s.setCmd id c).devNs = s.devNs := rfl
@[simp] theorem setCmd_devFrac (id : Nat) (c : Cmd) : (s.setCmd id c).devFrac = s.devFrac := rfl
@[simp] theorem setCmd_timeSet (id : Nat) (c : Cmd) : (s.setCmd id c).timeSet = s.timeSet := rfl
@[simp] theorem setCmd_draws (id : Nat) (c : Cmd) : (s.setCmd id c).draws = s.draws := rfl
@[simp] theorem setCmd_latch (id : Nat) (c : Cmd) : (s.setCmd id c).latch = s.latch := rfl
@[simp] theorem setCmd_staged (id : Nat) (c : Cmd) : (s.setCmd id c).staged = s.staged := rfl
@[simp] theorem setCmd_regs (id : Nat) (c : Cmd) : (s.setCmd id c).regs = s.regs := rfl
@[simp] theorem setCmd_dram (id : Nat) (c : Cmd) : (s.setCmd id c).dram = s.dram := rfl
@[simp] theorem setCmd_sram (id : Nat) (c : Cmd) : (s.setCmd id c).sram = s.sram := rfl
@[simp] theorem setCmd_out (id : Nat) (c : Cmd) : (s.setCmd id c).out = s.out := rfl
@[simp] theorem setCmd_ev (id : Nat) (c : Cmd) : (s.setCmd id c).ev = s.ev := rfl
@[simp] theorem setCmd_qm (id : Nat) (c : Cmd) : (s.setCmd id c).qm = { s.qm with cmds := Tab.set s.qm.cmds id c } := rfl
@[simp] theorem setCmd_sec (id : Nat) (c : Cmd) : (s.setCmd id c).sec = s.sec := rfl
@[simp] theorem setCmd_se (id : Nat) (c : Cmd) : (s.setCmd id c).se = s.se := rfl
@[simp] theorem setCmd_eb (id : Nat) (c : Cmd) : (s.setCmd id c).eb = s.eb := rfl
@[simp] theorem setCmd_dl (id : Nat) (c : Cmd) : (s.setCmd id c).dl = s.dl := rfl
@[simp] theorem setCmd_pl (id : Nat) (c : Cmd) : (s.setCmd id c).pl = s.pl := rfl
@[simp] theorem setCmd_boot (id : Nat) (c : Cmd) : (s.setCmd id c).boot = s.boot := rfl
@[simp] theorem setCmd_pw (id : Nat) (c : Cmd) : (s.setCmd id c).pw = s.pw := rfl
@[simp] theorem setCmd_mc (id : Nat) (c : Cmd) : (s.setCmd id c).mc = s.mc := rfl
@[simp] theorem setCmd_mdc (id : Nat) (c : Cmd) : (s.setCmd id c).mdc = s.mdc := rfl
@[simp] theorem setCmd_xm (id : Nat) (c : Cmd) : (s.setCmd id c).xm = s.xm := rfl
@[simp] theorem setCmd_ce (id : Nat) (c : Cmd) : (s.setCmd id c).ce = s.ce := rfl
@[simp] theorem setCmd_cl (id : Nat) (c : Cmd) : (s.setCmd id c).cl = s.cl := rfl

@[simp] theorem dropCmd_pending (id : Nat) : (s.dropCmd id).pending = s.pending := rfl
@[simp] theorem dropCmd_variant (id : Nat) : (s.dropCmd id).variant = s.variant := rfl
@[simp] theorem dropCmd_stepB0 (id : Nat) : (s.dropCmd id).stepB0 = s.stepB0 := rfl
@[simp] theorem dropCmd_devNs (id : Nat) : (s.dropCmd id).devNs = s.devNs := rfl
@[simp] theorem dropCmd_devFrac (id : Nat) : (s.dropCmd id).devFrac = s.devFrac := rfl
@[simp] theorem dropCmd_timeSet (id : Nat) : (s.dropCmd id).timeSet = s.timeSet := rfl
@[simp] theorem dropCmd_draws (id : Nat) : (s.dropCmd id).draws = s.draws := rfl
@[simp] theorem dropCmd_latch (id : Nat) : (s.dropCmd id).latch = s.latch := rfl
@[simp] theorem dropCmd_staged (id : Nat) : (s.dropCmd id).staged = s.staged := rfl
@[simp] theorem dropCmd_regs (id : Nat) : (s.dropCmd id).regs = s.regs := rfl
@[simp] theorem dropCmd_dram (id : Nat) : (s.dropCmd id).dram = s.dram := rfl
@[simp] theorem dropCmd_sram (id : Nat) : (s.dropCmd id).sram = s.sram := rfl
@[simp] theorem dropCmd_out (id : Nat) : (s.dropCmd id).out = s.out := rfl
@[simp] theorem dropCmd_ev (id : Nat) : (s.dropCmd id).ev = s.ev := rfl
@[simp] theorem dropCmd_qm (id : Nat) : (s.dropCmd id).qm = { s.qm with cmds := Tab.erase s.qm.cmds id } := rfl
@[simp] theorem dropCmd_sec (id : Nat) : (s.dropCmd id).sec = s.sec := rfl
@[simp] theorem dropCmd_se (id : Nat) : (s.dropCmd id).se = s.se := rfl
@[simp] theorem dropCmd_eb (id : Nat) : (s.dropCmd id).eb = s.eb := rfl
@[simp] theorem dropCmd_dl (id : Nat) : (s.dropCmd id).dl = s.dl := rfl
@[simp] theorem dropCmd_pl (id : Nat) : (s.dropCmd id).pl = s.pl := rfl
@[simp] theorem dropCmd_boot (id : Nat) : (s.dropCmd id).boot = s.boot := rfl
@[simp] theorem dropCmd_pw (id : Nat) : (s.dropCmd id).pw = s.pw := rfl
@[simp] theorem dropCmd_mc (id : Nat) : (s.dropCmd id).mc = s.mc := rfl
@[simp] theorem dropCmd_mdc (id : Nat) : (s.dropCmd id).mdc = s.mdc := rfl
@[simp] theorem dropCmd_xm (id : Nat) : (s.dropCmd id).xm = s.xm := rfl
@[simp] theorem dropCmd_ce (id : Nat) : (s.dropCmd id).ce = s.ce := rfl
@[simp] theorem dropCmd_cl (id : Nat) : (s.dropCmd id).cl = s.cl := rfl

@[simp] theorem setPool_pending (p : Nat) (x : Pool) : (s.setPool p x).pending = s.pending := rfl
@[simp] theorem setPool_variant (p : Nat) (x : Pool) : (s.setPool p x).variant = s.variant := rfl
@[simp] theorem setPool_stepB0 (p : Nat) (x : Pool) : (s.setPool p x).stepB0 = s.stepB0 := rfl
@[simp] theorem setPool_devNs (p : Nat) (x : Pool) : (s.setPool p x).devNs = s.devNs := rfl
@[simp] theorem setPool_devFrac (p : Nat) (x : Pool) : (s.setPool p x).devFrac = s.devFrac := rfl
@[simp] theorem setPool_timeSet (p : Nat) (x : Pool) : (s.setPool p x).timeSet = s.timeSet := rfl
@[simp] theorem setPool_draws (p : Nat) (x : Pool) : (s.setPool p x).draws = s.draws := rfl
@[simp] theorem setPool_latch (p : Nat) (x : Pool) : (s.setPool p x).latch = s.latch := rfl
@[simp] theorem setPool_staged (p : Nat) (x : Pool) : (s.setPool p x).staged = s.staged := rfl
@[simp] theorem setPool_regs (p : Nat) (x : Pool) : (s.setPool p x).regs = s.regs := rfl
@[simp] theorem setPool_dram (p : Nat) (x : Pool) : (s.setPool p x).dram = s.dram := rfl
@[simp] theorem setPool_sram (p : Nat) (x : Pool) : (s.setPool p x).sram = s.sram := rfl
@[simp] theorem setPool_out (p : Nat) (x : Pool) : (s.setPool p x).out = s.out := rfl
@[simp] theorem setPool_ev (p : Nat) (x : Pool) : (s.setPool p x).ev = s.ev := rfl
@[simp] theorem setPool_qm (p : Nat) (x : Pool) : (s.setPool p x).qm = s.qm := rfl
@[simp] theorem setPool_sec (p : Nat) (x : Pool) : (s.setPool p x).sec = s.sec := rfl
@[simp] theorem setPool_se (p : Nat) (x : Pool) : (s.setPool p x).se = { s.se with pools := Tab.set s.se.pools p x } := rfl
@[simp] theorem setPool_eb (p : Nat) (x : Pool) : (s.setPool p x).eb = s.eb := rfl
@[simp] theorem setPool_dl (p : Nat) (x : Pool) : (s.setPool p x).dl = s.dl := rfl
@[simp] theorem setPool_pl (p : Nat) (x : Pool) : (s.setPool p x).pl = s.pl := rfl
@[simp] theorem setPool_boot (p : Nat) (x : Pool) : (s.setPool p x).boot = s.boot := rfl
@[simp] theorem setPool_pw (p : Nat) (x : Pool) : (s.setPool p x).pw = s.pw := rfl
@[simp] theorem setPool_mc (p : Nat) (x : Pool) : (s.setPool p x).mc = s.mc := rfl
@[simp] theorem setPool_mdc (p : Nat) (x : Pool) : (s.setPool p x).mdc = s.mdc := rfl
@[simp] theorem setPool_xm (p : Nat) (x : Pool) : (s.setPool p x).xm = s.xm := rfl
@[simp] theorem setPool_ce (p : Nat) (x : Pool) : (s.setPool p x).ce = s.ce := rfl
@[simp] theorem setPool_cl (p : Nat) (x : Pool) : (s.setPool p x).cl = s.cl := rfl

@[simp] theorem modPool_pending (p : Nat) (f : Pool → Pool) : (s.modPool p f).pending = s.pending := rfl
@[simp] theorem modPool_variant (p : Nat) (f : Pool → Pool) : (s.modPool p f).variant = s.variant := rfl
@[simp] theorem modPool_stepB0 (p : Nat) (f : Pool → Pool) : (s.modPool p f).stepB0 = s.stepB0 := rfl
@[simp] theorem modPool_devNs (p : Nat) (f : Pool → Pool) : (s.modPool p f).devNs = s.devNs := rfl
@[simp] theorem modPool_devFrac (p : Nat) (f : Pool → Pool) : (s.modPool p f).devFrac = s.devFrac := rfl
@[simp] theorem modPool_timeSet (p : Nat) (f : Pool → Pool) : (s.modPool p f).timeSet = s.timeSet := rfl
@[simp] theorem modPool_draws (p : Nat) (f : Pool → Pool) : (s.modPool p f).draws = s.draws := rfl
@[simp] theorem modPool_latch (p : Nat) (f : Pool → Pool) : (s.modPool p f).latch = s.latch := rfl
@[simp] theorem modPool_staged (p : Nat) (f : Pool → Pool) : (s.modPool p f).staged = s.staged := rfl
@[simp] theorem modPool_regs (p : Nat) (f : Pool → Pool) : (s.modPool p f).regs = s.regs := rfl
@[simp] theorem modPool_dram (p : Nat) (f : Pool → Pool) : (s.modPool p f).dram = s.dram := rfl
@[simp] theorem modPool_sram (p : Nat) (f : Pool → Pool) : (s.modPool p f).sram = s.sram := rfl
@[simp] theorem modPool_out (p : Nat) (f : Pool → Pool) : (s.modPool p f).out = s.out := rfl
@[simp] theorem modPool_ev (p : Nat) (f : Pool → Pool) : (s.modPool p f).ev = s.ev := rfl
@[simp] theorem modPool_qm (p : Nat) (f : Pool → Pool) : (s.modPool p f).qm = s.qm := rfl
@[simp] theorem modPool_sec (p : Nat) (f : Pool → Pool) : (s.modPool p f).sec = s.sec := rfl
@[simp] theorem modPool_se (p : Nat) (f : Pool → Pool) : (s.modPool p f).se = { s.se with pools := Tab.modify s.se.pools p f } := rfl
@[simp] theorem modPool_eb (p : Nat) (f : Pool → Pool) : (s.modPool p f).eb = s.eb := rfl
@[simp] theorem modPool_dl (p : Nat) (f : Pool → Pool) : (s.modPool p f).dl = s.dl := rfl
@[simp] theorem modPool_pl (p : Nat) (f : Pool → Pool) : (s.modPool p f).pl = s.pl := rfl
@[simp] theorem modPool_boot (p : Nat) (f : Pool → Pool) : (s.modPool p f).boot = s.boot := rfl
@[simp] theorem modPool_pw (p : Nat) (f : Pool → Pool) : (s.modPool p f).pw = s.pw := rfl
@[simp] theorem modPool_mc (p : Nat) (f : Pool → Pool) : (s.modPool p f).mc = s.mc := rfl
@[simp] theorem modPool_mdc (p : Nat) (f : Pool → Pool) : (s.modPool p f).mdc = s.mdc := rfl
@[simp] theorem modPool_xm (p : Nat) (f : Pool → Pool) : (s.modPool p f).xm = s.xm := rfl
@[simp] theorem modPool_ce (p : Nat) (f : Pool → Pool) : (s.modPool p f).ce = s.ce := rfl
@[simp] theorem modPool_cl (p : Nat) (f : Pool → Pool) : (s.modPool p f).cl = s.cl := rfl

@[simp] theorem setStripe_pending (p n : Nat) (x : Stripe) : (s.setStripe p n x).pending = s.pending := rfl
@[simp] theorem setStripe_variant (p n : Nat) (x : Stripe) : (s.setStripe p n x).variant = s.variant := rfl
@[simp] theorem setStripe_stepB0 (p n : Nat) (x : Stripe) : (s.setStripe p n x).stepB0 = s.stepB0 := rfl
@[simp] theorem setStripe_devNs (p n : Nat) (x : Stripe) : (s.setStripe p n x).devNs = s.devNs := rfl
@[simp] theorem setStripe_devFrac (p n : Nat) (x : Stripe) : (s.setStripe p n x).devFrac = s.devFrac := rfl
@[simp] theorem setStripe_timeSet (p n : Nat) (x : Stripe) : (s.setStripe p n x).timeSet = s.timeSet := rfl
@[simp] theorem setStripe_draws (p n : Nat) (x : Stripe) : (s.setStripe p n x).draws = s.draws := rfl
@[simp] theorem setStripe_latch (p n : Nat) (x : Stripe) : (s.setStripe p n x).latch = s.latch := rfl
@[simp] theorem setStripe_staged (p n : Nat) (x : Stripe) : (s.setStripe p n x).staged = s.staged := rfl
@[simp] theorem setStripe_regs (p n : Nat) (x : Stripe) : (s.setStripe p n x).regs = s.regs := rfl
@[simp] theorem setStripe_dram (p n : Nat) (x : Stripe) : (s.setStripe p n x).dram = s.dram := rfl
@[simp] theorem setStripe_sram (p n : Nat) (x : Stripe) : (s.setStripe p n x).sram = s.sram := rfl
@[simp] theorem setStripe_out (p n : Nat) (x : Stripe) : (s.setStripe p n x).out = s.out := rfl
@[simp] theorem setStripe_ev (p n : Nat) (x : Stripe) : (s.setStripe p n x).ev = s.ev := rfl
@[simp] theorem setStripe_qm (p n : Nat) (x : Stripe) : (s.setStripe p n x).qm = s.qm := rfl
@[simp] theorem setStripe_sec (p n : Nat) (x : Stripe) : (s.setStripe p n x).sec = s.sec := rfl
@[simp] theorem setStripe_se (p n : Nat) (x : Stripe) : (s.setStripe p n x).se = { s.se with stripes := Tab.set s.se.stripes (stripeKey p n) x } := rfl
@[simp] theorem setStripe_eb (p n : Nat) (x : Stripe) : (s.setStripe p n x).eb = s.eb := rfl
@[simp] theorem setStripe_dl (p n : Nat) (x : Stripe) : (s.setStripe p n x).dl = s.dl := rfl
@[simp] theorem setStripe_pl (p n : Nat) (x : Stripe) : (s.setStripe p n x).pl = s.pl := rfl
@[simp] theorem setStripe_boot (p n : Nat) (x : Stripe) : (s.setStripe p n x).boot = s.boot := rfl
@[simp] theorem setStripe_pw (p n : Nat) (x : Stripe) : (s.setStripe p n x).pw = s.pw := rfl
@[simp] theorem setStripe_mc (p n : Nat) (x : Stripe) : (s.setStripe p n x).mc = s.mc := rfl
@[simp] theorem setStripe_mdc (p n : Nat) (x : Stripe) : (s.setStripe p n x).mdc = s.mdc := rfl
@[simp] theorem setStripe_xm (p n : Nat) (x : Stripe) : (s.setStripe p n x).xm = s.xm := rfl
@[simp] theorem setStripe_ce (p n : Nat) (x : Stripe) : (s.setStripe p n x).ce = s.ce := rfl
@[simp] theorem setStripe_cl (p n : Nat) (x : Stripe) : (s.setStripe p n x).cl = s.cl := rfl

@[simp] theorem modStripe_pending (p n : Nat) (f : Stripe → Stripe) : (s.modStripe p n f).pending = s.pending := rfl
@[simp] theorem modStripe_variant (p n : Nat) (f : Stripe → Stripe) : (s.modStripe p n f).variant = s.variant := rfl
@[simp] theorem modStripe_stepB0 (p n : Nat) (f : Stripe → Stripe) : (s.modStripe p n f).stepB0 = s.stepB0 := rfl
@[simp] theorem modStripe_devNs (p n : Nat) (f : Stripe → Stripe) : (s.modStripe p n f).devNs = s.devNs := rfl
@[simp] theorem modStripe_devFrac (p n : Nat) (f : Stripe → Stripe) : (s.modStripe p n f).devFrac = s.devFrac := rfl
@[simp] theorem modStripe_timeSet (p n : Nat) (f : Stripe → Stripe) : (s.modStripe p n f).timeSet = s.timeSet := rfl
@[simp] theorem modStripe_draws (p n : Nat) (f : Stripe → Stripe) : (s.modStripe p n f).draws = s.draws := rfl
@[simp] theorem modStripe_latch (p n : Nat) (f : Stripe → Stripe) : (s.modStripe p n f).latch = s.latch := rfl
@[simp] theorem modStripe_staged (p n : Nat) (f : Stripe → Stripe) : (s.modStripe p n f).staged = s.staged := rfl
@[simp] theorem modStripe_regs (p n : Nat) (f : Stripe → Stripe) : (s.modStripe p n f).regs = s.regs := rfl
@[simp] theorem modStripe_dram (p n : Nat) (f : Stripe → Stripe) : (s.modStripe p n f).dram = s.dram := rfl
@[simp] theorem modStripe_sram (p n : Nat) (f : Stripe → Stripe) : (s.modStripe p n f).sram = s.sram := rfl
@[simp] theorem modStripe_out (p n : Nat) (f : Stripe → Stripe) : (s.modStripe p n f).out = s.out := rfl
@[simp] theorem modStripe_ev (p n : Nat) (f : Stripe → Stripe) : (s.modStripe p n f).ev = s.ev := rfl
@[simp] theorem modStripe_qm (p n : Nat) (f : Stripe → Stripe) : (s.modStripe p n f).qm = s.qm := rfl
@[simp] theorem modStripe_sec (p n : Nat) (f : Stripe → Stripe) : (s.modStripe p n f).sec = s.sec := rfl
@[simp] theorem modStripe_se (p n : Nat) (f : Stripe → Stripe) : (s.modStripe p n f).se = { s.se with stripes := Tab.modify s.se.stripes (stripeKey p n) f } := rfl
@[simp] theorem modStripe_eb (p n : Nat) (f : Stripe → Stripe) : (s.modStripe p n f).eb = s.eb := rfl
@[simp] theorem modStripe_dl (p n : Nat) (f : Stripe → Stripe) : (s.modStripe p n f).dl = s.dl := rfl
@[simp] theorem modStripe_pl (p n : Nat) (f : Stripe → Stripe) : (s.modStripe p n f).pl = s.pl := rfl
@[simp] theorem modStripe_boot (p n : Nat) (f : Stripe → Stripe) : (s.modStripe p n f).boot = s.boot := rfl
@[simp] theorem modStripe_pw (p n : Nat) (f : Stripe → Stripe) : (s.modStripe p n f).pw = s.pw := rfl
@[simp] theorem modStripe_mc (p n : Nat) (f : Stripe → Stripe) : (s.modStripe p n f).mc = s.mc := rfl
@[simp] theorem modStripe_mdc (p n : Nat) (f : Stripe → Stripe) : (s.modStripe p n f).mdc = s.mdc := rfl
@[simp] theorem modStripe_xm (p n : Nat) (f : Stripe → Stripe) : (s.modStripe p n f).xm = s.xm := rfl
@[simp] theorem modStripe_ce (p n : Nat) (f : Stripe → Stripe) : (s.modStripe p n f).ce = s.ce := rfl
@[simp] theorem modStripe_cl (p n : Nat) (f : Stripe → Stripe) : (s.modStripe p n f).cl = s.cl := rfl

@[simp] theorem modSet_pending (i : Nat) (f : SetRec → SetRec) : (s.modSet i f).pending = s.pending := rfl
@[simp] theorem modSet_variant (i : Nat) (f : SetRec → SetRec) : (s.modSet i f).variant = s.variant := rfl
@[simp] theorem modSet_stepB0 (i : Nat) (f : SetRec → SetRec) : (s.modSet i f).stepB0 = s.stepB0 := rfl
@[simp] theorem modSet_devNs (i : Nat) (f : SetRec → SetRec) : (s.modSet i f).devNs = s.devNs := rfl
@[simp] theorem modSet_devFrac (i : Nat) (f : SetRec → SetRec) : (s.modSet i f).devFrac = s.devFrac := rfl
@[simp] theorem modSet_timeSet (i : Nat) (f : SetRec → SetRec) : (s.modSet i f).timeSet = s.timeSet := rfl
@[simp] theorem modSet_draws (i : Nat) (f : SetRec → SetRec) : (s.modSet i f).draws = s.draws := rfl
@[simp] theorem modSet_latch (i : Nat) (f : SetRec → SetRec) : (s.modSet i f).latch = s.latch := rfl
@[simp] theorem modSet_staged (i : Nat) (f : SetRec → SetRec) : (s.modSet i f).staged = s.staged := rfl
@[simp] theorem modSet_regs (i : Nat) (f : SetRec → SetRec) : (s.modSet i f).regs = s.regs := rfl
@[simp] theorem modSet_dram (i : Nat) (f : SetRec → SetRec) : (s.modSet i f).dram = s.dram := rfl
@[simp] theorem modSet_sram (i : Nat) (f : SetRec → SetRec) : (s.modSet i f).sram = s.sram := rfl
@[simp] theorem modSet_out (i : Nat) (f : SetRec → SetRec) : (s.modSet i f).out = s.out := rfl
@[simp] theorem modSet_ev (i : Nat) (f : SetRec → SetRec) : (s.modSet i f).ev = s.ev := rfl
@[simp] theorem modSet_qm (i : Nat) (f : SetRec → SetRec) : (s.modSet i f).qm = s.qm := rfl
@[simp] theorem modSet_sec (i : Nat) (f : SetRec → SetRec) : (s.modSet i f).sec = s.sec := rfl
@[simp] theorem modSet_se (i : Nat) (f : SetRec → SetRec) : (s.modSet i f).se = { s.se with sets := Tab.modify s.se.sets i f } := rfl
@[simp] theorem modSet_eb (i : Nat) (f : SetRec → SetRec) : (s.modSet i f).eb = s.eb := rfl
@[simp] theorem modSet_dl (i : Nat) (f : SetRec → SetRec) : (s.modSet i f).dl = s.dl := rfl
@[simp] theorem modSet_pl (i : Nat) (f : SetRec → SetRec) : (s.modSet i f).pl = s.pl := rfl
@[simp] theorem modSet_boot (i : Nat) (f : SetRec → SetRec) : (s.modSet i f).boot = s.boot := rfl
@[simp] theorem modSet_pw (i : Nat) (f : SetRec → SetRec) : (s.modSet i f).pw = s.pw := rfl
@[simp] theorem modSet_mc (i : Nat) (f : SetRec → SetRec) : (s.modSet i f).mc = s.mc := rfl
@[simp] theorem modSet_mdc (i : Nat) (f : SetRec → SetRec) : (s.modSet i f).mdc = s.mdc := rfl
@[simp] theorem modSet_xm (i : Nat) (f : SetRec → SetRec) : (s.modSet i f).xm = s.xm := rfl
@[simp] theorem modSet_ce (i : Nat) (f : SetRec → SetRec) : (s.modSet i f).ce = s.ce := rfl
@[simp] theorem modSet_cl (i : Nat) (f : SetRec → SetRec) : (s.modSet i f).cl = s.cl := rfl

@[simp] theorem modDrive_pending (n : Nat) (f : Drive → Drive) : (s.modDrive n f).pending = s.pending := rfl
@[simp] theorem modDrive_variant (n : Nat) (f : Drive → Drive) : (s.modDrive n f).variant = s.variant := rfl
@[simp] theorem modDrive_stepB0 (n : Nat) (f : Drive → Drive) : (s.modDrive n f).stepB0 = s.stepB0 := rfl
@[simp] theorem modDrive_devNs (n : Nat) (f : Drive → Drive) : (s.modDrive n f).devNs = s.devNs := rfl
@[simp] theorem modDrive_devFrac (n : Nat) (f : Drive → Drive) : (s.modDrive n f).devFrac = s.devFrac := rfl
@[simp] theorem modDrive_timeSet (n : Nat) (f : Drive → Drive) : (s.modDrive n f).timeSet = s.timeSet := rfl
@[simp] theorem modDrive_draws (n : Nat) (f : Drive → Drive) : (s.modDrive n f).draws = s.draws := rfl
@[simp] theorem modDrive_latch (n : Nat) (f : Drive → Drive) : (s.modDrive n f).latch = s.latch := rfl
@[simp] theorem modDrive_staged (n : Nat) (f : Drive → Drive) : (s.modDrive n f).staged = s.staged := rfl
@[simp] theorem modDrive_regs (n : Nat) (f : Drive → Drive) : (s.modDrive n f).regs = s.regs := rfl
@[simp] theorem modDrive_dram (n : Nat) (f : Drive → Drive) : (s.modDrive n f).dram = s.dram := rfl
@[simp] theorem modDrive_sram (n : Nat) (f : Drive → Drive) : (s.modDrive n f).sram = s.sram := rfl
@[simp] theorem modDrive_out (n : Nat) (f : Drive → Drive) : (s.modDrive n f).out = s.out := rfl
@[simp] theorem modDrive_ev (n : Nat) (f : Drive → Drive) : (s.modDrive n f).ev = s.ev := rfl
@[simp] theorem modDrive_qm (n : Nat) (f : Drive → Drive) : (s.modDrive n f).qm = s.qm := rfl
@[simp] theorem modDrive_sec (n : Nat) (f : Drive → Drive) : (s.modDrive n f).sec = s.sec := rfl
@[simp] theorem modDrive_se (n : Nat) (f : Drive → Drive) : (s.modDrive n f).se = { s.se with drives := Tab.modify s.se.drives n f } := rfl
@[simp] theorem modDrive_eb (n : Nat) (f : Drive → Drive) : (s.modDrive n f).eb = s.eb := rfl
@[simp] theorem modDrive_dl (n : Nat) (f : Drive → Drive) : (s.modDrive n f).dl = s.dl := rfl
@[simp] theorem modDrive_pl (n : Nat) (f : Drive → Drive) : (s.modDrive n f).pl = s.pl := rfl
@[simp] theorem modDrive_boot (n : Nat) (f : Drive → Drive) : (s.modDrive n f).boot = s.boot := rfl
@[simp] theorem modDrive_pw (n : Nat) (f : Drive → Drive) : (s.modDrive n f).pw = s.pw := rfl
@[simp] theorem modDrive_mc (n : Nat) (f : Drive → Drive) : (s.modDrive n f).mc = s.mc := rfl
@[simp] theorem modDrive_mdc (n : Nat) (f : Drive → Drive) : (s.modDrive n f).mdc = s.mdc := rfl
@[simp] theorem modDrive_xm (n : Nat) (f : Drive → Drive) : (s.modDrive n f).xm = s.xm := rfl
@[simp] theorem modDrive_ce (n : Nat) (f : Drive → Drive) : (s.modDrive n f).ce = s.ce := rfl
@[simp] theorem modDrive_cl (n : Nat) (f : Drive → Drive) : (s.modDrive n f).cl = s.cl := rfl

@[simp] theorem setSlot_pending (n : Nat) (x : Slot) : (s.setSlot n x).pending = s.pending := rfl
@[simp] theorem setSlot_variant (n : Nat) (x : Slot) : (s.setSlot n x).variant = s.variant := rfl
@[simp] theorem setSlot_stepB0 (n : Nat) (x : Slot) : (s.setSlot n x).stepB0 = s.stepB0 := rfl
@[simp] theorem setSlot_devNs (n : Nat) (x : Slot) : (s.setSlot n x).devNs = s.devNs := rfl
@[simp] theorem setSlot_devFrac (n : Nat) (x : Slot) : (s.setSlot n x).devFrac = s.devFrac := rfl
@[simp] theorem setSlot_timeSet (n : Nat) (x : Slot) : (s.setSlot n x).timeSet = s.timeSet := rfl
@[simp] theorem setSlot_draws (n : Nat) (x : Slot) : (s.setSlot n x).draws = s.draws := rfl
@[simp] theorem setSlot_latch (n : Nat) (x : Slot) : (s.setSlot n x).latch = s.latch := rfl
@[simp] theorem setSlot_staged (n : Nat) (x : Slot) : (s.setSlot n x).staged = s.staged := rfl
@[simp] theorem setSlot_regs (n : Nat) (x : Slot) : (s.setSlot n x).regs = s.regs := rfl
@[simp] theorem setSlot_dram (n : Nat) (x : Slot) : (s.setSlot n x).dram = s.dram := rfl
@[simp] theorem setSlot_sram (n : Nat) (x : Slot) : (s.setSlot n x).sram = s.sram := rfl
@[simp] theorem setSlot_out (n : Nat) (x : Slot) : (s.setSlot n x).out = s.out := rfl
@[simp] theorem setSlot_ev (n : Nat) (x : Slot) : (s.setSlot n x).ev = s.ev := rfl
@[simp] theorem setSlot_qm (n : Nat) (x : Slot) : (s.setSlot n x).qm = s.qm := rfl
@[simp] theorem setSlot_sec (n : Nat) (x : Slot) : (s.setSlot n x).sec = s.sec := rfl
@[simp] theorem setSlot_se (n : Nat) (x : Slot) : (s.setSlot n x).se = s.se := rfl
@[simp] theorem setSlot_eb (n : Nat) (x : Slot) : (s.setSlot n x).eb = s.eb := rfl
@[simp] theorem setSlot_dl (n : Nat) (x : Slot) : (s.setSlot n x).dl = { s.dl with slots := Tab.set s.dl.slots n x } := rfl
@[simp] theorem setSlot_pl (n : Nat) (x : Slot) : (s.setSlot n x).pl = s.pl := rfl
@[simp] theorem setSlot_boot (n : Nat) (x : Slot) : (s.setSlot n x).boot = s.boot := rfl
@[simp] theorem setSlot_pw (n : Nat) (x : Slot) : (s.setSlot n x).pw = s.pw := rfl
@[simp] theorem setSlot_mc (n : Nat) (x : Slot) : (s.setSlot n x).mc = s.mc := rfl
@[simp] theorem setSlot_mdc (n : Nat) (x : Slot) : (s.setSlot n x).mdc = s.mdc := rfl
@[simp] theorem setSlot_xm (n : Nat) (x : Slot) : (s.setSlot n x).xm = s.xm := rfl
@[simp] theorem setSlot_ce (n : Nat) (x : Slot) : (s.setSlot n x).ce = s.ce := rfl
@[simp] theorem setSlot_cl (n : Nat) (x : Slot) : (s.setSlot n x).cl = s.cl := rfl

@[simp] theorem modSlot_pending (n : Nat) (f : Slot → Slot) : (s.modSlot n f).pending = s.pending := rfl
@[simp] theorem modSlot_variant (n : Nat) (f : Slot → Slot) : (s.modSlot n f).variant = s.variant := rfl
@[simp] theorem modSlot_stepB0 (n : Nat) (f : Slot → Slot) : (s.modSlot n f).stepB0 = s.stepB0 := rfl
@[simp] theorem modSlot_devNs (n : Nat) (f : Slot → Slot) : (s.modSlot n f).devNs = s.devNs := rfl
@[simp] theorem modSlot_devFrac (n : Nat) (f : Slot → Slot) : (s.modSlot n f).devFrac = s.devFrac := rfl
@[simp] theorem modSlot_timeSet (n : Nat) (f : Slot → Slot) : (s.modSlot n f).timeSet = s.timeSet := rfl
@[simp] theorem modSlot_draws (n : Nat) (f : Slot → Slot) : (s.modSlot n f).draws = s.draws := rfl
@[simp] theorem modSlot_latch (n : Nat) (f : Slot → Slot) : (s.modSlot n f).latch = s.latch := rfl
@[simp] theorem modSlot_staged (n : Nat) (f : Slot → Slot) : (s.modSlot n f).staged = s.staged := rfl
@[simp] theorem modSlot_regs (n : Nat) (f : Slot → Slot) : (s.modSlot n f).regs = s.regs := rfl
@[simp] theorem modSlot_dram (n : Nat) (f : Slot → Slot) : (s.modSlot n f).dram = s.dram := rfl
@[simp] theorem modSlot_sram (n : Nat) (f : Slot → Slot) : (s.modSlot n f).sram = s.sram := rfl
@[simp] theorem modSlot_out (n : Nat) (f : Slot → Slot) : (s.modSlot n f).out = s.out := rfl
@[simp] theorem modSlot_ev (n : Nat) (f : Slot → Slot) : (s.modSlot n f).ev = s.ev := rfl
@[simp] theorem modSlot_qm (n : Nat) (f : Slot → Slot) : (s.modSlot n f).qm = s.qm := rfl
@[simp] theorem modSlot_sec (n : Nat) (f : Slot → Slot) : (s.modSlot n f).sec = s.sec := rfl
@[simp] theorem modSlot_se (n : Nat) (f : Slot → Slot) : (s.modSlot n f).se = s.se := rfl
@[simp] theorem modSlot_eb (n : Nat) (f : Slot → Slot) : (s.modSlot n f).eb = s.eb := rfl
@[simp] theorem modSlot_dl (n : Nat) (f : Slot → Slot) : (s.modSlot n f).dl = { s.dl with slots := Tab.modify s.dl.slots n f } := rfl
@[simp] theorem modSlot_pl (n : Nat) (f : Slot → Slot) : (s.modSlot n f).pl = s.pl := rfl
@[simp] theorem modSlot_boot (n : Nat) (f : Slot → Slot) : (s.modSlot n f).boot = s.boot := rfl
@[simp] theorem modSlot_pw (n : Nat) (f : Slot → Slot) : (s.modSlot n f).pw = s.pw := rfl
@[simp] theorem modSlot_mc (n : Nat) (f : Slot → Slot) : (s.modSlot n f).mc = s.mc := rfl
@[simp] theorem modSlot_mdc (n : Nat) (f : Slot → Slot) : (s.modSlot n f).mdc = s.mdc := rfl
@[simp] theorem modSlot_xm (n : Nat) (f : Slot → Slot) : (s.modSlot n f).xm = s.xm := rfl
@[simp] theorem modSlot_ce (n : Nat) (f : Slot → Slot) : (s.modSlot n f).ce = s.ce := rfl
@[simp] theorem modSlot_cl (n : Nat) (f : Slot → Slot) : (s.modSlot n f).cl = s.cl := rfl

@[simp] theorem setXmChan_pending (n : Nat) (c : XmChan) : (s.setXmChan n c).pending = s.pending := rfl
@[simp] theorem setXmChan_variant (n : Nat) (c : XmChan) : (s.setXmChan n c).variant = s.variant := rfl
@[simp] theorem setXmChan_stepB0 (n : Nat) (c : XmChan) : (s.setXmChan n c).stepB0 = s.stepB0 := rfl
@[simp] theorem setXmChan_devNs (n : Nat) (c : XmChan) : (s.setXmChan n c).devNs = s.devNs := rfl
@[simp] theorem setXmChan_devFrac (n : Nat) (c : XmChan) : (s.setXmChan n c).devFrac = s.devFrac := rfl
@[simp] theorem setXmChan_timeSet (n : Nat) (c : XmChan) : (s.setXmChan n c).timeSet = s.timeSet := rfl
@[simp] theorem setXmChan_draws (n : Nat) (c : XmChan) : (s.setXmChan n c).draws = s.draws := rfl
@[simp] theorem setXmChan_latch (n : Nat) (c : XmChan) : (s.setXmChan n c).latch = s.latch := rfl
@[simp] theorem setXmChan_staged (n : Nat) (c : XmChan) : (s.setXmChan n c).staged = s.staged := rfl
@[simp] theorem setXmChan_regs (n : Nat) (c : XmChan) : (s.setXmChan n c).regs = s.regs := rfl
@[simp] theorem setXmChan_dram (n : Nat) (c : XmChan) : (s.setXmChan n c).dram = s.dram := rfl
@[simp] theorem setXmChan_sram (n : Nat) (c : XmChan) : (s.setXmChan n c).sram = s.sram := rfl
@[simp] theorem setXmChan_out (n : Nat) (c : XmChan) : (s.setXmChan n c).out = s.out := rfl
@[simp] theorem setXmChan_ev (n : Nat) (c : XmChan) : (s.setXmChan n c).ev = s.ev := rfl
@[simp] theorem setXmChan_qm (n : Nat) (c : XmChan) : (s.setXmChan n c).qm = s.qm := rfl
@[simp] theorem setXmChan_sec (n : Nat) (c : XmChan) : (s.setXmChan n c).sec = s.sec := rfl
@[simp] theorem setXmChan_se (n : Nat) (c : XmChan) : (s.setXmChan n c).se = s.se := rfl
@[simp] theorem setXmChan_eb (n : Nat) (c : XmChan) : (s.setXmChan n c).eb = s.eb := rfl
@[simp] theorem setXmChan_dl (n : Nat) (c : XmChan) : (s.setXmChan n c).dl = s.dl := rfl
@[simp] theorem setXmChan_pl (n : Nat) (c : XmChan) : (s.setXmChan n c).pl = s.pl := rfl
@[simp] theorem setXmChan_boot (n : Nat) (c : XmChan) : (s.setXmChan n c).boot = s.boot := rfl
@[simp] theorem setXmChan_pw (n : Nat) (c : XmChan) : (s.setXmChan n c).pw = s.pw := rfl
@[simp] theorem setXmChan_mc (n : Nat) (c : XmChan) : (s.setXmChan n c).mc = s.mc := rfl
@[simp] theorem setXmChan_mdc (n : Nat) (c : XmChan) : (s.setXmChan n c).mdc = s.mdc := rfl
@[simp] theorem setXmChan_xm (n : Nat) (c : XmChan) : (s.setXmChan n c).xm = { chans := Tab.set s.xm.chans n c } := rfl
@[simp] theorem setXmChan_ce (n : Nat) (c : XmChan) : (s.setXmChan n c).ce = s.ce := rfl
@[simp] theorem setXmChan_cl (n : Nat) (c : XmChan) : (s.setXmChan n c).cl = s.cl := rfl

@[simp] theorem setEbSlot_pending (i : Nat) (x : EbSlot) : (s.setEbSlot i x).pending = s.pending := rfl
@[simp] theorem setEbSlot_variant (i : Nat) (x : EbSlot) : (s.setEbSlot i x).variant = s.variant := rfl
@[simp] theorem setEbSlot_stepB0 (i : Nat) (x : EbSlot) : (s.setEbSlot i x).stepB0 = s.stepB0 := rfl
@[simp] theorem setEbSlot_devNs (i : Nat) (x : EbSlot) : (s.setEbSlot i x).devNs = s.devNs := rfl
@[simp] theorem setEbSlot_devFrac (i : Nat) (x : EbSlot) : (s.setEbSlot i x).devFrac = s.devFrac := rfl
@[simp] theorem setEbSlot_timeSet (i : Nat) (x : EbSlot) : (s.setEbSlot i x).timeSet = s.timeSet := rfl
@[simp] theorem setEbSlot_draws (i : Nat) (x : EbSlot) : (s.setEbSlot i x).draws = s.draws := rfl
@[simp] theorem setEbSlot_latch (i : Nat) (x : EbSlot) : (s.setEbSlot i x).latch = s.latch := rfl
@[simp] theorem setEbSlot_staged (i : Nat) (x : EbSlot) : (s.setEbSlot i x).staged = s.staged := rfl
@[simp] theorem setEbSlot_regs (i : Nat) (x : EbSlot) : (s.setEbSlot i x).regs = s.regs := rfl
@[simp] theorem setEbSlot_dram (i : Nat) (x : EbSlot) : (s.setEbSlot i x).dram = s.dram := rfl
@[simp] theorem setEbSlot_sram (i : Nat) (x : EbSlot) : (s.setEbSlot i x).sram = s.sram := rfl
@[simp] theorem setEbSlot_out (i : Nat) (x : EbSlot) : (s.setEbSlot i x).out = s.out := rfl
@[simp] theorem setEbSlot_ev (i : Nat) (x : EbSlot) : (s.setEbSlot i x).ev = s.ev := rfl
@[simp] theorem setEbSlot_qm (i : Nat) (x : EbSlot) : (s.setEbSlot i x).qm = s.qm := rfl
@[simp] theorem setEbSlot_sec (i : Nat) (x : EbSlot) : (s.setEbSlot i x).sec = s.sec := rfl
@[simp] theorem setEbSlot_se (i : Nat) (x : EbSlot) : (s.setEbSlot i x).se = s.se := rfl
@[simp] theorem setEbSlot_eb (i : Nat) (x : EbSlot) : (s.setEbSlot i x).eb = { s.eb with slots := s.eb.slots.set i x } := rfl
@[simp] theorem setEbSlot_dl (i : Nat) (x : EbSlot) : (s.setEbSlot i x).dl = s.dl := rfl
@[simp] theorem setEbSlot_pl (i : Nat) (x : EbSlot) : (s.setEbSlot i x).pl = s.pl := rfl
@[simp] theorem setEbSlot_boot (i : Nat) (x : EbSlot) : (s.setEbSlot i x).boot = s.boot := rfl
@[simp] theorem setEbSlot_pw (i : Nat) (x : EbSlot) : (s.setEbSlot i x).pw = s.pw := rfl
@[simp] theorem setEbSlot_mc (i : Nat) (x : EbSlot) : (s.setEbSlot i x).mc = s.mc := rfl
@[simp] theorem setEbSlot_mdc (i : Nat) (x : EbSlot) : (s.setEbSlot i x).mdc = s.mdc := rfl
@[simp] theorem setEbSlot_xm (i : Nat) (x : EbSlot) : (s.setEbSlot i x).xm = s.xm := rfl
@[simp] theorem setEbSlot_ce (i : Nat) (x : EbSlot) : (s.setEbSlot i x).ce = s.ce := rfl
@[simp] theorem setEbSlot_cl (i : Nat) (x : EbSlot) : (s.setEbSlot i x).cl = s.cl := rfl

end Sys2Proof.Machine
end

