-- ==== Sys2Proof/Tests/Demo.lean ====
section
/-! SUPPORT. Small states and host commands that the tests and the witnesses of the statements share. -/

namespace Sys2Proof.Tests

open Sys2Proof Sys2Proof.Machine

/-! ### Entries -/

/-- Bytes of an entry with some of them set. -/
def put (bs : List Byte) (f : Nat × List Byte) : List Byte := bs.take f.1 ++ f.2 ++ bs.drop (f.1 + f.2.length)

/-- A host command of `n` slots from queue `q` of function `x`: opcode, and fields by entry byte, length and value. -/
def cmd (x q op n : Nat) (fs : List (Nat × Nat × Nat)) (read : HostRead := {}) : HostCmd :=
  let bs := fs.foldl (fun b f => put b (f.1, leBytes f.2.1 f.2.2)) (zeros (64 * n))
  let bs := put bs (0, [BitVec.ofNat 8 op, BitVec.ofNat 8 n])
  { x := x, sq := q, slots := (List.range n).map (fun i => (bs.drop (64 * i)).take 64), read := read }

/-- The decidable form of `Takes`. -/
def takes (s : State) (op : Nat) (c : HostCmd) (q : Nat) : Bool :=
  s.up && decide (s.dqNum c.x c.sq = some q) && s.canConsume q && decide (entryOpcode c = op) &&
    decide (1 ≤ entrySlots c ∧ entrySlots c ≤ 16)

theorem takes_of {s : State} {op q : Nat} {c : HostCmd} (h : takes s op c q = true) : Takes s op c q := by
  simp only [takes, Bool.and_eq_true, decide_eq_true_eq] at h
  exact ⟨h.1.1.1.1, h.1.1.1.2, h.1.1.2, h.1.2, h.2⟩

/-- The decidable form of `WriteTaken`. -/
def writable (s : State) (port a : Nat) : Bool :=
  s.up && !s.absentAt a && !s.gatedAt a && (s.admin (port * 65) 3 || s.hasSession (port * 65))

theorem writable_of {s : State} {port a : Nat} (h : writable s port a = true) : WriteTaken s port a := by
  simp only [writable, Bool.and_eq_true, Bool.or_eq_true, Bool.not_eq_true'] at h
  exact ⟨h.1.1.1, h.1.1.2, h.1.2, h.2⟩

/-! ### States -/

/-- A function that may fetch. -/
def fnOn : Fn := { Fn.blank with present := true, bme := true, ctlq := 1, msixOn := true, unmasked := [0] }

/-- A submission queue of 16 slots that feeds completion queue `cq`. -/
def sqOf (cq : Nat) : Sq :=
  { log2 := 4, base := 0x10000, a := 0, c := 0, cq := cq, weight := 1, burst := 1, prefetch := 0, pollUs := 8, credits := 1, slots := [] }

/-- A completion queue of 16 entries. -/
def cqOf : Cq :=
  { log2 := 4, base := 0x20000, vector := some 0, coalCount := 1, coalUs := 0, spillLimit := 64, pc := 0, h := 0, spill := [],
    outstanding := 0, closed := false, unsignalled := 0 }

/-- A running device without pools: the management function of port 0 holds the owner session and device queue 0, the first
data function device queue 1. -/
def up : State :=
  { State.reset with
    boot := { BootUnit.reset with fwReady := true, phase := 3 }
    sec := { SecUnit.reset with session := some ⟨0, 0, 0⟩, enrolled := [0], ownerKeys := [(0, 5)] }
    qm := { QmUnit.reset with fns := [(0, fnOn), (1, fnOn)]
                              queues := [(0, ⟨0, 0, some (sqOf 0), some cqOf⟩), (1, ⟨1, 0, some (sqOf 1), some cqOf⟩)] } }

/-- The code of the pool: k = 2, m = 1, chunks of 256 KiB, bands of 256 MiB. -/
def par : Params := { k := 2, m := 1, chunk := 0, bandMiB := 256, d := 3, single := false, gen := 1 }

/-- A drive of 8 GiB in the state of a member of pool 1 or free. -/
def driveOf (n : Nat) (st : MemberState) (pool : Nat) : Drive :=
  { Sys2Proof.Machine.Drive.missing 0 0 st with
    info := { (Sys2Proof.Machine.Drive.missing 0 0 st).info with wwn := 100 + n, capacity := 8 * 2 ^ 30, block := 4096 }
    state := st, pool := pool, linkDown := false, classified := true, prRegistered := true, prHeld := true }

/-- A slot whose drive is awake. -/
def slotOf : Slot :=
  { Slot.blank with present := true, pwrEn := true, pwrGood := true, linkUp := true, known := true, cond := .idle }

/-- Pool 1 on the drives of slots 0 to 2. -/
def pool1 : Pool :=
  { Sys2Proof.Machine.Pool.created 0 7 (zeros 32) par Policy.default [0, 1, 2] [0, 1, 2] 1 1000 0 with
    state := .online, members := [0, 1, 2], nextFresh := 3, sealSeq := 4, appendSeq := 9 }

/-- An extent of one page at page `off`. -/
def ent (off : Nat) : DirEnt := { DirEnt.placed off 4096 (off + 1) 77 false 0 with cmd := none, arrived := 4096, hash := some 0 }

/-- A WRITTEN stripe of pool 1 with two extents. -/
def written2 : Stripe :=
  { Stripe.fresh 1 0 0 0 false false with
    state := .written, dir := [ent 0, ent 1], nextUnit := 2, sealSeq := 4, chunkOffset := 5121, coded := true }

/-- The device with pool 1 ONLINE, its set 0 with band 5 open, spare drives in slots 3 to 5: stripe 0 is open with one extent, stripe 1
SEALED, stripe 2 WRITTEN. -/
def pooled : State :=
  { up with
    se := { SeUnit.reset with
      pools := [(1, pool1)]
      sets := [(0, { SetRec.built 1 par false [0, 1, 2] with openBand := some 5, openFill := 2 })]
      stripes := [(stripeKey 1 0, { Stripe.fresh 1 0 0 0 false false with dir := [ent 0], nextUnit := 1 }),
                  (stripeKey 1 1, { Stripe.fresh 1 0 0 0 false false with
                    state := .sealed, dir := [ent 0], nextUnit := 1, sealSeq := 3, chunkOffset := 5120, coded := true }),
                  (stripeKey 1 2, written2)]
      drives := [(0, driveOf 0 .active 1), (1, driveOf 1 .active 1), (2, driveOf 2 .active 1), (3, driveOf 3 .candidate 64),
                 (4, driveOf 4 .candidate 64), (5, driveOf 5 .candidate 64)]
      covered := true, wComputed := true, w := 2 ^ 36, wTarget := 2 ^ 36 }
    dl := { DlUnit.reset with slots := (List.range 6).map (fun n => (n, slotOf)) } }

end Sys2Proof.Tests
end

