-- ==== Sys2Proof/Tests/Slice0.lean ====
section
/-! SUPPORT. Worked examples of the manual, ill-formed commands, and for every statement with hypotheses a state and operands that
meet them: `meets_<Statement>`, clause by clause. A hypothesis that is a verdict of a free function (a signature's) has no witness
here. -/

namespace Sys2Proof.Tests

open Sys2Proof Sys2Proof.Machine

set_option Elab.async false

/-- The state in which a taken command runs. -/
def tk (s : State) (q : Nat) (c : HostCmd) : State := (s.taken q c).2

theorem takes_all {s : State} {q : Nat} {l : List (Nat × HostCmd)} (h : l.all (fun e => takes s e.1 e.2 q) = true) :
    ∀ e ∈ l, Takes s e.1 e.2 q := fun e he => takes_of (List.all_eq_true.1 h e he)

theorem writable_all {s : State} {l : List Nat} (h : l.all (fun a => writable s 0 a) = true) : ∀ a ∈ l, WriteTaken s 0 a :=
  fun a ha => writable_of (List.all_eq_true.1 h a ha)

/-! ### Registers, memory controller, cache and mover -/

theorem meets_CommandsLeaveQueue : exec .appendAdmit up = .next (up.whenUp State.admitHeld) := rfl

theorem meets_EmptyQueueTicks : State.reset.pending = [] := rfl

/-- A step on a device with a blown fuse. -/
theorem meets_BlownFusesStay : ∃ t, step { up with sec := { up.sec with fuses := [3] } } = .next t := ⟨_, rfl⟩

theorem meets_StepsKeepForms : State.reset.wf ∧ ∃ t, step State.reset = .next t :=
  ⟨⟨by decide +kernel, by decide +kernel, by decide +kernel⟩, _, rfl⟩

theorem meets_MemoryFrame : (Instr.appendAdmit).storesMemory = false := by decide +kernel

theorem meets_RegisterWriteFields :
    WriteTaken up 0 (EV_RATE.at 0) ∧ EV_RATE.at 0 % 4 = 0 ∧ regLookup (EV_RATE.at 0) = some (EV_RATE, 0, 0) ∧ EV_RATE.plain = true :=
  ⟨writable_of (by decide +kernel), by decide +kernel⟩

/-- A device without climate unit. -/
def noCl : State := { up with variant := .fc }

theorem meets_AbsentUnitReadsZero :
    noCl.up = true ∧ CL_STATUS.at 0 % 4 = 0 ∧ (regLookup (CL_STATUS.at 0)).isSome = true ∧ noCl.absentAt (CL_STATUS.at 0) = true := by
  decide +kernel

theorem meets_OtherAccessHasNoEffect : up.up = true ∧ 2 % 4 ≠ 0 := by decide +kernel

/-- A device whose coding engine is gated. -/
def gated : State := { up with pw := { PwUnit.reset with doms := [((domainAt (CE_CTL.at 0)).getD 0, 2)] } }

/-- A device without session whose management function lacks REG_WRITE. -/
def noRight : State := { up with sec := { up.sec with session := none, table := [(0, ⟨256, 0, 0⟩)] } }

theorem meets_RefusedWritesAreDiscarded :
    noRight.up = true ∧ regLookup (EV_RATE.at 0) = some (EV_RATE, 0, 0) ∧ noRight.absentAt (EV_RATE.at 0) = false ∧
    noRight.gatedAt (EV_RATE.at 0) = false ∧ noRight.admin 0 3 = false ∧ noRight.hasSession 0 = false ∧
    gated.up = true ∧ (regLookup (CE_CTL.at 0)).isSome = true ∧ gated.absentAt (CE_CTL.at 0) = false ∧ gated.gatedAt (CE_CTL.at 0) = true := by
  decide +kernel

theorem meets_LowHalfReadLatches :
    (latchingLow.all (fun r => decide (r.at 0 % 4 = 0) && (regLookup (r.at 0)).isSome && !up.absentAt (r.at 0) && !up.gatedAt (r.at 0))) = true := by
  decide +kernel

theorem meets_ErrorCounterReadClears : up.up = true ∧ up.gatedAt (QM_FN_ERR.at 129) = false := by decide +kernel

/-- Channel 5 of the mover runs, channel 6 holds a MOVE from DRAM to SRAM, channel 7 waits for event flag 3. -/
def moving : State :=
  let m : Move := { srcSpace := 0, dstSpace := 1, src := 64, dst := 128, len := 8, done := 0, down := false, paced := false, line := 0,
                    burst := 8, half := false, full := true, inBurst := true, retryAt := false }
  let s := { up with xm := { chans := [(6, ⟨some m, [], none, [], 0⟩), (7, ⟨none, [], some (true, 3), [], 0⟩), (8, ⟨some { m with retryAt := true }, [], none, [], 0⟩)] } }
  let s := ((((s.setXmState 5 xmRun).setXmState 6 xmRun).setXmState 7 xmWaiting).setXmState 8 xmRun)
  ((s.setXmFlag 4 true).setFld XM_CH_CFG 6 XM_CH_CFG_RETRY 0).setFld XM_CH_CFG 8 XM_CH_CFG_RETRY 3

theorem meets_ErrorsAndHammering : up.up = true ∧ 63 < 64 ∧ 15 < 16 ∧ 2 ^ 18 - 1 < 2 ^ 18 ∧ 11 < 12 := by decide +kernel

/-- Channel 63 is in step 6 of its retraining. -/
def training : State := { up with mc := { McUnit.reset with step := some (63, 6) } }

theorem meets_ChannelsFollowTemperature :
    WriteTaken up 0 (MC_RETRAIN.at 0) ∧ (∃ v, MC_RETRAIN_GO.get v = 1 ∧ MC_RETRAIN_CHANNEL.get v = 63) ∧
    up.mc.step = none ∧ up.mc.retrain = [] ∧ up.fld MC_CH_STATUS 63 MC_CH_STATUS_STATE = 0 ∧
    training.mc.step = some (63, 6) ∧ training.mc.discard = false :=
  ⟨writable_of (by decide +kernel), ⟨MC_RETRAIN_CHANNEL.put (MC_RETRAIN_GO.put 0 1) 63, by decide +kernel⟩, by decide +kernel⟩

theorem meets_PagesAndDiagnostics :
    WriteTaken up 0 (MC_CH_DIAG_CTL.at 63) ∧ (∃ v, MC_CH_DIAG_CTL_GO.get v = 1 ∧ MC_CH_DIAG_CTL_OP.get v ≠ 0) ∧
    up.fld MC_CH_DIAG_CTL 63 MC_CH_DIAG_CTL_BUSY = 0 ∧
    (up.setFld MC_CH_DIAG_CTL 63 MC_CH_DIAG_CTL_BUSY 1).fld MC_CH_DIAG_CTL 63 MC_CH_DIAG_CTL_BUSY = 1 ∧
    (mcMap (2 ^ 37)).isSome = true ∧ mcRegionOf (2 ^ 37) = mcRegionOf (2 ^ 37 + 64) :=
  ⟨writable_of (by decide +kernel), ⟨MC_CH_DIAG_CTL_OP.put (MC_CH_DIAG_CTL_GO.put 0 1) 1, by decide +kernel⟩, by decide +kernel⟩

/-- A cache that holds one line, and a CLASS operation under way with a fill that is left in it. -/
def cached : State := { up with mdc := { MdcUnit.reset with ways := [(16 * mdcSet (2 ^ 37), ⟨2 ^ 37, 1, false⟩)] } }
def maintained : State := { up with mdc := { MdcUnit.reset with maint := some ⟨2, 0, 0, 0⟩ } }

theorem meets_CacheLooksUp :
    cached.up = true ∧ cached.pw.unitBusy.contains 3 = false ∧ cached.fld MDC_CTL 0 MDC_CTL_EN = 1 ∧ mdcCached 0 = false ∧
    mdcCached (2 ^ 37) = true ∧ cached.mdcCovered (mdcLine (2 ^ 37)) 1 = false ∧ cached.mdcWay? (mdcLine (2 ^ 37)) = some 0 ∧
    cached.mdcWay? (mdcLine (2 ^ 37 + 128)) = none := by decide +kernel

theorem meets_MaintenanceRuns :
    WriteTaken up 0 (MDC_MAINT_CTL.at 0) ∧ WriteTaken up 0 (MDC_CTL.at 0) ∧
    (∀ op ∈ [1, 2, 3], ∃ v, MDC_MAINT_CTL_GO.get v = 1 ∧ MDC_MAINT_CTL_OP.get v = op) ∧
    (up.setFld MDC_MAINT_LINES 0 MDC_MAINT_LINES_LINES 1).fld MDC_MAINT_LINES 0 MDC_MAINT_LINES_LINES ≠ 0 ∧
    up.mdc.maint = none ∧ maintained.mdc.maint = some ⟨2, 0, 0, 0⟩ ∧ maintained.mdc.fills = [] ∧
    up.fld MDC_CTL 0 MDC_CTL_EN = 1 ∧ MDC_CTL_EN.get 0 = 0 ∧ MDC_CTL_HERITAGE.get 0 = up.fld MDC_CTL 0 MDC_CTL_HERITAGE :=
  ⟨writable_of (by decide +kernel), writable_of (by decide +kernel),
    fun op _ => ⟨MDC_MAINT_CTL_OP.put (MDC_MAINT_CTL_GO.put 0 1) op, by revert op; decide +kernel⟩, by decide +kernel⟩

theorem meets_MoverChannelControl :
    WriteTaken moving 0 (XM_CH_CTL.at 5) ∧ moving.xmState 4 = xmIdle ∧ moving.xmState 5 = xmRun ∧ (moving.xmChan 5).move = none ∧
    (∀ fs ∈ [XM_CH_CTL_START, XM_CH_CTL_PAUSE, XM_CH_CTL_STOP], fs.get (fs.put 0 1) = 1) :=
  ⟨writable_of (by decide +kernel), by decide +kernel⟩

theorem meets_MoverRunsPrograms :
    moving.up = true ∧ moving.xmState 5 = xmRun ∧ (moving.xmChan 5).move = none ∧ leAt [8] 0 1 > 7 ∧
    (∀ op ∈ [0, 7], xmReservedOk op false (padTo 32 [BitVec.ofNat 8 op]) = true) ∧ moving.xmPc 5 + 32 < 2 ^ 64 ∧
    xmReservedOk 4 false (padTo 32 [4, 0, 1, 4]) = true ∧ moving.xmFlag 4 = true ∧
    (∀ bs ∈ [[8], [0], [7], [4, 0, 1, 4]],
      State.xmFetch { moving with dram := memWrite moving.dram (moving.xmPc 5) (padTo 32 bs) } 5 = some (padTo 32 bs)) ∧
    moving.xmState 6 = xmRun ∧ (moving.xmChan 6).move.isSome = true := by decide +kernel

theorem meets_MoverFlagsLinesErrors :
    WriteTaken moving 0 (XM_EVENT_SET.at 0) ∧ moving.xmFlagTaker 31 = none ∧ moving.xmFlagTaker 3 = some 7 ∧
    moving.fld XM_CH_STATUS 6 XM_CH_STATUS_RETRIES ≥ moving.fld XM_CH_CFG 6 XM_CH_CFG_RETRY ∧
    moving.fld XM_CH_STATUS 8 XM_CH_STATUS_RETRIES < moving.fld XM_CH_CFG 8 XM_CH_CFG_RETRY ∧
    (moving.xmChan 8).move.map (·.retryAt) = some true :=
  ⟨writable_of (by decide +kernel), by decide +kernel⟩

/-! ### Queues -/

/-- Device queue 0 with 3 entries announced from index 0xFFFF_FFFE on, a completion the host has not taken, and a doorbell error of
function 2. -/
def ring : State :=
  { up with qm := { up.qm with queues := [
      (0, ⟨0, 0, some { sqOf 0 with c := 0xFFFFFFFE, a := 1 }, some { cqOf with pc := 1, unsignalled := 1, coalUs := 5, coalCount := 9 }⟩)] } }

theorem meets_SubmissionTailWrites :
    ring.up = true ∧ ring.dqNum 0 0 = some 0 ∧ (ring.sq? 0).isSome = true ∧
    idxSub 14 0xFFFFFFFE = 16 ∧ idxSub 15 0xFFFFFFFE = 17 ∧ (sqOf 0).size = 16 := by decide +kernel

theorem meets_CompletionHeadWrites :
    ring.dqNum 0 0 = some 0 ∧ (ring.cq? 0).map (fun c => (c.inRing, c.spill.length)) = some (1, 0) ∧ idxSub 1 0 ≤ 1 ∧ 1 < idxSub 2 0 := by
  decide +kernel

theorem meets_DoorbellForms :
    ring.up = true ∧ ring.dqNum 2 0 = none ∧ (ring.fn 2).strayArmed = true ∧
    ((ring.setFn 2 { Fn.blank with strayArmed := false }).fn 2).strayArmed = false := by decide +kernel

/-- The same ring with its first slot read. -/
def readOne : State :=
  { ring with qm := { ring.qm with queues := [
      (0, ⟨0, 0, some { sqOf 0 with c := 0, a := 1, slots := [(0, padTo 63 [0x41, 1] ++ [1])] }, some cqOf⟩)] } }

theorem meets_EntriesAreReadAndConsumed :
    Takes up 0x40 (cmd 0 0 0x40 1 []) 0 ∧ (up.sq? 0).isSome = true ∧ (ring.sq? 0).map (·.waiting) = some [0, 1, 2] ∧
    ring.canConsume 0 = true ∧ (ring.sq? 0).map (·.pollUs) = some 8 ∧ idxSub 0 0xFFFFFFFE < 3 ∧
    Tab.get? ring.qm.visit (2 * ring.portOf 0 + ring.tierOf 0) = none ∧ (ring.sq? 0).map (fun a => (a.slotValid a.c, a.size)) = some (false, 16) :=
  ⟨takes_of (by decide +kernel), by decide +kernel⟩

/-- The management function before its control queue is enabled. -/
def noCtlq : State := { up with qm := { QmUnit.reset with fns := [(0, { fnOn with ctlq := 0 })] } }

theorem meets_ControlQueueEnables :
    noCtlq.up = true ∧ (noCtlq.fn 0).present = true ∧ (noCtlq.fn 0).ctlq.toNat % 2 = 0 ∧ noCtlq.dqNum 0 0 = none ∧
    (noCtlq.bindQueue 0 0).isSome = true ∧ ctlqFields 0x03F00401 = (4, 16, 31) ∧ 31 < noCtlq.vectorsOf 0 ∧ noCtlq.spillFree 64 = true ∧
    (up.fn 0).ctlq.toNat % 2 = 1 ∧ up.qm.queues.any (fun e => e.2.x = 0 && e.2.loc != 0) = false := by decide +kernel

theorem meets_VisitsAndVectors :
    up.eligibleIn 0 0 = [] ∧ up.eligibleIn 0 1 = [] ∧ readOne.eligibleIn 0 0 = [0] ∧ readOne.eligible 0 = true ∧
    (readOne.sq? 0).map (fun a => (a.credits, a.burst)) = some (1, 1) ∧
    (ring.cq? 0).map (fun c => (c.vector, c.unsignalled)) = some (some 0, 1) ∧ (ring.fn 0).msixOn = true ∧ 0 < ring.vectorsOf 0 ∧
    (ring.fn 0).unmasked.contains 0 = true := by decide +kernel

theorem meets_FunctionsComeAndGo :
    WriteTaken up 0 (QC_SQ_ARB.at 0) ∧ (up.fn 1).present = true ∧ up.vfsOf 129 = [] ∧ (up.sq? 0).isSome = true :=
  ⟨writable_of (by decide +kernel), by decide +kernel⟩

/-! ### Commands of the hosts -/

/-- The locator of an extent of one page of pool 1, as a number. -/
def loc (n off : Nat) : Nat := leVal (locatorBytes 1 n off 4096)

def cAppend := cmd 1 0 1 2 [(8, 2, 1), (10, 2, 1), (12, 4, 4096), (64, 8, 0x5000), (72, 4, 4096)]
def cRead := cmd 1 0 2 2 [(8, 16, loc 2 0), (56, 2, 1), (64, 8, 0x5000), (72, 4, 4096)]
def cRelease (n tag : Nat) := cmd 1 0 3 2 [(8, 2, 1), (64, 16, loc n 0), (80, 32, tag)]
def cCopy (tag : Nat) := cmd 1 0 4 2 [(8, 2, 1), (10, 2, 1), (16, 8, 0x5000), (24, 4, 32), (64, 16, loc 2 0), (80, 32, tag)]
def cSeal := cmd 1 0 5 1 [(8, 2, 1)]
def cFlush := cmd 1 0 6 1 [(8, 2, 1)]
def cQuery := cmd 1 0 7 1 [(8, 16, loc 2 0)]
/-- The slots of new drives, as a command reads them. -/
def drv : HostRead := { data := some ([3, 4, 5].flatMap (leBytes 2)) }
def cCreate := cmd 0 0 0x20 2 [(8, 1, 2), (9, 1, 2), (10, 1, 1), (13, 1, 3), (28, 2, 3), (32, 8, 0x9000), (40, 4, 6)] drv
def cGrow := cmd 0 0 0x21 1 [(8, 1, 1), (28, 2, 3), (32, 8, 0x9000), (40, 4, 6)] drv
def cSet := cmd 0 0 0x22 1 [(8, 1, 1), (12, 2, 1), (15, 1, 4)]
def cDelete := cmd 0 0 0x23 1 [(2, 2, 0x100), (8, 1, 1)]
/-- A command that names pool 1 alone. -/
def cPool (op : Nat) := cmd 0 0 op 1 [(8, 1, 1)]
def cScarf := cmd 0 0 0x28 1 [(8, 1, 1), (9, 1, 2), (10, 1, 1), (13, 1, 3), (28, 2, 3), (32, 8, 0x9000), (40, 4, 6)] drv
def cLocate := cmd 0 0 0x30 1 [(8, 2, 0), (10, 1, 6), (12, 2, 0xFFFF), (14, 1, 1)]
/-- DRIVE_SET of slot 0 with an action. -/
def cDriveSet (act : Nat) := cmd 0 0 0x30 1 [(2, 2, 0x100), (8, 2, 0), (10, 1, act), (12, 2, 0xFFFF)]
def cTime (t : Nat) := cmd 0 0 0x40 1 [(8, 8, t)]
def cProt := cmd 0 0 0x53 1 [(8, 1, 0), (9, 1, 1), (10, 2, 64)]
/-- QUEUE_CREATE of a queue of function 0 at local number 1. -/
def cQueue (kind : Nat) := cmd 0 0 0x70 1
  (if kind = 0 then [(8, 1, 0), (9, 1, 4), (10, 2, 1), (16, 8, 0x30000), (24, 2, 0xFFFF), (26, 1, 1)]
   else [(8, 1, 1), (9, 1, 4), (10, 2, 1), (16, 8, 0x30000), (26, 1, 1), (27, 1, 1)])
def cDrop (kind n : Nat) := cmd 0 0 0x71 1 [(8, 1, kind), (10, 2, n)]
def cOrphans := cmd 1 0 0x72 1 [(8, 2, 0xFFFF), (12, 4, 1), (32, 8, 0x9000), (40, 4, 64)]
def cSettle := cmd 1 0 0x73 1 [(8, 2, 0xFFFF), (12, 4, 1), (16, 8, 0x9000), (24, 4, 16)] { data := some (leBytes 16 (1 + 5 * 2 ^ 64)) }

/-- A pool identifier, locator, slot or field that the checks refuse. -/
theorem meets_FailedChecksEndCommands :
    (∀ e ∈ [(0x01, cmd 1 0 1 2 []), (0x02, cmd 1 0 2 2 []), (0x03, cmd 1 0 3 1 []), (0x04, cmd 1 0 4 1 [])], Takes pooled e.1 e.2 1) ∧
    (∀ e ∈ [(0x20, cmd 1 0 0x20 2 []), (0x30, cmd 1 0 0x30 1 []), (0x40, cmd 1 0 0x40 1 []), (0x53, cmd 1 0 0x53 1 [])], Takes pooled e.1 e.2 1) ∧
    Takes pooled 0x70 (cQueue 1) 0 ∧
    (tk pooled 1 (cmd 1 0 1 2 [])).appendChecks (cmd 1 0 1 2 []) = some (stBadDescriptor, 0) ∧
    (tk pooled 1 (cmd 1 0 2 2 [])).readChecks (cmd 1 0 2 2 []) = some (stBadDescriptor, 0) ∧
    (tk pooled 1 (cmd 1 0 3 1 [])).releaseChecks (cmd 1 0 3 1 []) = some (stMalformed, 8) ∧
    (tk pooled 1 (cmd 1 0 4 1 [])).copyChecks (cmd 1 0 4 1 []) = some (stMalformed, 10) ∧
    (tk pooled 1 (cmd 1 0 0x20 2 [])).poolCreatePre (cmd 1 0 0x20 2 []) = some (stAccessDenied, 0) ∧
    (tk pooled 1 (cmd 1 0 0x30 1 [])).driveSetPre (cmd 1 0 0x30 1 []) = some (stAccessDenied, 0) ∧
    (tk pooled 1 (cmd 1 0 0x40 1 [])).timeSetPre (cmd 1 0 0x40 1 []) = some (stAccessDenied, 0) ∧
    (tk pooled 1 (cmd 1 0 0x53 1 [])).protectSetPre (cmd 1 0 0x53 1 []) = some (stAccessDenied, 0) ∧
    (State.queueCreatePre { tk pooled 0 (cQueue 1) with sec := { pooled.sec with table := [(0, ⟨1, 0, 0⟩)] } } 0 (cQueue 1)) =
      some (stQuotaExceeded, 0) :=
  ⟨takes_all (by decide +kernel), takes_all (by decide +kernel), takes_of (by decide +kernel), by decide +kernel⟩

/-- Pool 1 without an open stripe. -/
def closedPool : State := { pooled with se := { pooled.se with stripes := pooled.se.stripes.drop 1 } }

theorem meets_DataCommandsRun :
    (∀ e ∈ [(0x01, cAppend), (0x02, cRead), (0x03, cRelease 1 77), (0x03, cRelease 2 77), (0x03, cRelease 1 78), (0x04, cCopy 77),
      (0x04, cCopy 78), (0x05, cSeal), (0x06, cFlush), (0x07, cQuery)], Takes pooled e.1 e.2 1) ∧ Takes closedPool 0x05 cSeal 1 ∧
    (tk pooled 1 cAppend).appendChecks cAppend = none ∧ (tk pooled 1 cRead).readChecks cRead = none ∧
    (∀ e ∈ [(cRelease 1 77, Released.resolved), (cRelease 2 77, .pending), (cRelease 1 78, .rejected stTagMismatch)],
      (tk pooled 1 e.1).releaseChecks e.1 = none ∧
      (releaseItems e.1).map (fun i => ((tk pooled 1 e.1).releaseItem (locatorOf i.1) i.2).1) = [e.2]) ∧
    (∀ e ∈ [(cCopy 77, none), (cCopy 78, some stTagMismatch)], (tk pooled 1 e.1).copyChecks e.1 = none ∧
      (copySources e.1).map (fun i => (tk pooled 1 e.1).sourceCheck e.1 i) = [e.2]) ∧
    (tk pooled 1 cSeal).sealChecks cSeal = none ∧ (tk closedPool 1 cSeal).sealChecks cSeal = none ∧
    ((tk pooled 1 cSeal).openOf 1).any (fun e => !e.2.dir.isEmpty) = true ∧ (tk closedPool 1 cSeal).openOf 1 = [] ∧
    (tk pooled 1 cFlush).sealChecks cFlush = none ∧ (tk pooled 1 cQuery).queryChecks cQuery = none :=
  ⟨takes_all (by decide +kernel), takes_of (by decide +kernel), by decide +kernel⟩

/-- The management function with a completion queue at local number 1 that its submission queue 2 feeds, one at 3 that nothing feeds, and the
data function with an orphan. -/
def queued : State :=
  { up with qm := { up.qm with
      queues := up.qm.queues ++ [(2, ⟨0, 1, none, some cqOf⟩), (3, ⟨0, 2, some (sqOf 2), none⟩), (4, ⟨0, 3, none, some cqOf⟩)]
      orphans := [⟨1, 1, 5, 0, 0, locatorBytes 1 0 0 4096, 77, false⟩] } }

theorem meets_QueueCommandsRun :
    (∀ e ∈ [(0x70, cQueue 0), (0x70, cQueue 1)], Takes up e.1 e.2 0) ∧
    (∀ e ∈ [(0x71, cDrop 0 1), (0x71, cDrop 0 3), (0x71, cDrop 1 2)], Takes queued e.1 e.2 0) ∧
    (∀ e ∈ [(0x72, cOrphans), (0x73, cSettle)], Takes queued e.1 e.2 1) ∧
    (∀ kind ∈ [0, 1], (tk up 0 (cQueue kind)).queueCreatePre 0 (cQueue kind) = none ∧ ((tk up 0 (cQueue kind)).bindQueue 0 1).isSome = true) ∧
    (∀ e ∈ [(0, 1, 2), (0, 3, 4), (1, 2, 3)], (tk queued 0 (cDrop e.1 e.2.1)).queueDeletePre 0 (cDrop e.1 e.2.1) = none ∧
      (tk queued 0 (cDrop e.1 e.2.1)).dqNum 0 e.2.1 = some e.2.2) ∧
    (tk queued 0 (cDrop 0 1)).fed 2 = true ∧ (tk queued 0 (cDrop 0 3)).fed 4 = false ∧
    (tk queued 1 cOrphans).orphanListPre 0 cOrphans = none ∧ (tk queued 1 cSettle).orphanSettlePre 0 cSettle = none ∧
    settleItems cSettle = [(1, 5)] ∧ (queued.qm.orphans.find? (fun o => o.x = orphanTarget cSettle && o.pool = 1 && o.seq = 5)).isSome = true :=
  ⟨takes_all (by decide +kernel), takes_all (by decide +kernel), takes_all (by decide +kernel), by decide +kernel⟩

/-- The device while an earlier command of the same kind waits. -/
def busy (c : HostCmd) : State :=
  { pooled with qm := { pooled.qm with nextCmd := 1, cmds := [(0, ⟨0, 0, 0, 0, 0, 0, entryOpcode c, false, .serial c 0⟩)] } }

/-- Pool 1 in other states: waiting for the partner, in a PAIRED device, and with a scarf in state `k`. -/
def waitingPool : State := pooled.modPool 1 (fun x => { x with state := .assembling, recovery := .waitPartner })
def pairedPool : State := { pooled with pl := { PlUnit.reset with peer := .paired, pairMode := true } }
def scarfOf (k : ScarfState) : Scarf :=
  { state := k, old := par, oldEntries := 1000, oldSill := [0, 1, 2], oldJournal := [0, 1, 2], oldSillBands := 1, oldMembers := [0, 1, 2],
    newMembers := [0, 1, 2], taken := [], returnList := [], recopy := [], opened := [], commitMark := false }
def scarfed (k : ScarfState) : State := pooled.modPool 1 (fun x => { x with scarf := some (scarfOf k), params := { par with gen := 2 } })

theorem meets_AdminCommandsTakeTurns :
    (∀ e ∈ [(0x20, cCreate), (0x21, cGrow), (0x22, cSet), (0x23, cDelete), (0x25, cPool 0x25), (0x28, cScarf), (0x30, cLocate)],
      Takes pooled e.1 e.2 0) ∧
    (∀ e ∈ [(0x20, cCreate), (0x23, cDelete), (0x40, cTime 9)], Takes (busy e.2) e.1 e.2 0) ∧
    Takes waitingPool 0x24 (cPool 0x24) 0 ∧ Takes pairedPool 0x26 (cPool 0x26) 0 ∧ Takes (scarfed .copied) 0x29 (cPool 0x29) 0 ∧
    Takes (scarfed .copying) 0x2A (cPool 0x2A) 0 ∧ Takes (scarfed .stalled) 0x2A (cPool 0x2A) 0 ∧
    (∀ c ∈ [cCreate, cDelete, cTime 9], (tk (busy c) 0 c).blocked 1 c = true) ∧
    (∀ c ∈ [cCreate, cGrow, cSet, cDelete, cPool 0x25, cScarf, cLocate], (tk pooled 0 c).blocked 0 c = false) := by
  refine ⟨takes_all (by decide +kernel), ?_, takes_of (by decide +kernel), takes_of (by decide +kernel), takes_of (by decide +kernel),
    takes_of (by decide +kernel), takes_of (by decide +kernel), by decide +kernel⟩
  have h : ([(0x20, cCreate), (0x23, cDelete), (0x40, cTime 9)].all (fun e => takes (busy e.2) e.1 e.2 0)) = true := by decide +kernel
  exact fun e he => takes_of (List.all_eq_true.1 h e he)

theorem meets_AdminCommandsTakeTurns_checks :
    (tk pooled 0 cCreate).poolCreatePre cCreate = none ∧ (tk pooled 0 cCreate).poolState 2 = .none ∧
    (tk pooled 0 cCreate).pl.standby = [] ∧ drivesRead cCreate = none ∧ (tk pooled 0 cCreate).claimFree = true ∧
    (tk pooled 0 cCreate).createChecks cCreate = none ∧
    (tk pooled 0 cGrow).poolGrowPre cGrow = none ∧ (tk pooled 0 cGrow).adminPool 1 = none ∧ (tk pooled 0 cGrow).growChecks cGrow = none ∧
    (tk pooled 0 cSet).poolSetPre cSet = none ∧ (tk pooled 0 cSet).poolCheck 1 = none ∧ (tk pooled 0 cSet).pw.epoch = none ∧
    (tk pooled 0 cDelete).poolDeletePre cDelete = none ∧ (tk pooled 0 cDelete).poolUp 1 = true ∧ bit (entryFlags cDelete) 8 = true ∧
    (tk waitingPool 0 (cPool 0x24)).poolRecoverPre (cPool 0x24) = none ∧
    ((tk waitingPool 0 (cPool 0x24)).pool? 1).map (fun x => (x.state, x.recovery)) = some (.assembling, .waitPartner) ∧
    (tk pooled 0 (cPool 0x25)).lossClearPre (cPool 0x25) = none ∧ ((tk pooled 0 (cPool 0x25)).pool? 1).map (·.loss) = some [] := by
  decide +kernel

theorem meets_AdminCommandsTakeTurns_more :
    (tk pairedPool 0 (cPool 0x26)).poolGivePre (cPool 0x26) = none ∧ (tk pairedPool 0 (cPool 0x26)).pl.peer = .paired ∧
    (tk pairedPool 0 (cPool 0x26)).poolUp 1 = true ∧ ((tk pairedPool 0 (cPool 0x26)).pool? 1).map (·.giving) = some none ∧
    (tk pooled 0 cScarf).scarfStartPre cScarf = none ∧ (tk pooled 0 cScarf).scarf? 1 = none ∧ (tk pooled 0 cScarf).scarfChecks cScarf = none ∧
    (tk (scarfed .copied) 0 (cPool 0x29)).scarfEndPre (cPool 0x29) = none ∧ (tk (scarfed .copied) 0 (cPool 0x29)).adminPool 1 = none ∧
    (tk (scarfed .copied) 0 (cPool 0x29)).brokenHold 1 = false ∧
    ((tk (scarfed .copied) 0 (cPool 0x29)).scarf? 1).map (·.state) = some .copied ∧
    (∀ k ∈ [ScarfState.copying, .stalled], (tk (scarfed k) 0 (cPool 0x2A)).scarfEndPre (cPool 0x2A) = none ∧
      (tk (scarfed k) 0 (cPool 0x2A)).adminPool 1 = none ∧ (tk (scarfed k) 0 (cPool 0x2A)).returnSet 1 = [] ∧
      ((tk (scarfed k) 0 (cPool 0x2A)).scarf? 1).map (·.state) = some k) ∧
    (tk pooled 0 cLocate).driveSetPre cLocate = none ∧ ((tk pooled 0 cLocate).slot? 0).map (·.present) = some true := by
  decide +kernel

/-- The device with link die 0 gated. -/
def dieGated : State := { pooled with pw := { pooled.pw with doms := [(128, 2)] } }

theorem meets_AdminCommandsTakeTurns_dies :
    (entryDrives cCreate).any (tk pooled 0 cCreate).dieOff = false ∧ (entryDrives cGrow).any (tk pooled 0 cGrow).dieOff = false ∧
    ((tk pooled 0 cScarf).scarfTakes 1 (entryDrives cScarf)).any (tk pooled 0 cScarf).dieOff = false ∧
    Takes dieGated 0x21 cGrow 0 ∧ Takes dieGated 0x30 (cDriveSet 1) 0 ∧ Takes pooled 0x30 (cDriveSet 4) 0 ∧
    (entryDrives cGrow).any (tk dieGated 0 cGrow).dieOff = true ∧ (tk dieGated 0 cGrow).poolGrowPre cGrow = none ∧
    (tk dieGated 0 cGrow).adminPool 1 = none ∧ (tk dieGated 0 cGrow).claimFree = true ∧
    (∀ e ∈ [(dieGated, 1), (pooled, 4)], (tk e.1 0 (cDriveSet e.2)).driveSetPre (cDriveSet e.2) = none ∧
      (tk e.1 0 (cDriveSet e.2)).blocked 0 (cDriveSet e.2) = false ∧ ((tk e.1 0 (cDriveSet e.2)).slot? 0).map (·.present) = some true) ∧
    (tk dieGated 0 cGrow).blocked 0 cGrow = false ∧ (tk dieGated 0 (cDriveSet 1)).dieOff 0 = true ∧
    ((tk pooled 0 (cDriveSet 4)).drive? 0).isSome = true ∧ ((tk pooled 0 (cDriveSet 4)).memberPool 0).isSome = true ∧
    bit (entryFlags (cDriveSet 4)) 8 = true :=
  ⟨by decide +kernel, by decide +kernel, by decide +kernel, takes_of (by decide +kernel), takes_of (by decide +kernel),
    takes_of (by decide +kernel), by decide +kernel⟩

/-- The device at device time 5,000. -/
def later : State := { up with devNs := 5000, timeSet := true }

theorem meets_TimeSetTakesEffect :
    (∀ e ∈ [(0x40, cTime 4999), (0x40, cTime 5000)], Takes later e.1 e.2 0) ∧
    (∀ c ∈ [cTime 4999, cTime 5000], (tk later 0 c).timeSetPre c = none ∧ (tk later 0 c).blocked 0 c = false) :=
  ⟨takes_all (by decide +kernel), by decide +kernel⟩

def cOpen := cmd 0 0 0x50 1 [(24, 8, 0x9000), (32, 4, 128)]
def cProve := cmd 0 0 0x51 1 [(24, 8, 0x9000), (32, 4, 2420)] { data := some [1] }
def cClose := cmd 0 0 0x52 1 []
def cProtCommit := cmd 0 0 0x54 1 []

theorem meets_SessionsAndProtection :
    (∀ e ∈ [(0x50, cOpen), (0x51, cProve), (0x52, cClose), (0x53, cProt), (0x54, cProtCommit)], Takes up e.1 e.2 0) ∧
    Takes pooled 0x54 cProtCommit 0 ∧ Takes noRight 0x52 cClose 0 ∧
    (∀ c ∈ [cOpen, cProve, cClose, cProt, cProtCommit], (tk up 0 c).blocked 0 c = false) ∧
    sessionOpenPre cOpen = none ∧ sessionProvePre cProve = none ∧ (tk up 0 cProve).proofGood 0 [1] = none ∧ sessionClosePre cClose = none ∧
    (tk up 0 cClose).hasSession 0 = true ∧ (tk noRight 0 cClose).hasSession 0 = false ∧
    (tk up 0 cProt).protectSetPre cProt = none ∧ (tk up 0 cProtCommit).protectCommitPre cProtCommit = none ∧
    (Tab.keys up.se.pools).filter up.poolUp = [] ∧ (Tab.keys pooled.se.pools).filter pooled.poolUp = [1] :=
  ⟨takes_all (by decide +kernel), takes_of (by decide +kernel), takes_of (by decide +kernel), by decide +kernel⟩

def cTele (page : Nat) := cmd 0 0 0x41 1 [(8, 1, page), (10, 2, 1), (24, 8, 0x9000), (32, 4, 4096)]
def cEvRead := cmd 0 0 0x42 1 [(16, 4, 1), (24, 8, 0x9000), (32, 4, 256)]
def cEvClear := cmd 0 0 0x43 1 []
def cMode (m : Nat) := cmd 0 0 0x44 1 [(8, 1, m)]
def cStage := cmd 0 0 0x45 1 [(24, 8, 0x9000), (32, 4, 4)] { data := some [1, 2, 3, 4] }
def cCommit := cmd 0 0 0x46 1 [(16, 8, 4)]
def cAttest := cmd 0 0 0x55 1 [(40, 8, 0x9000), (48, 4, 2804)]

/-- A device without ebb store, and one with an identity. -/
def noEb : State := { up with variant := .la }
def named : State := { up with sec := { up.sec with identity := true } }

theorem meets_DeviceCommandsRun :
    (∀ e ∈ [(0x41, cTele 1), (0x41, cTele 2), (0x42, cEvRead), (0x44, cMode 0), (0x44, cMode 1), (0x44, cMode 2), (0x45, cStage), (0x46, cCommit)],
      Takes pooled e.1 e.2 0) ∧ Takes noEb 0x43 cEvClear 0 ∧ Takes named 0x55 cAttest 0 ∧
    (∀ page ∈ [1, 2], (tk pooled 0 (cTele page)).telemetryPre (cTele page) = none) ∧ (pooled.poolSeen 1).map (·.state) = some .online ∧
    (tk pooled 0 cEvRead).evReadPre cEvRead = none ∧ (tk noEb 0 cEvClear).evClearPre cEvClear = none ∧
    (tk noEb 0 cEvClear).blocked 0 cEvClear = false ∧ (tk noEb 0 cEvClear).hasEB = false ∧
    (∀ m ∈ [0, 1, 2], (tk pooled 0 (cMode m)).deviceModePre (cMode m) = none ∧ (tk pooled 0 (cMode m)).blocked 0 (cMode m) = false) ∧
    (tk pooled 0 (cMode 1)).harbourRefused = false ∧ (tk pooled 0 cStage).stageWritePre cStage = none ∧
    (tk pooled 0 cStage).blocked 0 cStage = false ∧ (tk pooled 0 cCommit).stageCommitPre cCommit = none ∧
    (tk pooled 0 cCommit).blocked 0 cCommit = false ∧ entryLe cCommit 0 16 8 ≠ 0 ∧ (tk named 0 cAttest).attestPre cAttest = none :=
  ⟨takes_all (by decide +kernel), takes_of (by decide +kernel), takes_of (by decide +kernel), by decide +kernel⟩

/-! ### Stripes, reads, members, the coding engine, rebuild and tide -/

/-- A command of the data function that has been consumed. -/
def held (op : Nat) (b : CmdBody) : Cmd := ⟨1, 0, 1, 1, 0, 1, op, false, b⟩

/-- An APPEND of one page placed in stripe 0 of pool 1, of which `got` bytes have arrived. -/
def appendAt (got : Nat) (durable : Bool) : AppendCmd :=
  { pool := 1, len := 4096, tag := 77, durable := durable, addr := [(0x5000, 4096)], payload := none, parent := none, reserved := true,
    placed := some (0, 0), off := 0, seq := 1, got := got, whole := decide (got = 4096) }

/-- A READ of one page of stripe 2 in a phase, its chunk at position 0 asleep or not. -/
def readOf (phase : Nat) (asleep deferred : Bool) : ReadCmd :=
  { pool := 1, stripe := 2, params := par, set := 0, chunkOffset := 5121, extOff := 0, extLen := 4096, start := 0, len := 4096, tagCheck := none,
    bufs := [(0x5000, 4096)], needDir := false, seq := 1, hash := 3, tag := 77,
    chunks := [⟨0, 0, 0, 4096, none, false, asleep⟩], deferred := deferred, woken := false, rebuilt := false, phase := phase, hashOnly := false }

/-- Command 7 of pool 1's user, with its entry in stripe 0's directory and a hash job. -/
def working (b : CmdBody) (u : HashUser) (h : Option (BitVec 256)) (st : StripeState) (d : BitVec 256) : State :=
  let s := { pooled with qm := { pooled.qm with nextCmd := 8, cmds := [(7, held 1 b)] }
                         se := { pooled.se with hashJobs := [(0, ⟨u, 1, d⟩)], nextHash := 1 } }
  s.modStripe 1 0 (fun t => { t with state := st, dir := [{ ent 0 with cmd := some 7, hash := h, arrived := 0 }] })

/-- The same, paired, with its payload confirmed by the partner. -/
def confirmed : State :=
  { working (.append (appendAt 4096 false)) (.append 7) (some 0) .opened 0 with
    pl := { PlUnit.reset with peer := .paired, pairMode := true, appendMseq := [(7, 3)], mseqConfirmed := 3 } }

theorem meets_AppendsAreAcknowledged :
    (∀ got ∈ [0, 4096], ∀ s ∈ [working (.append (appendAt got false)) (.append 7) (some 0) .opened 0],
      s.up = true ∧ s.append? 7 = some (appendAt got false) ∧ (s.stripe? 1 0).map (·.dir.length) = some 1 ∧ s.pw.unitBusy.contains 2 = false ∧
      Tab.get? s.se.hashJobs 0 = some ⟨.append 7, 1, 0⟩ ∧ s.pl.peer = .unpaired ∧ s.se.covered = true) ∧
    ((working (.append (appendAt 4096 true)) (.append 7) (some 0) .written 0).stripe? 1 0).map (·.state) = some .written ∧
    ((working (.append (appendAt 4096 true)) (.append 7) (some 0) .opened 0).append? 7).map (·.durable) = some true ∧
    confirmed.pl.peer = .paired ∧ Tab.get? confirmed.pl.appendMseq 7 = some 3 ∧ 3 ≤ confirmed.pl.mseqConfirmed ∧
    (appendAt 0 false).whole = false ∧ (appendAt 0 false).parent = none ∧
    ((working (.read (readOf 0 false false)) (.read 7) none .opened 3).read? 7).isSome = true := by decide +kernel

/-- Stripe 0 sealing, with room in the delta log. -/
def sealing : State := pooled.modStripe 1 0 (fun t => { t with sealing := true })
def noCe : State := sealing.setFld CE_CLUSTER_EN 0 CE_CLUSTER_EN_EN 0
/-- A pending release of stripe 2's extent, whose directory the device holds. -/
def pendingOne : State :=
  { pooled with se := { pooled.se with pending := [⟨1, 2, 0, 4096, 77, 0⟩], dirCache := [(1, 2)] } }

theorem meets_StripesAreSealedAndWritten :
    pooled.up = true ∧ (sealing.stripe? 1 0).map (fun t => (t.state, t.sealing)) = some (.opened, true) ∧ sealing.se.deltaFull = false ∧
    ((sealing.stripe? 1 0).map (fun t => t.dir.all (fun e => e.void || decide (e.arrived ≥ e.len)))) = some true ∧
    sealing.noCluster = false ∧ noCe.noCluster = true ∧ (sealing.takeOffset 0 par).isSome = true ∧
    (pooled.stripe? 1 1).map (fun t => (t.state, t.coded, t.newPlace)) = some (.sealed, true, none) ∧ pooled.chunkHashing 1 1 0 = false ∧
    (pooled.setParams 0).map (·.bandUnits) = some 1024 ∧
    pendingOne.canResolve 1 2 = true ∧ ((pendingOne.stripe? 1 2).bind (·.find 0 4096)).map (fun e => (e.1, e.2.tag)) = some (0, 77) ∧
    (pendingOne.stripe? 1 2).map pendingOne.ledgerRoom = some true := by decide +kernel

/-- SEALED stripe 1 with the chunks `l` on stable media, all three of which it needs. -/
theorem meets_StripesAreSealedAndWritten_acks :
    (∀ e ∈ [([], false), ([0, 1, 2], true)], ∀ s ∈ [pooled.modStripe 1 1 (fun t => { t with acked := e.1 })],
      ((s.stripe? 1 1).bind (fun t => (s.set? t.set).map (fun x => (s.mustAck x t).all (fun q => t.acked.contains q)))) = some e.2) := by
  decide +kernel

theorem meets_OneLostChunkComesBack : [10, 27, 44, 78].length ≤ 60 ∧ 3 < 4 := by decide +kernel

theorem meets_ReadsGoOn :
    (∀ s ∈ [working (.read (readOf 0 false false)) (.read 7) none .opened 3, working (.read (readOf 2 false false)) (.read 7) none .opened 4],
      s.up = true ∧ s.pw.unitBusy.contains 2 = false ∧ (s.read? 7).map (fun r => (r.hash, r.chunks.map (fun c => (c.pos, c.lost, c.asleep)))) =
        some (3, [(0, false, false)])) ∧
    Tab.get? (working (.read (readOf 0 false false)) (.read 7) none .opened 3).se.hashJobs 0 = some ⟨.read 7, 1, 3⟩ ∧
    Tab.get? (working (.read (readOf 2 false false)) (.read 7) none .opened 4).se.hashJobs 0 = some ⟨.read 7, 1, 4⟩ ∧
    (readOf 0 true false).chunks.any (·.asleep) = true ∧ (readOf 0 true true).deferred = true := by decide +kernel

/-- Members 0 and 1 of set 0 LINK_DOWN. -/
def down (ns : List Nat) : State := pooled.each ns (fun n s => s.modDrive n (fun d => { d with linkDown := true }))

theorem meets_MembersAreLost :
    (∀ s ∈ [pooled, down [0], down [0, 1]], s.up = true ∧ (s.drive? 0).isSome = true ∧ (s.slot? 0).isSome = true ∧ s.memberPool 0 = some 1) ∧
    (pooled.slot? 0).map (·.linkUp) = some true ∧ ((down [0]).drive? 0).map (·.linkDown) = some true ∧ (down [0]).failExceeds 0 = false ∧
    (down [0, 1]).failExceeds 0 = true ∧ Tab.get? pooled.se.bands (bandKey 0 7) = none ∧ (pooled.set? 0).map (·.state) = some .active := by
  decide +kernel

/-- A coding engine with one job queued, one running on cluster 7, and an inversion under way. -/
def coding : State :=
  let j : CeJob := { kind := .encode, cls := 0, pool := 1, stripe := 1, cmd := none, m := 1, key := none, bytes := 512 }
  let s := { pooled with ce := { CeUnit.reset with queue := [j], running := [(7, j)], inverting := some ⟨2, 1, [0], [0]⟩ } }
  s.modStripe 1 1 (fun t => { t with coded := false })

theorem meets_CodingEngineRuns :
    coding.up = true ∧ coding.pw.unitBusy.contains 1 = false ∧ (coding.cePick.map (fun e => (e.1.m, e.1.key))) = some (1, none) ∧
    coding.ceIdle.find? (fun n => coding.domain (ceDomain n) = 0) = some 0 ∧ (Tab.get? coding.ce.running 7).isSome = true ∧
    coding.ce.waiting.contains 7 = false ∧ (coding.stripe? 1 1).map (fun t => (t.state, t.coded)) = some (.sealed, false) ∧
    coding.ce.inverting = some ⟨2, 1, [0], [0]⟩ ∧ coding.fld CE_CTL 0 CE_CTL_CACHE_EN = 1 ∧ CE_CTL_INVALIDATE.get (CE_CTL_INVALIDATE.put 0 1) = 1 ∧
    CE_CLUSTER_EN_EN.get (CE_CLUSTER_EN_EN.put 0 1) ≠ 0 := by decide +kernel

theorem meets_CodingEngineRuns_writes : WriteTaken coding 0 (CE_CTL.at 0) ∧ WriteTaken coding 0 (CE_CLUSTER_EN.at 0) :=
  ⟨writable_of (by decide +kernel), writable_of (by decide +kernel)⟩

/-- Set 0 with a record for position 1 on spare 3, and with a pass that writes two chunks. -/
def rebuilding : State :=
  { pooled with variant := .fc, se := { pooled.se with
      sets := [(0, { SetRec.built 1 par false [0, 3, 2] with state := .rebuilding, rebuild := [⟨1, 0, 1⟩] })]
      passes := [(0, { off := 5121, key := stripeKey 1 2, need := [], issued := [], got := [], writing := [1, 2], coding := false })] } }

/-- Pool 1 in a tide round, late or not. -/
def tiding (late : Bool) : State := pooled.modPool 1 (fun x => { x with round := 1, tideLate := late })

theorem meets_RebuildAndTide :
    rebuilding.up = true ∧ (pickBest rebuilding.rebuildBefore (rebuilding.se.sets.filter (fun e => rebuilding.passStartable e.2))).isSome = true ∧
    rebuilding.se.sets.countP (fun e => e.2.passRunning) < rebuilding.fld SE_RB_PARAM 0 SE_RB_PARAM_MAX_PASSES ∧
    (rebuilding.pass? 0).map (·.writing) = some [1, 2] ∧ pooled.poolUp 1 = true ∧ (pooled.pool? 1).map (·.round) = some 0 ∧
    (∀ b ∈ [false, true], ((tiding b).pool? 1).map (fun x => (Pool.tideRuns x, x.tideLate)) = some (true, b)) ∧
    ({ tiding false with variant := Variant.fc }).tideMay 1 2 = true ∧ ((tiding false).stripe? 1 2).map (fun t => ((tiding false).lostPos t).isEmpty) = some true := by
  decide +kernel

/-- Drive 1 retires onto drive 3; band 5 is copied, band 6 reclaimed with its tries, and drive 4 waits for a label. -/
def media (back : Bool) (tries : Nat) : State :=
  let s := { pooled with se := { pooled.se with reclaims := [(bandKey 1 6, tries)], bands := [(bandKey 3 5, (.substitute, 0))] } }
  let s := (s.modDrive 1 (fun d => { d with info := { d.info with zoned := true }, labelWant := some .member, labelBack := back }))
  s.modDrive 3 (fun d => { d with state := .active, pool := 1, substFor := some 1 })

/-- Pool 1 with a record gathered, with a block going out, and with a checkpoint under way. -/
def gathered : State := pooled.modPool 1 (fun x => { x with gather := [.reserve 0 9] })
/-- Pool 1 with a BAND_OPEN record gathered, and a sill log whose records since the second-latest checkpoint fill it. -/
def tightLog : State :=
  pooled.modPool 1 (fun x => { x with gather := [.bandOpen 0 9], logs := [(logKey 0 1, { SillLog.empty with pos := 65536 })] })
def blocked : State := pooled.modPool 1 (fun x => { x with jBlock := [.reserve 0 9] })
def ckpting : State := pooled.modPool 1 (fun x => { x with ckpt := some ⟨1, 0, [], ckPlain⟩ })

theorem meets_MediaReportsAreTaken :
    (∀ b ∈ [false, true], ((media b 0).drive? 1).map (fun d => (d.labelWant, d.labelBack)) = some (some .member, b)) ∧
    (media false 0).memberPool 1 = some 1 ∧ (media false 0).retireSub 1 = some 3 ∧ ((media false 0).band 3 5 256).1 = .substitute ∧
    (∀ k ∈ [0, 1, 2], Tab.get? (media false k).se.reclaims (bandKey 1 6) = some k) ∧ ((media false 0).drive? 1).map (·.info.zoned) = some true ∧
    pooled.poolUp 1 = true ∧ (pooled.pool? 1).map (·.ckpt) = some none ∧ (ckpting.pool? 1).map (fun x => x.ckpt.map (·.reason)) = some (some ckPlain) ∧
    (gathered.pool? 1).map (fun x => (x.gather.length, x.jBlock, gathered.logTight 1 x)) = some (1, [], false) ∧ gathered.silenced = false ∧
    (pooled.set? 0).map (fun y => (y.openBand, y.fill, decide (y.fill < pooled.committed 0 y par 5), decide (5 * 1024 < pooled.committed 0 y par 5))) =
      some (some 5, 0, true, false) ∧
    (blocked.pool? 1).map (fun x => (x.jBlock.length, x.jWritten)) = some (1, []) ∧ ((blocked.driveGood 1).readableJournal 1).contains 1 = true := by
  decide +kernel

theorem meets_MediaReportsAreTaken_logs :
    (tightLog.pool? 1).map (fun x => (x.gather, x.gather.all JRec.opensBand, tightLog.logTight 1 x)) = some ([.bandOpen 0 9], true, true) ∧
    ((media false 0).drive? 1).map (fun d => decide (d.labelRear < 4096)) = some true := by decide +kernel

/-- Without a SEALED stripe the committed offset of band 5 is past its start. -/
theorem meets_MediaReportsAreTaken_fill :
    (∀ s ∈ [{ pooled with se := { pooled.se with stripes := [] } }], (s.set? 0).map (fun y => (decide (y.fill < s.committed 0 y par 5), decide (5 * 1024 < s.committed 0 y par 5))) =
      some (true, true)) := by decide +kernel

/-- A device whose image slot 1 is being erased and whose slot 0 is ready, below its target window. -/
def storing : State :=
  { pooled with se := { pooled.se with w := 2 ^ 32, wTarget := 2 ^ 33 }
                eb := { EbUnit.reset with slots := [{ EbSlot.blank with ready := true }, { EbSlot.blank with erasing := true }] } }

theorem meets_WindowFollowsEnergy :
    storing.up = true ∧ storing.se.covered = true ∧ storing.se.wComputed = true ∧ storing.se.w ≠ 0 ∧ storing.se.w < storing.se.wTarget ∧
    max (storing.winComputed storing.flushCap) (4 * 2 ^ 30) = 4 * 2 ^ 30 ∧ 4 * 2 ^ 30 < pooled.se.w ∧ storing.hasEB = true ∧
    storing.eb.storeFault = false ∧ storing.eb.slots.any (·.ready) = true ∧ (storing.ebSlot 1).erasing = true := by decide +kernel

/-- Pool 1 found on an unpaired device: nothing of it is known but its place, and with a retained window. -/
def assembling : State := pooled.modPool 1 (fun x => { x with state := .assembling })
def retained : State := { assembling with pw := { PwUnit.reset with retained := true } }
/-- What recovery reads: a log with an empty checkpoint and a block of journal records, or no log at all. -/
def found (records : List JRec) (readable : Bool) : RecoveryInfo :=
  let rs : List SillRec := ckptRecords [] ++
    [⟨1, records.length, records.zipIdx.flatMap (fun e => journalRecord false 1 (e.2 + 1) e.1), []⟩]
  { RecoveryInfo.blank with
    sill := if readable then [(0, 1, rs.zipIdx.map (fun e => assembling.sillBytes pool1 1 (e.2 + 1) e.1))] else [] }
/-- An image that holds pool 1. -/
def imaged : State :=
  { assembling with eb := { EbUnit.reset with slots := [{ EbSlot.blank with programmed := true, image := some {
        seq := 3, trigger := 1, time := 0, standby := [], mirror := [], paired := false, timeUnset := false, header := []
        tables := { pools := [(1, pool1)], sets := [], stripes := [], bands := [], pending := [], orphans := [], placed := [] } } }, EbSlot.blank] } }

theorem meets_PoolsAreRecoveredAndCopied :
    (∀ s ∈ [assembling, retained, imaged], s.up = true ∧ (s.pool? 1).map (fun x => (x.state, x.recovery, x.ckpt)) = some (.assembling, .none, none) ∧
      s.mayAssemble = true ∧ s.paired = false) ∧
    retained.retainedPool 1 = true ∧ assembling.retainedPool 1 = false ∧ imaged.retainedPool 1 = false ∧
    RecoveryInfo.journal (found [.clean 0 0] true) pool1 = .clean ∧ RecoveryInfo.journal (found [.reserve 0 9] true) pool1 = .open ∧
    RecoveryInfo.prot (found [] true) pool1 0 = none ∧ (assembling.pool? 1).map (·.uuid) = some pool1.uuid ∧
    assembling.tablesIn 1 (found [] false) = none ∧
    (assembling.tablesIn 1 (found [] true)).map (fun t => decide (t.pool.params.m ≤ assembling.maxM) &&
      decide (assembling.tableBytes 1 + 16 * poolEntries t.pool ≤ tableBudget)) = some true ∧ assembling.restoreImage = none ∧
    (imaged.restoreImage.map (fun e => (e.holds 1, (e.tablesOf 1).isSome))) = some (true, true) ∧
    (waitingPool.pool? 1).map (·.recovery) = some .waitPartner ∧
    Tab.get? ({ waitingPool with se := { waitingPool.se with recoveries := [(1, found [] false)] } }).se.recoveries 1 = some (found [] false) := by
  decide +kernel

/-- Pool 1 being copied to set 1 on drives 3 to 5, with a stripe of the old generation WRITTEN. -/
def copying (k : ScarfState) (mark : Bool) : State :=
  let s := pooled.modPool 1 (fun x => { x with scarf := some { scarfOf k with commitMark := mark }, params := { par with gen := 2 } })
  let s := { s with se := { s.se with
    sets := s.se.sets ++ [(1, { SetRec.built 1 { par with gen := 2 } false [3, 4, 5] with openBand := some 7, openFill := 0 })] } }
  s.each [3, 4, 5] (fun n s => s.modDrive n (fun d => { d with state := .active, pool := 1 }))

theorem meets_PoolsAreRecoveredAndCopied_copies :
    (copying .copying false).up = true ∧ (copying .copying false).stripe? 1 2 = some written2 ∧ (copying .copying false).copyDue 1 2 written2 (scarfOf .copying) = true ∧
    (copying .copied false).copyDue 1 2 written2 (scarfOf .copied) = false ∧
    ((copying .copying false).set? 0).map (fun y => (List.range y.members.length).all (fun i =>
      (copying .copying false).chunkThere y written2 i)) = some true ∧
    ((copying .copying false).copySet 1 { par with gen := 2 }).map (fun e => (e.1, decide (e.2.openRoom { par with gen := 2 } > 0))) = some (1, true) ∧
    ((copying .committing true).pool? 1).map (fun x => x.scarf.map (fun c => (c.state, c.commitMark))) = some (some (.committing, true)) ∧
    (copying .committing true).readsOld 1 1 = false := by decide +kernel

/-! ### Drives, the climate unit, the pair, events, keys and power: states that meet the premises -/

/-- An image with chain 1 extended, an air sensor, a humidity sensor, fan 0 and heater 0 on engine 0 and 1, and heater 1 a test load. -/
def image : Image :=
  { imgSeq := 1, keySlot := 0, headerHash := 0, pairMode := true, side := 0, partnerWaitS := 30, sasBase := 0x5000, fixedEu := 0
    registers := [], failure := [], vectors := [], protect := none, slots := [], enclosures := [(0, ⟨200, 10, false⟩), (1, ⟨200, 10, true⟩)]
    profiles := [], ains := [(0, ⟨1, 0, 65536, 0, 0, 9000⟩)], sensors := [(0, ⟨1, 0⟩), (1, ⟨2, 1⟩)], fans := [(0, ⟨some 0, 0, 500⟩)]
    heaters := [(0, ⟨some 1, false⟩), (1, ⟨none, true⟩)], failsafeDuty := 5000, chgTargetDv := 250, chgFullDv := 300, stream1 := 0
    loops := [], pools := [] }

/-- The device with pool 1 and that image; enclosure 0 is at `t` (0.01 °C) and not held. -/
def plant (t : Int) : State :=
  let s := { pooled with boot := { pooled.boot with image := some image }, cl := { pooled.cl with held := [1], evaluated := [0, 2] } }
  let s := (s.setFld CL_AIN 0 CL_AIN_VALID 1).setFld CL_AIN 0 CL_AIN_ROLE 1
  (s.setSfld CL_AIN 0 CL_AIN_VALUE t).setFld DL_ENC_SPIN 0 DL_ENC_SPIN_I_MAX_DA 200

/-- That device with slot `n` as given. -/
def slotAs (n : Nat) (y : Slot) : State := (plant 2500).setSlot n y

theorem meets_SlotsFollowTheirInputs :
    (∀ e ∈ [(32, Slot.blank), (0, slotOf), (32, { slotOf with pwrGood := false }), (0, { slotOf with linkUp := false }),
        (3, { slotOf with linkUp := false, attempts := 1 }), (32, { slotOf with cond := .standby })],
      (slotAs e.1 e.2).up = true ∧ (slotAs e.1 e.2).boot.bare = false ∧ e.1 < (slotAs e.1 e.2).slotCount ∧ (slotAs e.1 e.2).slot? e.1 = some e.2 ∧
        (slotAs e.1 e.2).chainFault e.1 = false) ∧
    (plant 2500).extended (32 / 32) = true ∧ (plant 2500).extended 0 = false ∧
    ({ plant 2500 with dl := { (plant 2500).dl with chains := [(1, ⟨false, 2, 0⟩)] } }.chain 1).badRun = 2 ∧
    0 < ([(0 : BitVec 6), 1].take 32).countP (fun b => !oddParity b) ∧ ((plant 2500).setFld DL_SPIN_PARAM 0 DL_SPIN_PARAM_OFF_MIN 5).fld DL_SPIN_PARAM 0 DL_SPIN_PARAM_OFF_MIN ≠ 0 := by
  decide +kernel

theorem meets_SlotsFollowTheirInputs_write : WriteTaken (plant 2500) 0 (DL_SLOT_CTL.at 0) := writable_of (by decide +kernel)

/-- Drive information of a drive that is no expander. -/
def inserted : DriveInfo := (driveOf 9 .candidate 64).info

theorem meets_DrivesSpinUpAndSleep :
    (∀ e ∈ [(7, { slotOf with linkUp := false }), (3, { slotOf with cond := .standby }), (7, { slotOf with cond := .spinningUp }),
        (3, { slotOf with standbyIssued := true })],
      (slotAs e.1 e.2).up = true ∧ e.1 < (slotAs e.1 e.2).slotCount ∧ (slotAs e.1 e.2).slot? e.1 = some e.2) ∧
    (plant 2500).boot.bare = false ∧ (plant 2500).fld DL_SLOT_CTL 7 DL_SLOT_CTL_MAX_RATE ≠ 0 ∧
    inserted.expander = false ∧ ({ inserted with expander := true }).expander = true ∧ inserted.block = 4096 ∧ inserted.flash = false ∧ inserted.spinning = false ∧
    (plant 2500).drive? 7 = none ∧ ({ plant 2500 with se := { (plant 2500).se with drives := [] } }).se.drives = [] ∧
    (plant 2500).enclosure 3 < 32 ∧ (plant 2500).spinBlocked ((plant 2500).enclosure 3) = false ∧ (plant 2500).spinFits 3 = true ∧
    (let s := slotAs 3 { slotOf with standbyIssued := true }; (s.groupSlots (s.wakeGroup 3)).filter (fun m => m ≠ 3) = []) ∧
    (∀ b ∈ [true, false], ∃ g ∈ [(plant 2500).wakeGroup 0, (plant 2500).wakeGroup 3],
      (((plant 2500).groupSlots g).filter (plant 2500).awake).any (fun m => (plant 2500).pinned m || (plant 2500).driveBusy m) = b) := by
  decide +kernel

/-- The image's engine 0 runs on enclosure 0 with fan 0. -/
def engine (t : Int) (hot : Nat) : State :=
  (((plant t).setFld CL_LE_CFG 0 CL_LE_CFG_EN 1).setFld CL_LE_CFG 0 CL_LE_CFG_ROLE 1).setFld CL_ENC_STATE 0 CL_ENC_STATE_HOT hot

theorem meets_SensorsAndEngines :
    (plant 2500).plantUp = true ∧ (plant 2500).boot.image = some image ∧ (plant 2500).hasCL = true ∧ Tab.get? image.ains 0 = some ⟨1, 0, 65536, 0, 0, 9000⟩ ∧
    Tab.get? image.sensors 0 = some ⟨1, 0⟩ ∧ Tab.getD (plant 2500).cl.snsFails 0 0 = 0 ∧
    Tab.getD ({ plant 2500 with cl := { (plant 2500).cl with snsFails := [(0, 2)] } }).cl.snsFails 0 0 = 2 ∧
    499 < (plant 2500).tachMin 0 ∧ ((plant 2500).setFld CL_FAN 0 CL_FAN_DUTY 3000).fld CL_FAN 0 CL_FAN_DUTY ≥ 3000 ∧
    (plant 2500).fld CL_FAN 0 CL_FAN_FAIL = 0 ∧ 501 > (plant 2500).tachMin 0 ∧ (plant 2500).cl.fifo0.length + 4096 ≤ 4096 ∧
    4096 < (plant 2500).cl.fifo0.length + 4097 ∧ (plant 2500).fld CL_LE_CFG 0 CL_LE_CFG_EN = 0 ∧ (plant 2500).engineFans 0 = [0] ∧
    (plant 2500).engineHeaters 1 = [0] ∧ (engine 2500 0).fld CL_LE_CFG 0 CL_LE_CFG_EN = 1 ∧ (engine 2500 0).cl.outputsOff = false ∧
    (engine 2500 0).airTemps 0 = [2500] ∧ ((engine 2500 0).setFld CL_AIN 0 CL_AIN_VALID 0).airTemps 0 = [] ∧
    aggregate ((engine 2500 0).fld CL_LE_CFG 0 CL_LE_CFG_AGG) [2500] = some 2500 ∧ (engine 2500 0).encHot 0 = false ∧
    (engine 2500 1).encHot 0 = true ∧ (engine 2500 0).fld CL_LE_LIMIT 0 CL_LE_LIMIT_OUT_MIN * dutyUnit ≤ 0 ∧
    0 ≤ (engine 2500 0).fld CL_LE_LIMIT 0 CL_LE_LIMIT_OUT_MAX * dutyUnit := by decide +kernel

theorem meets_EnclosuresAreKeptSafe :
    (∀ s ∈ [plant 2500, plant 9000, engine 9000 1, engine 2500 1], s.plantUp = true ∧ s.hasCL = true) ∧
    (plant 9000).headroomNow 0 < 0 ∧ (plant 2500).headroomNow 0 ≥ 100 ∧ (plant 2500).encHot 0 = false ∧ (engine 9000 1).encHot 0 = true ∧
    (engine 9000 1).headroomNow 0 < -1000 ∧ (engine 2500 1).encHot 0 = true ∧ (engine 9000 1).fld CL_ENC_STATE 0 CL_ENC_STATE_CRIT = 0 ∧
    (plant 2500).damp 1 = true ∧ (plant 4500).damp 0 = false ∧ (plant 4500).cl.evaluated.contains 0 = true ∧
    ({ plant 4500 with cl := { (plant 4500).cl with evaluated := [], held := [0] } }).damp 0 = false ∧ (plant 2500).cl.held.contains 1 = true ∧
    (((plant 2500).setFld CL_SNS 1 CL_SNS_VALID 1).setFld CL_SNS 1 CL_SNS_RH 801).humidity 0 = some 801 := by decide +kernel

/-- A bank at 25 V, 1,000 mF nameplate, with its charger in a state. -/
def bank (chg : Nat) : State :=
  let s := ((plant 2500).setFld CL_CHG 0 CL_CHG_STATE chg).setFld CL_CHG 0 CL_CHG_TARGET_DV 250
  let s := (s.setFld CL_BANK_NAMEPLATE 0 CL_BANK_NAMEPLATE_C_MF 10000).setFld CL_BANK_NAMEPLATE 0 CL_BANK_NAMEPLATE_ESR 200
  let s := (s.setFld CL_TEST_PARAM 0 CL_TEST_PARAM_R_LOAD_DO 100).setFld CL_TEST_PARAM 0 CL_TEST_PARAM_PULSE_10MS 10
  s.setFld CL_BANK_EU 0 CL_BANK_EU_E_U 65535

theorem meets_BankIsMeasured :
    (∀ c ∈ [chgCharge, chgFloat], (bank c).plantUp = true ∧ (bank c).hasCL = true ∧ (bank c).testLoads = [1] ∧ (bank c).charger = c) ∧
    (bank chgCharge).cl.testWait = false ∧ (bank chgCharge).cl.testV0 = none ∧ (bank chgCharge).cl.lastStart = none ∧
    (bank chgCharge).fld CL_BANK_VI 0 CL_BANK_VI_V_MV < (bank chgCharge).chargedMv ∧
    ((bank chgCharge).setFld CL_STATUS 0 CL_STATUS_TRIP_ARMED 1).fld CL_STATUS 0 CL_STATUS_TRIP_ARMED = 1 ∧ (bank chgCharge).pw.power = .run ∧
    (bank chgFloat).testEnergy + (bank chgFloat).energyRequired ≤ (bank chgFloat).fld CL_BANK_EU 0 CL_BANK_EU_E_U ∧
    (bank chgFloat).testRejected 25000 ⟨24500, 250, 2500, 10⟩ = false ∧ (bank chgFloat).testRejected 25000 ⟨24500, 250, 2500, 51⟩ = true ∧
    8 * (bank chgFloat).fld CL_BANK_NAMEPLATE 0 CL_BANK_NAMEPLATE_C_MF ≤ 10 * (fitResults 25000 ⟨24500, 250, 2500, 10⟩).2 ∧
    (fitResults 25000 ⟨24900, 250, 2500, 10⟩).1 ≤ 2 * (bank chgFloat).fld CL_BANK_NAMEPLATE 0 CL_BANK_NAMEPLATE_ESR := by decide +kernel

/-- The device of pool 1 with its peer link in a state; pool 2 is the partner's, on the drives of slots 3 and 4, and stripe 2.0 is mirrored. -/
def peered (p : PeerState) : State :=
  { plant 2500 with pl := { PlUnit.reset with
      peer := p, pairMode := true, mseqSent := 5, mseqConfirmed := 3, mseqApplied := 7, copyEnd := 4, lag := [(4, 64), (5, 64)], pairUuid := 9
      mirror := [(stripeKey 2 0, written2)], mirrorOf := [2]
      standby := [(2, { pool := { pool1 with members := [3, 4], journal := [3, 4] }, sets := [], stripes := [], bands := [] })] } }

theorem meets_PairFormsAndIsKept :
    (∀ p ∈ [PeerState.training, .hello, .copying, .paired, .silent, .lost],
      (peered p).up = true ∧ (peered p).boot.bare = false ∧ (peered p).paired = true ∧ (peered p).pl.peer = p) ∧
    (peered .hello).ownsPools = true ∧ (peered .hello).pl.side ≠ 1 ∧ (peered .copying).pl.mseqConfirmed ≤ 4 ∧ 4 ≤ (peered .copying).pl.mseqSent ∧
    (peered .copying).pl.copyEnd ≤ 4 ∧ 3 < (peered .copying).pl.copyEnd ∧ (peered .silent).pl.resolving = false := by decide +kernel

/-- Good and bad HELLOs: the partner without pools; the same side; another pair, with pools. -/
theorem meets_PairFormsAndIsKept_hello :
    (∀ h ∈ [(⟨1, 1, 1, false, 4, 0⟩ : HelloFrame)], h.side ≠ (peered .hello).pl.side ∧ h.protoMin ≤ 1 ∧ 1 ≤ h.protoMax ∧
      (peered .hello).ownsPools ≠ h.ownsPools) ∧
    (∀ h ∈ [(⟨1, 1, 1, true, 4, 0⟩ : HelloFrame)], h.pairUuid ≠ (peered .hello).pl.pairUuid ∧ (peered .hello).ownsPools = h.ownsPools) := by
  decide +kernel

theorem meets_MirrorIsApplied :
    (peered .paired).hasPL = true ∧ 8 = (peered .paired).pl.mseqApplied + 1 ∧ (peered .paired).mirrors = true ∧ (peered .paired).pl.discardM = false ∧
    Tab.get? (peered .paired).pl.mirror (stripeKey 2 0) = some written2 ∧ 9 ≠ (peered .paired).pl.mseqApplied + 1 ∧ (peered .silent).mirrors = false ∧
    ({ peered .paired with pl := { (peered .paired).pl with discardM := true } }).pl.discardM = true ∧
    (peered .paired).pl.mirrorOf.contains 1 = false ∧ (peered .paired).pl.mirrorOf.contains 2 = true ∧
    (waitingPool.up = true ∧ waitingPool.boot.bare = false ∧ waitingPool.hasPL = true ∧ (waitingPool.pool? 1).map (·.recovery) = some .waitPartner) ∧
    Tab.get? ({ waitingPool with se := { waitingPool.se with recoveries := [(1, found [] false)] } }).se.recoveries 1 = some (found [] false) := by
  decide +kernel

/-- Claim 6 for pool 3 and drive 5, held by command 7, which waits to run. -/
def claiming (op k : Nat) : State :=
  { peered .paired with
    pl := { (peered .paired).pl with claims := [⟨3, 6, [5], k⟩] }
    qm := { (peered .paired).qm with cmds := [(7, ⟨0, 0, 0, 0, 1, 0, op, false, .serial (cmd 0 0 op 2 []) 2⟩)] } }

/-- Pool 1 being given under command 7. -/
def giving (sent : Bool) : State :=
  let s := (peered .paired).modPool 1 (fun x => { x with giving := some 7 })
  { s with pl := { s.pl with giveSent := if sent then [1] else [] } }

theorem meets_OwnershipMoves :
    (∀ b ∈ [false, true], (let s := { peered .silent with pl := { (peered .silent).pl with resolving := b } };
      s.up = true ∧ s.boot.bare = false ∧ s.pl.peer = .silent ∧ s.pl.resolving = b)) ∧
    ((Tab.get? (peered .silent).pl.standby 2).map (fun t => (t.pool.journal, decide (t.pool.params.m ≤ (peered .silent).maxM))) = some ([3, 4], true)) ∧
    ((peered .silent).slot? 3).map (·.linkUp) = some true ∧ (peered .paired).mirrors = true ∧ ((peered .paired).memberPool 0).isSome = true ∧
    ((peered .paired).memberPool 5).isSome = false ∧ (peered .paired).pl.taken.contains 5 = false ∧
    ({ peered .paired with pl := { (peered .paired).pl with side := 1 } }).pl.side = 1 ∧
    (∀ e ∈ [(0x20, 7), (0x31, 7), (0x31, substClaim)],
      (claiming e.1 e.2).pl.claims.find? (fun k => k.pool = 3 && k.id = 6) = some ⟨3, 6, [5], e.2⟩) ∧
    (∀ op ∈ [0x20, 0x31], ((claiming op 7).cmd? 7).map (·.body) = some (.serial (cmd 0 0 op 2 []) 2) ∧ entryOpcode (cmd 0 0 op 2 []) = op) ∧
    (∀ b ∈ [false, true], ((giving b).pool? 1).map (·.giving) = some (some 7) ∧ (giving b).pl.giveSent.contains 1 = b) ∧
    (Tab.get? (peered .paired).pl.standby 2).isSome = true := by decide +kernel

/-- An event and its record. -/
def event (code sev : Nat) : RaisedEvent := { code := code, sev := sev, inst := 0, detail := [], time := 0 }
def recordOf (sev : Nat) : EvRecord :=
  { code := 0x301, sev := sev, timeUnset := false, standby := false, suppressed := 0, seq := 1, time := 0, lost := 0, inst := 0, detail := [],
    snapshot := [] }
/-- The recorder with a FIFO, a ring of severity-3 records and flags. -/
def recorder (fifo : List RaisedEvent) (ring : Nat) (fault clearing reset : Bool) : State :=
  { up with ev := { EvUnit.reset with fifo := fifo, ring := List.replicate ring (recordOf 3), storeFault := fault, clearing := clearing
                                      resetting := reset, scanning := false, notifyDue := [1], cleared := some (recordOf 1)
                                      tokens := [(0x302, 0)] } }

theorem meets_EventsAreRecorded :
    (recorder [] 0 false false false).plantUp = true ∧ (recorder [] 0 false false false).tokens 0x301 3 ≠ 0 ∧
    (recorder [] 0 false false false).tokens 0x302 6 = 0 ∧ 64 ≤ (recorder (List.replicate 64 (event 0x301 7)) 0 false false false).ev.fifo.length ∧
    (∀ n ∈ [0, 256], (recorder [event 0x301 3] n false false false).ev.ring.length = n) ∧
    (recorder [event 0x301 3] 256 false false false).ev.ring.find? (fun y => y.sev ≤ 3) = some (recordOf 3) ∧
    (∀ y ∈ (recorder [event 0x301 2] 256 false false false).ev.ring, 2 < y.sev) ∧
    (recorder [] 0 false false false).logOpen = true ∧ (recorder [] 0 true false false).logOpen = false ∧
    (recorder [] 0 false false false).ev.log.length + 16 ≤ logCapacity ∧ (recorder [] 0 false true false).ev.notifyDue.contains 0 = false ∧
    (recorder [] 0 false true false).ev.notifyDue.contains 1 = true ∧ (recorder [] 0 false true false).ev.cleared = some (recordOf 1) ∧
    (recorder [] 0 true true false).ev.backWait = false ∧ (recorder [] 0 false false false).hasEB = true ∧ (recorder [] 0 false false true).ev.resetting = true := by
  decide +kernel

/-- The device with fuses being blown, and with the flash being programmed. -/
def fusing (op : Nat) : State := { up with sec := { up.sec with enrollBusy := some (op, 1, 2, 5) } }
def staging (t : Nat) : State := { up with boot := { up.boot with stage := some ⟨t, 0, 100, 7⟩ } }
/-- A value of SEC_ENROLL_CTL. -/
def enrollCtl (op index : Nat) : Word := pack 0 [(SEC_ENROLL_CTL_OP, op), (SEC_ENROLL_CTL_INDEX, index), (SEC_ENROLL_CTL_GO, 1)]

theorem meets_KeysAndFlash :
    (∀ op ∈ [1, 2, 3, 4], SEC_ENROLL_CTL_OP.get (enrollCtl op 1) = op ∧ SEC_ENROLL_CTL_GO.get (enrollCtl op 1) = 1) ∧
    SEC_ENROLL_CTL_OP.get (enrollCtl 0 1) ≠ 1 ∧ up.plantUp = true ∧ up.gatedAt (SEC_ENROLL_CTL.at 0) = false ∧ up.sec.enrollBusy = none ∧
    up.enrollRefusal 0 1 1 0 = none ∧ up.enrollRefusal 0 1 0 0 = some 3 ∧ up.hasSession 65 = false ∧ up.sec.enrolled ≠ [] ∧
    (∀ op ∈ [1, 2, 3, 4], (fusing op).sec.enrollBusy = some (op, 1, 2, 5) ∧ (fusing op).plantUp = true) ∧
    up.sec.session = some ⟨0, 0, 0⟩ ∧ noRight.sec.session = none ∧ up.boot.stage = none ∧
    (∀ t ∈ [0, 1], (staging t).up = true ∧ (staging t).boot.stage = some ⟨t, 0, 100, 7⟩) := by decide +kernel

/-- What a start may read: no image, firmware slot 0. -/
def info : BootInfo :=
  { dirValid := true, fwPref := 0, imgPref := 0, lens := [4, 0, 0, 0], fwReason0 := 0, fwReason1 := 1, fwSvn := 1, fwVersion := 1, vendorKey := 0,
    measRom := 0, measFw := 0, imgReason0 := 1, imgReason1 := 1, image0 := none, image1 := none, imgFaultType := 0, imgFaultByte := 0,
    identityOk := true, sideSel := 0, haSplit := false, hbSplit := false, testMode := false, trained := 0, slotGib := 0, targets := 0, readyMs := 0 }

/-- The device in a power state, with an ebb running into slot 0, or none. -/
def powered (p : Power) (ebb : Option (Option Nat)) : State :=
  { up with pw := { PwUnit.reset with power := p, warmKind := some 1, boot := some info, checkDue := true, phyDue := true }
            eb := { EbUnit.reset with running := ebb, slots := [EbSlot.blank] } }

theorem meets_ResetsKeepWhatTheyMust :
    (∀ p ∈ [Power.run, .harbour, .ebb, .off, .inReset, .warmPrep], ∀ e ∈ [none, some none, some (some 0)],
      (powered p e).pw.power = p ∧ (powered p e).eb.running = e) ∧
    (powered .warmPrep none).pw.warmKind = some 1 ∧ (powered .warmPrep none).pw.boot = some info ∧ (powered .ebb none).eb.slots.length = 1 ∧
    (∀ b ∈ [false, true], ({ powered .warmPrep none with pw := { (powered .warmPrep none).pw with resetN := b } }).pw.resetN = b) ∧
    ({ powered .inReset none with pw := { (powered .inReset none).pw with boot := none } }).pw.boot = none ∧ (powered .run none).boot.fwReady = true ∧
    ({ info with testMode := true }).testMode = true ∧ (powered .run none).pw.checkDue = true ∧ State.reset.pw.checkDue = false ∧
    (∀ st ∈ [xmRun, xmError], ((powered .ebb (some (some 0))).setXmState 31 st).fld XM_CH_STATUS 31 XM_CH_STATUS_STATE = st) ∧
    State.reset.boot.fwReady = false := by decide +kernel

/-- The device in an epoch. -/
def inEpoch (k : EpochKind) (w : List Nat) (c : Bool) : State := { up with pw := { PwUnit.reset with epoch := some ⟨1, k, none, w, c, []⟩ } }

theorem meets_HarbourAndModes :
    (powered .harbour none).pw.phyDue = true ∧ up.pw.phyDue = false ∧ (powered .harbour none).pw.power = .harbour ∧ up.pw.epoch = none ∧
    (powered .harbour none).fld PW_HARBOUR_CTL 0 PW_HARBOUR_CTL_PERST_EXIT = 1 ∧
    ((powered .harbour none).setFld PW_HARBOUR_CTL 0 PW_HARBOUR_CTL_PERST_EXIT 0).fld PW_HARBOUR_CTL 0 PW_HARBOUR_CTL_PERST_EXIT = 0 ∧ (powered .harbour none).fld PW_HARBOUR_CTL 0 PW_HARBOUR_CTL_TIMER_MIN = 0 ∧
    ((powered .harbour none).setFld PW_HARBOUR_CTL 0 PW_HARBOUR_CTL_TIMER_MIN 3).fld PW_HARBOUR_CTL 0 PW_HARBOUR_CTL_TIMER_MIN ≠ 0 ∧
    (∀ k ∈ [EpochKind.harbour, .freq 2], ∀ w ∈ [[4], [4, 5]], ∀ c ∈ [false, true],
      (inEpoch k w c).up = true ∧ (inEpoch k w c).pw.epoch = some ⟨1, k, none, w, c, []⟩ ∧ w.contains 4 = true ∧ w.contains 3 = false) ∧
    MC_FREQ_TARGET.get (pack 0 [(MC_FREQ_TARGET, 1)]) = 1 ∧ up.fld MC_FREQ 0 MC_FREQ_BUSY = 0 ∧
    (up.setFld MC_FREQ 0 MC_FREQ_BUSY 1).fld MC_FREQ 0 MC_FREQ_BUSY = 1 ∧ up.fld MC_FREQ 0 MC_FREQ_CURRENT ≠ 1 := by decide +kernel

/-- Register writes are taken in these states. -/
theorem meets_write_premises :
    ∀ a ∈ [MC_FREQ.at 0, PW_SLACK_CTL.at 0, PW_PD_REQ.at 0], WriteTaken up 0 a := writable_all (by decide +kernel)

/-- The device with the domain of a slice, a cluster or a drive-link die draining, and with a slice gated. -/
def domained (d v : Nat) : State := { (pooled.setFld PW_SLACK_CTL 0 PW_SLACK_CTL_EN 1).setDomain d v with
    ce := { CeUnit.reset with running := coding.ce.running.map (fun e => (1, e.2)) } }

theorem meets_UnitsAndDomainsFollow :
    up.unitIgnored 0 = false ∧ noCl.unitIgnored 5 = true ∧ up.pw.unitBusy.contains 0 = false ∧ up.pw.unitWaiting.contains 0 = false ∧
    (inEpoch .harbour [4] false).pw.epoch.isSome = true ∧ up.pw.epoch = none ∧
    ({ up with pw := { PwUnit.reset with unitBusy := [5] } }).pw.unitBusy.contains 5 = true ∧
    (domained 160 0).pw.power = .run ∧ (domained 160 0).fld PW_SLACK_CTL 0 PW_SLACK_CTL_EN = 1 ∧ slackDomain 3 = false ∧ slackDomain 160 = true ∧ slackDomain 152 = true ∧
    (domained 160 0).domain 160 = 0 ∧ Tab.get? (domained 160 0).ce.running (153 - 151) = none ∧
    ({ up with pw := { PwUnit.reset with idleGated := [160] } }).pw.idleGated.contains 160 = true ∧ up.domain 160 ≠ 3 ∧ up.pw.idleGated.contains 160 = false ∧
    (∀ d ∈ [160, 128, 152, 153], (domained d 1).up = true ∧ (domained d 1).domain d = 1) ∧ (Tab.get? (domained 152 1).ce.running (152 - 151)).isSome = true ∧
    up.pl.peer = .unpaired ∧ PW_SLACK_CTL_EN.get 1 = 1 := by decide +kernel

theorem meets_ClocksAndTemperatures :
    up.plantUp = true ∧ up.pw.aonFallback = false ∧ ({ up with pw := { PwUnit.reset with aonFallback := true } }).pw.aonFallback = true ∧
    up.up = true ∧ up.hasEB = true ∧ up.hasPL = true ∧ noEb.hasEB = false ∧ up.domain 128 ≠ 3 ∧ ({ up with variant := .ha }).domain 130 = 3 ∧
    ([some 130].getD 0 none : Option Int) = some 130 ∧ ([some 120].getD 0 none : Option Int) = some 120 ∧ up.pw.thermTrip = false ∧
    ([some 109].getD 0 none : Option Int) = some 109 := by decide +kernel

/-! ### Ill-formed commands, one per check -/

/-- Each of these names something the device does not have. -/
theorem test_ill_formed_numbers :
    (∀ c ∈ [Instr.errorCounterRead 130, .regAccess 2 0 4 false, .regAccess 0 (2 ^ 28) 4 false, .latchedLowHalfRead 2, .dbSqTailWrite 0 65536 0 0,
      .msixUnmask 0 2048, .portReset 0 2, .sealTimerExpiry 64 0, .sealTimerExpiry 0 (2 ^ 40), .chunkWriteAck 0 0 64, .rebuildChunkWritten 65536,
      .driveCommandTimeout 1024, .claim 64 0 [], .dramTempPoll 64 0, .throttleExpiry 0 16 0, .rowLimit 0 0 (2 ^ 18) 0, .throttleExpiry 0 0 12,
      .ceJobComplete 8 [], .slackIdleGate 192, .unitResetDl 4, .fanFail 32 0, .unitResetComplete 12, .xmRetryExpiry 32, .xmRequestLine 32 true,
      .loopPeriod 16, .sensorReadDone 128 none, .analogInputUpdate 64 0, .evTokenRefill 4096, .standbyCopy 0 12 0 [],
      .dieTempRead [], .registerWrite (.bar0 0 2) 0, .registerWrite (.cap 0 0x24) 0], c.wf = false) := by decide +kernel

theorem test_ill_formed_bytes :
    (∀ c ∈ [Instr.sqSlotRead 0 0 (some (zeros 63)) [], .xmInstruction 0 false (some (zeros 31)), .mirDirent 0 0 0 0 (zeros 64), .mirDirent 0 0 0 682 (zeros 96),
      .eventRaise { event 0x301 8 with detail := [] }, .eventRaise { event 0x301 3 with detail := zeros 29 },
      .mdcFillReturn ⟨0, 16, 0, false⟩ 0 .none, .sgpioFrame 0 []], c.wf = false) ∧
    (cmd 1 0 1 1 []).wf 2 = false ∧ (cmd 1 0 1 1 []).wf 1 = true ∧ (cmd 130 0 1 1 []).wf 1 = false := by decide +kernel

/-! ### Worked examples of the manual -/

/-- Chapter 03, encoding by hand: parities 0 and 1 of 0A, 1B, 2C and 4E. -/
theorem test_encode_by_hand :
    parityByte 0 [0x0A, 0x1B, 0x2C, 0x4E] = 0x73 ∧ parityByte 1 [0x0A, 0x1B, 0x2C, 0x4E] = 0x65 ∧ genCoef 1 0 = 0xA7 ∧ genCoef 2 6 = 0xAD ∧
    gfMul 0x7A 0x4E = 0x1D := by decide +kernel

/-- Chapter 03, decoding two erasures by hand: data chunks 0 and 3 from chunks 1 and 2 and both parities. -/
theorem test_decode_by_hand :
    gfInverse (decodeA [0, 3] [0, 1]) = [[0x03, 0x0A], [0x02, 0x0A]] ∧
    recoverBytes [0, 3] [0, 1] [(1, 0x1B), (2, 0x2C)] [0x73, 0x65] = [0x0A, 0x4E] := by decide +kernel

/-- R126: the check value of CRC-32C over "123456789". -/
theorem test_crc_check_value : crc32c [0x31, 0x32, 0x33, 0x34, 0x35, 0x36, 0x37, 0x38, 0x39] = 0xE3069283 := by decide +kernel

/-- R126: bytes 0 to 13 of the locator of extent 2. -/
theorem test_locator_bytes :
    (locatorBytes 5 7311 733 4194304).take 14 = [0x05, 0, 0x8F, 0x1C, 0, 0, 0, 0xDD, 0x02, 0, 0, 0, 0x40, 0] := by decide +kernel

/-- Chapter 06, worked mapping: the extent begins in data chunk 2 and ends in 6; they lie at positions 13 and 17, the directory at 6. -/
theorem test_worked_mapping :
    extentChunks { k := 16, m := 4, chunk := 1, bandMiB := 256, d := 20, single := false, gen := 1 } 733 4194304 = (2, 6) ∧
    chunkPos 7311 2 20 = 13 ∧ chunkPos 7311 6 20 = 17 ∧ chunkPos 7311 15 20 = 6 := by decide +kernel

/-- Chapter 09, worked rebuild of one entry. -/
theorem test_stripe_entry :
    stripeEntry { Stripe.fresh 1 2214 0 0 false false with state := .written, chunkOffset := 81920, sealSeq := 918337 } =
      [0x13, 0, 1, 0, 0xA6, 0x08, 0, 0x40, 1, 0, 0x10, 0x34, 0xE0, 0, 0, 0] := by decide +kernel

/-- Chapter 18, worked mapping of device address 0x1_2345_6780. -/
theorem test_dram_mapping :
    mcMap 0x123456780 = some (36, 76355456) ∧ mcCell 76355456 = (2330, 1920, 9) ∧ mcCheckAddr 76355456 = 0x1C091A2F0 := by decide +kernel

/-- Chapter 11, worked APPEND entry: opcode, slots, CID, pool, descriptor count and length as the meanings read them. -/
theorem test_append_entry :
    (let c : HostCmd := { x := 1, sq := 0, slots := [put (zeros 64) (0, [1, 2, 0, 0, 0x2B, 0x1A, 0, 0, 5, 0, 2, 0, 0, 0, 0x40, 0]), zeros 64] }
     entryOpcode c = 1 ∧ entrySlots c = 2 ∧ entryLe c 0 4 4 = 0x1A2B ∧ entryLe c 0 8 2 = 5 ∧ entryLe c 0 10 2 = 2 ∧
       entryLe c 0 12 4 = 4194304) := by decide +kernel

/-- The engine of chapter 13's worked step, with eight drives awake. -/
def worked : State :=
  let s := { engine 3150 0 with dl := { (engine 3150 0).dl with slots := (List.range 8).map (fun n => (n, slotOf)) }
                                cl := { (engine 3150 0).cl with integ := [(0, 2000 * dutyUnit)], uPrev := [(0, 3500 * dutyUnit)] } }
  let s := ((s.setFld CL_LE_CFG 0 CL_LE_CFG_DIR 1).setFld CL_LE_CFG 0 CL_LE_CFG_FF_SRC 2).setFld CL_LE_CFG 0 CL_LE_CFG_PERIOD 100
  let s := ((s.setFld CL_LE_SET 0 CL_LE_SET_SETPOINT 3000).setFld CL_LE_SET 0 CL_LE_SET_RATE 300).setFld CL_LE_GAIN 0 CL_LE_GAIN_KP 2560
  let s := ((s.setFld CL_LE_GAIN 0 CL_LE_GAIN_KI 32768).setFld CL_LE_FF 0 CL_LE_FF_KFF 12800).setFld CL_LE_LIMIT 0 CL_LE_LIMIT_OUT_MIN 2000
  s.setFld CL_LE_LIMIT 0 CL_LE_LIMIT_OUT_MAX 10000

/-- Chapter 13: u = 3,800 and i = 2,075. -/
theorem test_worked_engine_step :
    (worked.loopPeriod 0).cl.uPrev = [(0, 3800 * dutyUnit)] ∧ (worked.loopPeriod 0).cl.integ = [(0, 2075 * dutyUnit)] ∧
    (worked.loopPeriod 0).fld CL_LE_STATE 0 CL_LE_STATE_OUT = 3800 ∧ (worked.loopPeriod 0).fld CL_FAN 0 CL_FAN_DUTY = 3800 := by decide +kernel

/-- The bank of chapter 13's worked test: 2.4 F, 0.1 Ω, V_CUT 15 V, ETA 92 %, P_ebb 60 W. -/
def workedBank : State :=
  let s := (State.reset.setFld CL_BANK_CE 0 CL_BANK_CE_C_MF 2400).setFld CL_BANK_CE 0 CL_BANK_CE_ESR 1000
  let s := (s.setFld CL_BANK_PARAM 0 CL_BANK_PARAM_V_CUT_DV 150).setFld CL_BANK_PARAM 0 CL_BANK_PARAM_ETA_PCT 92
  s.setFld SE_WIN_PARAM 0 SE_WIN_PARAM_P_EBB_W 60

/-- Chapter 13: 1,952 J before the pulse, 1,863 J after it (the bank at 43.705 V), and the results of the fit. -/
theorem test_worked_bank :
    workedBank.usableEnergy 44800 0 = 1952 ∧ workedBank.usableEnergy 43888 0 = 1863 ∧ (fitResults 44800 ⟨43705, 4562, 10950, 10⟩).1 = 1000 ∧
    (fitResults 44800 ⟨43705, 4562, 10950, 10⟩).2 = 2400 := by decide +kernel

/-- Chapter 21, worked flood: the bucket of REG_ACCESS holds four tokens. -/
theorem test_flood_tokens : State.reset.tokens 0x003 2 = 4 := by decide +kernel


/-- Chapter 13, worked hold: a room at 22 °C and 55 % RH has its dew point at 12.5 °C. -/
theorem test_worked_dew_point : (magnus 2200 550 + 5) / 10 = 125 := by decide +kernel
end Sys2Proof.Tests
end

section
/-! What a host's access of a register comes to: a write is ignored and a read returns 0 in an absent unit (R5), an access that is
not an aligned 32-bit one is its event alone (R20), and a read of a latching low half keeps the high half that goes with it (R23). -/

namespace Sys2Proof.Machine

open Sys2Proof

variable {s : State}

/-! ### The register map -/

/-- The register and the indices found at an offset are those the offset has in that register's table. -/
theorem index?_of_regLookup {a i j : Nat} {r : Reg} (h : regLookup a = some (r, i, j)) : r.index? a = some (i, j) := by
  obtain ⟨q, -, hq⟩ := List.exists_of_findSome?_eq_some h
  obtain ⟨p, hp, e⟩ := Option.map_eq_some_iff.mp hq
  cases e
  exact hp

/-- An offset of a register without strides is its base. -/
theorem eq_base_of_index? {r : Reg} {a i j : Nat} (h1 : r.stride1 = 0) (h2 : r.stride2 = 0) (h : r.index? a = some (i, j)) :
    a = r.base := by
  simp only [Reg.index?, h1, h2, if_true, Option.ite_none_left_eq_some, Option.ite_none_right_eq_some] at h
  obtain ⟨hle, ⟨hrest, -, -⟩, -⟩ := h
  omega

/-- An offset of a register with a stride is below the end of its last instance. -/
theorem lt_of_index? {r : Reg} {a i j : Nat} (h1 : r.stride1 ≠ 0) (h : r.index? a = some (i, j)) :
    a < r.base + r.stride1 * r.count1 := by
  simp only [Reg.index?, h1, if_false, Option.ite_none_left_eq_some, Option.ite_none_right_eq_some] at h
  obtain ⟨hle, ⟨-, hdiv, -⟩, -⟩ := h
  have hlt := (Nat.div_lt_iff_lt_mul (Nat.pos_of_ne_zero h1)).mp hdiv
  rw [Nat.mul_comm] at hlt
  omega

/-- The two enrolment registers stand below the end of SEC's span. -/
theorem lt_of_enroll_index? {a i j : Nat} {r : Reg} (hr : r = SEC_ENROLL_CTL ∨ r = SEC_ENROLL_KEY)
    (h : r.index? a = some (i, j)) : a < 0x40000 := by
  rcases hr with rfl | rfl
  · exact eq_base_of_index? rfl rfl h ▸ (by decide : SEC_ENROLL_CTL.base < 0x40000)
  · exact Nat.lt_of_lt_of_le (lt_of_index? (by decide) h) (by decide)

/-- Every offset of a unit that a variant may lack is above the span of SEC. -/
theorem le_of_absentAt {a : Nat} (h : s.absentAt a = true) : 0x40000 ≤ a := by
  simp only [State.absentAt, Bool.or_eq_true, Bool.and_eq_true, decide_eq_true_eq] at h
  omega

/-! ### Absent units (R5) -/

theorem hostWrite_absent {a : Nat} (h : s.absentAt a = true) (port : Nat) (act : State → State) : s.hostWrite port a act = s := by
  simp [State.hostWrite, h]

/-- The enrolment registers, whose writes do not go through `hostWrite`, belong to no unit that may be absent. -/
theorem barWrite_absent {a i j : Nat} {r : Reg} (ha : a % 4 = 0) (hr : regLookup a = some (r, i, j)) (h : s.absentAt a = true)
    (port : Nat) (v : Word) : s.barWrite port a v = s := by
  have henroll : ¬ (r = SEC_ENROLL_CTL ∨ r = SEC_ENROLL_KEY) := fun e =>
    Nat.not_lt.mpr (le_of_absentAt h) (lt_of_enroll_index? e (index?_of_regLookup hr))
  obtain ⟨hctl, hkey⟩ := not_or.mp henroll
  simp [State.barWrite, ha, hr, hctl, hkey, hostWrite_absent h]

theorem readReg_absent {a : Nat} (h : s.absentAt a = true) : s.readReg a = (0, s) := by
  simp [State.readReg, h]

@[simp] theorem emit_absentAt (o : Out) (a : Nat) : (s.emit o).absentAt a = s.absentAt a := rfl

theorem hostRead_absent {a : Nat} (h : s.absentAt a = true) : s.hostRead a = s.emit (.regRead a 0) := by
  unfold State.hostRead
  split <;> simp [readReg_absent h, h]

/-! ### Accesses that are not aligned 32-bit ones (R20) -/

/-- The guard on offset and size answers before any register is looked up. -/
theorem execRegAccess_of_not_aligned {off size : Nat} (hup : s.up = true) (h : off % 4 ≠ 0 ∨ size ≠ 4) (port : Nat) (isWrite : Bool) :
    execRegAccess port off size isWrite s =
      .next (if isWrite then s.regAccessEvent off true else (s.regAccessEvent off false).emit (.regRead off 0)).finish := by
  rw [execRegAccess, whenUp_up hup, if_pos h]
  cases isWrite <;> rfl

/-! ### The latch of a high half (R23) -/

/-- What a register shows does not depend on the latches. -/
@[simp] theorem regView_latch (l : Tab Word) (a : Nat) : State.regView { s with latch := l } a = s.regView a := rfl

/-- A read returns what is latched for its offset. -/
theorem readReg_fst_of_latch {a : Nat} {w : Word} (ha : s.absentAt a = false) (hg : s.gatedAt a = false)
    (hr : (regLookup a).isSome = true) (hl : Tab.get? s.latch a = some w) : (s.readReg a).1 = w := by
  obtain ⟨⟨r, i, j⟩, hr⟩ := Option.isSome_iff_exists.mp hr
  simp [State.readReg, ha, hg, hr, hl]

/-- A read of a latching low half latches what the register above it shows. -/
theorem readReg_snd_latch {a i j : Nat} {r : Reg} (ha : s.absentAt a = false) (hg : s.gatedAt a = false)
    (hr : regLookup a = some (r, i, j)) (hlow : latchingLow.contains r = true) :
    Tab.get? (s.readReg a).2.latch (a + 4) = some (s.regView (a + 4)) := by
  have hlow : r ∈ latchingLow := List.contains_iff_mem.mp hlow
  simp [State.readReg, ha, hg, hr, hlow]

/-- What a host's read does to the latches is what the read of the register does. -/
theorem hostRead_latch (a : Nat) : (s.hostRead a).latch = (s.readReg a).2.latch := by
  unfold State.hostRead
  dsimp only
  split
  · split <;> rfl
  · rfl

end Sys2Proof.Machine
end
section
namespace Sys2Proof.Machine

open Sys2Proof

/-- Settles O10: the only registers whose write passes by the guard of absent units, those of enrolment, are always present. -/
theorem absentUnitReadsZero : Obligations.AbsentUnitReadsZero := by
  intro s port a v r i j hup ha hr h
  constructor
  · simp [Ends, Runs, execRegisterWrite, whenUp_up hup, barWrite_absent ha hr h]
  · simp [Ends, Runs, execRegAccess, whenUp_up hup, ha, hostRead_absent h]

/-- Settles O11: such an access ends at the guard that raises the event. -/
theorem otherAccessHasNoEffect : Obligations.OtherAccessHasNoEffect := by
  intro s port off size hup h
  exact ⟨execRegAccess_of_not_aligned hup h port true, execRegAccess_of_not_aligned hup h port false⟩

/-- Settles O13: the read of the low half stores what the high half shows, and a read prefers what is stored. -/
theorem lowHalfReadLatches : Obligations.LowHalfReadLatches := by
  intro s a r i j hup ha hr hlow habs hgate
  refine ⟨s.hostRead a, ?_, ?_, ?_⟩
  · simp [Ends, Runs, execLatchedLowHalfRead, whenUp_up hup, ha]
  · rw [hostRead_latch]
    exact readReg_snd_latch habs hgate hr hlow
  · intro t hlatch htabs htgate hsome
    exact readReg_fst_of_latch htabs htgate hsome hlatch

end Sys2Proof.Machine
end

section
/-! What a write of a submission doorbell does (R323): the accepted one changes the tail of its queue and reads the slots that became
announced, which is seen in the outputs alone; the refused one is a count alone. -/

namespace Sys2Proof.Machine

open Sys2Proof

/-! ### Queue contexts -/

/-- The entry changed is the one read; the others stay. -/
theorem Tab.get?_modify {α : Type} (t : Tab α) (k j : Nat) (f : α → α) :
    Tab.get? (Tab.modify t k f) j = if j = k then (Tab.get? t j).map f else Tab.get? t j := by
  induction t with
  | nil => simp [Tab.modify]
  | cons a t ih =>
    have hcons : Tab.modify (a :: t) k f = (if a.1 == k then (a.1, f a.2) else a) :: Tab.modify t k f := rfl
    rw [hcons, Tab.get?_cons, Tab.get?_cons, ih]
    by_cases hk : a.1 = k
    · subst hk
      by_cases hj : a.1 = j <;> simp [hj]
    · by_cases hj : a.1 = j
      · subst hj
        simp [hk]
      · simp [hk, hj]

variable {s : State}

/-- The submission queue just changed is the one read. -/
theorem sq?_modSq_same (q : Nat) (f : Sq → Sq) : (s.modSq q f).sq? q = (s.sq? q).map f := by
  simp only [State.sq?, State.dq, State.modSq, modDq_qm, Tab.get?_modify, if_true]
  cases Tab.get? s.qm.queues q <;> rfl

/-- Changing a submission queue leaves the contexts of other numbers. -/
theorem dq_modSq_other {p q : Nat} (h : p ≠ q) (f : Sq → Sq) : (s.modSq q f).dq p = s.dq p := by
  simp only [State.dq, State.modSq, modDq_qm, Tab.get?_modify, if_neg h]

theorem sq?_congr {t : State} (h : t.qm = s.qm) (q : Nat) : t.sq? q = s.sq? q := by
  rw [State.sq?, State.sq?, State.dq, State.dq, h]

/-! ### The reads of announced slots (R327) -/

/-- Nothing but the outputs differs, and these were only added to. -/
def OnlyAddsOutputs (s t : State) : Prop := ∃ os, t = { s with out := s.out ++ os }

theorem OnlyAddsOutputs.refl (s : State) : OnlyAddsOutputs s s := ⟨[], by rw [List.append_nil]⟩

theorem OnlyAddsOutputs.emit {t : State} (h : OnlyAddsOutputs s t) (o : Out) : OnlyAddsOutputs s (t.emit o) := by
  obtain ⟨os, rfl⟩ := h
  exact ⟨os ++ [o], by simp [State.emit]⟩

theorem readSlots_onlyAddsOutputs (s : State) (q : Nat) (offsets : List Nat) : OnlyAddsOutputs s (s.readSlots q offsets) := by
  unfold State.readSlots
  split
  · exact each_stable _ offsets _ (fun _ _ h => h.emit _) (.refl s)
  · exact .refl s

theorem readSlots_nil (q : Nat) : s.readSlots q [] = s := by
  unfold State.readSlots
  split <;> rfl

theorem readAnnounced_onlyAddsOutputs (old s : State) (x n : Nat) : OnlyAddsOutputs s (State.readAnnounced old s x n) := by
  unfold State.readAnnounced
  split
  · split
    · exact readSlots_onlyAddsOutputs s _ _
    · exact .refl s
  · exact .refl s

/-- No slot became announced while the queues stayed, so none is read. -/
theorem readAnnounced_of_qm_eq {old : State} (h : s.qm = old.qm) (x n : Nat) : State.readAnnounced old s x n = s := by
  unfold State.readAnnounced
  split
  next q _ =>
    rw [sq?_congr h]
    cases old.sq? q with
    | none => rfl
    | some a =>
      have hnone (p : Nat → Bool) : (List.range a.announced).filter (fun i => i ≥ a.announced && p i) = [] := by
        rw [List.filter_eq_nil_iff]
        intro i hi
        simp [Nat.not_le.mpr (List.mem_range.mp hi)]
      dsimp only
      rw [hnone, readSlots_nil]
  next => rfl

/-! ### The error counter of a function (R41) -/

@[simp] theorem fnError_qm (s : State) (x : Nat) : (s.fnError x).qm = s.qm := rfl

theorem fnError_onlyRegs (s : State) (x : Nat) : OnlyRegs [QM_FN_ERR.at x] s (s.fnError x) := by
  refine ⟨fun a ha => getReg_setFld_other s _ _ _ _ ?_, rfl⟩
  rintro rfl
  exact ha (List.mem_singleton_self _)

theorem fld_fnError (s : State) (x : Nat) :
    (s.fnError x).fld QM_FN_ERR x QM_FN_ERR_COUNT = min (s.fld QM_FN_ERR x QM_FN_ERR_COUNT + 1) 0xFFFFFFFF :=
  fld_bump_same s QM_FN_ERR x QM_FN_ERR_COUNT 1 (by decide)

/-! ### The submission doorbell (R323) -/

/-- What an accepted tail makes of its queue: it becomes the announced tail unless that is further from the consumer index. -/
def Sq.announce (t : Word) (a : Sq) : Sq := if idxSub t a.c ≥ idxSub a.a a.c then { a with a := t } else a

theorem sqTail_accepted {x n q : Nat} {a : Sq} {t : Word} (hq : s.dqNum x n = some q) (ha : s.sq? q = some a)
    (ht : idxSub t a.c ≤ a.size) : s.sqTail x n t = s.modSq q (Sq.announce t) := by
  simp only [State.sqTail, hq, ha, if_pos ht]
  rfl

theorem sqTail_refused {x n q : Nat} {a : Sq} {t : Word} (hq : s.dqNum x n = some q) (ha : s.sq? q = some a)
    (ht : a.size < idxSub t a.c) : s.sqTail x n t = s.fnError x := by
  simp only [State.sqTail, hq, ha, if_neg (Nat.not_le.mpr ht)]

theorem ends_dbSqTailWrite (hup : s.up = true) (x n : Nat) (t : Word) :
    Ends (.dbSqTailWrite x n 4 t) s (State.readAnnounced s (s.sqTail x n t) x n) := by
  simp [Ends, Runs, execDbSqTailWrite, whenUp_up hup]

/-- Settles O23: the reads that follow an accepted tail change no context, and after a refused one nothing is announced to read. -/
theorem submissionTailWrites : Obligations.SubmissionTailWrites := by
  intro s x n q a v hup hq ha
  have hends := ends_dbSqTailWrite hup x n v
  refine ⟨fun hin => ?_, fun hout => ?_⟩
  · rw [sqTail_accepted hq ha hin] at hends
    obtain ⟨os, hos⟩ := readAnnounced_onlyAddsOutputs s (s.modSq q (Sq.announce v)) x n
    rw [hos] at hends
    refine ⟨_, hends, ?_, fun p hp => dq_modSq_other hp _, rfl, rfl, rfl, List.prefix_append _ os⟩
    calc (s.modSq q (Sq.announce v)).sq? q = (s.sq? q).map (Sq.announce v) := sq?_modSq_same q _
      _ = some (Sq.announce v a) := by rw [ha]; rfl
  · rw [sqTail_refused hq ha hout, readAnnounced_of_qm_eq (fnError_qm s x)] at hends
    exact ⟨_, hends, fnError_qm s x, fnError_onlyRegs s x, fld_fnError s x⟩

end Sys2Proof.Machine
end

section
/-! What every step keeps: each statement is a property that the model's updates keep (`Laws/Invariants`), taken over every command. -/

namespace Sys2Proof.Machine

open Sys2Proof

/-- What the model's updates keep, a step keeps: a queued command by `exec_stable`, whatever is left of the queue, and the tick of an
empty queue by the rule of record updates. -/
theorem step_stable {P : State → Prop} (HM : StableMem P) (hq : ∀ (s : State) (cs : List Instr), P s → P { s with pending := cs })
    {s t : State} (hs : P s) (h : step s = .next t) : P t := by
  unfold step at h
  split at h
  next =>
    injection h with h
    exact h ▸ aonTick_stable HM.toStable hs
  next c cs _ => exact (exec_stable HM (hq s cs hs) c).next h

theorem true_stableMem : StableMem (fun _ => True) where
  upd := id
  updSec := id
  updRegs := id
  draws := id
  setReg := fun _ _ _ => trivial
  emit := fun _ _ => trivial
  blow := fun _ _ => trivial
  enrol := fun _ _ _ => trivial
  dram := id
  sram := id
  coldKeep := id
  warmKeep := id
  discardDram := id

/-- Settles O1: a step takes the front command off the queue before it runs it. -/
theorem stepRunsFront : Obligations.StepRunsFront := by
  intro c cs s
  rfl

/-- Settles O2: the tick adds 1,953,125 to device time in units of 1/64 ns, and wraps at 2^64 ns. -/
theorem emptyQueueTicks : Obligations.EmptyQueueTicks := by
  intro s h
  refine ⟨s.aonTick, by rw [step, h], rfl, ?_, fun _ => Nat.mod_lt _ (by decide)⟩
  simp only [State.aonTick]
  omega

/-- Settles O3: every command answers a next state, whatever one asks of that state. -/
theorem everyCommandAnswers : Obligations.EveryCommandAnswers := by
  intro c s
  obtain ⟨t, h, -⟩ := exec_stable true_stableMem trivial c
  exact ⟨t, h⟩

/-- Settles O4: the queue, the part, its step and the outputs sent are kept by every update. -/
theorem commandsLeaveQueue : Obligations.CommandsLeaveQueue := by
  intro c s t h
  exact (exec_stable (since_stableMem s) ⟨rfl, rfl, rfl, List.prefix_rfl⟩ c).next h

/-- Settles O5: the register storage and the memories of the reset state are empty. -/
theorem resetForms : Obligations.ResetForms := ⟨rfl, rfl, rfl⟩

/-- Settles O6: the canonical forms are kept by every update and do not speak of the queue. -/
theorem stepsKeepForms : Obligations.StepsKeepForms := by
  intro s t hs h
  exact step_stable wf_stableMem (fun _ _ h => h) hs h

/-- Settles O7: fuses and enrolled keys are only added to, and the identity is never written. -/
theorem blownFusesStay : Obligations.BlownFusesStay := by
  intro s t h
  exact step_stable (fusedSince_stableMem s) (fun _ _ h => h) ⟨fun _ => id, fun _ => id, rfl, rfl⟩ h

/-- Settles O8: the memories are those before, by the rule of commands that store nothing. -/
theorem memoryFrame : Obligations.MemoryFrame := by
  intro c s t hc h a
  obtain ⟨hdram, hsram⟩ := (exec_stable_of_no_store (sameMemory_stable s) ⟨rfl, rfl⟩ c hc).next h
  rw [hdram, hsram]
  exact ⟨rfl, rfl⟩

end Sys2Proof.Machine
end

section
/-! What a permitted write does to the fields of a register that has no effect of its own (chapter 00, R24). -/

namespace Sys2Proof.Machine

open Sys2Proof

variable {s : State}

/-- A register outside the list of `Reg.plain` has no effect but the setting of its fields. -/
theorem regEffect_of_plain {r : Reg} (h : r.plain = true) (i a : Nat) (v : Word) : s.regEffect r i a v = s.writeByType a v := by
  simp only [Reg.plain, Bool.not_eq_true', List.contains_eq_mem, decide_eq_false_iff_not, List.mem_cons, List.not_mem_nil, not_or,
    or_false] at h
  simp only [State.regEffect, h, or_self, if_false]

/-- A taken write of such a register sets its fields and does nothing else. -/
theorem barWrite_of_plain {port a i j : Nat} {r : Reg} (ha : a % 4 = 0) (hr : regLookup a = some (r, i, j)) (hp : r.plain = true)
    (hw : WriteTaken s port a) (v : Word) : s.barWrite port a v = s.writeByType a v := by
  have hctl : r ≠ SEC_ENROLL_CTL := by rintro rfl; exact absurd hp (by decide)
  have hkey : r ≠ SEC_ENROLL_KEY := by rintro rfl; exact absurd hp (by decide)
  simp [State.barWrite, ha, hr, hctl, hkey, hostWrite_taken hw, regEffect_of_plain hp]

theorem onlyRegs_setReg (s : State) (a : Nat) (v : Word) : OnlyRegs [a] s (s.setReg a v) :=
  ⟨fun _ h => getReg_setReg_other s (fun e => h (List.mem_singleton.mpr e)) v, rfl⟩

/-- The word a taken write stores. -/
theorem writeByType_eq {a i j : Nat} {r : Reg} (hr : regLookup a = some (r, i, j)) (s : State) (v : Word) :
    s.writeByType a v = s.setReg a (writeFields r.fields (!(Tab.keys s.regs).contains a) (s.getReg a) v) := by
  rw [State.writeByType, hr]

theorem writeByType_onlyRegs {a i j : Nat} {r : Reg} (hr : regLookup a = some (r, i, j)) (s : State) (v : Word) :
    OnlyRegs [a] s (s.writeByType a v) := writeByType_eq hr s v ▸ onlyRegs_setReg s a _

/-- A field after a write is what its own access type makes of it, since the fields of a register are apart. -/
theorem writeByType_get {a i j : Nat} {r : Reg} (hr : regLookup a = some (r, i, j)) {f : Fld} (hf : f ∈ r.fields) (s : State) (v : Word) :
    f.get ((s.writeByType a v).getReg a) = f.get (writeField (!(Tab.keys s.regs).contains a) v (s.getReg a) f) ∧ f.lo + f.len ≤ 32 := by
  rw [writeByType_eq hr, getReg_setReg_same]
  exact writeFields_get r.fields _ v (s.getReg a) (fieldsApart_lookup hr) hf

theorem writeByType_rw {a i j : Nat} {r : Reg} (hr : regLookup a = some (r, i, j)) {f : Fld} (hf : f ∈ r.fields) (hacc : f.acc = .rw)
    (s : State) (v : Word) : f.get ((s.writeByType a v).getReg a) = f.get v := by
  obtain ⟨hget, hlen⟩ := writeByType_get hr hf s v
  rw [hget, writeField, hacc]
  exact (Fld.get_put f hlen _ _).trans (Nat.mod_eq_of_lt (Fld.get_lt f v))

theorem writeByType_rw1c {a i j : Nat} {r : Reg} (hr : regLookup a = some (r, i, j)) {f : Fld} (hf : f ∈ r.fields) (hacc : f.acc = .rw1c)
    (s : State) (v : Word) :
    f.get ((s.writeByType a v).getReg a) = f.get (s.getReg a) &&& ((2 ^ f.len - 1) ^^^ f.get v) := by
  obtain ⟨hget, hlen⟩ := writeByType_get hr hf s v
  rw [hget, writeField, hacc]
  exact (Fld.get_put f hlen _ _).trans (Nat.mod_eq_of_lt (Nat.lt_of_le_of_lt Nat.and_le_left (Fld.get_lt f _)))

theorem writeByType_ro {a i j : Nat} {r : Reg} (hr : regLookup a = some (r, i, j)) {f : Fld} (hf : f ∈ r.fields)
    (hacc : f.acc = .ro ∨ f.acc = .rc) (s : State) (v : Word) :
    f.get ((s.writeByType a v).getReg a) = f.get (s.getReg a) := by
  obtain ⟨hget, -⟩ := writeByType_get hr hf s v
  rcases hacc with hacc | hacc <;> rw [hget, writeField, hacc]

/-- Settles O9: each field by its access type, and a reserved bit by no field. -/
theorem registerWriteFields : Obligations.RegisterWriteFields := by
  intro s port a v r i j ha hr hp hw
  refine ⟨s.writeByType a v, ?_, writeByType_onlyRegs hr s v, fun f hf => ⟨fun hacc => writeByType_rw hr hf hacc s v,
    fun hacc => writeByType_rw1c hr hf hacc s v, fun hacc => writeByType_ro hr hf hacc s v⟩, fun b hb hfree => ?_⟩
  · simp [Ends, Runs, execRegisterWrite, whenUp_up hw.up, barWrite_of_plain ha hr hp hw]
  · rw [writeByType_eq hr, getReg_setReg_same, writeFields_reserved r.fields hb hfree]

end Sys2Proof.Machine
end

section
/-! The erasure code (R93 to R97): the product of the field is bilinear over xor, associative, and inverted by `gfInv`, so that the
share of one lost chunk in any parity gives the chunk back. -/

namespace Sys2Proof.Machine

open Sys2Proof

/-! ### The field (R93) -/

/-- Every byte is a xor of bytes with a single bit set. -/
theorem byte_xor_induction {p : Byte → Prop} (zero : p 0) (bit : ∀ k < 8, p (BitVec.twoPow 8 k))
    (xor : ∀ a b, p a → p b → p (a ^^^ b)) (d : Byte) : p d := by
  have hsum : ∀ d : Byte, d = (List.range 8).foldl (fun acc k => acc ^^^ if d.getLsbD k then BitVec.twoPow 8 k else 0) 0 := by
    decide +kernel
  rw [hsum d]
  refine List.foldlRecOn (motive := p) _ _ zero fun acc hacc k hk => xor _ _ hacc ?_
  split
  · exact bit k (List.mem_range.mp hk)
  · exact zero

theorem byte_xor_left_comm (a b c : Byte) : a ^^^ (b ^^^ c) = b ^^^ (a ^^^ c) := by
  rw [← BitVec.xor_assoc, BitVec.xor_comm a b, BitVec.xor_assoc]

theorem gfDouble_xor (a b : Byte) : gfDouble (a ^^^ b) = gfDouble a ^^^ gfDouble b := by
  simp only [gfDouble, BitVec.msb_xor, BitVec.shiftLeft_xor_distrib]
  cases a.msb <;> cases b.msb <;> simp [BitVec.xor_assoc, BitVec.xor_comm, byte_xor_left_comm]

theorem gfMulBits_xor_left (n : Nat) (a b c : Byte) : gfMulBits n (a ^^^ b) c = gfMulBits n a c ^^^ gfMulBits n b c := by
  induction n generalizing a b c with
  | zero => exact (BitVec.xor_self).symm
  | succ n ih =>
    simp only [gfMulBits, gfDouble_xor, ih]
    cases c.getLsbD 0 <;> simp [BitVec.xor_assoc, byte_xor_left_comm]

theorem byte_xor_cancel_left (a b : Byte) : a ^^^ (a ^^^ b) = b := by rw [← BitVec.xor_assoc, BitVec.xor_self, BitVec.zero_xor]

theorem gfMulBits_xor_right (n : Nat) (a b c : Byte) : gfMulBits n a (b ^^^ c) = gfMulBits n a b ^^^ gfMulBits n a c := by
  induction n generalizing a b c with
  | zero => exact (BitVec.xor_self).symm
  | succ n ih =>
    simp only [gfMulBits, BitVec.ushiftRight_xor_distrib, ih, BitVec.getLsbD_xor]
    cases b.getLsbD 0 <;> cases c.getLsbD 0 <;> simp [BitVec.xor_assoc, byte_xor_left_comm, byte_xor_cancel_left]

theorem gfMul_xor_left (a b c : Byte) : gfMul (a ^^^ b) c = gfMul a c ^^^ gfMul b c := gfMulBits_xor_left 8 a b c

theorem gfMul_xor_right (a b c : Byte) : gfMul a (b ^^^ c) = gfMul a b ^^^ gfMul a c := gfMulBits_xor_right 8 a b c

theorem gfMul_zero_left : ∀ a : Byte, gfMul 0 a = 0 := by decide +kernel

theorem gfMul_zero_right : ∀ a : Byte, gfMul a 0 = 0 := by decide +kernel

theorem gfMul_one_left : ∀ a : Byte, gfMul 1 a = a := by decide +kernel

theorem gfMul_one_right : ∀ a : Byte, gfMul a 1 = a := by decide +kernel

theorem gfMul_gfInv : ∀ a : Byte, a ≠ 0 → gfMul (gfInv a) a = 1 := by decide +kernel

/-- The product is associative: both sides are additive in each factor, and agree on single bits. -/
theorem gfMul_assoc (a b c : Byte) : gfMul (gfMul a b) c = gfMul a (gfMul b c) := by
  have hbits : ∀ i < 8, ∀ j < 8, ∀ k < 8, gfMul (gfMul (BitVec.twoPow 8 i) (BitVec.twoPow 8 j)) (BitVec.twoPow 8 k) =
      gfMul (BitVec.twoPow 8 i) (gfMul (BitVec.twoPow 8 j) (BitVec.twoPow 8 k)) := by decide +kernel
  induction c using byte_xor_induction with
  | zero => simp only [gfMul_zero_right]
  | xor c d hc hd => simp only [gfMul_xor_right, hc, hd]
  | bit k hk =>
    induction b using byte_xor_induction with
    | zero => simp only [gfMul_zero_right, gfMul_zero_left]
    | xor b d hb hd => simp only [gfMul_xor_right, gfMul_xor_left, hb, hd]
    | bit j hj =>
      induction a using byte_xor_induction with
      | zero => simp only [gfMul_zero_left]
      | xor a d ha hd => simp only [gfMul_xor_left, ha, hd]
      | bit i hi => exact hbits i hi j hj k hk

/-- No coefficient of the generator is zero (R95). -/
theorem genCoef_ne_zero : ∀ j < 4, ∀ i < 60, genCoef j i ≠ 0 := by decide +kernel

/-! ### Decoding of one loss (R97) -/

/-- The elimination of a 1 × 1 system divides by its entry. -/
theorem gfStep_single {g h : Byte} (hg : g ≠ 0) : gfStep [[g, h]] 0 = [[gfMul (gfInv g) g, gfMul (gfInv g) h]] := by
  have hfind : (List.range 1).find? (fun i => decide (0 ≤ i) && (([[g, h]] : List (List Byte)).getD i []).getD 0 0 != 0) = some 0 := by
    rw [List.range_succ, List.range_zero, List.nil_append, List.find?_cons_of_pos]
    exact bne_iff_ne.mpr hg
  rw [gfStep, List.length_singleton, hfind]
  rfl

theorem gfInverse_single {g : Byte} (hg : g ≠ 0) : gfInverse [[g]] = [[gfInv g]] := by
  have hext : ([[g]] : List (List Byte)).zipIdx.map (fun r => r.1 ++ (List.range 1).map (fun j => if j = r.2 then (1 : Byte) else 0)) =
      [[g, 1]] := rfl
  rw [gfInverse, List.length_singleton, hext, List.range_succ, List.range_zero, List.nil_append, List.foldl_cons, List.foldl_nil,
    gfStep_single hg, gfMul_one_right]
  rfl

/-! ### Sums over chunks -/

section
variable {α : Type} (f : α → Byte)

theorem foldl_xor_start (xs : List α) (p : Byte) : xs.foldl (fun acc e => acc ^^^ f e) p = p ^^^ xs.foldl (fun acc e => acc ^^^ f e) 0 := by
  induction xs generalizing p with
  | nil => simp
  | cons x xs ih => rw [List.foldl_cons, List.foldl_cons, ih, ih (0 ^^^ f x)]; simp [BitVec.xor_assoc]

/-- A sum is that of the elements chosen and that of the others. -/
theorem foldl_xor_split (p : α → Bool) (xs : List α) :
    xs.foldl (fun acc e => acc ^^^ f e) 0 =
      (xs.filter p).foldl (fun acc e => acc ^^^ f e) 0 ^^^ (xs.filter (fun e => !p e)).foldl (fun acc e => acc ^^^ f e) 0 := by
  induction xs with
  | nil => exact (BitVec.xor_self).symm
  | cons x xs ih =>
    rw [List.foldl_cons, foldl_xor_start, ih]
    cases hx : p x
    · rw [List.filter_cons_of_neg (by simp [hx]), List.filter_cons_of_pos (by simp [hx]), List.foldl_cons, foldl_xor_start f _ (0 ^^^ f x)]
      simp [byte_xor_left_comm]
    · rw [List.filter_cons_of_pos hx, List.filter_cons_of_neg (by simp [hx]), List.foldl_cons, foldl_xor_start f _ (0 ^^^ f x)]
      simp [BitVec.xor_assoc]

end

/-- The chunks of a stripe with their positions. -/
def chunksAt (ds : List Byte) : List (Nat × Byte) := ds.zipIdx.map (fun e => (e.2, e.1))

theorem list_reverse_induction {α : Type} {motive : List α → Prop} (nil : motive [])
    (append_singleton : ∀ xs x, motive xs → motive (xs ++ [x])) (xs : List α) : motive xs := by
  rw [← xs.reverse_reverse]
  induction xs.reverse with
  | nil => exact nil
  | cons y ys ih =>
    rw [List.reverse_cons]
    exact append_singleton _ _ ih

/-- One chunk stands at each position. -/
theorem chunksAt_filter {ds : List Byte} {i : Nat} (h : i < ds.length) :
    (chunksAt ds).filter (fun e => !decide (e.1 ≠ i)) = [(i, ds.getD i 0)] := by
  induction ds using list_reverse_induction generalizing i with
  | nil => exact absurd h (Nat.not_lt_zero _)
  | append_singleton ds d ih =>
    have hsplit : chunksAt (ds ++ [d]) = chunksAt ds ++ [(ds.length, d)] := by simp [chunksAt, List.zipIdx_append]
    rw [hsplit, List.filter_append]
    by_cases hi : i < ds.length
    · rw [ih hi, List.getD_eq_getElem?_getD, List.getD_eq_getElem?_getD, List.getElem?_append_left hi]
      simp [(Nat.ne_of_gt hi)]
    · have hlen : i = ds.length := by simp at h; omega
      have hnone : (chunksAt ds).filter (fun e => !decide (e.1 ≠ i)) = [] := by
        rw [List.filter_eq_nil_iff]
        intro e he
        obtain ⟨c, hc, rfl⟩ := List.mem_map.mp he
        have hlt : c.2 < ds.length := List.snd_lt_of_mem_zipIdx hc
        simp [hlen, Nat.ne_of_lt hlt]
      rw [hnone, hlen]
      simp

theorem parityByte_eq (j : Nat) (ds : List Byte) :
    parityByte j ds = (chunksAt ds).foldl (fun acc e => acc ^^^ gfMul (genCoef j e.1) e.2) 0 := by
  rw [parityByte, chunksAt, List.foldl_map]

/-- What is left of a parity when the other chunks are taken out of it is the lost chunk under its coefficient. -/
theorem parityByte_without_others {ds : List Byte} {i : Nat} (h : i < ds.length) (j : Nat) :
    ((chunksAt ds).filter (fun e => e.1 ≠ i)).foldl (fun acc e => acc ^^^ gfMul (genCoef j e.1) e.2) (parityByte j ds) =
      gfMul (genCoef j i) (ds.getD i 0) := by
  rw [foldl_xor_start, parityByte_eq, foldl_xor_split _ (fun e : Nat × Byte => decide (e.1 ≠ i)), chunksAt_filter h,
    BitVec.xor_comm, ← BitVec.xor_assoc, BitVec.xor_self]
  simp

/-- Settles O39: the parity less the readable chunks is `g(j, i)` times the lost one, and the decode matrix divides by `g(j, i)`. -/
theorem oneLostChunkComesBack : Obligations.OneLostChunkComesBack := by
  intro ds i j hlen hi hj
  have hg : genCoef j i ≠ 0 := genCoef_ne_zero j hj i (by omega)
  have hfold := parityByte_without_others hi j
  rw [chunksAt] at hfold
  calc recoverBytes [i] [j] ((ds.zipIdx.map (fun e => (e.2, e.1))).filter (fun e => e.1 ≠ i)) [parityByte j ds]
      = [gfMul (gfInv (genCoef j i)) (gfMul (genCoef j i) (ds.getD i 0))] := by
        simp only [recoverBytes, decodeA, List.map_cons, List.map_nil, gfInverse_single hg, List.zipWith_cons_cons,
          List.zipWith_nil_right, List.foldl_cons, List.foldl_nil, hfold]
        simp
    _ = [ds.getD i 0] := by rw [← gfMul_assoc, gfMul_gfInv _ hg, gfMul_one_left]

end Sys2Proof.Machine
end

section
/-! Reading a register after another one was written, by the offsets of the tables, and what raising an event leaves. -/

namespace Sys2Proof.Machine

open Sys2Proof

variable {s : State}

theorem bit_eq_testBit (v i : Nat) : bit v i = v.testBit i := by
  rw [bit, Nat.testBit_eq_decide_div_mod_eq, Nat.shiftRight_eq_div_pow]

/-! ### Offsets of different registers -/

/-- Two registers of one stride whose bases differ within it share no offset. -/
theorem at_ne_of_phase {r q : Reg} (h : r.stride1 = q.stride1 ∧ r.base % r.stride1 ≠ q.base % r.stride1) (i j : Nat) :
    r.at i ≠ q.at j := by
  obtain ⟨hs, hb⟩ := h
  intro e
  have hmod := congrArg (· % q.stride1) e
  simp only [Reg.at, hs, Nat.add_mul_mod_self_right] at hmod
  exact hb (hs ▸ hmod)

/-- An offset below a register's base is none of its offsets. -/
theorem at_ne_of_lt_base {r : Reg} {a : Nat} (h : a < r.base) (i : Nat) : r.at i ≠ a :=
  fun e => Nat.not_le.mpr h (e ▸ Nat.le_add_right _ _)

theorem fld_setFld_phase (s : State) {r q : Reg} (h : q.stride1 = r.stride1 ∧ q.base % q.stride1 ≠ r.base % q.stride1) (i j : Nat)
    (f g : Fld) (v : Nat) : (s.setFld r i f v).fld q j g = s.fld q j g :=
  fld_setFld_other s r q i j f g v (at_ne_of_phase h j i)

/-- A register at another index is another offset. -/
theorem at_ne_of_index_ne {r : Reg} {i j : Nat} (hs : 0 < r.stride1) (h : i ≠ j) : r.at i ≠ r.at j :=
  fun e => h (Nat.eq_of_mul_eq_mul_right hs (Nat.add_left_cancel e))

/-! ### Changes of registers alone -/

theorem onlyRegs_refl (as : List Nat) (s : State) : OnlyRegs as s s := ⟨fun _ _ => rfl, rfl⟩

theorem onlyRegs_trans {as : List Nat} {s t u : State} (h : OnlyRegs as s t) (k : OnlyRegs as t u) : OnlyRegs as s u := by
  refine ⟨fun a ha => (k.1 a ha).trans (h.1 a ha), ?_⟩
  rw [k.2, h.2]

theorem onlyRegs_mono {as bs : List Nat} {s t : State} (h : OnlyRegs as s t) (hsub : ∀ a ∈ as, a ∈ bs) : OnlyRegs bs s t :=
  ⟨fun a ha => h.1 a (fun m => ha (hsub a m)), h.2⟩

/-- What does not depend on the registers stays. -/
theorem OnlyRegs.keeps {as : List Nat} {t : State} (h : OnlyRegs as s t) {β : Type} (g : State → β)
    (hg : ∀ (u : State) rs, g { u with regs := rs } = g u) : g t = g s := by
  rw [h.2]
  exact hg s t.regs

/-- One more register set. -/
theorem OnlyRegs.setReg {as : List Nat} {t : State} (h : OnlyRegs as s t) {a : Nat} (ha : a ∈ as) (v : Word) :
    OnlyRegs as s (t.setReg a v) :=
  onlyRegs_trans h (onlyRegs_mono (onlyRegs_setReg t a v) (fun _ hb => List.mem_singleton.mp hb ▸ ha))

theorem OnlyRegs.setFld {as : List Nat} {t : State} (h : OnlyRegs as s t) {r : Reg} {i : Nat} (ha : r.at i ∈ as) (f : Fld) (v : Nat) :
    OnlyRegs as s (t.setFld r i f v) := h.setReg ha _

theorem OnlyRegs.bump {as : List Nat} {t : State} (h : OnlyRegs as s t) {r : Reg} {i : Nat} (ha : r.at i ∈ as) (f : Fld) (n : Nat) :
    OnlyRegs as s (t.bump r i f n) := h.setReg ha _

theorem onlyRegs_setFld (s : State) (r : Reg) (i : Nat) (f : Fld) (v : Nat) : OnlyRegs [r.at i] s (s.setFld r i f v) :=
  onlyRegs_setReg s _ _

theorem fld_bump_beside (s : State) (r : Reg) (i : Nat) (f g : Fld) (n : Nat) (hg : g.lo + g.len ≤ 32)
    (h : g.lo + g.len ≤ f.lo ∨ f.lo + f.len ≤ g.lo) : (s.bump r i f n).fld r i g = s.fld r i g :=
  fld_setFld_beside s r i f g _ hg h

theorem fld_setReg_other (s : State) {q : Reg} {j a : Nat} (h : q.at j ≠ a) (g : Fld) (v : Word) :
    (s.setReg a v).fld q j g = s.fld q j g := by
  rw [State.fld, State.fld, getReg_setReg_other s h]

theorem fld_setReg64_other (s : State) {q : Reg} {j lo hi : Nat} (hlo : q.at j ≠ lo) (hhi : q.at j ≠ hi) (g : Fld) (v : Nat) :
    (s.setReg64 lo hi v).fld q j g = s.fld q j g := by
  rw [State.setReg64, fld_setReg_other _ hhi, fld_setReg_other _ hlo]

/-- A pair of registers reads back what was written to it. -/
theorem reg64_setReg64_same (s : State) {lo hi v : Nat} (h : lo ≠ hi) (hv : v < 2 ^ 64) : (s.setReg64 lo hi v).reg64 lo hi = v := by
  rw [State.reg64, State.setReg64, getReg_setReg_same, getReg_setReg_other _ h, getReg_setReg_same, BitVec.toNat_ofNat, BitVec.toNat_ofNat]
  omega

/-- A field is read from the stored registers alone. -/
theorem fld_of_regs_eq {s t : State} (h : t.regs = s.regs) (r : Reg) (i : Nat) (f : Fld) : t.fld r i f = s.fld r i f := by
  rw [State.fld, State.fld, State.getReg, State.getReg, h]

/-! ### Raising an event (R606 to R609) -/

theorem evLose_frame (s : State) : s.evLose = { s with regs := s.evLose.regs, ev := s.evLose.ev } := rfl

theorem evIntake_frame (s : State) (e : RaisedEvent) : s.evIntake e = { s with regs := (s.evIntake e).regs, ev := (s.evIntake e).ev } := by
  unfold State.evIntake
  split <;> rfl

/-- An event changes the recorder, and of the registers the recorder's two counts. -/
theorem raise_frame (s : State) (code sev inst : Nat) (detail : List Byte) : s.raise code sev inst detail =
    { s with regs := (s.raise code sev inst detail).regs, ev := (s.raise code sev inst detail).ev } := by
  unfold State.raise State.raiseEvent
  split
  · exact evIntake_frame _ _
  · split
    · rfl
    · split
      · rfl
      · exact evIntake_frame _ _

/-- The offsets of the counts that an event may raise. -/
def evCounts : List Nat := [EV_LOST.at 0, EV_SUPPRESSED.at 0]

theorem evLose_getReg {a : Nat} (h : a ∉ evCounts) : s.evLose.getReg a = s.getReg a :=
  getReg_setFld_other s _ _ _ _ (fun e => h (e ▸ by decide))

theorem evIntake_getReg {a : Nat} (h : a ∉ evCounts) (e : RaisedEvent) : (s.evIntake e).getReg a = s.getReg a := by
  unfold State.evIntake
  split
  · exact evLose_getReg h
  · rfl

theorem getReg_raise {a : Nat} (h : a ∉ evCounts) (code sev inst : Nat) (detail : List Byte) :
    (s.raise code sev inst detail).getReg a = s.getReg a := by
  unfold State.raise State.raiseEvent
  split
  · exact evIntake_getReg h _
  · split
    · exact evLose_getReg h
    · split
      · exact getReg_setFld_other s _ _ _ _ (fun e => h (e ▸ by decide))
      · exact evIntake_getReg h _

/-- The registers above those of the event recorder keep their value when an event is raised. -/
theorem fld_raise {r : Reg} (h : 0x80024 < r.base) (i : Nat) (f : Fld) (code sev inst : Nat) (detail : List Byte) :
    (s.raise code sev inst detail).fld r i f = s.fld r i f := by
  have hout : r.at i ∉ evCounts := by
    intro hin
    simp only [evCounts, List.mem_cons, List.not_mem_nil, or_false] at hin
    rcases hin with e | e
    · exact at_ne_of_lt_base (Nat.lt_of_le_of_lt (by decide) h) i e
    · exact at_ne_of_lt_base (Nat.lt_of_le_of_lt (by decide) h) i e
  rw [State.fld, State.fld, getReg_raise hout]

section
variable (s) (code sev inst : Nat) (detail : List Byte)

@[simp] theorem raise_dram : (s.raise code sev inst detail).dram = s.dram := by rw [raise_frame]
@[simp] theorem raise_sram : (s.raise code sev inst detail).sram = s.sram := by rw [raise_frame]
@[simp] theorem raise_out : (s.raise code sev inst detail).out = s.out := by rw [raise_frame]
@[simp] theorem raise_qm : (s.raise code sev inst detail).qm = s.qm := by rw [raise_frame]
@[simp] theorem raise_sec : (s.raise code sev inst detail).sec = s.sec := by rw [raise_frame]
@[simp] theorem raise_se : (s.raise code sev inst detail).se = s.se := by rw [raise_frame]
@[simp] theorem raise_eb : (s.raise code sev inst detail).eb = s.eb := by rw [raise_frame]
@[simp] theorem raise_dl : (s.raise code sev inst detail).dl = s.dl := by rw [raise_frame]
@[simp] theorem raise_pl : (s.raise code sev inst detail).pl = s.pl := by rw [raise_frame]
@[simp] theorem raise_boot : (s.raise code sev inst detail).boot = s.boot := by rw [raise_frame]
@[simp] theorem raise_pw : (s.raise code sev inst detail).pw = s.pw := by rw [raise_frame]
@[simp] theorem raise_mc : (s.raise code sev inst detail).mc = s.mc := by rw [raise_frame]
@[simp] theorem raise_mdc : (s.raise code sev inst detail).mdc = s.mdc := by rw [raise_frame]
@[simp] theorem raise_xm : (s.raise code sev inst detail).xm = s.xm := by rw [raise_frame]
@[simp] theorem raise_ce : (s.raise code sev inst detail).ce = s.ce := by rw [raise_frame]
@[simp] theorem raise_cl : (s.raise code sev inst detail).cl = s.cl := by rw [raise_frame]
@[simp] theorem raise_variant : (s.raise code sev inst detail).variant = s.variant := by rw [raise_frame]
@[simp] theorem raise_devNs : (s.raise code sev inst detail).devNs = s.devNs := by rw [raise_frame]
@[simp] theorem raise_timeSet : (s.raise code sev inst detail).timeSet = s.timeSet := by rw [raise_frame]
@[simp] theorem raise_draws : (s.raise code sev inst detail).draws = s.draws := by rw [raise_frame]

end

section
variable (s) (r : Reg) (i : Nat) (f : Fld) (n : Nat)

@[simp] theorem bump_dram : (s.bump r i f n).dram = s.dram := rfl
@[simp] theorem bump_sram : (s.bump r i f n).sram = s.sram := rfl
@[simp] theorem bump_out : (s.bump r i f n).out = s.out := rfl
@[simp] theorem bump_ev : (s.bump r i f n).ev = s.ev := rfl
@[simp] theorem bump_qm : (s.bump r i f n).qm = s.qm := rfl
@[simp] theorem bump_sec : (s.bump r i f n).sec = s.sec := rfl
@[simp] theorem bump_se : (s.bump r i f n).se = s.se := rfl
@[simp] theorem bump_eb : (s.bump r i f n).eb = s.eb := rfl
@[simp] theorem bump_dl : (s.bump r i f n).dl = s.dl := rfl
@[simp] theorem bump_pl : (s.bump r i f n).pl = s.pl := rfl
@[simp] theorem bump_boot : (s.bump r i f n).boot = s.boot := rfl
@[simp] theorem bump_pw : (s.bump r i f n).pw = s.pw := rfl
@[simp] theorem bump_mc : (s.bump r i f n).mc = s.mc := rfl
@[simp] theorem bump_mdc : (s.bump r i f n).mdc = s.mdc := rfl
@[simp] theorem bump_xm : (s.bump r i f n).xm = s.xm := rfl
@[simp] theorem bump_ce : (s.bump r i f n).ce = s.ce := rfl
@[simp] theorem bump_cl : (s.bump r i f n).cl = s.cl := rfl

end

end Sys2Proof.Machine
end

section
/-! Errors and hammered rows of the DRAM (R551, R558, R559). -/

namespace Sys2Proof.Machine

open Sys2Proof

variable {s : State}

/-- An uncorrectable error before its event: the count and the address kept. -/
def State.ueCounted (s : State) (ch l : Nat) : State :=
  (s.bump MC_CH_ECC ch MC_CH_ECC_UE).setReg64 (MC_CH_UE_ADDR_LO.at ch) (MC_CH_UE_ADDR_HI.at ch) l

theorem dramReadDone_uncorrectable {ch : Nat} (h : ch < 64) (s : State) (l : Nat) :
    dramReadDone s ch l .uncorrectable = (s.ueCounted ch l).raise 0x801 6 ch (leBytes 8 l) := by
  rw [dramReadDone, if_neg (Nat.not_le.mpr h)]
  rfl

theorem ueCounted_onlyRegs (s : State) (ch l : Nat) :
    OnlyRegs [MC_CH_ECC.at ch, MC_CH_UE_ADDR_LO.at ch, MC_CH_UE_ADDR_HI.at ch] s (s.ueCounted ch l) :=
  (((onlyRegs_refl _ s).bump (by simp) _ _).setReg (by simp) _).setReg (by simp) _

theorem ueCounted_fld (s : State) (ch l : Nat) (g : Fld) :
    (s.ueCounted ch l).fld MC_CH_ECC ch g = (s.bump MC_CH_ECC ch MC_CH_ECC_UE).fld MC_CH_ECC ch g :=
  fld_setReg64_other _ (at_ne_of_phase (by decide) ch ch) (at_ne_of_phase (by decide) ch ch) g l

theorem showThrottle_fld (s : State) (port : Nat) :
    (s.showThrottle port).fld MC_PORT_STAT port MC_PORT_STAT_THROTTLED = b2n (s.portThrottled port) := by
  rw [State.showThrottle, fld_setFld_same _ _ _ _ _ (by decide)]
  cases s.portThrottled port <;> rfl

/-- What a hammered row does before the port is looked at. -/
def State.rowRefreshed (s : State) (ch bank port : Nat) : State :=
  (s.bump MC_CH_ACT ch MC_CH_ACT_RFM).raise 0x802 3 ch [BitVec.ofNat 8 bank, BitVec.ofNat 8 port]

theorem rowRefreshed_rfm (s : State) (ch bank port : Nat) :
    (s.rowRefreshed ch bank port).fld MC_CH_ACT ch MC_CH_ACT_RFM = min (s.fld MC_CH_ACT ch MC_CH_ACT_RFM + 1) 0xFFFF :=
  (fld_raise (by decide) _ _ _ _ _ _).trans (fld_bump_same s _ _ _ _ (by decide))

/-- The state with a throttle of a port on a bank begun and shown. -/
def State.throttle (s : State) (ch bank port : Nat) : State :=
  let s := s.bump MC_CH_ACT ch MC_CH_ACT_THROTTLES
  let ts := if s.mc.throttles.contains (ch, bank, port) then s.mc.throttles else s.mc.throttles ++ [(ch, bank, port)]
  State.showThrottle { s with mc := { s.mc with throttles := ts } } port

theorem throttle_mem (s : State) (ch bank port : Nat) : (ch, bank, port) ∈ (s.throttle ch bank port).mc.throttles := by
  show (ch, bank, port) ∈ if s.mc.throttles.contains (ch, bank, port) then s.mc.throttles else s.mc.throttles ++ [(ch, bank, port)]
  split
  next h => exact List.contains_iff_mem.mp h
  next => exact List.mem_append_right _ (List.mem_singleton_self _)

theorem portThrottled_of_mem {ch bank port : Nat} (h : (ch, bank, port) ∈ s.mc.throttles) : s.portThrottled port = true :=
  List.any_eq_true.mpr ⟨_, h, decide_eq_true rfl⟩

theorem throttle_shown (s : State) (ch bank port : Nat) :
    (s.throttle ch bank port).fld MC_PORT_STAT port MC_PORT_STAT_THROTTLED = 1 :=
  (showThrottle_fld _ port).trans (congrArg b2n (portThrottled_of_mem (throttle_mem s ch bank port)))

/-- The ports' registers lie above the channels'. -/
theorem mc_ch_act_ne_port_stat {ch : Nat} (h : ch < 64) (port : Nat) : MC_CH_ACT.at ch ≠ MC_PORT_STAT.at port := by
  simp only [Reg.at, MC_CH_ACT, MC_PORT_STAT]
  omega

theorem throttle_rfm {ch : Nat} (h : ch < 64) (s : State) (bank port : Nat) :
    (s.throttle ch bank port).fld MC_CH_ACT ch MC_CH_ACT_RFM = s.fld MC_CH_ACT ch MC_CH_ACT_RFM :=
  (fld_setFld_other _ _ _ _ _ _ _ _ (mc_ch_act_ne_port_stat h port)).trans
    (fld_bump_beside s _ _ _ _ _ (by decide) (by decide))

theorem runs_rowLimit {ch bank row port : Nat} (hm : s.memoryUp) (hch : ch < 64) (hb : bank < 16) (hr : row < 2 ^ 18) (hp : port < 12) :
    Runs (.rowLimit ch bank row port) s
      (if port = 0 then s.rowRefreshed ch bank port else (s.rowRefreshed ch bank port).throttle ch bank port) := by
  have hin : ¬ (ch ≥ 64 ∨ bank ≥ 16 ∨ port ≥ 12 ∨ row ≥ 2 ^ 18) := by omega
  simp only [Runs, exec_rowLimit, execRowLimit, whenMemory_up hm, if_neg hin]
  rfl

/-- Settles O15: the counts are bumped beside one another, the event changes the recorder alone, and the throttle list is what is shown. -/
theorem errorsAndHammering : Obligations.ErrorsAndHammering := by
  refine ⟨fun s ch l p hm hch => ⟨?_, ⟨s.bump MC_CH_ECC ch MC_CH_ECC_CE, ?_, onlyRegs_setReg _ _ _, ?_, ?_⟩,
      ⟨s.ueCounted ch l, ?_, ueCounted_onlyRegs s ch l, ?_, ?_, fun hl => ?_⟩⟩, fun s ch bank row port hm hch hb hr hp => ⟨?_, ?_⟩⟩
  · simp [Runs, execDramReadComplete, whenMemory_up hm, dramReadDone]
  · simp [Runs, execDramReadComplete, whenMemory_up hm, dramReadDone, Nat.not_le.mpr hch]
  · exact fld_bump_same s _ _ _ _ (by decide)
  · exact fld_bump_beside s _ _ _ _ _ (by decide) (by decide)
  · simp only [Runs, exec_dramReadComplete, execDramReadComplete, whenMemory_up hm, dramReadDone_uncorrectable hch]
  · exact (ueCounted_fld s ch l _).trans (fld_bump_same s _ _ _ _ (by decide))
  · exact (ueCounted_fld s ch l _).trans (fld_bump_beside s _ _ _ _ _ (by decide) (by decide))
  · exact reg64_setReg64_same _ (at_ne_of_phase (by decide) ch ch) hl
  · have hrun := runs_rowLimit hm hch hb hr hp
    by_cases hp0 : port = 0
    · rw [if_pos hp0] at hrun
      exact ⟨_, hrun, rowRefreshed_rfm s ch bank port, fun _ => raise_mc .., fun h => absurd hp0 h, raise_dram .., raise_sram .., raise_se ..,
        raise_qm ..⟩
    · rw [if_neg hp0] at hrun
      exact ⟨_, hrun, (throttle_rfm hch _ bank port).trans (rowRefreshed_rfm s ch bank port), fun h => absurd h hp0,
        fun _ => ⟨throttle_mem .., throttle_shown ..⟩, raise_dram .., raise_sram .., raise_se .., raise_qm ..⟩
  · by_cases ht : (ch, bank, port) ∈ s.mc.throttles
    · refine ⟨State.showThrottle { s with mc := { s.mc with throttles := s.mc.throttles.filter (· ≠ (ch, bank, port)) } } port, ?_, ?_, ?_⟩
      · simp [Runs, execThrottleExpiry, whenMemory_up hm, ht]
      · intro hmem
        simpa using (List.mem_filter.mp hmem).2
      · exact onlyRegs_setFld _ _ _ _ _
    · refine ⟨s, ?_, ht, onlyRegs_refl _ s⟩
      simp [Runs, execThrottleExpiry, whenMemory_up hm, ht]

end Sys2Proof.Machine
end

section
/-! Refresh and retraining of the DRAM channels (R560, R561, R563). -/

namespace Sys2Proof.Machine

open Sys2Proof

variable {s : State}

/-! ### The queue of retrainings -/

/-- Starting a retraining writes the STATE of one channel, and no other register. -/
theorem startRetrain_fld_other {q : Reg} {j : Nat} (h : ∀ c, q.at j ≠ MC_CH_STATUS.at c) (s : State) (g : Fld) :
    s.startRetrain.fld q j g = s.fld q j g := by
  unfold State.startRetrain
  split
  · exact fld_setFld_other _ _ _ _ _ _ _ _ (h _)
  · rfl

/-- Nor does it change the other fields of a channel's status. -/
theorem startRetrain_fld_status {g : Fld} (hg : g.lo + g.len ≤ 32) (h : MC_CH_STATUS_STATE.lo + MC_CH_STATUS_STATE.len ≤ g.lo)
    (s : State) (ch : Nat) : s.startRetrain.fld MC_CH_STATUS ch g = s.fld MC_CH_STATUS ch g := by
  unfold State.startRetrain
  split
  next c _ _ _ =>
    by_cases hc : ch = c
    · subst hc
      exact fld_setFld_beside _ _ _ _ _ _ hg (.inr h)
    · exact fld_setFld_other _ _ _ _ _ _ _ _ (at_ne_of_index_ne (by decide) hc)
  next => rfl

theorem startRetrain_frame (s : State) : s.startRetrain = { s with mc := s.startRetrain.mc, regs := s.startRetrain.regs } := by
  unfold State.startRetrain
  split <;> rfl

@[simp] theorem startRetrain_dram (s : State) : s.startRetrain.dram = s.dram := by rw [startRetrain_frame]
@[simp] theorem startRetrain_sram (s : State) : s.startRetrain.sram = s.sram := by rw [startRetrain_frame]
@[simp] theorem startRetrain_se (s : State) : s.startRetrain.se = s.se := by rw [startRetrain_frame]

@[simp] theorem startRetrain_trainedAt (s : State) : s.startRetrain.mc.trainedAt = s.mc.trainedAt := by
  unfold State.startRetrain
  split <;> rfl

theorem startRetrain_first {ch : Nat} {rest : List Nat} (hn : s.mc.step = none) (hr : s.mc.retrain = ch :: rest) :
    s.startRetrain = State.setFld { s with mc := { s.mc with step := some (ch, 3), retrain := rest } } MC_CH_STATUS ch
      MC_CH_STATUS_STATE 3 := by
  rw [State.startRetrain, hn, hr]

/-- Queueing sets BUSY, whether the channel is new in the queue or not. -/
theorem queueRetrain_getReg (s : State) (ch a : Nat) :
    (s.queueRetrain ch).getReg a = (s.setFld MC_RETRAIN 0 MC_RETRAIN_BUSY 1).getReg a := by
  unfold State.queueRetrain
  dsimp only
  split <;> rfl

theorem queueRetrain_fld (s : State) (ch : Nat) (q : Reg) (j : Nat) (g : Fld) :
    (s.queueRetrain ch).fld q j g = (s.setFld MC_RETRAIN 0 MC_RETRAIN_BUSY 1).fld q j g := by
  rw [State.fld, State.fld, queueRetrain_getReg]

@[simp] theorem queueRetrain_dram (s : State) (ch : Nat) : (s.queueRetrain ch).dram = s.dram := by
  unfold State.queueRetrain; dsimp only; split <;> rfl
@[simp] theorem queueRetrain_sram (s : State) (ch : Nat) : (s.queueRetrain ch).sram = s.sram := by
  unfold State.queueRetrain; dsimp only; split <;> rfl
@[simp] theorem queueRetrain_se (s : State) (ch : Nat) : (s.queueRetrain ch).se = s.se := by
  unfold State.queueRetrain; dsimp only; split <;> rfl

/-- With nothing queued and nothing running, the channel is the queue. -/
theorem queueRetrain_idle {ch : Nat} (hn : s.mc.step = none) (hr : s.mc.retrain = []) :
    (s.queueRetrain ch).mc = { s.mc with retrain := [ch] } := by
  simp [State.queueRetrain, hn, hr]

theorem mc_retrain_ne_status (c : Nat) : MC_RETRAIN.at 0 ≠ MC_CH_STATUS.at c := by
  simp only [Reg.at, MC_RETRAIN, MC_CH_STATUS]
  omega

theorem mc_retrain_ne_train (c : Nat) : MC_CH_TRAIN.at c ≠ MC_RETRAIN.at 0 := by
  simp only [Reg.at, MC_RETRAIN, MC_CH_TRAIN]
  omega

/-! ### A poll of the temperature -/

/-- The rate of a channel after a poll, before events and retraining (R560). -/
def State.refreshPolled (s : State) (ch : Nat) (temp : Int) : State :=
  let cur := s.fld MC_CH_STATUS ch MC_CH_STATUS_REFRESH
  let want := refreshFor temp
  if want ≥ cur then
    { (s.setFld MC_CH_STATUS ch MC_CH_STATUS_REFRESH want) with mc := { s.mc with cooler := Tab.erase s.mc.cooler ch } }
  else if Tab.getD s.mc.cooler ch 0 = 0 then { s with mc := { s.mc with cooler := Tab.set s.mc.cooler ch 1 } }
  else
    { (s.setFld MC_CH_STATUS ch MC_CH_STATUS_REFRESH (cur - 1)) with
      mc := { s.mc with cooler := Tab.erase s.mc.cooler ch } }

/-- The retraining that a drift since the last training asks for (R563). -/
def State.driftPolled (s : State) (ch : Nat) (temp : Int) : State :=
  match Tab.get? s.mc.trainedAt ch with
  | some t0 => if (temp - t0).natAbs ≥ s.fld MC_RETRAIN 0 MC_RETRAIN_DRIFT_C then (s.queueRetrain ch).startRetrain else s
  | none => { s with mc := { s.mc with trainedAt := Tab.set s.mc.trainedAt ch temp } }

/-- The event above 105 °C (R560). -/
def State.hotRaised (s : State) (ch : Nat) (temp : Int) (cur : Nat) : State :=
  if refreshFor temp = 2 ∧ cur ≠ 2 then s.raise 0x803 5 ch else s

theorem dramTempPolled_eq {ch : Nat} (h : ch < 64) (s : State) (temp : Int) :
    dramTempPolled s ch temp =
      let u := s.setFld MC_CH_STATUS ch MC_CH_STATUS_TEMP_C (BitVec.ofInt 8 temp).toNat
      ((u.refreshPolled ch temp).hotRaised ch temp (u.fld MC_CH_STATUS ch MC_CH_STATUS_REFRESH)).driftPolled ch temp := by
  rw [dramTempPolled, if_neg (Nat.not_le.mpr h)]
  rfl

theorem driftPolled_fld {g : Fld} (hg : g.lo + g.len ≤ 32) (h : MC_CH_STATUS_STATE.lo + MC_CH_STATUS_STATE.len ≤ g.lo)
    (s : State) (ch : Nat) (temp : Int) : (s.driftPolled ch temp).fld MC_CH_STATUS ch g = s.fld MC_CH_STATUS ch g := by
  unfold State.driftPolled
  split
  · split
    · rw [startRetrain_fld_status hg h, queueRetrain_fld, fld_setFld_other _ _ _ _ _ _ _ _ (mc_retrain_ne_status ch).symm]
    · rfl
  · rfl

theorem hotRaised_fld (s : State) (ch : Nat) (temp : Int) (cur : Nat) (g : Fld) :
    (s.hotRaised ch temp cur).fld MC_CH_STATUS ch g = s.fld MC_CH_STATUS ch g := by
  unfold State.hotRaised
  split
  · exact fld_raise (by decide) _ _ _ _ _ _
  · rfl

theorem refreshFor_lt (temp : Int) : refreshFor temp < 4 := by
  unfold refreshFor
  repeat' split
  all_goals decide

theorem refreshPolled_rise {ch : Nat} {temp : Int} (h : s.fld MC_CH_STATUS ch MC_CH_STATUS_REFRESH ≤ refreshFor temp) :
    (s.refreshPolled ch temp).fld MC_CH_STATUS ch MC_CH_STATUS_REFRESH = refreshFor temp := by
  unfold State.refreshPolled
  rw [if_pos h]
  exact (fld_setFld_same s _ _ _ _ (by decide)).trans (Nat.mod_eq_of_lt (refreshFor_lt temp))

theorem refreshPolled_temp (s : State) (ch : Nat) (temp : Int) :
    (s.refreshPolled ch temp).fld MC_CH_STATUS ch MC_CH_STATUS_TEMP_C = s.fld MC_CH_STATUS ch MC_CH_STATUS_TEMP_C := by
  unfold State.refreshPolled
  dsimp only
  split
  · exact fld_setFld_beside s _ _ _ _ _ (by decide) (by decide)
  · split
    · rfl
    · exact fld_setFld_beside s _ _ _ _ _ (by decide) (by decide)

/-- What a poll never touches. -/
theorem dramTempPolled_memories {ch : Nat} (h : ch < 64) (s : State) (temp : Int) :
    (dramTempPolled s ch temp).dram = s.dram ∧ (dramTempPolled s ch temp).sram = s.sram ∧ (dramTempPolled s ch temp).se = s.se := by
  have hrefresh (u : State) : (u.refreshPolled ch temp).dram = u.dram ∧ (u.refreshPolled ch temp).sram = u.sram ∧
      (u.refreshPolled ch temp).se = u.se := by
    unfold State.refreshPolled
    dsimp only
    split
    · exact ⟨rfl, rfl, rfl⟩
    · split <;> exact ⟨rfl, rfl, rfl⟩
  have hhot (u : State) (cur : Nat) : (u.hotRaised ch temp cur).dram = u.dram ∧ (u.hotRaised ch temp cur).sram = u.sram ∧
      (u.hotRaised ch temp cur).se = u.se := by
    unfold State.hotRaised
    split <;> simp
  have hdrift (u : State) : (u.driftPolled ch temp).dram = u.dram ∧ (u.driftPolled ch temp).sram = u.sram ∧
      (u.driftPolled ch temp).se = u.se := by
    unfold State.driftPolled
    split
    · split <;> simp
    · exact ⟨rfl, rfl, rfl⟩
  rw [dramTempPolled_eq h]
  simp only [hdrift, hhot, hrefresh, setFld_dram, setFld_sram, setFld_se, and_self]

theorem dramTempPolled_refresh {ch : Nat} (h : ch < 64) {temp : Int} (hle : s.fld MC_CH_STATUS ch MC_CH_STATUS_REFRESH ≤ refreshFor temp) :
    (dramTempPolled s ch temp).fld MC_CH_STATUS ch MC_CH_STATUS_REFRESH = refreshFor temp := by
  rw [dramTempPolled_eq h]
  dsimp only
  rw [driftPolled_fld (by decide) (by decide), hotRaised_fld]
  apply refreshPolled_rise
  rw [fld_setFld_beside _ _ _ _ _ _ (by decide) (by decide)]
  exact hle

theorem dramTempPolled_temp {ch : Nat} (h : ch < 64) (s : State) (temp : Int) :
    (dramTempPolled s ch temp).fld MC_CH_STATUS ch MC_CH_STATUS_TEMP_C = (BitVec.ofInt 8 temp).toNat := by
  rw [dramTempPolled_eq h]
  dsimp only
  rw [driftPolled_fld (by decide) (by decide), hotRaised_fld, refreshPolled_temp, fld_setFld_same _ _ _ _ _ (by decide)]
  exact Nat.mod_eq_of_lt (BitVec.isLt _)

/-! ### A write of MC_RETRAIN with GO -/

/-- The state in which CHANNEL and DRIFT_C are written, before GO queues. -/
def State.retrainSet (s : State) (v : Word) : State :=
  (s.setFld MC_RETRAIN 0 MC_RETRAIN_CHANNEL (MC_RETRAIN_CHANNEL.get v)).setFld MC_RETRAIN 0 MC_RETRAIN_DRIFT_C
    (clampTo 5 60 (MC_RETRAIN_DRIFT_C.get v))

theorem mcRetrainWrite_go {v : Word} (h : MC_RETRAIN_GO.get v = 1) (s : State) :
    mcRetrainWrite v s = ((s.retrainSet v).queueRetrain (MC_RETRAIN_CHANNEL.get v)).startRetrain := by
  rw [mcRetrainWrite, if_pos h]
  rfl

theorem mcRetrainWrite_busy {v : Word} (h : MC_RETRAIN_GO.get v = 1) (s : State) :
    (mcRetrainWrite v s).fld MC_RETRAIN 0 MC_RETRAIN_BUSY = 1 := by
  rw [mcRetrainWrite_go h, startRetrain_fld_other mc_retrain_ne_status, queueRetrain_fld, fld_setFld_same _ _ _ _ _ (by decide)]
  rfl

theorem mcRetrainWrite_drift {v : Word} (h : MC_RETRAIN_GO.get v = 1) (s : State) :
    (mcRetrainWrite v s).fld MC_RETRAIN 0 MC_RETRAIN_DRIFT_C = max 5 (min 60 (MC_RETRAIN_DRIFT_C.get v)) := by
  rw [mcRetrainWrite_go h, startRetrain_fld_other mc_retrain_ne_status, queueRetrain_fld,
    fld_setFld_beside _ _ _ _ _ _ (by decide) (by decide), State.retrainSet, fld_setFld_same _ _ _ _ _ (by decide)]
  exact Nat.mod_eq_of_lt (by simp only [clampTo, MC_RETRAIN_DRIFT_C]; omega)

theorem mcRetrainWrite_starts {v : Word} (h : MC_RETRAIN_GO.get v = 1) (hn : s.mc.step = none) (hr : s.mc.retrain = []) :
    (mcRetrainWrite v s).mc.step = some (MC_RETRAIN_CHANNEL.get v, 3) ∧
      (mcRetrainWrite v s).fld MC_CH_STATUS (MC_RETRAIN_CHANNEL.get v) MC_CH_STATUS_STATE = 3 := by
  have hmc := queueRetrain_idle (s := s.retrainSet v) (ch := MC_RETRAIN_CHANNEL.get v) hn hr
  rw [mcRetrainWrite_go h, startRetrain_first (rest := []) (by rw [hmc]; exact hn) (by rw [hmc])]
  exact ⟨rfl, fld_setFld_same _ _ _ _ _ (by decide)⟩

/-! ### The end of a step of retraining -/

/-- The state in which the step that ended is shown. -/
def State.stepShown (s : State) (ch n : Nat) (pass : Bool) : State :=
  (((s.setFld MC_CH_TRAIN ch MC_CH_TRAIN_STEP n).setFld MC_CH_TRAIN ch MC_CH_TRAIN_POINT (s.fld MC_FREQ 0 MC_FREQ_CURRENT)).setFld
    MC_CH_TRAIN ch MC_CH_TRAIN_PASS (b2n (pass && n = 6))).setFld MC_CH_STATUS ch MC_CH_STATUS_STATE 0

/-- The state in which the next step of a channel runs. -/
def State.stepNext (s : State) (ch n : Nat) : State := { s with mc := { s.mc with step := some (ch, n + 1) } }

theorem stepNext_fld (s : State) (ch n : Nat) (r : Reg) (i : Nat) (f : Fld) : (s.stepNext ch n).fld r i f = s.fld r i f := rfl

/-- The end of a channel's retraining: what it was trained at is kept, and the next one starts or BUSY clears. -/
def State.retrainEnds (s : State) (ch : Nat) : State :=
  let t : Int := (BitVec.ofNat 8 (s.fld MC_CH_STATUS ch MC_CH_STATUS_TEMP_C)).toInt
  let s := { s with mc := { s.mc with step := none, trainedAt := Tab.set s.mc.trainedAt ch t } }
  if s.mc.retrain.isEmpty then s.setFld MC_RETRAIN 0 MC_RETRAIN_BUSY 0 else s.startRetrain

theorem retrainStepped_eq {ch n : Nat} (hs : s.mc.step = some (ch, n)) (hd : s.mc.discard = false) (pass : Bool) :
    retrainStepped s ch pass =
      if pass ∧ n < 6 then (s.stepShown ch n pass).stepNext ch n
      else (s.stepShown ch n pass).retrainEnds ch := by
  simp only [retrainStepped, hs, ne_eq, not_true_eq_false, if_false, setFld_mc, hd, Bool.false_eq_true, State.stepShown,
    State.retrainEnds, State.stepNext]

theorem stepShown_step (s : State) {ch n : Nat} (hn : n < 8) (pass : Bool) :
    (s.stepShown ch n pass).fld MC_CH_TRAIN ch MC_CH_TRAIN_STEP = n := by
  rw [State.stepShown, fld_setFld_phase _ (by decide), fld_setFld_beside _ _ _ _ _ _ (by decide) (by decide),
    fld_setFld_beside _ _ _ _ _ _ (by decide) (by decide), fld_setFld_same _ _ _ _ _ (by decide)]
  exact Nat.mod_eq_of_lt hn

theorem stepShown_pass (s : State) (ch n : Nat) (pass : Bool) :
    (s.stepShown ch n pass).fld MC_CH_TRAIN ch MC_CH_TRAIN_PASS = b2n (pass && n = 6) := by
  rw [State.stepShown, fld_setFld_phase _ (by decide), fld_setFld_same _ _ _ _ _ (by decide)]
  cases pass && decide (n = 6) <;> rfl

theorem retrainEnds_train (s : State) (ch : Nat) (g : Fld) :
    (s.retrainEnds ch).fld MC_CH_TRAIN ch g = s.fld MC_CH_TRAIN ch g := by
  unfold State.retrainEnds
  dsimp only
  split
  · exact fld_setFld_other _ _ _ _ _ _ _ _ (mc_retrain_ne_train ch)
  · exact startRetrain_fld_other (fun c => at_ne_of_phase (by decide) ch c) _ g

theorem retrainEnds_trainedAt (s : State) (ch : Nat) : (Tab.get? (s.retrainEnds ch).mc.trainedAt ch).isSome = true := by
  unfold State.retrainEnds
  dsimp only
  split <;> simp

/-- Settles O16: each write of a status or training field is beside the fields the statement reads, and a retraining started on the way
writes STATE alone. -/
theorem channelsFollowTemperature : Obligations.ChannelsFollowTemperature := by
  refine ⟨fun s ch temp hm hch => ⟨⟨dramTempPolled s ch temp, ?_, dramTempPolled_refresh hch, dramTempPolled_temp hch s temp,
    dramTempPolled_memories hch s temp⟩, fun hidle => ⟨s.setFld MC_CH_STATUS ch MC_CH_STATUS_STATE 1, ?_, onlyRegs_setFld _ _ _ _ _, ?_, ?_⟩⟩,
    fun s port ch v hw hgo hch => ?_⟩
  · simp only [Runs, exec_dramTempPoll, execDramTempPoll, whenMemory_up hm]
  · simp only [Runs, exec_channelPowerDown, execChannelPowerDown, whenMemory_up hm, if_pos (And.intro hch hidle)]
  · exact fld_setFld_same _ _ _ _ _ (by decide)
  · exact fld_setFld_beside _ _ _ _ _ _ (by decide) (by decide)
  · subst hch
    refine ⟨⟨mcRetrainWrite v s, ?_, mcRetrainWrite_busy hgo s, mcRetrainWrite_drift hgo s, mcRetrainWrite_starts hgo⟩,
      fun n pass hstep h3 h6 hd => ⟨retrainStepped s (MC_RETRAIN_CHANNEL.get v) pass, ?_, ?_⟩⟩
    · simp only [Runs, exec_mcRetrainGo, execMcRetrainGo, hostWrite_taken hw]
    · simp only [Runs, exec_retrainStepDone, execRetrainStepDone, whenMemory_up (.inl hw.up)]
    · rw [retrainStepped_eq hstep hd]
      split
      next h =>
        rw [stepNext_fld, stepNext_fld]
        exact ⟨stepShown_step s (by omega) pass, stepShown_pass s _ n pass, fun _ _ => rfl, fun _ e => absurd h.2 (by omega)⟩
      next h =>
        rw [retrainEnds_train, retrainEnds_train]
        exact ⟨stepShown_step s (by omega) pass, stepShown_pass s _ n pass, fun hp hn => absurd ⟨hp, hn⟩ h,
          fun _ _ => retrainEnds_trainedAt _ _⟩

end Sys2Proof.Machine
end

section
/-! The pattern helper (R565) and the spread of device addresses over the channels (R553). -/

namespace Sys2Proof.Machine

open Sys2Proof

variable {s : State}

/-! ### The pattern helper -/

/-- The helper started: OP and PATTERN written, the result cleared, BUSY set. -/
def State.diagStarted (s : State) (ch : Nat) (v : Word) : State :=
  (((s.setFld MC_CH_DIAG_CTL ch MC_CH_DIAG_CTL_OP (MC_CH_DIAG_CTL_OP.get v)).setFld MC_CH_DIAG_CTL ch MC_CH_DIAG_CTL_PATTERN
    (MC_CH_DIAG_CTL_PATTERN.get v)).setReg (MC_CH_DIAG_RESULT.at ch) 0).setFld MC_CH_DIAG_CTL ch MC_CH_DIAG_CTL_BUSY 1

theorem mcDiagWrite_starts {ch : Nat} {v : Word} (hgo : MC_CH_DIAG_CTL_GO.get v = 1) (hop : MC_CH_DIAG_CTL_OP.get v ≠ 0)
    (hidle : s.fld MC_CH_DIAG_CTL ch MC_CH_DIAG_CTL_BUSY = 0) : mcDiagWrite ch v s = s.diagStarted ch v := by
  simp [mcDiagWrite, hgo, hop, hidle, State.diagStarted]

theorem diagStarted_onlyRegs (s : State) (ch : Nat) (v : Word) :
    OnlyRegs [MC_CH_DIAG_CTL.at ch, MC_CH_DIAG_RESULT.at ch] s (s.diagStarted ch v) :=
  ((((onlyRegs_refl _ s).setFld (by simp) _ _).setFld (by simp) _ _).setReg (by simp) _).setFld (by simp) _ _

theorem diagStarted_op (s : State) (ch : Nat) (v : Word) :
    (s.diagStarted ch v).fld MC_CH_DIAG_CTL ch MC_CH_DIAG_CTL_OP = MC_CH_DIAG_CTL_OP.get v := by
  rw [State.diagStarted, fld_setFld_beside _ _ _ _ _ _ (by decide) (by decide), fld_setReg_other _ (at_ne_of_phase (by decide) ch ch),
    fld_setFld_beside _ _ _ _ _ _ (by decide) (by decide), fld_setFld_same _ _ _ _ _ (by decide)]
  exact Nat.mod_eq_of_lt (Fld.get_lt _ v)

theorem diagStarted_result (s : State) (ch : Nat) (v : Word) : (s.diagStarted ch v).getReg (MC_CH_DIAG_RESULT.at ch) = 0 := by
  rw [State.diagStarted, getReg_setFld_other _ _ _ _ _ (at_ne_of_phase (by decide) ch ch), getReg_setReg_same]

/-- The helper ended: BUSY cleared, the failing bits and the count of failing beats reported. -/
def State.diagEnded (s : State) (ch dq errors : Nat) : State :=
  ((s.setFld MC_CH_DIAG_CTL ch MC_CH_DIAG_CTL_BUSY 0).setFld MC_CH_DIAG_RESULT ch MC_CH_DIAG_RESULT_DQ_FAIL dq).setFld MC_CH_DIAG_RESULT ch
    MC_CH_DIAG_RESULT_ERRORS (min errors 0xFFFF)

theorem diagEnded_onlyRegs (s : State) (ch dq errors : Nat) :
    OnlyRegs [MC_CH_DIAG_CTL.at ch, MC_CH_DIAG_RESULT.at ch] s (s.diagEnded ch dq errors) :=
  (((onlyRegs_refl _ s).setFld (by simp) _ _).setFld (by simp) _ _).setFld (by simp) _ _

theorem diagEnded_busy (s : State) (ch dq errors : Nat) : (s.diagEnded ch dq errors).fld MC_CH_DIAG_CTL ch MC_CH_DIAG_CTL_BUSY = 0 := by
  rw [State.diagEnded, fld_setFld_phase _ (by decide), fld_setFld_phase _ (by decide), fld_setFld_same _ _ _ _ _ (by decide), Nat.zero_mod]

theorem diagEnded_dqFail (s : State) (ch dq errors : Nat) :
    (s.diagEnded ch dq errors).fld MC_CH_DIAG_RESULT ch MC_CH_DIAG_RESULT_DQ_FAIL = dq % 2 ^ 16 := by
  rw [State.diagEnded, fld_setFld_beside _ _ _ _ _ _ (by decide) (by decide), fld_setFld_same _ _ _ _ _ (by decide)]
  rfl

theorem diagEnded_errors (s : State) (ch dq errors : Nat) :
    (s.diagEnded ch dq errors).fld MC_CH_DIAG_RESULT ch MC_CH_DIAG_RESULT_ERRORS = min errors 0xFFFF := by
  rw [State.diagEnded, fld_setFld_same _ _ _ _ _ (by decide)]
  exact Nat.mod_eq_of_lt (Nat.lt_of_le_of_lt (Nat.min_le_right ..) (by decide))

/-! ### The spread of addresses (R553) -/

/-- An address lies at or above its region's base, and grains are not empty. -/
theorem le_of_mcRegionOf {a base grain : Nat} (h : mcRegionOf a = some (base, grain)) : base ≤ a ∧ 0 < grain := by
  obtain ⟨r, hr, he⟩ := Option.map_eq_some_iff.mp h
  have hle : r.1 * 2 ^ 30 ≤ a := by
    have hp := List.find?_some hr
    simp only [Bool.and_eq_true, decide_eq_true_eq] at hp
    exact hp.1
  have hgrain : ∀ x ∈ mcRegions, 0 < x.2.2 := by decide
  cases he
  exact ⟨hle, hgrain r (List.mem_of_find?_eq_some hr)⟩

/-- What two values are xored with does not keep them from being told apart in their low six bits. -/
theorem mod_eq_of_xor_mod_eq {p q x : Nat} (h : (p ^^^ x) % 64 = (q ^^^ x) % 64) : p % 64 = q % 64 := by
  apply Nat.eq_of_testBit_eq
  intro i
  have hi := congrArg (Nat.testBit · i) h
  simp only [show (64 : Nat) = 2 ^ 6 from rfl, Nat.testBit_mod_two_pow, Nat.testBit_xor] at hi ⊢
  by_cases hlt : i < 6
  · simpa [hlt] using hi
  · simp [hlt]

/-- Quotient and remainder of a grain are read back from their sum. -/
theorem eq_of_grain_sum {g p q r t : Nat} (hr : r < g) (ht : t < g) (h : p * g + r = q * g + t) : p = q ∧ r = t := by
  have hp : (p * g + r) / g = p := by rw [Nat.add_comm, Nat.add_mul_div_right _ _ (by omega), Nat.div_eq_of_lt hr, Nat.zero_add]
  have hq : (q * g + t) / g = q := by rw [Nat.add_comm, Nat.add_mul_div_right _ _ (by omega), Nat.div_eq_of_lt ht, Nat.zero_add]
  have hpq : p = q := by rw [← hp, h, hq]
  subst hpq
  exact ⟨rfl, Nat.add_left_cancel h⟩

/-- Within a region the channel and the local address give the address back: the local address gives the grain up to its low six
bits, and the channel those. -/
theorem mcMap_injective {a b : Nat} (hr : mcRegionOf a = mcRegionOf b) (hs : (mcMap a).isSome = true) (h : mcMap a = mcMap b) :
    a = b := by
  unfold mcMap at hs h
  rw [← hr] at h
  rcases hreg : mcRegionOf a with _ | ⟨base, grain⟩
  · rw [hreg] at hs
    exact nomatch hs
  · rw [hreg] at h
    obtain ⟨ha, hg⟩ := le_of_mcRegionOf hreg
    obtain ⟨hb, -⟩ := le_of_mcRegionOf (hr ▸ hreg)
    simp only [Option.map_some, Option.some.injEq, Prod.mk.injEq, Nat.add_assoc, Nat.add_left_cancel_iff] at h
    obtain ⟨hch, hloc⟩ := h
    obtain ⟨hhigh, hrem⟩ := eq_of_grain_sum (Nat.mod_lt _ hg) (Nat.mod_lt _ hg) hloc
    have hhigher : (a - base) / grain / 4096 = (b - base) / grain / 4096 := by omega
    rw [Nat.xor_assoc, Nat.xor_assoc, hhigher, hhigh] at hch
    have hlow := mod_eq_of_xor_mod_eq hch
    have hq : (a - base) / grain = (b - base) / grain := by omega
    have hsub : a - base = b - base := by
      rw [← Nat.div_add_mod (a - base) grain, ← Nat.div_add_mod (b - base) grain, hq, hrem]
    omega

/-- Settles O17: the helper writes its two registers, and `mcMap_injective`. -/
theorem pagesAndDiagnostics : Obligations.PagesAndDiagnostics := by
  refine ⟨fun s port ch v hch => ⟨fun hw hgo hop hidle => ?_, fun dq errors hm hbusy => ?_⟩, fun a b hr hs h => mcMap_injective hr hs h⟩
  · refine ⟨s.diagStarted ch v, ?_, diagStarted_onlyRegs s ch v, fld_setFld_same _ _ _ _ _ (by decide), diagStarted_op s ch v,
      diagStarted_result s ch v⟩
    simp only [Runs, exec_mcDiagGo, execMcDiagGo, if_pos hch, hostWrite_taken hw, mcDiagWrite_starts hgo hop hidle]
  · refine ⟨s.diagEnded ch dq errors, ?_, diagEnded_onlyRegs s ch dq errors, diagEnded_busy s ch dq errors, diagEnded_dqFail s ch dq errors,
      diagEnded_errors s ch dq errors⟩
    simp only [Runs, exec_mcDiagDone, execMcDiagDone, whenMemory_up hm, if_pos (And.intro hch hbusy)]
    rfl

end Sys2Proof.Machine
end

section
/-! Maintenance of the metadata cache (R581, R583 to R585). -/

namespace Sys2Proof.Machine

open Sys2Proof

variable {s : State}

/-- The state in which a write of MDC_MAINT_CTL has set OP and CLASS. -/
def State.maintSet (s : State) (v : Word) : State :=
  (s.setFld MDC_MAINT_CTL 0 MDC_MAINT_CTL_OP (MDC_MAINT_CTL_OP.get v)).setFld MDC_MAINT_CTL 0 MDC_MAINT_CTL_CLASS (MDC_MAINT_CTL_CLASS.get v)

/-- The operation that such a write describes. -/
def State.maintOf (s : State) (v : Word) : Maint := (s.maintSet v).mdcOperation (MDC_MAINT_CTL_OP.get v) (MDC_MAINT_CTL_CLASS.get v)

/-- The state in which the operation `m` runs and has dropped what it covers. -/
def State.maintRuns (s : State) (m : Maint) : State :=
  State.setFld { s.mdcInvalidate m with mdc := { (s.mdcInvalidate m).mdc with maint := some m } } MDC_STATUS 0 MDC_STATUS_MAINT_BUSY 1

/-- Setting OP and CLASS leaves the number of lines. -/
theorem maintOf_lines (s : State) (v : Word) : (s.maintOf v).lines = s.fld MDC_MAINT_LINES 0 MDC_MAINT_LINES_LINES := by
  show (s.maintSet v).fld MDC_MAINT_LINES 0 MDC_MAINT_LINES_LINES = _
  rw [State.maintSet, fld_setFld_phase _ (by decide), fld_setFld_phase _ (by decide)]

theorem mdcMaintWrite_go {v : Word} (hgo : MDC_MAINT_CTL_GO.get v = 1) (hidle : s.mdc.maint = none) (hop : MDC_MAINT_CTL_OP.get v ≠ 0)
    (hlines : MDC_MAINT_CTL_OP.get v = 1 → s.fld MDC_MAINT_LINES 0 MDC_MAINT_LINES_LINES ≠ 0) :
    mdcMaintWrite v s = (s.maintSet v).maintRuns (s.maintOf v) := by
  have hgo' : ¬ (MDC_MAINT_CTL_GO.get v = 0 ∨ MDC_MAINT_CTL_OP.get v = 0 ∨ (s.maintSet v).mdc.maint.isSome = true) := by
    rw [show (s.maintSet v).mdc = s.mdc from rfl, hidle, hgo]
    simp [hop]
  have hrange : ¬ (MDC_MAINT_CTL_OP.get v = 1 ∧ (s.maintOf v).lines = 0) := by
    rw [maintOf_lines]
    exact fun h => hlines h.1 h.2
  exact (if_neg hgo').trans (if_neg hrange)

/-- A row of a named OP is the write when the value spells that OP. -/
theorem mdcMaintRow_taken {port : Nat} {v : Word} (hw : WriteTaken s port (MDC_MAINT_CTL.at 0)) {op : Nat}
    (h : MDC_MAINT_CTL_OP.get v = op) : mdcMaintRow op port v s = mdcMaintWrite v s := by
  rw [mdcMaintRow, if_pos h, hostWrite_taken hw]

/-- What a running operation has dropped, and what it has left. -/
theorem maintRuns_drops (s : State) (m : Maint) :
    (∀ e ∈ (s.maintRuns m).mdc.ways, e ∈ s.mdc.ways ∧ m.covers e.2.line e.2.cls = false) ∧
    (∀ l ∈ (s.maintRuns m).mdc.victim, m.covers l.line l.cls = false) ∧
    (∀ e ∈ s.mdc.ways, m.covers e.2.line e.2.cls = false → e ∈ (s.maintRuns m).mdc.ways) := by
  refine ⟨fun e he => ?_, fun l hl => ?_, fun e he hc => ?_⟩
  · obtain ⟨hin, hout⟩ := List.mem_filter.mp he
    exact ⟨hin, by simpa using hout⟩
  · simpa using (List.mem_filter.mp hl).2
  · exact List.mem_filter.mpr ⟨he, by simp [hc]⟩

/-- The state in which the operation `m` has ended. -/
def State.maintEnded (s : State) (m : Maint) : State :=
  let u := State.setFld { s with mdc := { s.mdc with maint := none } } MDC_STATUS 0 MDC_STATUS_MAINT_BUSY 0
  if m.op = 2 then u.setFld MDC_STATUS 0 MDC_STATUS_STALE 0 else u

theorem runs_maintDone {m : Maint} (hup : s.up = true) (hu : s.pw.unitBusy.contains 3 = false) (hm : s.mdc.maint = some m)
    (hleft : s.mdc.fills.any (fun f => m.covers f.line f.cls && f.invalid) = false) : Runs .maintDone s (s.maintEnded m) := by
  simp only [Runs, exec_maintDone, execMaintDone, whenUnit_up hup hu, hm, hleft, Bool.false_eq_true, if_false]
  rfl

theorem maintEnded_mdc (s : State) (m : Maint) : (s.maintEnded m).mdc = { s.mdc with maint := none } := by
  unfold State.maintEnded
  dsimp only
  split <;> rfl

theorem maintEnded_busy (s : State) (m : Maint) : (s.maintEnded m).fld MDC_STATUS 0 MDC_STATUS_MAINT_BUSY = 0 := by
  unfold State.maintEnded
  dsimp only
  split
  · rw [fld_setFld_beside _ _ _ _ _ _ (by decide) (by decide), fld_setFld_same _ _ _ _ _ (by decide), Nat.zero_mod]
  · rw [fld_setFld_same _ _ _ _ _ (by decide), Nat.zero_mod]

theorem maintEnded_stale_all {m : Maint} (h : m.op = 2) (s : State) : (s.maintEnded m).fld MDC_STATUS 0 MDC_STATUS_STALE = 0 := by
  rw [State.maintEnded, if_pos h, fld_setFld_same _ _ _ _ _ (by decide), Nat.zero_mod]

theorem maintEnded_stale_other {m : Maint} (h : m.op ≠ 2) (s : State) :
    (s.maintEnded m).fld MDC_STATUS 0 MDC_STATUS_STALE = s.fld MDC_STATUS 0 MDC_STATUS_STALE := by
  rw [State.maintEnded, if_neg h]
  exact fld_setFld_beside _ _ _ _ _ _ (by decide) (by decide)

theorem maintEnded_onlyRegs (s : State) (m : Maint) :
    OnlyRegs [MDC_STATUS.at 0] { s with mdc := (s.maintEnded m).mdc } (s.maintEnded m) := by
  rw [maintEnded_mdc, State.maintEnded]
  dsimp only
  split
  · exact ((onlyRegs_refl _ _).setFld (by simp) _ _).setFld (by simp) _ _
  · exact (onlyRegs_refl _ _).setFld (by simp) _ _

/-- A write of MDC_CTL that clears EN and leaves HERITAGE sets STALE beside its own fields. -/
theorem mdcCtlWrite_disables {v : Word} (hwas : s.fld MDC_CTL 0 MDC_CTL_EN = 1) (hnow : MDC_CTL_EN.get v = 0)
    (hher : MDC_CTL_HERITAGE.get v = s.fld MDC_CTL 0 MDC_CTL_HERITAGE) :
    mdcCtlWrite v s = (s.writeByType (MDC_CTL.at 0) v).setFld MDC_STATUS 0 MDC_STATUS_STALE 1 := by
  have hin : ¬ (s.fld MDC_CTL 0 MDC_CTL_HERITAGE = 0 ∧ s.fld MDC_CTL 0 MDC_CTL_HERITAGE = 1) := by omega
  have hout : ¬ (s.fld MDC_CTL 0 MDC_CTL_HERITAGE = 1 ∧ s.fld MDC_CTL 0 MDC_CTL_HERITAGE = 0) := by omega
  simp only [mdcCtlWrite, hwas, hnow, hher, hin, hout, and_self, if_true, if_false, Nat.one_ne_zero, false_and]

theorem regLookup_MDC_CTL : regLookup (MDC_CTL.at 0) = some (MDC_CTL, 0, 0) := by decide +kernel

/-- Settles O19: an operation that starts filters what it covers out of the arrays, one that ends clears its own record, and EN cleared
shows as STALE. -/
theorem maintenanceRuns : Obligations.MaintenanceRuns := by
  refine ⟨fun s port v hw hgo hidle op c hc hop => ?_, fun s hup hu => ⟨fun m hm hleft => ?_, fun port v hw hwas hnow hher => ?_⟩⟩
  · have hop0 : MDC_MAINT_CTL_OP.get v ≠ 0 := by rcases hc with ⟨rfl, -⟩ | ⟨rfl, -⟩ | ⟨rfl, -⟩ <;> omega
    have hlines : MDC_MAINT_CTL_OP.get v = 1 → s.fld MDC_MAINT_LINES 0 MDC_MAINT_LINES_LINES ≠ 0 := by
      rcases hc with ⟨-, -, h⟩ | ⟨rfl, -⟩ | ⟨rfl, -⟩
      · exact fun _ => h
      · omega
      · omega
    refine ⟨(s.maintSet v).maintRuns (s.maintOf v), s.maintOf v, ?_, rfl, hop, rfl, fld_setFld_same _ _ _ _ _ (by decide),
      maintRuns_drops (s.maintSet v) (s.maintOf v)⟩
    rw [← mdcMaintWrite_go hgo hidle hop0 hlines, ← mdcMaintRow_taken hw hop]
    rcases hc with ⟨rfl, rfl, -⟩ | ⟨rfl, rfl⟩ | ⟨rfl, rfl⟩ <;> rfl
  · exact ⟨s.maintEnded m, runs_maintDone hup hu hm hleft, maintEnded_mdc s m, maintEnded_busy s m, fun h => maintEnded_stale_all h s,
      fun h => maintEnded_stale_other h s, maintEnded_onlyRegs s m⟩
  · refine ⟨(s.writeByType (MDC_CTL.at 0) v).setFld MDC_STATUS 0 MDC_STATUS_STALE 1, ?_,
      onlyRegs_trans (onlyRegs_mono (writeByType_onlyRegs regLookup_MDC_CTL s v) (by simp))
        (onlyRegs_mono (onlyRegs_setFld _ _ _ _ _) (by simp)), ?_, fld_setFld_same _ _ _ _ _ (by decide)⟩
    · simp only [Runs, exec_mdcCtlWrite, execMdcCtlWrite, hostWrite_taken hw, mdcCtlWrite_disables hwas hnow hher]
    · rw [fld_setFld_phase _ (by decide)]
      exact (writeByType_rw regLookup_MDC_CTL (by decide) rfl s v).trans hnow

end Sys2Proof.Machine
end

section
/-! Programs of the mover (R590, R591, R593 to R595, R599): what an instruction does, and the last burst of a MOVE upwards from DRAM
to SRAM. -/

namespace Sys2Proof.Machine

open Sys2Proof

variable {s : State}

/-! ### One instruction -/

theorem runs_xmInstruction {n : Nat} {bs : List Byte} (hm : s.memoryUp) (hn : n < 32) (hr : s.xmState n = xmRun)
    (hmove : (s.xmChan n).move = none) (hf : s.xmFetch n = some bs) : Runs (.xmInstruction n false none) s (s.xmExecute n bs) := by
  have hgo : n < 32 ∧ s.xmState n = xmRun ∧ (s.xmChan n).move.isNone = true := ⟨hn, hr, by rw [hmove]; rfl⟩
  have hplace : s.xmPlace n none = s := rfl
  simp only [Runs, exec_xmInstruction, execXmInstruction, whenMemory_up hm, if_pos hgo, hplace, hf, Bool.false_eq_true, if_false]

section
variable {n : Nat} {bs : List Byte}

theorem xmExecute_unlisted (h : leAt bs 0 1 > 7) : s.xmExecute n bs = s.xmFail n 3 := by
  simp only [State.xmExecute, if_pos h]

theorem xmExecute_nop (h : leAt bs 0 1 = 0) (hres : xmReservedOk 0 (bit (leAt bs 1 1) 0) bs = true) :
    s.xmExecute n bs = s.setXmPc n (s.xmPc n + 32) := by
  simp [State.xmExecute, h, hres]

theorem xmExecute_halt (h : leAt bs 0 1 = 7) (hres : xmReservedOk 7 (bit (leAt bs 1 1) 0) bs = true) :
    s.xmExecute n bs = (s.setXmPc n (s.xmPc n + 32)).setXmState n xmDone := by
  simp [State.xmExecute, h, hres]

/-- A WAIT on a flag that is set consumes it and goes on. -/
theorem xmExecute_wait_set (h : leAt bs 0 1 = 4) (hflag : leAt bs 2 1 = 1) (hres : xmReservedOk 4 (bit (leAt bs 1 1) 0) bs = true)
    (hset : s.xmFlag (leAt bs 3 1) = true) :
    s.xmExecute n bs = (s.setXmPc n (s.xmPc n + 32)).setXmFlag (leAt bs 3 1) false := by
  simp [State.xmExecute, h, hres, hflag, hset]

end

theorem xmFail_state (s : State) (n err : Nat) : (s.xmFail n err).xmState n = xmError := by
  rw [State.xmFail, State.xmState, fld_setFld_beside _ _ _ _ _ _ (by decide) (by decide)]
  exact fld_setFld_same _ _ _ _ _ (by decide)

theorem setXmPc_pc {n v : Nat} (h : v < 2 ^ 64) (s : State) : (s.setXmPc n v).xmPc n = v :=
  reg64_setReg64_same s (at_ne_of_phase (by decide) n n) h

theorem setXmPc_state (s : State) (n v : Nat) : (s.setXmPc n v).xmState n = s.xmState n :=
  fld_setReg64_other s (at_ne_of_phase (by decide) n n) (at_ne_of_phase (by decide) n n) _ v

theorem setXmPc_onlyRegs (s : State) (n v : Nat) : OnlyRegs [XM_CH_PC_LO.at n, XM_CH_PC_HI.at n] s (s.setXmPc n v) :=
  ((onlyRegs_refl _ s).setReg (by simp) _).setReg (by simp) _

theorem setXmState_pc (s : State) (n v : Nat) : (s.setXmState n v).xmPc n = s.xmPc n := by
  rw [State.xmPc, State.xmPc, State.reg64, State.reg64, State.setXmState, getReg_setFld_other _ _ _ _ _ (at_ne_of_phase (by decide) n n),
    getReg_setFld_other _ _ _ _ _ (at_ne_of_phase (by decide) n n)]

/-- A flag consumed is not set. -/
theorem setXmFlag_false (s : State) (f : Nat) : (s.setXmFlag f false).xmFlag f = false := by
  have hfld : (s.setXmFlag f false).fld XM_EVENT 0 XM_EVENT_FLAGS =
      (s.fld XM_EVENT 0 XM_EVENT_FLAGS &&& (0xFFFFFFFF ^^^ 2 ^ f)) % 2 ^ 32 := fld_setFld_same _ _ _ _ _ (by decide)
  rw [State.xmFlag, hfld, bit_eq_testBit, show (0xFFFFFFFF : Nat) = 2 ^ 32 - 1 from rfl, Nat.testBit_mod_two_pow, Nat.testBit_and, Nat.testBit_xor,
    Nat.testBit_two_pow_sub_one, Nat.testBit_two_pow_self]
  by_cases hf : f < 32 <;> simp [hf]

@[simp] theorem setXmPc_xm (s : State) (n v : Nat) : (s.setXmPc n v).xm = s.xm := setReg64_xm s _ _ v

@[simp] theorem setXmFlag_xm (s : State) (f : Nat) (b : Bool) : (s.setXmFlag f b).xm = s.xm := setFld_xm s _ _ _ _

theorem setXmFlag_state (s : State) (f : Nat) (b : Bool) (n : Nat) : (s.setXmFlag f b).xmState n = s.xmState n := by
  refine fld_setFld_other _ _ _ _ _ _ _ _ ?_
  simp only [Reg.at, XM_CH_STATUS, XM_EVENT]
  omega

/-! ### The last burst of a MOVE -/

/-- A pause taken at the end of a burst writes STATE alone. -/
theorem xmSettle_cases (s : State) (n : Nat) : s.xmSettle n = s ∨ s.xmSettle n = s.setXmState n xmPaused := by
  unfold State.xmSettle
  split
  · exact .inr rfl
  · exact .inl rfl

theorem xmSettle_onlyRegs (s : State) (n : Nat) : OnlyRegs [XM_CH_STATUS.at n] s (s.xmSettle n) := by
  rcases xmSettle_cases s n with h | h <;> rw [h]
  · exact onlyRegs_refl _ s
  · exact onlyRegs_setFld _ _ _ _ _

theorem xmSettle_fld_status {g : Fld} (hg : g.lo + g.len ≤ 32) (h : XM_CH_STATUS_STATE.lo + XM_CH_STATUS_STATE.len ≤ g.lo) (s : State) (n : Nat) :
    (s.xmSettle n).fld XM_CH_STATUS n g = s.fld XM_CH_STATUS n g := by
  rcases xmSettle_cases s n with e | e <;> rw [e]
  exact fld_setFld_beside _ _ _ _ _ _ hg (.inr h)

theorem memRead_length (m : List Host.Cell) (a n : Nat) : (memRead m a n).length = n := by
  induction n generalizing a with
  | zero => rfl
  | succ n ih => rw [memRead, List.length_cons, ih]

/-- The bytes of the last burst stored. -/
def State.xmStored (s : State) (m : Move) : State :=
  { s with sram := memWrite s.sram (m.dst + m.done) (memRead s.dram (m.src + m.done) (m.len - m.done)) }

/-- The channel's registers after it: SRC, DST and REMAIN, RETRIES, HALF and FULL. -/
def State.xmShown (s : State) (n : Nat) (m : Move) : State :=
  let u := (s.xmShow n { m with done := m.len, inBurst := false }).setFld XM_CH_STATUS n XM_CH_STATUS_RETRIES 0
  let u := if m.half ∧ m.done < m.len / 2 ∧ m.len / 2 ≤ m.len then u.setFld XM_CH_STATUS n XM_CH_STATUS_HALF 1 else u
  if m.full then u.setFld XM_CH_STATUS n XM_CH_STATUS_FULL 1 else u

/-- The state in which the MOVE has ended. -/
def State.xmMoveEnded (s : State) (n : Nat) (m : Move) : State :=
  (((s.xmStored m).xmShown n m).setXmChan n { s.xmChan n with move := none }).xmSettle n

theorem xmBurst_last {n bytes : Nat} {m : Move} (hn : n < 32) (hr : s.xmState n = xmRun) (hm : (s.xmChan n).move = some m)
    (hsrc : m.srcSpace = 0) (hdst : m.dstSpace = 1) (hp : m.paced = false) (hd : m.down = false) (hretry : m.retryAt = false)
    (hle : m.done ≤ m.len) (hb : m.len - m.done ≤ bytes) : xmBurst s n bytes = s.xmMoveEnded n m := by
  have hgo : ¬ (n ≥ 32 ∨ (m.paced = true ∧ (!m.inBurst) = true) ∨ m.retryAt = true ∨ s.xmState n ≠ xmRun) := by
    simp [hp, hretry, hr]
    omega
  have hsum : m.done + (m.len - m.done) = m.len := by omega
  unfold xmBurst
  simp only [hm]
  rw [if_neg hgo]
  simp only [hp, hd, Bool.false_eq_true, if_false, Nat.min_eq_left hb, State.xmSource, hsrc, if_true, State.xmStore, hdst,
    Nat.one_ne_zero, hsum, show ¬ (0 = 2) by decide, State.xmMoveEnded, State.xmShown, State.xmStored]

theorem xmShow_onlyRegs (s : State) (n : Nat) (m : Move) :
    OnlyRegs [XM_CH_SRC_LO.at n, XM_CH_SRC_HI.at n, XM_CH_DST_LO.at n, XM_CH_DST_HI.at n, XM_CH_REMAIN.at n] s (s.xmShow n m) :=
  (((((onlyRegs_refl _ s).setReg (by simp) _).setReg (by simp) _).setReg (by simp) _).setReg (by simp) _).setReg (by simp) _

theorem xmShown_onlyRegs (s : State) (n : Nat) (m : Move) :
    OnlyRegs [XM_CH_SRC_LO.at n, XM_CH_SRC_HI.at n, XM_CH_DST_LO.at n, XM_CH_DST_HI.at n, XM_CH_REMAIN.at n, XM_CH_STATUS.at n] s
      (s.xmShown n m) := by
  have hbase := (onlyRegs_mono (bs := [XM_CH_SRC_LO.at n, XM_CH_SRC_HI.at n, XM_CH_DST_LO.at n, XM_CH_DST_HI.at n, XM_CH_REMAIN.at n,
    XM_CH_STATUS.at n]) (xmShow_onlyRegs s n { m with done := m.len, inBurst := false }) (by simp)).setFld (r := XM_CH_STATUS) (i := n) (by simp)
    XM_CH_STATUS_RETRIES 0
  unfold State.xmShown
  dsimp only
  split <;> split
  · exact (hbase.setFld (by simp) _ _).setFld (by simp) _ _
  · exact hbase.setFld (by simp) _ _
  · exact hbase.setFld (by simp) _ _
  · exact hbase

/-- The count of bytes left of a MOVE that is done. -/
theorem xmShown_remain (s : State) (n : Nat) (m : Move) : (s.xmShown n m).getReg (XM_CH_REMAIN.at n) = 0 := by
  have hne : XM_CH_REMAIN.at n ≠ XM_CH_STATUS.at n := at_ne_of_phase (by decide) n n
  have hshow : (s.xmShow n { m with done := m.len, inBurst := false }).getReg (XM_CH_REMAIN.at n) = 0 := by
    unfold State.xmShow
    dsimp only
    rw [getReg_setReg_same, Nat.sub_self]
    rfl
  unfold State.xmShown
  dsimp only
  split <;> split <;> simp only [getReg_setFld_other _ _ _ _ _ hne, hshow]

theorem xmMoveEnded_memories (s : State) (n : Nat) (m : Move) : (s.xmMoveEnded n m).dram = s.dram ∧
    (s.xmMoveEnded n m).sram = memWrite s.sram (m.dst + m.done) (memRead s.dram (m.src + m.done) (m.len - m.done)) := by
  have hsettle := xmSettle_onlyRegs (((s.xmStored m).xmShown n m).setXmChan n { s.xmChan n with move := none }) n
  have hshown := xmShown_onlyRegs (s.xmStored m) n m
  exact ⟨(hsettle.keeps (·.dram) (fun _ _ => rfl)).trans (hshown.keeps (·.dram) (fun _ _ => rfl)),
    (hsettle.keeps (·.sram) (fun _ _ => rfl)).trans (hshown.keeps (·.sram) (fun _ _ => rfl))⟩

theorem xmMoveEnded_move (s : State) (n : Nat) (m : Move) : ((s.xmMoveEnded n m).xmChan n).move = none := by
  have hxm : (s.xmMoveEnded n m).xm = (((s.xmStored m).xmShown n m).setXmChan n { s.xmChan n with move := none }).xm :=
    (xmSettle_onlyRegs _ n).keeps (·.xm) (fun _ _ => rfl)
  rw [State.xmChan, hxm, setXmChan_xm, Tab.getD, Tab.get?_set_same]
  rfl

theorem xmMoveEnded_remain (s : State) (n : Nat) (m : Move) : (s.xmMoveEnded n m).getReg (XM_CH_REMAIN.at n) = 0 := by
  have hout : XM_CH_REMAIN.at n ∉ [XM_CH_STATUS.at n] := fun h => at_ne_of_phase (by decide) n n (List.mem_singleton.mp h)
  exact ((xmSettle_onlyRegs _ n).1 _ hout).trans (xmShown_remain (s.xmStored m) n m)

theorem xmMoveEnded_full {m : Move} (h : m.full = true) (s : State) (n : Nat) :
    (s.xmMoveEnded n m).fld XM_CH_STATUS n XM_CH_STATUS_FULL = 1 := by
  rw [State.xmMoveEnded, xmSettle_fld_status (by decide) (by decide), fld_of_regs_eq (setXmChan_regs _ n _), State.xmShown, if_pos h,
    fld_setFld_same _ _ _ _ _ (by decide)]
  rfl

/-- Settles O21: each instruction is its case of `xmExecute`, and a burst that covers what is left is the store and the end of the MOVE. -/
theorem moverRunsPrograms : Obligations.MoverRunsPrograms := by
  refine ⟨fun s n bs hm hn hr hmove hf => ?_, fun s n bytes m hm hn hr hmove hsrc hdst hp hd hretry hle hb => ?_⟩
  · have hrun := runs_xmInstruction hm hn hr hmove hf
    refine ⟨fun h => ?_, fun h hres hpc => ?_, fun h hres hpc => ?_, fun h hflag hres hset => ?_⟩
    · rw [xmExecute_unlisted h] at hrun
      exact ⟨_, hrun, xmFail_state s n 3, fld_setFld_same _ _ _ _ _ (by decide), rfl,
        ((onlyRegs_refl _ s).setFld (by simp) _ _).setFld (by simp) _ _⟩
    · rw [xmExecute_nop h hres] at hrun
      exact ⟨_, hrun, setXmPc_pc hpc s, rfl, setXmPc_onlyRegs s n _⟩
    · rw [xmExecute_halt h hres] at hrun
      exact ⟨_, hrun, (setXmState_pc _ n _).trans (setXmPc_pc hpc s), fld_setFld_same _ _ _ _ _ (by decide), rfl⟩
    · rw [xmExecute_wait_set h hflag hres hset] at hrun
      exact ⟨_, hrun, setXmFlag_false _ _, ((setXmFlag_state _ _ _ n).trans (setXmPc_state s n _)).trans hr,
        (setXmFlag_xm _ _ _).trans (setXmPc_xm _ _ _)⟩
  · obtain ⟨hdram, hsram⟩ := xmMoveEnded_memories s n m
    have hlen : (memRead s.dram (m.src + m.done) (m.len - m.done)).length = m.len - m.done := memRead_length _ _ _
    refine ⟨s.xmMoveEnded n m, ?_, xmMoveEnded_move s n m, hdram, ?_, fun a ha => ?_, xmMoveEnded_remain s n m,
      fun h => xmMoveEnded_full h s n⟩
    · simp only [Runs, exec_xmBurstDone, execXmBurstDone, whenMemory_up hm, xmBurst_last hn hr hmove hsrc hdst hp hd hretry hle hb]
    · have hsame := memRead_memWrite_same s.sram (m.dst + m.done) (memRead s.dram (m.src + m.done) (m.len - m.done))
      rw [hsram]
      rw [hlen] at hsame
      exact hsame
    · rw [hsram]
      exact memGet_memWrite_outside _ _ _ _ (by omega)

end Sys2Proof.Machine
end

section
/-! Functions, queue contexts and messages: what their updates set and leave (chapter 10). -/

namespace Sys2Proof.Machine

open Sys2Proof

variable {s : State}

/-! ### Function entries -/

@[simp] theorem fn_setFn_same (s : State) (x : Nat) (f : Fn) : (s.setFn x f).fn x = f := by
  rw [State.fn, setFn_qm, Tab.getD, Tab.get?_set_same]
  rfl

theorem fn_setFn_other {x y : Nat} (h : y ≠ x) (s : State) (f : Fn) : (s.setFn x f).fn y = s.fn y := by
  rw [State.fn, setFn_qm, Tab.getD, Tab.get?_set_other _ _ h]
  rfl

theorem fn_of_fns_eq {s t : State} (h : t.qm.fns = s.qm.fns) (x : Nat) : t.fn x = s.fn x := by
  rw [State.fn, State.fn, h]

/-! ### Completion queues -/

/-- The completion queue just changed is the one read. -/
theorem cq?_modCq_same (q : Nat) (f : Cq → Cq) : (s.modCq q f).cq? q = (s.cq? q).map f := by
  simp only [State.cq?, State.dq, State.modCq, modDq_qm, Tab.get?_modify, if_true]
  cases Tab.get? s.qm.queues q <;> rfl

theorem dq_modCq_same (q : Nat) (f : Cq → Cq) : (s.modCq q f).dq q = (s.dq q).map (fun d => { d with cq := d.cq.map f }) := by
  simp only [State.dq, State.modCq, modDq_qm, Tab.get?_modify, if_true]

theorem cq?_of_queues_eq {s t : State} (h : t.qm.queues = s.qm.queues) (q : Nat) : t.cq? q = s.cq? q := by
  rw [State.cq?, State.cq?, State.dq, State.dq, h]

theorem cq?_eq_some {q : Nat} {c : Cq} (h : s.cq? q = some c) : ∃ d, s.dq q = some d ∧ d.cq = some c :=
  Option.bind_eq_some_iff.mp h

/-- A message of a function, sent or held, leaves every queue context. -/
@[simp] theorem sendMsix_queues (s : State) (x v : Nat) : (s.sendMsix x v).qm.queues = s.qm.queues := by
  unfold State.sendMsix
  dsimp only
  split
  · rfl
  · split <;> rfl

/-- A message that is neither off nor masked is sent. -/
theorem sendMsix_unmasked {x v : Nat} (hon : (s.fn x).msixOn = true) (hv : v < s.vectorsOf x) (hu : (s.fn x).unmasked.contains v = true) :
    s.sendMsix x v = s.emit (.msix x v) := by
  have hin : ¬ ((!(s.fn x).msixOn || decide (v ≥ s.vectorsOf x)) = true) := by simp [hon, hv]
  unfold State.sendMsix
  rw [if_neg hin, if_pos hu]

/-- The message of a completion queue leaves the ring, the spill list and the breakwater. -/
theorem cqSignal_cq? {q : Nat} {c : Cq} (h : s.cq? q = some c) :
    ∃ u, (s.cqSignal q).cq? q = some { c with unsignalled := u } := by
  obtain ⟨d, hd, hc⟩ := cq?_eq_some h
  rcases Option.eq_none_or_eq_some c.vector with hv | ⟨v, hv⟩
  · have hsig : s.cqSignal q = s := by simp only [State.cqSignal, hd, hc, hv]
    exact ⟨c.unsignalled, hsig.symm ▸ h⟩
  · have hsig : s.cqSignal q = (s.modCq q (fun c => { c with unsignalled := 0 })).sendMsix d.x v := by simp only [State.cqSignal, hd, hc, hv]
    refine ⟨0, ?_⟩
    rw [hsig, cq?_of_queues_eq (sendMsix_queues _ _ _), cq?_modCq_same, h]
    rfl

/-! ### The completion doorbell (R338, R344) -/

/-- What an accepted head makes of its queue: the head moves, and the breakwater opens when the load has fallen. -/
def Cq.headTo (t : Word) (c : Cq) : Cq :=
  let c := { c with h := t }
  if c.load ≤ c.size + c.spillLimit / 2 then { c with closed := false } else c

theorem Cq.headTo_fields (t : Word) (c : Cq) : (c.headTo t).h = t ∧ (c.headTo t).pc = c.pc ∧ (c.headTo t).spill = c.spill ∧
    (c.headTo t).outstanding = c.outstanding := by
  unfold Cq.headTo
  dsimp only
  split <;> exact ⟨rfl, rfl, rfl, rfl⟩

theorem Cq.headTo_closed {c : Cq} (h : c.spill = []) (t : Word) :
    (c.headTo t).closed = (c.closed && decide (c.size + c.spillLimit / 2 < c.outstanding + idxSub c.pc t)) := by
  have hload : Cq.load { c with h := t } = c.outstanding + idxSub c.pc t := by simp [Cq.load, Cq.inRing, h]
  unfold Cq.headTo
  dsimp only
  rw [hload]
  split
  next hle => simp [Nat.not_lt.mpr (show c.outstanding + idxSub c.pc t ≤ c.size + c.spillLimit / 2 from hle)]
  next hgt =>
    have hlt : c.size + c.spillLimit / 2 < c.outstanding + idxSub c.pc t := Nat.lt_of_not_le hgt
    simp [hlt]

theorem cqHead_accepted {x n q : Nat} {c : Cq} {t : Word} (hq : s.dqNum x n = some q) (hc : s.cq? q = some c)
    (ht : idxSub t c.h ≤ c.inRing) (hspill : c.spill = []) : ∃ u, (s.cqHead x n t).cq? q = some { c.headTo t with unsignalled := u } := by
  have hopen : (((s.modCq q (fun c => { c with h := t })).breakwaterOpen q)).cq? q = some (c.headTo t) := by
    rw [State.breakwaterOpen, cq?_modCq_same, cq?_modCq_same, hc]
    rfl
  simp only [State.cqHead, hq, hc, if_pos ht, hspill, List.length_nil, State.cqRefill, hopen]
  split
  · exact cqSignal_cq? hopen
  · exact ⟨_, hopen⟩

theorem cqHead_refused {x n q : Nat} {c : Cq} {t : Word} (hq : s.dqNum x n = some q) (hc : s.cq? q = some c)
    (ht : c.inRing < idxSub t c.h) : s.cqHead x n t = s.fnError x := by
  simp only [State.cqHead, hq, hc, if_neg (Nat.not_le.mpr ht)]

/-- Settles O24: the message that may follow an accepted head changes what it covers alone. -/
theorem completionHeadWrites : Obligations.CompletionHeadWrites := by
  intro s x n q c v hup hq hc
  have hends : Ends (.dbCqHeadWrite x n 4 v) s (s.cqHead x n v) := by simp [Ends, Runs, execDbCqHeadWrite, whenUp_up hup]
  refine ⟨fun hin hspill => ?_, fun hout => ?_⟩
  · obtain ⟨u, hu⟩ := cqHead_accepted hq hc hin hspill
    obtain ⟨hh, hpc, hsp, ho⟩ := c.headTo_fields v
    exact ⟨_, _, hends, hu, hh, hpc, hsp.trans hspill, ho, Cq.headTo_closed hspill v⟩
  · rw [cqHead_refused hq hc hout] at hends
    exact ⟨_, hends, fnError_qm s x, fnError_onlyRegs s x, fld_fnError s x⟩

end Sys2Proof.Machine
end

section
/-! The arbiter's visits (R333) and MSI-X messages (R340, R341). -/

namespace Sys2Proof.Machine

open Sys2Proof

variable {s : State}

theorem arbVisit_idle {port : Nat} (h0 : s.eligibleIn port 0 = []) (h1 : s.eligibleIn port 1 = []) (reads : List HostRead) :
    s.arbVisit port reads = s := by
  simp [State.arbVisit, h0, h1, State.each]

/-- The state in which a visit of a queue of the first tier is open for `n` more entries. -/
def State.openVisit (s : State) (port q n : Nat) : State := { s with qm := { s.qm with visit := Tab.set s.qm.visit (2 * port) (q, n) } }

/-- The state after one entry of the visited queue is consumed and its credit taken. -/
def State.visitedOnce (s : State) (port q : Nat) (r : HostRead) : State :=
  ((s.openVisit port q 1).consumeNext q r).modSq q (fun b => { b with credits := b.credits - 1 })

theorem eligible_openVisit (s : State) (port q n : Nat) : (s.openVisit port q n).eligible q = s.eligible q := rfl

/-- A visit of one entry consumes the entry at C of the one queue that is eligible. -/
theorem arbVisit_single {port q : Nat} {a : Sq} (hel : s.eligibleIn port 0 = [q]) (ha : s.sq? q = some a) (hcr : a.credits > 0)
    (hb : a.burst = 1) (he : s.eligible q = true) (r : HostRead) :
    s.arbVisit port [r] = (s.visitedOnce port q r).openVisit port q 0 := by
  have hhead : (([q].filter (fun p => p > (Tab.getD s.qm.visit (2 * port) (0, 0)).1)) ++ [q]).head? = some q := by
    by_cases hlast : q > (Tab.getD s.qm.visit (2 * port) (0, 0)).1 <;> simp [hlast]
  have hmin : min 1 a.credits = 1 := by omega
  have hvisit : State.visitGo 1 (s.openVisit port q 1) (2 * port) q [r] = (s.visitedOnce port q r).openVisit port q 0 := by
    simp only [State.visitGo, eligible_openVisit, he, if_true]
    rfl
  rw [← hvisit]
  simp only [State.arbVisit, hel, List.isEmpty_cons, Bool.false_eq_true, if_false, List.any_cons, List.any_nil, ha, decide_eq_true hcr,
    Bool.or_false, if_true, List.filter_cons_of_pos, List.filter_nil, Nat.add_zero, hhead, hb, hmin]
  rfl

theorem cqSignal_sent {q v : Nat} {d : DevQueue} {c : Cq} (hd : s.dq q = some d) (hc : d.cq = some c) (hv : c.vector = some v)
    (hon : (s.fn d.x).msixOn = true) (hlt : v < s.vectorsOf d.x) (hu : (s.fn d.x).unmasked.contains v = true) :
    s.cqSignal q = (s.modCq q (fun c => { c with unsignalled := 0 })).emit (.msix d.x v) := by
  simp only [State.cqSignal, hd, hc, hv]
  exact sendMsix_unmasked (s := s.modCq q _) hon hlt hu

/-- The function entry of an unmasked vector. -/
def Fn.unmask (f : Fn) (v : Nat) : Fn :=
  { f with msixOn := true, unmasked := if f.unmasked.contains v then f.unmasked else f.unmasked ++ [v], pendingVec := f.pendingVec.filter (· ≠ v) }

theorem Fn.mem_unmask (f : Fn) (v : Nat) : v ∈ (f.unmask v).unmasked := by
  show v ∈ if f.unmasked.contains v then f.unmasked else f.unmasked ++ [v]
  split
  next h => exact List.contains_iff_mem.mp h
  next => exact List.mem_append_right _ (List.mem_singleton_self _)

theorem Fn.not_mem_unmask_pending (f : Fn) (v : Nat) : v ∉ (f.unmask v).pendingVec := by
  intro h
  simpa using (List.mem_filter.mp h).2

/-- The state after a vector is unmasked and a message held for it is sent. -/
def State.unmasked (s : State) (x v : Nat) : State :=
  if (s.fn x).pendingVec.contains v then (s.setFn x ((s.fn x).unmask v)).emit (.msix x v) else s.setFn x ((s.fn x).unmask v)

theorem unmasked_fn (s : State) (x v : Nat) : (s.unmasked x v).fn x = (s.fn x).unmask v := by
  unfold State.unmasked
  split
  · exact fn_setFn_same s x _
  · exact fn_setFn_same s x _

theorem unmasked_out (s : State) (x v : Nat) :
    (s.unmasked x v).out = s.out ++ (if (s.fn x).pendingVec.contains v then [.msix x v] else []) := by
  unfold State.unmasked
  split
  · rfl
  · simp

theorem unmasked_frame (s : State) (x v : Nat) : (s.unmasked x v).regs = s.regs ∧ (s.unmasked x v).qm.queues = s.qm.queues := by
  unfold State.unmasked
  split <;> exact ⟨rfl, rfl⟩

theorem ends_msixUnmask {x v : Nat} (hup : s.up = true) (hp : (s.fn x).present = true) (hv : v < s.vectorsOf x) :
    Ends (.msixUnmask x v) s (s.unmasked x v) := by
  have hin : ¬ ((!(s.fn x).present) = true ∨ v ≥ s.vectorsOf x) := by simp [hp, hv]
  simp only [Ends, Runs, exec_msixUnmask, execMsixUnmask, whenUp_up hup, if_neg hin]
  rfl

/-- Settles O28: the visit of a single queue is one consumption, and both messages are those of a vector that is not masked. -/
theorem visitsAndVectors : Obligations.VisitsAndVectors := by
  refine ⟨fun s port r hup => ⟨fun h0 h1 => ?_, fun q a hel ha hcr hb he => ⟨s.visitedOnce port q r, ?_, rfl⟩⟩,
    fun s hup => ⟨fun q d c v hd hc hv hun hon hlt hu => ?_, fun x v hp hv => ?_⟩⟩
  · simp only [Ends, Runs, exec_sqFetch, execSqFetch, whenUp_up hup, arbVisit_idle h0 h1]
  · simp only [Ends, Runs, exec_sqFetch, execSqFetch, whenUp_up hup, arbVisit_single hel ha hcr hb he]
    rfl
  · have hcq : s.cq? q = some c := by rw [State.cq?, hd]; exact hc
    have hsig := cqSignal_sent hd hc hv hon hlt hu
    refine ⟨s.cqSignal q, ?_, by rw [hsig]; rfl, ?_, by rw [hsig]; rfl⟩
    · simp only [Ends, Runs, exec_cqCoalTimer, execCqCoalTimer, whenUp_up hup, hcq, if_pos hun]
    · rw [hsig, cq?_of_queues_eq (s := s.modCq q (fun c => { c with unsignalled := 0 })) (by rw [emit_qm]), cq?_modCq_same, hcq]
      rfl
  · obtain ⟨hregs, hqueues⟩ := unmasked_frame s x v
    refine ⟨s.unmasked x v, ends_msixUnmask hup hp hv, ?_, ?_, unmasked_out s x v, hregs, hqueues⟩
    · rw [unmasked_fn]
      exact Fn.mem_unmask _ v
    · rw [unmasked_fn]
      exact Fn.not_mem_unmask_pending _ v

end Sys2Proof.Machine
end

section
/-! Functions that come and go (R310, R334, R345, R346), and the arbitration window of a queue (R335). -/

namespace Sys2Proof.Machine

open Sys2Proof

variable {s : State}

/-! ### Every function of a list present, or gone -/

/-- The functions of a list shown as present or gone. -/
def State.showFns (s : State) (xs : List Nat) (b : Bool) : State := s.each xs (fun x s => s.setFn x { s.fn x with present := b })

theorem showFns_cons (s : State) (x : Nat) (xs : List Nat) (b : Bool) :
    s.showFns (x :: xs) b = (s.setFn x { s.fn x with present := b }).showFns xs b := rfl

theorem setFn_keeps_present {y : Nat} {b : Bool} (x : Nat) (s : State) (h : (s.fn y).present = b) :
    ((s.setFn x { s.fn x with present := b }).fn y).present = b := by
  by_cases hxy : y = x
  · rw [hxy, fn_setFn_same]
  · rw [fn_setFn_other hxy, h]

theorem showFns_present {xs : List Nat} {x : Nat} (hx : x ∈ xs) (b : Bool) (s : State) : ((s.showFns xs b).fn x).present = b := by
  induction xs generalizing s with
  | nil => exact absurd hx List.not_mem_nil
  | cons a xs ih =>
    rw [showFns_cons]
    rcases List.mem_cons.mp hx with rfl | hin
    · exact each_stable (fun t : State => (t.fn x).present = b) xs _ (fun y t h => setFn_keeps_present y t h) (by rw [fn_setFn_same])
    · exact ih hin _

theorem showFns_regs (s : State) (xs : List Nat) (b : Bool) : (s.showFns xs b).regs = s.regs :=
  each_stable (fun t => t.regs = s.regs) xs _ (fun _ _ h => h) rfl

theorem showFns_dram (s : State) (xs : List Nat) (b : Bool) : (s.showFns xs b).dram = s.dram :=
  each_stable (fun t => t.dram = s.dram) xs _ (fun _ _ h => h) rfl

theorem linkFns_of_regs_eq {s t : State} (h : t.regs = s.regs) (port link : Nat) : t.linkFns port link = s.linkFns port link := by
  rw [State.linkFns, State.linkFns, State.split, State.split, fld_of_regs_eq h]

/-! ### Links -/

/-- QM_PORT_n as a link goes down. -/
def State.linkDownShown (s : State) (port link : Nat) : State :=
  if link = 0 ∨ !s.split port then
    (((s.setFld QM_PORT port QM_PORT_UP0 0).setFld QM_PORT port QM_PORT_FLIT0 0).setFld QM_PORT port QM_PORT_RATE0 0).setFld
      QM_PORT port QM_PORT_WIDTH0 0
  else
    (((s.setFld QM_PORT port QM_PORT_UP1 0).setFld QM_PORT port QM_PORT_FLIT1 0).setFld QM_PORT port QM_PORT_RATE1 0).setFld
      QM_PORT port QM_PORT_WIDTH1 0

/-- QM_PORT_n as a link is trained. -/
def State.linkUpShown (s : State) (port link rate width : Nat) (flit : Bool) : State :=
  if link = 0 ∨ !s.split port then
    (((s.setFld QM_PORT port QM_PORT_UP0 1).setFld QM_PORT port QM_PORT_FLIT0 (b2n flit)).setFld
      QM_PORT port QM_PORT_RATE0 rate).setFld QM_PORT port QM_PORT_WIDTH0 width
  else
    (((s.setFld QM_PORT port QM_PORT_UP1 1).setFld QM_PORT port QM_PORT_FLIT1 (b2n flit)).setFld
      QM_PORT port QM_PORT_RATE1 rate).setFld QM_PORT port QM_PORT_WIDTH1 width

theorem linkGone_eq (s : State) (port link : Nat) :
    s.linkGone port link = (s.linkDownShown port link).showFns ((s.linkDownShown port link).linkFns port link) false := rfl

theorem linkTrained_eq (s : State) (port link rate width : Nat) (flit : Bool) :
    s.linkTrained port link rate width flit =
      (s.linkUpShown port link rate width flit).showFns ((s.linkUpShown port link rate width flit).linkFns port link) true := rfl

theorem linkDownShown_up0 (s : State) (port : Nat) : (s.linkDownShown port 0).fld QM_PORT port QM_PORT_UP0 = 0 := by
  rw [State.linkDownShown, if_pos (.inl rfl), fld_setFld_beside _ _ _ _ _ _ (by decide) (by decide),
    fld_setFld_beside _ _ _ _ _ _ (by decide) (by decide), fld_setFld_beside _ _ _ _ _ _ (by decide) (by decide),
    fld_setFld_same _ _ _ _ _ (by decide), Nat.zero_mod]

theorem linkUpShown_up0 (s : State) (port rate width : Nat) (flit : Bool) :
    (s.linkUpShown port 0 rate width flit).fld QM_PORT port QM_PORT_UP0 = 1 := by
  rw [State.linkUpShown, if_pos (.inl rfl), fld_setFld_beside _ _ _ _ _ _ (by decide) (by decide),
    fld_setFld_beside _ _ _ _ _ _ (by decide) (by decide), fld_setFld_beside _ _ _ _ _ _ (by decide) (by decide),
    fld_setFld_same _ _ _ _ _ (by decide)]
  rfl

theorem linkUpShown_dram (s : State) (port link rate width : Nat) (flit : Bool) : (s.linkUpShown port link rate width flit).dram = s.dram := by
  unfold State.linkUpShown
  split <;> simp only [setFld_dram]

@[simp] theorem relocked_regs (s : State) (c : Nat) : (s.relocked c).regs = s.regs := rfl

@[simp] theorem relocked_qm (s : State) (c : Nat) : (s.relocked c).qm = s.qm := rfl

/-! ### Resets of functions -/

@[simp] theorem endSessionOn_qm (s : State) (x cause : Nat) : (s.endSessionOn x cause).qm = s.qm := by
  unfold State.endSessionOn State.endSession
  split
  · split
    · dsimp only
      split
      · rfl
      · rw [raise_qm]
        rfl
    · rfl
  · rfl

/-- A reset of a function takes its queues out of the table after all its commands are dealt with. -/
theorem resetFn_queues (s : State) (x cause : Nat) : ∀ e ∈ (s.resetFn x cause).qm.queues, e.2.x ≠ x := by
  intro e he
  unfold State.resetFn at he
  rw [endSessionOn_qm, setFn_qm] at he
  simpa using (List.mem_filter.mp he).2

theorem resetFn_fn (s : State) (x cause : Nat) : ((s.resetFn x cause).fn x).bme = false ∧ ((s.resetFn x cause).fn x).ctlq = 0 := by
  have hfn (t : State) (f : Fn) : ((t.setFn x f).endSessionOn x cause).fn x = f := by
    rw [fn_of_fns_eq (s := t.setFn x f) (by rw [endSessionOn_qm]), fn_setFn_same]
  unfold State.resetFn
  dsimp only
  rw [hfn]
  exact ⟨rfl, rfl⟩

theorem resetFunction_flr {x : Nat} (h : s.vfsOf x = []) : s.resetFunction x .flr = s.resetFn x 2 := by
  rw [State.resetFunction, h]
  rfl

/-- Settles O29: a reset filters the queue table and blanks the entry; a link's change shows every function of the link. -/
theorem functionsComeAndGo : Obligations.FunctionsComeAndGo := by
  intro s hup
  refine ⟨fun x on hp => ⟨s.setFn x { s.fn x with bme := on }, ?_, by rw [fn_setFn_same], fun y hy => fn_setFn_other hy s _, rfl, rfl⟩,
    fun x hx hv => ⟨s.resetFn x 2, ?_, resetFn_queues s x 2, resetFn_fn s x 2⟩, fun port link hport => ?_,
    fun port link rate width flit hport => ?_, fun port q a v hq ha hw => ?_⟩
  · simp only [Ends, Runs, exec_busMasterEnableChange, execBusMasterEnableChange, whenUp_up hup, if_pos hp]
  · simp only [Ends, Runs, exec_functionReset, execFunctionReset, whenUp_up hup, if_pos hx, resetFunction_flr hv]
  · refine ⟨s.resetPort port link, ?_, fun x hx => ?_, fun h0 => ?_⟩
    · simp only [Ends, Runs, exec_portReset, execPortReset, whenUp_up hup, if_pos hport]
    · rw [State.resetPort, linkGone_eq] at hx ⊢
      rw [linkFns_of_regs_eq (showFns_regs _ _ _)] at hx
      exact showFns_present hx false _
    · subst h0
      rw [State.resetPort, linkGone_eq, fld_of_regs_eq (showFns_regs _ _ _), linkDownShown_up0]
  · refine ⟨(s.linkTrained port link rate width flit).relocked (1 + port), ?_, fun x hx => ?_, fun h0 => ?_, ?_⟩
    · simp only [Ends, Runs, exec_hostLinkUp, execHostLinkUp, whenUp_up hup, if_pos hport]
    · rw [linkFns_of_regs_eq (relocked_regs _ _)] at hx
      rw [fn_of_fns_eq (by rw [relocked_qm])]
      rw [linkTrained_eq] at hx ⊢
      rw [linkFns_of_regs_eq (showFns_regs _ _ _)] at hx
      exact showFns_present hx true _
    · subst h0
      rw [fld_of_regs_eq (relocked_regs _ _), linkTrained_eq, fld_of_regs_eq (showFns_regs _ _ _), linkUpShown_up0]
    · exact (showFns_dram _ _ _).trans (linkUpShown_dram s port link rate width flit)
  · refine ⟨qcArbSet q v s, ?_, ?_, fun p hp => dq_modSq_other hp _, rfl⟩
    · simp only [Ends, Runs, exec_qcArbWrite, execQcArbWrite, whenUp_up hup, if_pos hq, hostWrite_taken hw]
    · rw [qcArbSet, sq?_modSq_same, ha]
      rfl

end Sys2Proof.Machine
end

section
/-! A consumed command and its checks (R356): what a row comes to once its command is taken, with a failing check or with none. -/

namespace Sys2Proof.Machine

open Sys2Proof

variable {s t : State} {id q : Nat} {c : HostCmd}

theorem checked_some (s : State) (id : Nat) (f : Nat × Nat) (act : State → State) :
    s.checked id (some f) act = s.complete id f.1 [] f.2 := rfl

theorem checked_none (s : State) (id : Nat) (act : State → State) : s.checked id none act = act s := rfl

/-- A command that nothing before it blocks starts at once. -/
theorem inTurn_free (h : s.blocked id c = false) (go : State → State) : s.inTurn id c go = go s := by
  rw [State.inTurn, h]
  rfl

/-- A taken command runs on the state in which its entry is consumed, under its number. -/
theorem hostRow_taken {op : Nat} (h : Takes s op c q) (ht : s.taken q c = (id, t)) (run : State → Nat → State) :
    s.hostRow op c run = (run t id).finish := by
  rw [hostRow_takes h, ht]

/-- Settles O30: the first failing check is what `State.checked` completes the command with. -/
theorem failedChecksEndCommands : Obligations.FailedChecksEndCommands := by
  intro s t op id q st d c h ht
  refine ⟨fun ho hf => ?_, fun ho hf => ?_, fun ho hf => ?_, fun ho hf r => ?_, fun ho hf => ?_, fun ho hf => ?_, fun ho hf => ?_,
    fun ho hf => ?_, fun ho hf => ?_⟩ <;> subst ho
  · simp only [Ends, Runs, exec_append, execAppend, hostRow_taken h ht, State.runAppend, hf, checked_some]
  · simp only [Ends, Runs, exec_read, execRead, hostRow_taken h ht, State.runRead, hf, checked_some]
  · simp only [Ends, Runs, exec_release, execRelease, hostRow_taken h ht, State.runRelease, hf, checked_some]
  · simp only [Ends, Runs, exec_copyForward, execCopyForward, hostRow_taken h ht, State.runCopy, hf, checked_some]
  · simp only [Ends, Runs, exec_poolCreate, execPoolCreate, hostRow_taken h ht, State.runPoolCreate, hf, checked_some]
  · simp only [Ends, Runs, exec_driveSet, execDriveSet, hostRow_taken h ht, State.runDriveSet, hf, checked_some]
  · simp only [Ends, Runs, exec_timeSet, execTimeSet, hostRow_taken h ht, State.runTimeSet, hf, checked_some]
  · simp only [Ends, Runs, exec_protectSet, execProtectSet, hostRow_taken h ht, State.runProtectSet, hf, checked_some]
  · simp only [Ends, Runs, exec_queueCreate, execQueueCreate, hostRow_taken h ht, State.runQueueCreate, hf, checked_some]

/-! ### TIME_SET (R15, R16) -/

/-- The state in which the new value is in effect. -/
def State.timeTaken (s : State) (new : Nat) : State :=
  let u : State := { s with devNs := new, devFrac := 0, timeSet := true }
  if new < s.devNs then u.raise 0x002 4 noInst (leBytes 8 s.devNs ++ leBytes 8 new) else u

theorem goTimeSet_eq (s : State) (id : Nat) (c : HostCmd) :
    s.goTimeSet id c = (s.timeTaken (entryLe c 0 8 8)).complete id stSuccess (leBytes 8 s.devNs ++ leBytes 1 (b2n (!s.timeSet))) := rfl

theorem timeTaken_later {new : Nat} (h : s.devNs ≤ new) : s.timeTaken new = { s with devNs := new, devFrac := 0, timeSet := true } :=
  if_neg (Nat.not_lt.mpr h)

theorem timeTaken_earlier {new : Nat} (h : new < s.devNs) : s.timeTaken new =
    State.raise { s with devNs := new, devFrac := 0, timeSet := true } 0x002 4 noInst (leBytes 8 s.devNs ++ leBytes 8 new) :=
  if_pos h

theorem timeTaken_time (s : State) (new : Nat) : (s.timeTaken new).devNs = new ∧ (s.timeTaken new).timeSet = true := by
  rcases Nat.lt_or_ge new s.devNs with h | h
  · rw [timeTaken_earlier h, raise_devNs, raise_timeSet]
    exact ⟨rfl, rfl⟩
  · rw [timeTaken_later h]
    exact ⟨rfl, rfl⟩

/-- Settles O34: the state with the new value, and its event when that is below the old one. -/
theorem timeSetTakesEffect : Obligations.TimeSetTakesEffect := by
  intro s t id q c h ht hpre hfree
  obtain ⟨hns, hset⟩ := timeTaken_time t (entryLe c 0 8 8)
  refine ⟨t.timeTaken (entryLe c 0 8 8), ?_, hns, hset, timeTaken_later, timeTaken_earlier⟩
  simp only [Ends, Runs, exec_timeSet, execTimeSet, hostRow_taken h ht, State.runTimeSet, hpre, checked_none, inTurn_free hfree, goTimeSet_eq]

end Sys2Proof.Machine
end

section
/-! Sessions and the protection table (R499, R500, R503 to R507). -/

namespace Sys2Proof.Machine

open Sys2Proof

variable {s t : State} {id : Nat} {c : HostCmd}

/-! ### Challenges -/

theorem padTo_length (n : Nat) (bs : List Byte) : (padTo n bs).length = n := by
  simp only [padTo, zeros, List.length_take, List.length_append, List.length_replicate]
  omega

/-- The 128 bytes of a challenge (R500). -/
def State.challengeBytes (s : State) (x keySlot : Nat) : List Byte :=
  padTo 128 (ascii "FZSESCHL" ++ leBytes 1 keySlot ++ leBytes 1 (fnPort x) ++ zeros 6 ++ leBytes 8 (s.sec.challengeSeq + 1) ++
    leBytes 8 s.devNs ++ leBytes 32 (s.draw Config.random).1 ++ leBytes 32 s.sec.deviceId.toNat)

/-- The state in which a function holds a new challenge. -/
def State.challenged (s : State) (x keySlot : Nat) : State :=
  { (s.draw Config.random).2 with sec := { s.sec with
      challengeSeq := s.sec.challengeSeq + 1
      challenges := Tab.set s.sec.challenges x ⟨keySlot, s.challengeBytes x keySlot⟩ } }

theorem goSessionOpen_eq (s : State) (id : Nat) (c : HostCmd) :
    s.goSessionOpen id c = ((s.challenged c.x (entryByte c 0 8)).toHost id (descOfEntry c 24).addr
      (s.challengeBytes c.x (entryByte c 0 8))).complete id stSuccess (leBytes 4 128) := rfl

/-! ### Proofs of the owner key -/

theorem endSession_challenges (s : State) (cause : Nat) : (s.endSession cause).sec.challenges = s.sec.challenges := by
  unfold State.endSession
  split
  · dsimp only
    split
    · rfl
    · rw [raise_sec]
      rfl
  · rfl

theorem endSession_session (s : State) (cause : Nat) : (s.endSession cause).sec.session = none := by
  unfold State.endSession
  split
  · dsimp only
    split
    · rfl
    · rw [raise_sec]
      rfl
  next h => exact h

/-- The state in which the session of another port has given way to port `port`. -/
def State.displaced (s : State) (port : Nat) : State :=
  match s.sec.session with
  | some o => if o.port != port then (s.endSession 0).raise 0x101 4 noInst [BitVec.ofNat 8 o.port, BitVec.ofNat 8 port] else s
  | none => s

theorem displaced_challenges (s : State) (port : Nat) : (s.displaced port).sec.challenges = s.sec.challenges := by
  unfold State.displaced
  split
  · split
    · rw [raise_sec, endSession_challenges]
    · rfl
  · rfl

/-- The state in which a port holds the session under a key. -/
def State.sessionBegun (s : State) (x keySlot : Nat) : State :=
  let u := (s.dropChallenge x).displaced (fnPort x)
  { u with sec := { u.sec with session := some ⟨fnPort x, keySlot, u.devNs⟩ } }

theorem goSessionProve_good {sig : List Byte} {h : Challenge} (hread : c.read.data = some sig) (hgood : s.proofGood c.x sig = some h) :
    s.goSessionProve id c = (s.sessionBegun c.x h.keySlot).complete id stSuccess := by
  rw [State.goSessionProve, hread]
  dsimp only
  rw [hgood]
  rfl

theorem goSessionProve_bad {sig : List Byte} (hread : c.read.data = some sig) (hbad : s.proofGood c.x sig = none) :
    s.goSessionProve id c = ((s.dropChallenge c.x).bump SEC_SESSION_FAIL 0 SEC_SESSION_FAIL_COUNT).complete id stSessionRefused := by
  rw [State.goSessionProve, hread]
  dsimp only
  rw [hbad]

theorem dropChallenge_gone (s : State) (x : Nat) : Tab.get? (s.dropChallenge x).sec.challenges x = none := Tab.get?_erase_same _ _

theorem sessionBegun_challenge (s : State) (x keySlot : Nat) : Tab.get? (s.sessionBegun x keySlot).sec.challenges x = none := by
  show Tab.get? ((s.dropChallenge x).displaced (fnPort x)).sec.challenges x = none
  rw [displaced_challenges, dropChallenge_gone]

/-! ### The protection table -/

/-- The state in which a function's entry is in force under a new epoch. -/
def State.protEntered (s : State) (f : Nat) (e : ProtEntry) : State :=
  { s with sec := { s.sec with table := Tab.set s.sec.table f e, epoch := (s.sec.epoch + 1) % 2 ^ 64, dirty := true } }

theorem protEntered_same (s : State) (f : Nat) (e : ProtEntry) : (s.protEntered f e).prot f = e := by
  show Tab.getD (Tab.set s.sec.table f e) f _ = e
  rw [Tab.getD, Tab.get?_set_same]
  rfl

theorem protEntered_other {f g : Nat} (h : g ≠ f) (s : State) (e : ProtEntry) : (s.protEntered f e).prot g = s.prot g := by
  show Tab.getD (Tab.set s.sec.table f e) g _ = Tab.getD s.sec.table g _
  rw [Tab.getD, Tab.get?_set_other _ _ h]
  rfl

/-- The entry a PROTECT_SET spells. -/
def protEntryOf (c : HostCmd) : ProtEntry :=
  { quota := entryLe c 0 10 2, admin := entryLe c 0 12 4, rights := BitVec.ofNat 256 (entryLe c 0 16 32) }

/-- PROTECT_SET completes, or waits for the function's older commands (R505). -/
theorem goProtectSet_cases (s : State) (id : Nat) (c : HostCmd) :
    let u := s.protEntered (entryByte c 0 8 * 65 + entryByte c 0 9) (protEntryOf c)
    s.goProtectSet id c = u.complete id stSuccess (leBytes 8 u.sec.epoch) ∨
      ∃ older, s.goProtectSet id c = u.setBody id (.protectSet u.sec.epoch older) := by
  unfold State.goProtectSet
  dsimp only
  split
  · exact .inl rfl
  · exact .inr ⟨_, rfl⟩

/-! ### Writing the protection table to the drives -/

theorem wake_sec (s : State) (slots : List Nat) (cls : Nat) : (s.wake slots cls).sec = s.sec := by
  unfold State.wake
  refine each_stable (fun t => t.sec = s.sec) _ _ (fun n t h => ?_) rfl
  split
  · split
    · exact h
    · split <;> exact h
  · exact h

theorem driveOut_sec (s : State) (n op p tag : Nat) (bs : List Byte) : (s.driveOut n op p tag bs).sec = s.sec := rfl

theorem appendLog_sec (s : State) (p n lgen tag gen : Nat) (rs : List SillRec) : (s.appendLog p n lgen tag gen rs).sec = s.sec := by
  unfold State.appendLog
  split
  · refine each_stable (fun t => t.sec = s.sec) _ _ (fun r t h => ?_) rfl
    split
    · exact each_stable (fun t => t.sec = s.sec) _ _ (fun _ _ h => h) h
    · exact h
  · rfl

theorem writeProt_sec (s : State) (p : Nat) (slots : List Nat) : (s.writeProt p slots).sec = s.sec := by
  unfold State.writeProt
  split
  · exact each_stable (fun t => t.sec = s.sec) _ _ (fun e t h => (appendLog_sec t _ _ _ _ _ _).trans h) rfl
  · rfl

/-- The state in which a new generation of the table is on its way to the pools. -/
def State.protCommitted (s : State) (ps : List Nat) : State :=
  let u : State := { s with sec := { s.sec with
    genSeen := s.sec.genSeen + 1
    committed := some (s.sec.genSeen + 1, s.devNs, (List.range 130).map (fun x => (x, s.prot x))) } }
  u.each ps (fun p s =>
    let ms := s.readableSill p
    ((s.modPool p (fun x => { x with protWaits := ms })).wake ms 1).writeProt p ms)

theorem protCommitted_genSeen (s : State) (ps : List Nat) : (s.protCommitted ps).sec.genSeen = s.sec.genSeen + 1 := by
  refine each_stable (fun t => t.sec.genSeen = s.sec.genSeen + 1) ps _ (fun p t h => ?_) rfl
  dsimp only
  rw [writeProt_sec, wake_sec]
  exact h

theorem goProtectCommit_none (h : (Tab.keys s.se.pools).filter s.poolUp = []) (id : Nat) :
    s.goProtectCommit id = s.complete id stPoolOffline := by
  rw [State.goProtectCommit, h]
  rfl

theorem goProtectCommit_some (h : (Tab.keys s.se.pools).filter s.poolUp ≠ []) (id : Nat) :
    s.goProtectCommit id = (s.protCommitted ((Tab.keys s.se.pools).filter s.poolUp)).setBody id (.protectCommit (s.sec.genSeen + 1)) := by
  have hne : ¬ ((Tab.keys s.se.pools).filter s.poolUp).isEmpty = true := fun e => h (List.isEmpty_iff.mp e)
  exact if_neg hne

/-- Settles O35: each command in its turn is its step, and the step's state is named. -/
theorem sessionsAndProtection : Obligations.SessionsAndProtection := by
  intro s t op id q c h ht hfree
  refine ⟨fun ho hpre => ?_, fun ho hpre sig hread => ⟨fun hc hgood => ?_, fun hbad => ?_⟩, fun ho hpre => ⟨fun hs => ?_, fun hs => ?_⟩,
    fun ho hpre => ?_, fun ho hpre => ⟨fun hps => ?_, fun hps => ?_⟩⟩ <;> subst ho
  · refine ⟨t.challenged c.x (entryByte c 0 8), t.challengeBytes c.x (entryByte c 0 8), ?_, padTo_length _ _, Tab.get?_set_same _ _ _, rfl, rfl⟩
    simp only [Ends, Runs, exec_sessionOpen, execSessionOpen, hostRow_taken h ht, State.runSessionOpen, hpre, checked_none, inTurn_free hfree,
      goSessionOpen_eq]
  · refine ⟨t.sessionBegun c.x hc.keySlot, ?_, sessionBegun_challenge t c.x _, _, rfl, rfl, rfl⟩
    simp only [Ends, Runs, exec_sessionProve, execSessionProve, hostRow_taken h ht, State.runSessionProve, hpre, checked_none,
      inTurn_free hfree, goSessionProve_good hread hgood]
  · refine ⟨(t.dropChallenge c.x).bump SEC_SESSION_FAIL 0 SEC_SESSION_FAIL_COUNT, ?_, dropChallenge_gone t c.x, rfl,
      fld_bump_same _ _ _ _ _ (by decide)⟩
    simp only [Ends, Runs, exec_sessionProve, execSessionProve, hostRow_taken h ht, State.runSessionProve, hpre, checked_none,
      inTurn_free hfree, goSessionProve_bad hread hbad]
  · refine ⟨t.endSession 1, ?_, endSession_session t 1⟩
    simp only [Ends, Runs, exec_sessionClose, execSessionClose, hostRow_taken h ht, State.runSessionClose, hpre, checked_none,
      inTurn_free hfree, State.goSessionClose, hs, if_true]
  · simp only [Ends, Runs, exec_sessionClose, execSessionClose, hostRow_taken h ht, State.runSessionClose, hpre, checked_none,
      inTurn_free hfree, State.goSessionClose, hs, Bool.false_eq_true, if_false]
  · refine ⟨t.protEntered (entryByte c 0 8 * 65 + entryByte c 0 9) (protEntryOf c), ?_, rfl, rfl, protEntered_same _ _ _,
      fun f hf => protEntered_other hf _ _⟩
    simp only [Ends, Runs, exec_protectSet, execProtectSet, hostRow_taken h ht, State.runProtectSet, hpre, checked_none, inTurn_free hfree]
    rcases goProtectSet_cases t id c with e | ⟨older, e⟩
    · exact .inl (by rw [e])
    · exact .inr ⟨older, by rw [e]⟩
  · simp only [Ends, Runs, exec_protectCommit, execProtectCommit, hostRow_taken h ht, State.runProtectCommit, hpre, checked_none,
      inTurn_free hfree, goProtectCommit_none hps]
  · refine ⟨t.protCommitted ((Tab.keys t.se.pools).filter t.poolUp), ?_, protCommitted_genSeen t _⟩
    simp only [Ends, Runs, exec_protectCommit, execProtectCommit, hostRow_taken h ht, State.runProtectCommit, hpre, checked_none,
      inTurn_free hfree, goProtectCommit_some hps]

end Sys2Proof.Machine
end

section
/-! A queue table that lists a device queue number twice, which no run makes: a local number bound to the second entry is created at
the first. -/

namespace Sys2Proof.Machine

open Sys2Proof

/-- Device queue number 1 stands twice in the table, first for function 1 and then for local number 1 of function 0. -/
def twinQueues : State :=
  { State.reset with
    boot := { BootUnit.reset with fwReady := true }
    qm := { QmUnit.reset with
      fns := [(0, { Fn.blank with present := true, bme := true })]
      queues := [(0, ⟨0, 0, some (Sq.made 4 0 0 0 1 1 0 0), some (Cq.made 4 0 0 none 1 0 64)⟩), (1, ⟨1, 5, none, none⟩),
        (1, ⟨0, 1, none, none⟩)] } }

/-- QUEUE_CREATE of a completion queue of 16 entries at local number 1 of function 0. -/
def createSecond : HostCmd :=
  { x := 0, sq := 0, slots := [[0x70, 1, 0, 0, 0, 0, 0, 0, 0, 4, 1, 0, 0, 0, 0, 0, 0, 0, 3, 0, 0, 0, 0, 0, 0xFF, 0xFF, 1] ++ zeros 37],
    read := {} }

theorem takes_twinQueues : Takes twinQueues 0x70 createSecond 0 := by
  constructor <;> decide +kernel

theorem twinQueues_passes : (twinQueues.taken 0 createSecond).2.queueCreatePre (twinQueues.taken 0 createSecond).1 createSecond = none ∧
    ((twinQueues.taken 0 createSecond).2.bindQueue createSecond.x (entryLe createSecond 0 10 2)).map (·.1) = some 1 := by
  decide +kernel

/-- The queue is made in the entry found first, which is function 1's. -/
theorem twinQueues_made : (((twinQueues.taken 0 createSecond).2.bindQueue createSecond.x (entryLe createSecond 0 10 2)).bind
    (fun e => (e.2.makeQueue createSecond 1).dq 1)).map (·.x) = some 1 := by decide +kernel

/-- Refutes O32: of two entries for one device queue number, a lookup by local number finds the second and one by the number the first,
so the queue that is made belongs to another function. -/
theorem not_queueCommandsRun : ¬ Obligations.QueueCommandsRun := by
  intro h
  obtain ⟨hpre, hbind⟩ := twinQueues_passes
  obtain ⟨⟨k, w⟩, hk, rfl⟩ := Option.map_eq_some_iff.mp hbind
  obtain ⟨hcreate, -⟩ := h twinQueues _ 0x70 _ 0 createSecond takes_twinQueues rfl
  obtain ⟨-, d, hd, hx, -⟩ := hcreate rfl hpre _ w hk
  have hmade := twinQueues_made
  rw [hk, Option.bind_some, hd, Option.map_some, hx] at hmade
  exact absurd hmade (by decide)

end Sys2Proof.Machine
end

section
/-! Clocks (R543) and die temperatures (R654). -/

namespace Sys2Proof.Machine

open Sys2Proof

variable {s t : State}

/-- A fact that each iteration over a list's own elements keeps. -/
theorem each_stable_mem {α : Type} {P : State → Prop} (xs : List α) (f : α → State → State) {s : State}
    (hf : ∀ a ∈ xs, ∀ t, P t → P (f a t)) (h : P s) : P (s.each xs f) := by
  unfold State.each
  induction xs generalizing s with
  | nil => exact h
  | cons a xs ih => exact ih (fun b hb => hf b (List.mem_cons_of_mem _ hb)) (hf a List.mem_cons_self s h)

theorem each_cons {α : Type} (a : α) (xs : List α) (f : α → State → State) : s.each (a :: xs) f = (f a s).each xs f := rfl

/-! ### Clocks -/

theorem aonFallback_ends (h : s.plantUp = true) : Ends .aonFallback s s.aonLost := by
  simp only [Ends, Runs, exec_aonFallback, execAonFallback, whenPlant_up h]

theorem pllLockLoss_brings (h : s.up = true) (c : Nat) (b : BootInfo) : Brings (.pllLockLoss c b) s (s.lockLost c b) := by
  simp only [Brings, Runs, exec_pllLockLoss, execPllLockLoss, State.anyTime, if_pos h]

/-- The state in which the lock of clock `c` is known lost. -/
def State.lockMarked (s : State) (c : Nat) : State :=
  { s with pw := { s.pw with unlocked := if s.pw.unlocked.contains c then s.pw.unlocked else s.pw.unlocked ++ [c] } }

theorem mem_lockMarked (s : State) (c x : Nat) : x ∈ (s.lockMarked c).pw.unlocked ↔ x ∈ s.pw.unlocked ∨ x = c := by
  show x ∈ (if s.pw.unlocked.contains c then s.pw.unlocked else s.pw.unlocked ++ [c]) ↔ _
  split
  next h =>
    refine ⟨.inl, fun hx => hx.elim id fun e => ?_⟩
    rw [e]
    exact List.contains_iff_mem.mp h
  next => rw [List.mem_append, List.mem_singleton]

/-- A clock of the whole device. -/
theorem lockLost_device {c : Nat} {b : BootInfo} (h : c = 0 ∨ c = 8 ∨ c = 9 ∨ (c = 10 ∧ s.hasEB = true)) :
    s.lockLost c b = s.warmNow b := by
  rcases h with rfl | rfl | rfl | ⟨rfl, h⟩
  · rfl
  · rfl
  · rfl
  · simp [State.lockLost, h]

theorem dieClock_cases {c : Nat} (hlo : 4 ≤ c) (hhi : c ≤ 7) : c = 4 ∨ c = 5 ∨ c = 6 ∨ c = 7 := by omega

/-- A clock that is absent, or whose unit is. -/
theorem lockLost_absent {c : Nat} {b : BootInfo}
    (h : 10 < c ∨ (c = 10 ∧ s.hasEB = false) ∨ (c = 3 ∧ s.hasPL = false) ∨ (4 ≤ c ∧ c ≤ 7 ∧ s.domain (124 + c) = 3)) :
    s.lockLost c b = s := by
  rcases h with h | ⟨rfl, h⟩ | ⟨rfl, h⟩ | ⟨hlo, hhi, h⟩
  · obtain ⟨n, rfl⟩ := Nat.exists_eq_add_of_le' h
    rfl
  · simp [State.lockLost, h]
  · simp [State.lockLost, h]
  · obtain rfl | rfl | rfl | rfl := dieClock_cases hlo hhi <;> exact if_pos h

theorem lockLost_die {c : Nat} {b : BootInfo} (hlo : 4 ≤ c) (hhi : c ≤ 7) (h : s.domain (124 + c) ≠ 3) :
    s.lockLost c b = (s.lockMarked c).unitReset (c + 4) := by
  obtain rfl | rfl | rfl | rfl := dieClock_cases hlo hhi <;> exact if_neg h

theorem lockLost_peer {b : BootInfo} (h : s.hasPL = true) : s.lockLost 3 b = (s.lockMarked 3).retrain := by
  simp only [State.lockLost, if_pos h]
  rfl

/-! ### Die temperatures -/

theorem dieTempRead_brings (h : s.plantUp = true) (temps : List (Option Int)) : Brings (.dieTempRead temps) s (s.dieTemps temps) := by
  simp only [Brings, Runs, exec_dieTempRead, execDieTempRead, State.anyTime, if_pos h]

/-- What the sensor of die `k` reads: nothing on a die whose domain is absent. -/
def State.dieAt (s : State) (temps : List (Option Int)) (k : Nat) : Option Int :=
  if 1 ≤ k && k ≤ 4 && s.domain (127 + k) = 3 then none else (temps.getD k none)

/-- The readings of all dies. -/
def State.dieReadings (s : State) (temps : List (Option Int)) : List Int := (List.range 6).filterMap (s.dieAt temps)

/-- What DEV_TEMP shows of a reading, under THERM_TRIP_N and the die's own trip before. -/
def dieShown (trip : Bool) (was : Nat) : Option Int → Word
  | some t => pack 0 [(DEV_TEMP_TEMP_C, signedBits 8 t), (DEV_TEMP_VALID, 1), (DEV_TEMP_TRIP, b2n (trip && (was = 1 || t ≥ 120)))]
  | none => pack 0 [(DEV_TEMP_TRIP, b2n (trip && was = 1))]

/-- The state with the readings shown. -/
def State.diesRead (s : State) (temps : List (Option Int)) (trip : Bool) : State :=
  s.each (List.range 6) (fun k u => u.setReg (DEV_TEMP.at k) (dieShown trip (u.fld DEV_TEMP k DEV_TEMP_TRIP) (s.dieAt temps k)))

/-- The state with the readings shown and the trip as it is from then on. -/
def State.diesShown (s : State) (temps : List (Option Int)) (trip : Bool) : State :=
  { s.diesRead temps trip with pw := { (s.diesRead temps trip).pw with thermTrip := trip } }

/-- Whether a reading leaves THERM_TRIP_N driven. -/
def State.tripsAt (s : State) (temps : List (Option Int)) : Bool :=
  (s.dieReadings temps).any (fun t => t ≥ 120) || (s.pw.thermTrip && (s.dieReadings temps).any (fun t => t ≥ 110))

theorem dieAt_zero (s : State) (temps : List (Option Int)) : s.dieAt temps 0 = temps.getD 0 none := rfl

theorem mem_dieReadings_zero {temps : List (Option Int)} {t : Int} (h : temps.getD 0 none = some t) : t ∈ s.dieReadings temps :=
  List.mem_filterMap.mpr ⟨0, by decide, h⟩

/-- Every reading is one of the sensors'. -/
theorem of_mem_dieReadings {temps : List (Option Int)} {t : Int} (h : t ∈ s.dieReadings temps) : ∃ k, temps.getD k none = some t := by
  obtain ⟨k, -, hk⟩ := List.mem_filterMap.mp h
  unfold State.dieAt at hk
  split at hk
  next => cases hk
  next => exact ⟨k, hk⟩

theorem dieReadings_any_false {temps : List (Option Int)} {n : Int} (h : ∀ k x, temps.getD k none = some x → x < n) :
    (s.dieReadings temps).any (fun t => t ≥ n) = false := by
  rw [List.any_eq_false]
  intro t ht
  obtain ⟨k, hk⟩ := of_mem_dieReadings ht
  simpa using h k t hk

theorem dieReadings_any_true {temps : List (Option Int)} {t n : Int} (h : temps.getD 0 none = some t) (hn : n ≤ t) :
    (s.dieReadings temps).any (fun t => t ≥ n) = true :=
  List.any_eq_true.mpr ⟨t, mem_dieReadings_zero h, by simpa using hn⟩

theorem dieTemps_eq (s : State) (temps : List (Option Int)) : s.dieTemps temps =
    if (s.dieReadings temps).any (fun t => t ≥ 130) then s.powerLost
    else
      let u := s.diesShown temps (s.tripsAt temps)
      let u := if s.tripsAt temps && !s.pw.thermTrip then (u.raise 0x0FF 6 noInst).emit (.pin "THERM_TRIP_N" false) else u
      if !s.tripsAt temps && s.pw.thermTrip then u.emit (.pin "THERM_TRIP_N" true) else u := by
  rfl

theorem diesRead_onlyRegs (s : State) (temps : List (Option Int)) (trip : Bool) :
    OnlyRegs ((List.range 6).map DEV_TEMP.at) s (s.diesRead temps trip) :=
  each_stable_mem (P := OnlyRegs _ s) _ _ (fun _ hk _ h => h.setReg (List.mem_map_of_mem hk) _) (onlyRegs_refl _ s)

theorem diesShown_regs (s : State) (temps : List (Option Int)) (trip : Bool) :
    (s.diesShown temps trip).regs = (s.diesRead temps trip).regs := rfl

theorem diesShown_frame (s : State) (temps : List (Option Int)) (trip : Bool) :
    s.diesShown temps trip = { s with regs := (s.diesRead temps trip).regs, pw := { s.pw with thermTrip := trip } } := by
  unfold State.diesShown
  rw [(diesRead_onlyRegs s temps trip).2]

/-- The register of the first die holds what its reading shows. -/
theorem diesRead_zero (s : State) (temps : List (Option Int)) (trip : Bool) : (s.diesRead temps trip).getReg (DEV_TEMP.at 0) =
    dieShown trip (s.fld DEV_TEMP 0 DEV_TEMP_TRIP) (s.dieAt temps 0) := by
  have hrange : List.range 6 = 0 :: [1, 2, 3, 4, 5] := rfl
  rw [State.diesRead, hrange, each_cons]
  refine each_stable_mem (P := fun u => u.getReg (DEV_TEMP.at 0) = _) _ _ (fun k hk u h => ?_) (getReg_setReg_same _ _ _)
  rw [getReg_setReg_other, h]
  simp only [List.mem_cons, List.not_mem_nil, or_false] at hk
  rcases hk with rfl | rfl | rfl | rfl | rfl <;> decide

theorem dieShown_fields (trip : Bool) (was : Nat) (t : Int) :
    DEV_TEMP_TEMP_C.get (dieShown trip was (some t)) = signedBits 8 t ∧ DEV_TEMP_VALID.get (dieShown trip was (some t)) = 1 ∧
      DEV_TEMP_TRIP.get (dieShown trip was (some t)) = b2n (trip && (was = 1 || t ≥ 120)) := by
  have hbit (b : Bool) : b2n b % 2 = b2n b := by cases b <;> rfl
  have hbyte : signedBits 8 t % 2 ^ 8 = signedBits 8 t := by
    unfold signedBits
    omega
  refine ⟨?_, ?_, ?_⟩
  · exact (Fld.get_put_other DEV_TEMP_TRIP _ (by decide) (by decide) _ _).trans ((Fld.get_put_other _ _ (by decide) (by decide) _ _).trans
      ((Fld.get_put _ (by decide) _ _).trans hbyte))
  · exact (Fld.get_put_other DEV_TEMP_TRIP _ (by decide) (by decide) _ _).trans (Fld.get_put _ (by decide) _ _)
  · exact (Fld.get_put _ (by decide) _ _).trans (hbit _)

/-- What DEV_TEMP_0 shows of a reading. -/
theorem diesShown_fields {temps : List (Option Int)} {x : Int} (h : temps.getD 0 none = some x) (trip : Bool) :
    (s.diesShown temps trip).fld DEV_TEMP 0 DEV_TEMP_TEMP_C = signedBits 8 x ∧ (s.diesShown temps trip).fld DEV_TEMP 0 DEV_TEMP_VALID = 1 ∧
      (s.diesShown temps trip).fld DEV_TEMP 0 DEV_TEMP_TRIP = b2n (trip && (s.fld DEV_TEMP 0 DEV_TEMP_TRIP = 1 || x ≥ 120)) := by
  have hreg : (s.diesRead temps trip).getReg (DEV_TEMP.at 0) = dieShown trip (s.fld DEV_TEMP 0 DEV_TEMP_TRIP) (some x) := by
    rw [diesRead_zero, dieAt_zero, h]
  have hfld (f : Fld) : (s.diesShown temps trip).fld DEV_TEMP 0 f = f.get (dieShown trip (s.fld DEV_TEMP 0 DEV_TEMP_TRIP) (some x)) := by
    rw [fld_of_regs_eq (diesShown_regs s temps trip), State.fld, hreg]
  rw [hfld, hfld, hfld]
  exact dieShown_fields _ _ _

/-- DEV_TEMP lies below the recorder's counts. -/
theorem fld_devTemp_raise (s : State) (f : Fld) (code sev inst : Nat) (detail : List Byte) :
    (s.raise code sev inst detail).fld DEV_TEMP 0 f = s.fld DEV_TEMP 0 f := by
  rw [State.fld, State.fld, getReg_raise (by decide)]

theorem dieTemps_off {temps : List (Option Int)} {x : Int} (hup : s.plantUp = true) (h : temps.getD 0 none = some x) (hx : 130 ≤ x) :
    s.dieTemps temps = s.goOff := by
  have hebb : s.pw.power ≠ .ebb := by
    intro e
    simp [State.plantUp, State.up, e] at hup
  rw [dieTemps_eq, if_pos (dieReadings_any_true h hx), State.powerLost, if_neg hebb]

/-- Settles O60: each clock's own branch; the readings are shown, and the trip's start and end drive the pin. -/
theorem clocksAndTemperatures : Obligations.ClocksAndTemperatures := by
  intro s
  refine ⟨fun hup h => ?_, fun hup h => ?_, fun c b hup => ⟨fun hc => ?_, fun hc => ?_, s.lockMarked c, rfl, mem_lockMarked s c,
    fun hc => ?_, fun hc => ?_, fun hc hpl => ?_, fun hlo hhi hd => ?_⟩, fun temps x hup hx => ⟨fun h130 => ?_, fun hall h120 hno => ?_,
    fun hall => ?_⟩⟩
  · have hend := aonFallback_ends hup
    rwa [State.aonLost, if_pos h] at hend
  · have hend := aonFallback_ends hup
    rwa [State.aonLost, if_neg (by simp [h])] at hend
  · exact lockLost_device hc ▸ pllLockLoss_brings hup c b
  · have hb := pllLockLoss_brings hup c b
    rwa [lockLost_absent hc] at hb
  · subst hc
    exact pllLockLoss_brings hup 1 b
  · subst hc
    exact pllLockLoss_brings hup 2 b
  · subst hc
    have hb := pllLockLoss_brings hup 3 b
    rwa [lockLost_peer hpl] at hb
  · exact lockLost_die hlo hhi hd ▸ pllLockLoss_brings hup c b
  · refine ⟨s.goOff, ?_, rfl, rfl⟩
    have hb := dieTempRead_brings hup temps
    rwa [dieTemps_off hup hx h130, Brings, if_neg (by simp [State.goOff, State.up])] at hb
  · have htrip : s.tripsAt temps = true := by rw [State.tripsAt, dieReadings_any_true hx h120, Bool.true_or]
    obtain ⟨htemp, hvalid, hshown⟩ := diesShown_fields (s := s) hx true
    refine ⟨(s.diesShown temps true).raise 0x0FF 6 noInst, ?_, ?_, ?_, ?_, ?_, ?_⟩
    · have hb := dieTempRead_brings hup temps
      rw [dieTemps_eq, dieReadings_any_false hall, htrip, hno] at hb
      exact hb
    · rw [raise_pw, diesShown_frame]
    · rw [fld_devTemp_raise, hvalid]
    · rw [fld_devTemp_raise, hshown]
      simp [h120, b2n]
    · rw [fld_devTemp_raise, htemp]
    · rw [raise_se, diesShown_frame]
  · have hle {n : Int} (hn : 110 ≤ n) : (s.dieReadings temps).any (fun t => t ≥ n) = false :=
      dieReadings_any_false fun k y hy => Int.lt_of_lt_of_le (hall k y hy) hn
    have htrip : s.tripsAt temps = false := by
      rw [State.tripsAt, hle (by decide), hle (by decide), Bool.and_false, Bool.or_false]
    obtain ⟨htemp, hvalid, hshown⟩ := diesShown_fields (s := s) hx false
    have hb := dieTempRead_brings hup temps
    rw [dieTemps_eq, hle (by decide), htrip] at hb
    refine ⟨s.diesShown temps false, by rw [diesShown_frame], hvalid, hshown, htemp, by rw [diesShown_frame], by rw [diesShown_frame],
      fun h => ?_, fun h => ?_⟩
    · rw [h] at hb
      exact hb
    · rw [h] at hb
      exact hb

end Sys2Proof.Machine
end

section
/-! Operations that write registers alone, and the power domains (R536). -/

namespace Sys2Proof.Machine

open Sys2Proof

variable {s t u : State}

/-! ### Registers alone -/

/-- `t` is `s` but for register values. -/
def RegsOnly (s t : State) : Prop := t = { s with regs := t.regs }

namespace RegsOnly

theorem refl (s : State) : RegsOnly s s := rfl

theorem trans (h : RegsOnly s t) (k : RegsOnly t u) : RegsOnly s u := by
  unfold RegsOnly at h k ⊢
  rw [k, h]

/-- A part of the state that is no register value is kept. -/
theorem keeps (h : RegsOnly s t) {β : Type} (g : State → β) (hg : ∀ (x : State) (r : Tab Word), g { x with regs := r } = g x) :
    g t = g s := by
  rw [h, hg]

theorem setReg (h : RegsOnly s t) (a : Nat) (v : Word) : RegsOnly s (t.setReg a v) := h.trans rfl

theorem setFld (h : RegsOnly s t) (r : Reg) (i : Nat) (f : Fld) (v : Nat) : RegsOnly s (t.setFld r i f v) := h.trans rfl

theorem bump (h : RegsOnly s t) (r : Reg) (i : Nat) (f : Fld) (n : Nat) : RegsOnly s (t.bump r i f n) := h.trans rfl

theorem each {α : Type} (h : RegsOnly s t) (xs : List α) (f : α → State → State) (hf : ∀ a x, RegsOnly x (f a x)) :
    RegsOnly s (t.each xs f) :=
  each_stable (RegsOnly s) xs f (fun a x hx => hx.trans (hf a x)) h

theorem imageEntries (s : State) (i : Image) (lo hi : Nat) : RegsOnly s (s.imageEntries i lo hi) :=
  (refl s).each _ _ fun _ x => (refl x).setReg _ _

theorem imageDl (s : State) (i : Image) : RegsOnly s (s.imageDl i) := by
  refine ((refl s).each _ _ fun _ x => (refl x).setFld _ _ _ _).each _ _ fun _ x => ?_
  split
  · exact refl x
  · exact ((refl x).setFld _ _ _ _).setFld _ _ _ _

theorem imageCl (s : State) (i : Image) : RegsOnly s (s.imageCl i) := by
  unfold State.imageCl
  split
  · exact refl s
  · refine (((((refl s).each _ _ fun _ x => ?_).each _ _ fun _ x => ?_).each _ _ fun _ x => ?_).each _ _ fun _ x => ?_).setFld _ _ _ _
    · exact ((refl x).setFld _ _ _ _).setFld _ _ _ _
    · exact (refl x).setFld _ _ _ _
    · exact (refl x).setFld _ _ _ _
    · exact (((((refl x).setReg _ _).setReg _ _).setReg _ _).setReg _ _).setReg _ _

/-- What the image puts into registers changes nothing else. -/
theorem imageSpan (s : State) (lo hi : Nat) : RegsOnly s (s.imageSpan lo hi) := by
  unfold State.imageSpan
  split
  · exact refl s
  next i _ =>
    have hentries := imageEntries s i lo hi
    dsimp only
    split <;> split
    · exact (hentries.trans (imageCl _ i)).trans (imageDl _ i)
    · exact hentries.trans (imageDl _ i)
    · exact hentries.trans (imageCl _ i)
    · exact hentries

end RegsOnly

/-! ### Power domains -/

theorem domain_of_doms_eq (hv : t.variant = s.variant) (hd : t.pw.doms = s.pw.doms) (d : Nat) : t.domain d = s.domain d := by
  simp only [State.domain, State.hasPL, State.hasCL, State.hasEB, hv, hd]
  rfl

theorem domain_setDomain_other {d f : Nat} (h : f ≠ d) (s : State) (v : Nat) : (s.setDomain d v).domain f = s.domain f := by
  have htab : Tab.getD (s.setDomain d v).pw.doms f 0 = Tab.getD s.pw.doms f 0 := by
    unfold State.setDomain Tab.getD
    dsimp only
    split
    · rw [Tab.get?_erase_other _ h]
    · rw [Tab.get?_set_other _ _ h]
  simp only [State.domain, htab]
  rfl

/-- A domain that is not ABSENT takes the state it is given. -/
theorem domain_setDomain_same {d : Nat} (h : s.domain d ≠ 3) (v : Nat) : (s.setDomain d v).domain d = v := by
  have htab : Tab.getD (s.setDomain d v).pw.doms d 0 = v := by
    unfold State.setDomain Tab.getD
    dsimp only
    split
    next hv => rw [Tab.get?_erase_same, hv]; rfl
    next => rw [Tab.get?_set_same]; rfl
  have hpresent : ¬ ((d = 134 && !s.hasPL) || (d = 185 && !s.hasCL) || (d = 186 && !s.hasEB) ||
      (s.variant = .ha && ((64 ≤ d && d < 128) || d = 130 || d = 131))) = true := fun e => h (if_pos e)
  exact (if_neg hpresent).trans htab

end Sys2Proof.Machine
end

section
/-! UNIT resets and power domains (R449, R530, R531, R536 to R539, R602). -/

namespace Sys2Proof.Machine

open Sys2Proof

variable {s t : State}

/-! ### UNIT resets -/

/-- The commands that request a UNIT reset, by the unit's bit in PW_UNIT_RESET. -/
theorem unitReset_ends (hup : s.up = true) {u : Nat} {c : Instr}
    (h : (u, c) ∈ [(0, Instr.unitResetEv), (1, .unitResetCe), (2, .unitResetHe), (3, .unitResetMdc), (4, .unitResetXm), (5, .unitResetCl),
        (6, .unitResetEb), (7, .unitResetPl), (8, .unitResetDl 0), (9, .unitResetDl 1), (10, .unitResetDl 2), (11, .unitResetDl 3)]) :
    Ends c s (s.unitReset u) := by
  simp only [List.mem_cons, List.not_mem_nil, or_false, Prod.mk.injEq] at h
  rcases h with ⟨rfl, rfl⟩ | ⟨rfl, rfl⟩ | ⟨rfl, rfl⟩ | ⟨rfl, rfl⟩ | ⟨rfl, rfl⟩ | ⟨rfl, rfl⟩ | ⟨rfl, rfl⟩ | ⟨rfl, rfl⟩ | ⟨rfl, rfl⟩ |
    ⟨rfl, rfl⟩ | ⟨rfl, rfl⟩ | ⟨rfl, rfl⟩ <;>
  simp only [Ends, Runs, exec_unitResetEv, execUnitResetEv, exec_unitResetCe, execUnitResetCe, exec_unitResetHe, execUnitResetHe,
    exec_unitResetMdc, execUnitResetMdc, exec_unitResetXm, execUnitResetXm, exec_unitResetCl, execUnitResetCl, exec_unitResetEb,
    execUnitResetEb, exec_unitResetPl, execUnitResetPl, exec_unitResetDl, execUnitResetDl, whenUp_up hup, Nat.reduceLT, Nat.reduceAdd,
    if_true]

/-- The state in which a unit is busy with its reset. -/
def State.unitMarked (s : State) (u : Nat) : State :=
  { s with pw := { s.pw with unitBusy := s.pw.unitBusy ++ [u], idleGated := s.pw.idleGated.filter (· ≠ unitDomain u) } }

/-- The state in which the reset of a unit has begun: the unit is busy, and ungated. -/
def State.unitTaken (s : State) (u : Nat) : State := (s.unitMarked u).setDomain (unitDomain u) 0

theorem unitReset_ignored {u : Nat} (h : s.unitIgnored u = true ∨ s.pw.unitBusy.contains u = true ∨ s.pw.unitWaiting.contains u = true) :
    s.unitReset u = s := if_pos h

section
variable {u : Nat} (hign : s.unitIgnored u = false) (hbusy : s.pw.unitBusy.contains u = false)
  (hwait : s.pw.unitWaiting.contains u = false)
include hign hbusy hwait

theorem unitReset_waits (h : s.pw.epoch.isSome = true) :
    s.unitReset u = { s with pw := { s.pw with unitWaiting := s.pw.unitWaiting ++ [u] } } := by
  rw [State.unitReset, if_neg (by simp only [hign, hbusy, hwait]; decide), if_pos h]

theorem unitReset_starts (h : s.pw.epoch = none) : s.unitReset u = (s.unitTaken u).unitEffect u := by
  rw [State.unitReset, if_neg (by simp only [hign, hbusy, hwait]; decide), if_neg (by simp [h])]
  rfl

end

theorem unitTaken_domain {u : Nat} (h : s.unitIgnored u = false) : (s.unitTaken u).domain (unitDomain u) = 0 := by
  refine domain_setDomain_same (fun e => ?_) 0
  rw [domain_of_doms_eq (s := s) (t := s.unitMarked u) rfl rfl] at e
  simp [State.unitIgnored, e] at h

theorem evReset_dropped (s : State) : s.evReset.fld EV_DROPPED 0 EV_DROPPED_COUNT = 0 := by
  have h : (((((s.setReg (EV_LOST.at 0) 0).setReg (EV_DROPPED.at 0) 0).setReg (EV_SUPPRESSED.at 0) 0).each
      s.ev.fifo (fun _ s => s.evLose))).fld EV_DROPPED 0 EV_DROPPED_COUNT = 0 := by
    refine each_stable (fun t => t.fld EV_DROPPED 0 EV_DROPPED_COUNT = 0) _ _ (fun _ t h => ?_) ?_
    · rwa [State.fld, evLose_getReg (by decide)]
    · rw [fld_setReg_other _ (by decide), State.fld, getReg_setReg_same]
      rfl
  exact h

theorem evReset_ev (s : State) : s.evReset.ev.fifo = [] ∧ s.evReset.ev.resetting = true ∧ s.evReset.ev.ring = s.ev.ring :=
  ⟨rfl, rfl, each_stable (fun t => t.ev.ring = s.ev.ring) _ _ (fun _ _ h => h) rfl⟩

theorem xmReset_lines (s : State) : s.xmReset.getReg (XM_REQ.at 0) = s.getReg (XM_REQ.at 0) := getReg_setReg_same _ _ _

/-- A UNIT reset ends (R530). -/
theorem unitResetDone_busy {v : Nat} (h : s.pw.unitBusy.contains v = true) :
    (s.unitResetDone v).pw.unitBusy = s.pw.unitBusy.filter (· ≠ v) ∧ (v = 0 → (s.unitResetDone v).ev.resetting = false) ∧
      (v = 5 → (s.unitResetDone v).cl.outputsOff = false) ∧ (s.unitResetDone v).regs = s.regs ∧ (s.unitResetDone v).se = s.se := by
  rw [State.unitResetDone, if_neg (by simpa using h)]
  dsimp only
  split
  · exact ⟨rfl, fun _ => rfl, fun e => absurd e (by decide), rfl, rfl⟩
  · exact ⟨rfl, fun e => absurd e (by decide), fun _ => rfl, rfl, rfl⟩
  next h0 h5 => exact ⟨rfl, fun e => absurd e h0, fun e => absurd e h5, rfl, rfl⟩

/-! ### Gating and drain -/

theorem idleGate_gates {d : Nat} (hrun : s.pw.power = .run) (hen : s.fld PW_SLACK_CTL 0 PW_SLACK_CTL_EN = 1) (hd : slackDomain d = true)
    (hon : s.domain d = 0) (hidle : 151 ≤ d → d ≤ 158 → Tab.get? s.ce.running (d - 151) = none) :
    s.idleGate d = State.setDomain { s with pw := { s.pw with idleGated := s.pw.idleGated ++ [d] } } d 2 := by
  have hbusy : (151 ≤ d && d ≤ 158 && (Tab.get? s.ce.running (d - 151)).isSome) = false := by
    by_cases hlo : 151 ≤ d
    · by_cases hhi : d ≤ 158
      · simp [hidle hlo hhi]
      · simp [hhi]
    · simp [hlo]
  rw [State.idleGate, if_pos ⟨hrun, hen, hd, hon, by simp [hbusy]⟩]

theorem idleGate_refused {d : Nat} (h : s.fld PW_SLACK_CTL 0 PW_SLACK_CTL_EN = 0 ∨ slackDomain d = false ∨ s.pw.power ≠ .run) :
    s.idleGate d = s := by
  refine if_neg fun hgo => ?_
  obtain ⟨hrun, hen, hd, -, -⟩ := hgo
  rcases h with h | h | h
  · rw [h] at hen
    cases hen
  · rw [h] at hd
    cases hd
  · exact h hrun

theorem ungated_not {d : Nat} (h : s.pw.idleGated.contains d = false) : s.ungated d = s := if_pos (by simpa using h)

/-- The state in which an idle-gated domain is on again. -/
def State.backOn (s : State) (d : Nat) : State :=
  State.setDomain { s with
      pw := { s.pw with idleGated := s.pw.idleGated.filter (· ≠ d), ungating := s.pw.ungating.filter (· ≠ d) }
      ce := { s.ce with waitDomain := if s.ce.waitDomain = some d then none else s.ce.waitDomain } } d 0

theorem ungated_eq {d : Nat} (h : s.pw.idleGated.contains d = true) : s.ungated d = s.backOn d := by
  rw [State.ungated, if_neg (by simpa using h)]
  rfl

/-- Ungating changes the power unit's and the coding engine's record of it alone. -/
theorem ungated_frame (s : State) (d : Nat) : s.ungated d = { s with pw := (s.ungated d).pw, ce := (s.ungated d).ce } := by
  cases h : s.pw.idleGated.contains d
  · rw [ungated_not h]
  · rw [ungated_eq h]
    rfl

theorem ungated_idleGated (s : State) (d : Nat) : (s.ungated d).pw.idleGated = s.pw.idleGated.filter (· ≠ d) := by
  cases h : s.pw.idleGated.contains d
  · rw [ungated_not h, List.filter_eq_self.mpr fun x hx => ?_]
    have hne : x ≠ d := fun e => by
      rw [← e, List.contains_iff_mem.mpr hx] at h
      cases h
    simpa using hne
  · rw [ungated_eq h]
    rfl

/-- Ungating each domain of a list leaves none of them gated. -/
theorem ungatedAll_idleGated (ds : List Nat) (s : State) :
    (s.each ds (fun d s => s.ungated d)).pw.idleGated = s.pw.idleGated.filter (fun x => !ds.contains x) := by
  induction ds generalizing s with
  | nil => exact (List.filter_eq_self.mpr fun _ _ => rfl).symm
  | cons d ds ih =>
    rw [each_cons, ih, ungated_idleGated, List.filter_filter]
    refine List.filter_congr fun x _ => ?_
    simp [Bool.and_comm]

theorem ungatedAll_frame (ds : List Nat) (s : State) : (s.each ds (fun d s => s.ungated d)) =
    { s with pw := (s.each ds (fun d s => s.ungated d)).pw, ce := (s.each ds (fun d s => s.ungated d)).ce } := by
  refine each_stable (fun t => t = { s with pw := t.pw, ce := t.ce }) ds _ (fun d t h => ?_) rfl
  rw [ungated_frame t d]
  dsimp only
  rw [h]

/-! ### Owner requests (R539) -/

/-- What the turn of one element of a list establishes holds after the list's iterations. -/
theorem each_reaches {Pre Post : State → Prop} {xs : List Nat} {a : Nat} (ha : a ∈ xs) (f : Nat → State → State)
    (hpre : ∀ b t, b ≠ a → Pre t → Pre (f b t)) (hgo : ∀ t, Pre t → Post (f a t)) (hpost : ∀ b t, Post t → Post (f b t)) {s : State}
    (h : Pre s) : Post (s.each xs f) := by
  induction xs generalizing s with
  | nil => cases ha
  | cons b xs ih =>
    rw [each_cons]
    rcases Classical.em (b = a) with rfl | hne
    · exact each_stable Post xs f hpost (hgo s h)
    · exact ih ((List.mem_cons.mp ha).resolve_left (Ne.symm hne)) (hpre b s hne h)

/-- A request changes the power unit's record alone. -/
theorem domainRequest_frame (s : State) (d : Nat) (off : Bool) : s.domainRequest d off = { s with pw := (s.domainRequest d off).pw } := by
  unfold State.domainRequest
  split
  · rfl
  · split
    · split <;> rfl
    · split <;> rfl

theorem domainRequest_other {d f : Nat} (h : f ≠ d) (s : State) (off : Bool) : (s.domainRequest d off).domain f = s.domain f := by
  unfold State.domainRequest
  split
  · rfl
  · split
    · split
      · exact domain_setDomain_other h s 1
      · rfl
    · split
      · rfl
      · exact domain_setDomain_other h s 0

theorem domainRequest_off {d : Nat} (h : s.domain d = 0 ∨ s.domain d = 1) : (s.domainRequest d true).domain d = 1 := by
  have hne : s.domain d ≠ 3 := by omega
  rw [State.domainRequest, if_neg hne, if_pos rfl]
  split
  next => exact domain_setDomain_same hne 1
  next h0 => exact h.resolve_left h0

/-- No request makes a domain idle-gated. -/
theorem domainRequest_idleGated (s : State) (d f : Nat) (off : Bool) (h : s.pw.idleGated.contains f = false) :
    (s.domainRequest d off).pw.idleGated.contains f = false := by
  unfold State.domainRequest
  split
  · exact h
  · split
    · split
      · exact h
      · simp only [List.contains_eq_mem, decide_eq_false_iff_not] at h ⊢
        exact fun hf => h (List.mem_filter.mp hf).1
    · split <;> exact h

theorem domainRequest_on {d : Nat} (h : s.domain d ≠ 3) (hi : s.pw.idleGated.contains d = false) :
    (s.domainRequest d false).domain d = 0 := by
  rw [State.domainRequest, if_neg h, if_neg Bool.false_ne_true, if_neg (by rw [hi]; exact Bool.false_ne_true)]
  exact domain_setDomain_same h 0

/-- The fields of a write of PW_PD_REQ. -/
def pdWord (v : Word) : Word := PW_PD_REQ.fields.foldl (fun w f => f.put w (f.get v)) 0

/-- Whether a write of PW_PD_REQ asks for the peer link's domain of a device that is not UNPAIRED. -/
def State.plkRefused (s : State) (v : Word) : Bool := PW_PD_REQ_PLK.get v = 1 && s.pl.peer != .unpaired

/-- The state in which the requests stand in PW_PD_REQ. -/
def State.pdShown (s : State) (v : Word) : State :=
  let t := s.setReg (PW_PD_REQ.at 0) (if s.plkRefused v then PW_PD_REQ_PLK.put (pdWord v) 0 else pdWord v)
  if s.plkRefused v then t.raise 0x205 2 noInst else t

/-- The requests that are new followed. -/
def State.pdOff (t : State) (was : List Nat) : State :=
  t.each (t.requestedOff.filter (fun d => !was.contains d)) (fun d s => s.domainRequest d true)

/-- The requests that are new, and those that ended, followed in turn. -/
def State.pdFollowed (t : State) (was : List Nat) : State :=
  (t.pdOff was).each (was.filter (fun d => !t.requestedOff.contains d)) (fun d s => s.domainRequest d false)

theorem pdRequestWrite_eq (v : Word) (s : State) : pdRequestWrite v s = (s.pdShown v).pdFollowed s.requestedOff := rfl

theorem pdFollowed_frame (t : State) (was : List Nat) : t.pdFollowed was = { t with pw := (t.pdFollowed was).pw } := by
  have hstep (off : Bool) (d : Nat) (u : State) (h : u = { t with pw := u.pw }) :
      u.domainRequest d off = { t with pw := (u.domainRequest d off).pw } := by
    rw [domainRequest_frame u d off]
    dsimp only
    rw [h]
  exact each_stable (fun u => u = { t with pw := u.pw }) _ _ (hstep false)
    (each_stable (fun u => u = { t with pw := u.pw }) _ _ (hstep true) rfl)

/-- What the fields of a put word read. -/
theorem pdWord_fields (v : Word) : PW_PD_REQ_CE.get (pdWord v) = PW_PD_REQ_CE.get v ∧ PW_PD_REQ_HE.get (pdWord v) = PW_PD_REQ_HE.get v ∧
    PW_PD_REQ_LD.get (pdWord v) = PW_PD_REQ_LD.get v ∧ PW_PD_REQ_PLK.get (pdWord v) = PW_PD_REQ_PLK.get v := by
  have hget (f : Fld) (w : Word) : f.get w % 2 ^ f.len = f.get w := Nat.mod_mod _ _
  have hsame (f : Fld) (h : f.lo + f.len ≤ 32) (w : Word) : f.get (f.put w (f.get v)) = f.get v := by
    rw [Fld.get_put f h, hget]
  refine ⟨?_, ?_, ?_, hsame PW_PD_REQ_PLK (by decide) _⟩
  · exact (Fld.get_put_other PW_PD_REQ_PLK _ (by decide) (by decide) _ _).trans ((Fld.get_put_other PW_PD_REQ_LD _ (by decide) (by decide)
      _ _).trans ((Fld.get_put_other PW_PD_REQ_HE _ (by decide) (by decide) _ _).trans (hsame PW_PD_REQ_CE (by decide) _)))
  · exact (Fld.get_put_other PW_PD_REQ_PLK _ (by decide) (by decide) _ _).trans ((Fld.get_put_other PW_PD_REQ_LD _ (by decide) (by decide)
      _ _).trans (hsame PW_PD_REQ_HE (by decide) _))
  · exact (Fld.get_put_other PW_PD_REQ_PLK _ (by decide) (by decide) _ _).trans (hsame PW_PD_REQ_LD (by decide) _)

theorem pdShown_getReg (s : State) (v : Word) : (s.pdShown v).getReg (PW_PD_REQ.at 0) =
    if s.plkRefused v then PW_PD_REQ_PLK.put (pdWord v) 0 else pdWord v := by
  unfold State.pdShown
  dsimp only
  split
  · rw [getReg_raise (by decide), getReg_setReg_same]
  · rw [getReg_setReg_same]

theorem pdShown_fields (s : State) (v : Word) :
    (s.pdShown v).fld PW_PD_REQ 0 PW_PD_REQ_CE = PW_PD_REQ_CE.get v ∧ (s.pdShown v).fld PW_PD_REQ 0 PW_PD_REQ_HE = PW_PD_REQ_HE.get v ∧
      (s.pdShown v).fld PW_PD_REQ 0 PW_PD_REQ_LD = PW_PD_REQ_LD.get v ∧
      (s.pdShown v).fld PW_PD_REQ 0 PW_PD_REQ_PLK = if s.pl.peer = .unpaired then PW_PD_REQ_PLK.get v else 0 := by
  obtain ⟨hce, hhe, hld, hplk⟩ := pdWord_fields v
  simp only [State.fld, pdShown_getReg]
  cases href : s.plkRefused v
  · refine ⟨hce, hhe, hld, ?_⟩
    rw [if_neg Bool.false_ne_true, hplk]
    split
    next => rfl
    next hp =>
      have hbit : PW_PD_REQ_PLK.get v < 2 := Nat.mod_lt _ (by decide)
      have hne : PW_PD_REQ_PLK.get v ≠ 1 := fun e => by simp [State.plkRefused, e, hp] at href
      omega
  · have hpeer : s.pl.peer ≠ .unpaired := fun e => by simp [State.plkRefused, e] at href
    rw [if_pos rfl, if_neg hpeer]
    refine ⟨?_, ?_, ?_, Fld.get_put _ (by decide) _ _⟩
    · exact (Fld.get_put_other PW_PD_REQ_PLK _ (by decide) (by decide) _ _).trans hce
    · exact (Fld.get_put_other PW_PD_REQ_PLK _ (by decide) (by decide) _ _).trans hhe
    · exact (Fld.get_put_other PW_PD_REQ_PLK _ (by decide) (by decide) _ _).trans hld

theorem pdShown_frame (s : State) (v : Word) : (s.pdShown v).se = s.se ∧ (s.pdShown v).dl = s.dl ∧ (s.pdShown v).pw = s.pw ∧
    (s.pdShown v).variant = s.variant := by
  unfold State.pdShown
  dsimp only
  split
  · rw [raise_se, raise_dl, raise_pw, raise_variant]
    exact ⟨rfl, rfl, rfl, rfl⟩
  · exact ⟨rfl, rfl, rfl, rfl⟩

section
variable {was : List Nat} {d : Nat}

theorem pdOff_drains (hnew : d ∉ was) (hreq : d ∈ t.requestedOff) (h : t.domain d = 0) : (t.pdOff was).domain d = 1 := by
  have hin : d ∈ t.requestedOff.filter (fun d => !was.contains d) := List.mem_filter.mpr ⟨hreq, by simpa using hnew⟩
  refine each_reaches (Pre := fun u => u.domain d = 0) (Post := fun u => u.domain d = 1) hin (fun d s => s.domainRequest d true)
    (fun b u hb hu => (domainRequest_other (Ne.symm hb) u true).trans hu) (fun u hu => domainRequest_off (.inl hu)) (fun b u hu => ?_) h
  rcases Classical.em (d = b) with rfl | hne
  · exact domainRequest_off (.inr hu)
  · exact (domainRequest_other hne u true).trans hu

/-- A domain newly requested off drains. -/
theorem pdFollowed_drains (hnew : d ∉ was) (hreq : d ∈ t.requestedOff) (h : t.domain d = 0) : (t.pdFollowed was).domain d = 1 := by
  refine each_stable_mem (P := fun u => u.domain d = 1) _ _ (fun b hb u hu => ?_) (pdOff_drains hnew hreq h)
  have hne : d ≠ b := fun e => hnew (e ▸ (List.mem_filter.mp hb).1)
  exact (domainRequest_other hne u false).trans hu

/-- No request at work on a domain that is present and not idle-gated. -/
def State.free (u : State) (d : Nat) : Prop := u.domain d ≠ 3 ∧ u.pw.idleGated.contains d = false

theorem free_domainRequest {b : Nat} (hne : d ≠ b) (off : Bool) (h : t.free d) : (t.domainRequest b off).free d :=
  ⟨fun e => h.1 ((domainRequest_other hne t off).symm.trans e), domainRequest_idleGated t b d off h.2⟩

theorem pdOff_free (hreq : d ∉ t.requestedOff) (h : t.free d) : (t.pdOff was).free d := by
  refine each_stable_mem (P := fun u => u.free d) _ _ (fun b hb u hu => ?_) h
  have hne : d ≠ b := fun e => hreq (e ▸ (List.mem_filter.mp hb).1)
  exact free_domainRequest hne true hu

/-- A domain whose request ended is on, when nothing else gates it. -/
theorem pdFollowed_ungates (hold : d ∈ was) (hreq : d ∉ t.requestedOff) (h : t.free d) : (t.pdFollowed was).domain d = 0 := by
  have hin : d ∈ was.filter (fun d => !t.requestedOff.contains d) := List.mem_filter.mpr ⟨hold, by simpa using hreq⟩
  have hon (u : State) (hu : u.free d) : (u.domainRequest d false).free d ∧ (u.domainRequest d false).domain d = 0 := by
    have h0 := domainRequest_on hu.1 hu.2
    exact ⟨⟨by rw [h0]; decide, domainRequest_idleGated u d d false hu.2⟩, h0⟩
  refine (each_reaches (Pre := fun u => u.free d) (Post := fun u => u.free d ∧ u.domain d = 0) hin (fun d s => s.domainRequest d false)
    (fun b u hb hu => free_domainRequest (Ne.symm hb) false hu) hon (fun b u hu => ?_) (pdOff_free hreq h)).2
  rcases Classical.em (d = b) with rfl | hne
  · exact hon u hu.1
  · exact ⟨free_domainRequest hne false hu.1, (domainRequest_other hne u false).trans hu.2⟩

/-- A domain whose request is as it was stays as it is. -/
theorem pdFollowed_stays (h : d ∈ was ↔ d ∈ t.requestedOff) : (t.pdFollowed was).domain d = t.domain d := by
  refine each_stable_mem (P := fun u => u.domain d = t.domain d) _ _ (fun b hb u hu => ?_)
    (each_stable_mem (P := fun u => u.domain d = t.domain d) _ _ (fun b hb u hu => ?_) rfl)
  · have hne : d ≠ b := fun e => by
      obtain ⟨hin, hout⟩ := List.mem_filter.mp hb
      simp [← e, h.mp (e ▸ hin)] at hout
    rw [domainRequest_other hne, hu]
  · have hne : d ≠ b := fun e => by
      obtain ⟨hin, hout⟩ := List.mem_filter.mp hb
      simp [← e, h.mpr (e ▸ hin)] at hout
    rw [domainRequest_other hne, hu]

end

end Sys2Proof.Machine
end

section
/-! The end of a drain (R537 to R539), what a UNIT reset does at once (R530), and the units and domains as a whole. -/

namespace Sys2Proof.Machine

open Sys2Proof

variable {s t : State}

/-! ### The end of a drain -/

theorem drained_not {d : Nat} (h : s.domain d ≠ 1) : s.drained d = s := if_pos (by simpa using h)

theorem drained_plain {d : Nat} (h : s.domain d = 1) (hd : d < 128 ∨ (131 < d ∧ d < 151) ∨ 158 < d) : s.drained d = s.setDomain d 2 := by
  rw [State.drained, if_neg (by simp [h])]
  dsimp only
  rw [if_neg (by omega), if_neg (by omega)]

theorem drained_idle {d : Nat} (h : s.domain d = 1) (hlo : 151 ≤ d) (hhi : d ≤ 158) (hc : Tab.get? s.ce.running (d - 151) = none) :
    s.drained d = s.setDomain d 2 := by
  have hrun : Tab.get? (s.setDomain d 2).ce.running (d - 151) = none := hc
  rw [State.drained, if_neg (by simp [h])]
  dsimp only
  rw [if_neg (by omega), if_pos ⟨hlo, hhi⟩, hrun]

/-- A state with a job back in front of the queue. -/
def State.jobBack (s : State) (j : CeJob) : State := { s with ce := { s.ce with queue := j :: s.ce.queue } }

theorem drained_busy {d : Nat} {j : CeJob} (h : s.domain d = 1) (hlo : 151 ≤ d) (hhi : d ≤ 158)
    (hc : Tab.get? s.ce.running (d - 151) = some j) : s.drained d = ((s.setDomain d 2).ceDrop (d - 151)).jobBack j := by
  have hrun : Tab.get? (s.setDomain d 2).ce.running (d - 151) = some j := hc
  rw [State.drained, if_neg (by simp [h])]
  dsimp only
  rw [if_neg (by omega), if_pos ⟨hlo, hhi⟩, hrun]
  rfl

theorem drained_die {d : Nat} (h : s.domain d = 1) (hlo : 128 ≤ d) (hhi : d ≤ 131) : s.drained d =
    (s.setDomain d 2).each ((Tab.keys s.dl.slots).filter (fun n => n / 256 = d - 128))
      (fun n t => if (t.slot? n).map (·.linkUp) = some true then t.linkLost n else t) := by
  rw [State.drained, if_neg (by simp [h])]
  dsimp only
  rw [if_pos ⟨hlo, hhi⟩, if_neg (by omega)]
  have hbody (n : Nat) (t : State) : (if (match t.slot? n with | some x => x.linkUp | none => false) then t.linkLost n else t) =
      if (t.slot? n).map (·.linkUp) = some true then t.linkLost n else t := by
    cases t.slot? n with
    | none => rfl
    | some x => simp
  exact congrArg (State.each _ _) (funext fun n => funext fun t => hbody n t)

/-- Dropping a cluster's job changes the coding engine alone: the job runs no more, the queue is as it was. -/
theorem ceDrop_eq (s : State) (n : Nat) : ∃ c : CeUnit, s.ceDrop n = { s with ce := c } ∧ c.queue = s.ce.queue ∧
    c.running = Tab.erase s.ce.running n := by
  unfold State.ceDrop
  dsimp only
  split
  · split
    · exact ⟨_, rfl, rfl, rfl⟩
    · unfold State.ceInvertNext
      split <;> exact ⟨_, rfl, rfl, rfl⟩
  · exact ⟨_, rfl, rfl, rfl⟩

/-- What a cluster's job comes to when its domain gates. -/
theorem drained_busy_job {d : Nat} {j : CeJob} (h : s.domain d = 1) :
    (((s.setDomain d 2).ceDrop (d - 151)).jobBack j).ce.queue = j :: s.ce.queue ∧
      Tab.get? (((s.setDomain d 2).ceDrop (d - 151)).jobBack j).ce.running (d - 151) = none ∧
      (((s.setDomain d 2).ceDrop (d - 151)).jobBack j).domain d = 2 ∧ (((s.setDomain d 2).ceDrop (d - 151)).jobBack j).se = s.se ∧
      (((s.setDomain d 2).ceDrop (d - 151)).jobBack j).regs = s.regs := by
  obtain ⟨c, hdrop, hqueue, hrun⟩ := ceDrop_eq (s.setDomain d 2) (d - 151)
  have hdom : ({ s.setDomain d 2 with ce := c } : State).domain d = 2 :=
    (domain_of_doms_eq (s := s.setDomain d 2) rfl rfl d).trans (domain_setDomain_same (by rw [h]; decide) 2)
  rw [hdrop]
  refine ⟨congrArg (j :: ·) hqueue, ?_, (domain_of_doms_eq (s := { s.setDomain d 2 with ce := c }) rfl rfl d).trans hdom, rfl, rfl⟩
  show Tab.get? c.running (d - 151) = none
  rw [hrun, Tab.get?_erase_same]

/-! ### What a UNIT reset does at once -/

/-- The parts that the reset of each unit starts again. -/
theorem unitEffect_parts (s : State) (u : Nat) :
    (u = 0 → (s.unitEffect u).ev.fifo = [] ∧ (s.unitEffect u).ev.resetting = true ∧ (s.unitEffect u).ev.ring = s.ev.ring ∧
      (s.unitEffect u).fld EV_DROPPED 0 EV_DROPPED_COUNT = 0) ∧
    (u = 1 → (s.unitEffect u).ce.running = [] ∧ (s.unitEffect u).ce.queue = s.ce.running.map (·.2) ++ s.ce.queue) ∧
    (u = 2 ∨ u = 6 → s.unitEffect u = s) ∧
    (u = 3 → (s.unitEffect u).mdc.ways = [] ∧ (s.unitEffect u).mdc.maint = none) ∧
    (u = 4 → (s.unitEffect u).xm.chans = [] ∧ (s.unitEffect u).getReg (XM_REQ.at 0) = s.getReg (XM_REQ.at 0)) ∧
    (u = 5 → (s.unitEffect u).cl.integ = [] ∧ (s.unitEffect u).cl.fifo0 = [] ∧ (s.unitEffect u).cl.fifo1 = []) ∧
    (u = 7 → (s.unitEffect u).pl.linkUp = false) := by
  refine ⟨fun h => ?_, fun h => ?_, fun h => ?_, fun h => ?_, fun h => ?_, fun h => ?_, fun h => ?_⟩
  · subst h
    obtain ⟨hfifo, hreset, hring⟩ := evReset_ev s
    exact ⟨hfifo, hreset, hring, evReset_dropped s⟩
  · subst h
    have hce : (s.unitEffect 1).ce = s.ceReset.ce := (RegsOnly.imageSpan s.ceReset 0x300000 0x340000).keeps (·.ce) fun _ _ => rfl
    rw [hce]
    exact ⟨rfl, rfl⟩
  · rcases h with rfl | rfl <;> rfl
  · subst h
    exact ⟨rfl, rfl⟩
  · subst h
    exact ⟨rfl, xmReset_lines s⟩
  · subst h
    have hcl : (s.unitEffect 5).cl = s.clReset.cl :=
      (((RegsOnly.refl s.clReset).setReg _ _).trans (RegsOnly.imageSpan _ 0x700000 0x780000)).keeps (·.cl) fun _ _ => rfl
    rw [hcl]
    exact ⟨rfl, rfl, rfl⟩
  · subst h
    exact (RegsOnly.imageSpan (State.retrain _) 0x800000 0x1000000).keeps (·.pl.linkUp) fun _ _ => rfl

/-! ### The clauses -/

theorem slackWrite_fld (v : Word) (s : State) : (slackWrite v s).fld PW_SLACK_CTL 0 PW_SLACK_CTL_EN = PW_SLACK_CTL_EN.get v := by
  have hset : (s.setFld PW_SLACK_CTL 0 PW_SLACK_CTL_EN (PW_SLACK_CTL_EN.get v)).fld PW_SLACK_CTL 0 PW_SLACK_CTL_EN =
      PW_SLACK_CTL_EN.get v := by
    rw [fld_setFld_same _ _ _ _ _ (by decide)]
    exact Nat.mod_mod _ _
  unfold slackWrite
  dsimp only
  split
  · exact hset
  · rw [ungatedAll_frame]
    exact hset

theorem slackWrite_on {v : Word} (h : PW_SLACK_CTL_EN.get v = 1) (s : State) :
    slackWrite v s = s.setFld PW_SLACK_CTL 0 PW_SLACK_CTL_EN (PW_SLACK_CTL_EN.get v) := if_pos h

/-- A write that clears EN ungates every idle-gated domain. -/
theorem slackWrite_off {v : Word} (h : PW_SLACK_CTL_EN.get v = 0) (s : State) : (slackWrite v s).pw.idleGated = [] := by
  rw [slackWrite, if_neg (by rw [h]; decide), ungatedAll_idleGated, List.filter_eq_nil_iff]
  intro d hd
  have hin : d ∈ s.pw.idleGated := hd
  simpa using hin

theorem slackWrite_onlyRegs (v : Word) (s : State) :
    OnlyRegs [PW_SLACK_CTL.at 0] { s with pw := (slackWrite v s).pw, ce := (slackWrite v s).ce } (slackWrite v s) := by
  have hset := onlyRegs_setFld s PW_SLACK_CTL 0 PW_SLACK_CTL_EN (PW_SLACK_CTL_EN.get v)
  unfold slackWrite
  dsimp only
  split
  · exact hset
  · rw [ungatedAll_frame]
    exact ⟨hset.1, rfl⟩

theorem requestedOff_of_regs_eq (h : t.regs = s.regs) : t.requestedOff = s.requestedOff := by
  simp only [State.requestedOff, fld_of_regs_eq h]

/-- Settles O59: the reset of a unit by its own branch, gating and drain by theirs, and the requests followed domain by domain. -/
theorem unitsAndDomainsFollow : Obligations.UnitsAndDomainsFollow := by
  intro s hup
  refine ⟨fun u c hc => ⟨fun h => ?_, fun hign hbusy hwait => ⟨fun h => ?_, fun h => ?_⟩⟩, fun d hd => ?_, fun v => ⟨fun h => ?_, fun h => ?_⟩,
    fun d => ⟨fun h => ?_, fun hrun hen hd hon hidle => ?_, fun h => ?_, fun h hne => ?_, fun c hc => ?_⟩, fun port v hw => ?_,
    fun port v hw => ?_⟩
  · have hend := unitReset_ends hup hc
    rwa [unitReset_ignored h] at hend
  · have hend := unitReset_ends hup hc
    rwa [unitReset_waits hign hbusy hwait h] at hend
  · have hend := unitReset_ends hup hc
    rw [unitReset_starts hign hbusy hwait h] at hend
    exact ⟨s.unitTaken u, (s.unitTaken u).unitEffect u, rfl, unitTaken_domain hign, rfl, rfl, hend, unitEffect_parts (s.unitTaken u) u⟩
  · simp only [Ends, Runs, exec_unitResetDl, execUnitResetDl, whenUp_up hup, if_neg (Nat.not_lt.mpr hd)]
  · have hdone : s.unitResetDone v = s := if_pos (by simpa using h)
    simp only [Ends, Runs, exec_unitResetComplete, execUnitResetComplete, whenUp_up hup, hdone]
  · refine ⟨s.unitResetDone v, ?_, unitResetDone_busy h⟩
    simp only [Ends, Runs, exec_unitResetComplete, execUnitResetComplete, whenUp_up hup]
  · simp only [Ends, Runs, exec_slackIdleGate, execSlackIdleGate, whenUp_up hup, idleGate_refused h]
  · refine ⟨s.idleGate d, ?_, ?_⟩
    · simp only [Ends, Runs, exec_slackIdleGate, execSlackIdleGate, whenUp_up hup]
    · have hdoms (f : Nat) := domain_of_doms_eq (s := s) (t := { s with pw := { s.pw with idleGated := s.pw.idleGated ++ [d] } }) rfl rfl f
      rw [idleGate_gates hrun hen hd hon hidle]
      refine ⟨rfl, rfl, domain_setDomain_same ?_ 2, fun f hf => (domain_setDomain_other hf _ 2).trans (hdoms f)⟩
      rw [hdoms, hon]
      decide
  · simp only [Ends, Runs, exec_domainUngateDone, execDomainUngateDone, whenUp_up hup, ungated_not h]
  · refine ⟨s.backOn d, ?_, domain_setDomain_same ?_ 0, rfl, rfl, fun f hf => (domain_setDomain_other hf _ 0).trans
      (domain_of_doms_eq (s := s) rfl rfl f)⟩
    · simp only [Ends, Runs, exec_domainUngateDone, execDomainUngateDone, whenUp_up hup, ungated_eq h]
    · exact fun e => hne ((domain_of_doms_eq (s := s) rfl rfl d).symm.trans e)
  · have hend : Ends c s (s.drained d) := by
      simp only [List.mem_cons, List.not_mem_nil, or_false] at hc
      rcases hc with rfl | rfl
      · simp only [Ends, Runs, exec_domainDrainExpiry, execDomainDrainExpiry, whenUp_up hup]
      · simp only [Ends, Runs, exec_drainComplete, execDrainComplete, whenUp_up hup]
    refine ⟨fun h => ?_, fun h hd => ?_, fun h hlo hhi hj => ?_, fun j h hlo hhi hj => ⟨_, ?_, drained_busy_job h⟩, fun h hlo hhi => ?_⟩
    · rwa [drained_not h] at hend
    · rwa [drained_plain h hd] at hend
    · rwa [drained_idle h hlo hhi hj] at hend
    · rwa [drained_busy h hlo hhi hj] at hend
    · rwa [drained_die h hlo hhi] at hend
  · refine ⟨slackWrite v s, ?_, slackWrite_fld v s, slackWrite_onlyRegs v s, fun h => ?_, fun h => slackWrite_off h s⟩
    · simp only [Ends, Runs, exec_pwSlackCtlWrite, execPwSlackCtlWrite, whenUp_up hup, hostWrite_taken hw]
    · rw [slackWrite_on h]
      exact ⟨rfl, rfl⟩
  · obtain ⟨hse, hdl, hpw, hvar⟩ := pdShown_frame s v
    have hframe := pdFollowed_frame (s.pdShown v) s.requestedOff
    have hregs : ((s.pdShown v).pdFollowed s.requestedOff).regs = (s.pdShown v).regs := by rw [hframe]
    obtain ⟨hce, hhe, hld, hplk⟩ := pdShown_fields s v
    have hdom (d : Nat) : (s.pdShown v).domain d = s.domain d := domain_of_doms_eq hvar (by rw [hpw]) d
    refine ⟨(s.pdShown v).pdFollowed s.requestedOff, ?_, ?_, ?_, ?_, ?_, ?_, ?_, fun d => ?_⟩
    · simp only [Ends, Runs, exec_pdRequest, execPdRequest, whenUp_up hup, hostWrite_taken hw, pdRequestWrite_eq]
    · rw [hframe, hse]
    · rw [hframe, hdl]
    · rw [fld_of_regs_eq hregs, hce]
    · rw [fld_of_regs_eq hregs, hhe]
    · rw [fld_of_regs_eq hregs, hld]
    · rw [fld_of_regs_eq hregs, hplk]
    · rw [requestedOff_of_regs_eq hregs]
      refine ⟨fun hold hnew h => pdFollowed_drains hold hnew (by rw [hdom, h]), fun hold hnew h hi => pdFollowed_ungates hold hnew ⟨?_, ?_⟩,
        fun h => (pdFollowed_stays h).trans (hdom d)⟩
      · rwa [hdom]
      · rwa [hpw]

end Sys2Proof.Machine
end

section
/-! HARBOUR and mode epochs (R532, R533, R544 to R547, R566). -/

namespace Sys2Proof.Machine

open Sys2Proof

variable {s t : State}

/-! ### HARBOUR -/

/-- The state in which a channel shows that it refreshes itself. -/
def State.selfRefresh (s : State) (ch : Nat) : State :=
  (s.setFld MC_CH_STATUS ch MC_CH_STATUS_STATE 2).setFld MC_CH_STATUS ch MC_CH_STATUS_SR_HELD 1

/-- Whether a channel shows it. -/
def State.refreshesSelf (s : State) (ch : Nat) : Prop :=
  s.fld MC_CH_STATUS ch MC_CH_STATUS_STATE = 2 ∧ s.fld MC_CH_STATUS ch MC_CH_STATUS_SR_HELD = 1

theorem refreshesSelf_selfRefresh (s : State) (ch : Nat) : (s.selfRefresh ch).refreshesSelf ch := by
  constructor
  · rw [State.selfRefresh, fld_setFld_beside _ _ _ _ _ _ (by decide) (by decide), fld_setFld_same _ _ _ _ _ (by decide)]
    rfl
  · rw [State.selfRefresh, fld_setFld_same _ _ _ _ _ (by decide)]
    rfl

theorem refreshesSelf_other {ch b : Nat} (h : s.refreshesSelf ch) : (s.selfRefresh b).refreshesSelf ch := by
  rcases Classical.em (ch = b) with rfl | hne
  · exact refreshesSelf_selfRefresh s ch
  · have hat := at_ne_of_index_ne (r := MC_CH_STATUS) (by decide) hne
    unfold State.refreshesSelf State.selfRefresh
    simp only [fld_setFld_other _ _ _ _ _ _ _ _ hat]
    exact h

theorem harbourMemory_eq (s : State) : s.harbourMemory = s.each (List.range 64) (fun ch t => t.selfRefresh ch) := rfl

theorem harbourMemory_refreshes {ch : Nat} (h : ch < 64) (s : State) : s.harbourMemory.refreshesSelf ch := by
  have hin : ch ∈ List.range 64 := List.mem_range.mpr h
  rw [harbourMemory_eq]
  exact each_reaches (Pre := fun _ => True) (Post := fun t => t.refreshesSelf ch) hin (fun ch t => t.selfRefresh ch)
    (fun _ _ _ _ => trivial) (fun t _ => refreshesSelf_selfRefresh t ch) (fun _ _ ht => refreshesSelf_other ht) trivial

/-- What `State.leaveHarbour` starts from: the device wakes, before its domains and its memory do. -/
def State.harbourLeft (s : State) : State :=
  { s with
      pw := { s.pw with power := .harbourExit, checkDue := true,
                        doms := (s.requestedOff.map (fun d => (d, 2))).foldl (fun (t : Tab Nat) (e : Nat × Nat) => Tab.set t e.1 e.2) [] }
      boot := { s.boot with fwReady := true, adoptOpen := false }
      dl := { s.dl with slots := s.dl.slots.map (fun (e : Nat × Slot) => (e.1, Slot.warm e.2)), queue := [] }
      se := { s.se with
        pools := s.se.pools.map (fun (e : Nat × Pool) => (e.1, if e.2.state = PoolState.partner then e.2 else Pool.loaded e.2 id e.2.policy))
        drives := s.se.drives.map (fun (e : Nat × Drive) => (e.1, Drive.warm e.2)) } }

theorem leaveHarbour_eq (h : s.pw.power = .harbour) : s.leaveHarbour = s.harbourLeft.runGates.gateLanes.wakeMemory := by
  rw [State.leaveHarbour, if_neg (by simp [h])]
  rfl

theorem leaveHarbour_stays (h : s.pw.power ≠ .harbour) : s.leaveHarbour = s := if_pos (by simpa using h)

/-- The device has woken from HARBOUR: what the gates, lanes and channels do then leaves it so. -/
def State.woken (s t : State) : Prop :=
  t.pw.power = .harbourExit ∧ t.pw.checkDue = true ∧ t.boot.fwReady = true ∧ t.dram = s.dram ∧ t.sec = s.sec

theorem woken_setDomain (h : s.woken t) (d v : Nat) : s.woken (t.setDomain d v) := h

theorem woken_setFld (h : s.woken t) (r : Reg) (i : Nat) (f : Fld) (v : Nat) : s.woken (t.setFld r i f v) := h

theorem woken_queueRetrain (h : s.woken t) (ch : Nat) : s.woken (t.queueRetrain ch) := by
  unfold State.queueRetrain
  dsimp only
  split <;> exact h

theorem woken_startRetrain (h : s.woken t) : s.woken t.startRetrain := by
  unfold State.startRetrain
  split <;> exact h

theorem woken_wakeMemory (h : s.woken t) : s.woken t.wakeMemory := by
  unfold State.wakeMemory
  dsimp only
  refine woken_startRetrain (each_stable s.woken _ _ (fun ch u hu => ?_) h)
  exact woken_queueRetrain (woken_setFld (woken_setFld hu _ _ _ _) _ _ _ _) ch

theorem woken_leaveHarbour (h : s.pw.power = .harbour) : s.woken s.leaveHarbour := by
  have hleft : s.woken s.harbourLeft := ⟨rfl, rfl, rfl, rfl, rfl⟩
  have hgates : s.woken s.harbourLeft.runGates := by
    unfold State.runGates
    dsimp only
    split <;> exact hleft
  have hlanes : s.woken s.harbourLeft.runGates.gateLanes := by
    refine each_stable s.woken _ _ (fun g t ht => ?_) hgates
    unfold State.laneDomain
    dsimp only
    split
    · exact ht
    · split <;> exact ht
  rw [leaveHarbour_eq h]
  exact woken_wakeMemory hlanes

theorem harbourExit_brings (s : State) (p : Bool) : Brings (.harbourExit p) s (s.harbourExit p) := by
  simp only [Brings, Runs, exec_harbourExit, execHarbourExit, State.anyTime]

theorem harbourTimer_brings (s : State) : Brings .harbourTimer s s.harbourTimer := by
  simp only [Brings, Runs, exec_harbourTimer, execHarbourTimer, State.anyTime]

theorem harbourPhyDown_brings (s : State) : Brings .harbourPhyDown s s.harbourDown := by
  simp only [Brings, Runs, exec_harbourPhyDown, execHarbourPhyDown, State.anyTime]

theorem harbourGate_regs (s : State) : s.harbourGate.regs = s.regs := rfl

theorem refreshesSelf_of_regs_eq {ch : Nat} (hr : t.regs = s.regs) (h : s.refreshesSelf ch) : t.refreshesSelf ch := by
  simpa only [State.refreshesSelf, fld_of_regs_eq hr] using h

/-- The device in HARBOUR (R532 step 8). -/
theorem harbourDown_due (h : s.pw.phyDue = true) : s.harbourDown.pw.power = .harbour ∧ s.harbourDown.pw.phyDue = false ∧
    s.harbourDown.dram = s.dram ∧ s.harbourDown.sec.session = none ∧ s.harbourDown.mdc = MdcUnit.reset ∧ s.harbourDown.ce = CeUnit.reset ∧
    ∀ ch, ch < 64 → s.harbourDown.refreshesSelf ch := by
  have hdram : s.harbourDown.dram = s.dram := (harbourDown_stable (sameMemory_stable s) ⟨rfl, rfl⟩).1
  have heq : s.harbourDown = s.harbourLinks.harbourMemory.harbourGate := if_neg (by simp [h])
  rw [heq] at hdram ⊢
  refine ⟨rfl, rfl, hdram, rfl, rfl, rfl, fun ch hch => ?_⟩
  exact refreshesSelf_of_regs_eq (harbourGate_regs _) (harbourMemory_refreshes hch _)

end Sys2Proof.Machine
end

section
/-! Mode epochs (R544 to R547) and the memory operating point (R566). -/

namespace Sys2Proof.Machine

open Sys2Proof

variable {s t : State} {k : Epoch} {n : Nat} {b : BootInfo}

theorem ends_eq {c : Instr} {u w : State} (h : u = w) (he : Ends c s u) : Ends c s w := h ▸ he

theorem brings_eq {c : Instr} {u w : State} (h : u = w) (hb : Brings c s u) : Brings c s w := h ▸ hb

/-! ### The commands of an epoch -/

section
variable (hup : s.up = true)
include hup

theorem modeEpochAck_ends (n : Nat) : Ends (.modeEpochAck n) s (s.epochAck n) := by
  simp only [Ends, Runs, exec_modeEpochAck, execModeEpochAck, whenUp_up hup]

theorem modeRollback_ends (n : Nat) : Ends (.modeRollback n) s (s.epochRefused n) := by
  simp only [Ends, Runs, exec_modeRollback, execModeRollback, whenUp_up hup]

theorem modeEpochTimeout_ends : Ends .modeEpochTimeout s s.epochTimeout := by
  simp only [Ends, Runs, exec_modeEpochTimeout, execModeEpochTimeout, whenUp_up hup]

theorem modeSwitchDone_ends (n : Nat) : Ends (.modeSwitchDone n) s (s.epochSwitched n) := by
  simp only [Ends, Runs, exec_modeSwitchDone, execModeSwitchDone, whenUp_up hup]

theorem modeStuck_brings (b : BootInfo) : Brings (.modeStuck b) s (s.epochStuck b) := by
  simp only [Brings, Runs, exec_modeStuck, execModeStuck, State.anyTime, if_pos hup]

/-- On a device that runs, what a command brings about with no change is its end. -/
theorem ends_of_brings {c : Instr} (h : Brings c s s) : Ends c s s := by
  rwa [Brings, if_pos hup] at h

end

section
variable (hk : s.pw.epoch = none)
include hk

theorem epochAck_none : s.epochAck n = s := by rw [State.epochAck, hk]
theorem epochRefused_none : s.epochRefused n = s := by rw [State.epochRefused, hk]
theorem epochTimeout_none : s.epochTimeout = s := by rw [State.epochTimeout, hk]
theorem epochSwitched_none : s.epochSwitched n = s := by rw [State.epochSwitched, hk]
theorem epochStuck_none : s.epochStuck b = s := by rw [State.epochStuck, hk]

end

/-! ### An epoch that waits for its answers -/

section
variable (hk : s.pw.epoch = some k) (hc : k.committed = false)
include hk hc

omit hc in
theorem epochAck_stranger (h : k.waiting.contains n = false) : s.epochAck n = s := by
  rw [State.epochAck, hk]
  exact if_pos (.inr (by rw [h]; rfl))

/-- The epoch after the answer of unit `n`. -/
def Epoch.acked (k : Epoch) (n : Nat) : Epoch :=
  if (k.waiting.filter (· ≠ n)).isEmpty then { k with waiting := k.switched ++ [n], switched := [], committed := true }
  else { k with waiting := k.waiting.filter (· ≠ n), switched := k.switched ++ [n] }

theorem epochAck_takes (h : k.waiting.contains n = true) : s.epochAck n = { s with pw := { s.pw with epoch := some (k.acked n) } } := by
  rw [State.epochAck, hk]
  exact if_neg (by rw [hc, h]; decide)

theorem epochRefused_aborts : s.epochRefused n = s.abortEpoch n 3 := by
  rw [State.epochRefused, hk]
  exact if_neg (by rw [hc]; decide)

theorem epochTimeout_aborts : s.epochTimeout = s.abortEpoch (k.waiting.headD 0) 2 := by
  rw [State.epochTimeout, hk]
  exact if_neg (by rw [hc]; decide)

theorem epochSwitched_early : s.epochSwitched n = s := by
  rw [State.epochSwitched, hk]
  exact if_pos (.inl (by rw [hc]; rfl))

theorem epochStuck_early : s.epochStuck b = s := by
  rw [State.epochStuck, hk]
  exact if_neg (by rw [hc]; decide)

end

theorem filter_ne_isEmpty {l : List Nat} : (l.filter (· ≠ n)).isEmpty = true ↔ ∀ x ∈ l, x = n := by
  rw [List.isEmpty_iff, List.filter_eq_nil_iff]
  exact forall₂_congr fun x _ => by simp

/-- The last answer commits the epoch; until then its units are those that have not answered. -/
theorem acked_spec (hc : k.committed = false) : (k.acked n).kind = k.kind ∧ (k.acked n).e = k.e ∧ (k.acked n).cmd = k.cmd ∧
    ((k.acked n).committed = true ↔ ∀ x ∈ k.waiting, x = n) ∧
    ((k.acked n).committed = true → (k.acked n).waiting = k.switched ++ [n] ∧ (k.acked n).switched = []) ∧
    ((k.acked n).committed = false → (k.acked n).waiting = k.waiting.filter (· ≠ n) ∧ (k.acked n).switched = k.switched ++ [n]) := by
  unfold Epoch.acked
  split
  next h => exact ⟨rfl, rfl, rfl, ⟨fun _ => filter_ne_isEmpty.mp h, fun _ => rfl⟩, fun _ => ⟨rfl, rfl⟩, fun e => nomatch e⟩
  next h =>
    refine ⟨rfl, rfl, rfl, ⟨fun e => ?_, fun e => absurd (filter_ne_isEmpty.mpr e) h⟩, fun e => ?_, fun _ => ⟨rfl, rfl⟩⟩
    · rw [hc] at e
      cases e
    · rw [hc] at e
      cases e

/-! ### A committed epoch -/

section
variable (hk : s.pw.epoch = some k) (hc : k.committed = true)
include hk hc

theorem epochAck_late : s.epochAck n = s := by
  rw [State.epochAck, hk]
  exact if_pos (.inl hc)

theorem epochRefused_late : s.epochRefused n = s := by
  rw [State.epochRefused, hk]
  exact if_pos hc

theorem epochTimeout_late : s.epochTimeout = s := by
  rw [State.epochTimeout, hk]
  exact if_pos hc

omit hc in
theorem epochSwitched_stranger (h : k.waiting.contains n = false) : s.epochSwitched n = s := by
  rw [State.epochSwitched, hk]
  exact if_pos (.inr (by rw [h]; rfl))

theorem epochSwitched_one (h : k.waiting.contains n = true) (hmore : ∃ x ∈ k.waiting, x ≠ n) : s.epochSwitched n =
    { s with pw := { s.pw with epoch := some { k with waiting := k.waiting.filter (· ≠ n), switched := k.switched ++ [n] } } } := by
  obtain ⟨x, hx, hne⟩ := hmore
  rw [State.epochSwitched, hk]
  dsimp only
  rw [if_neg (by rw [hc, h]; decide), if_neg (fun e => hne (filter_ne_isEmpty.mp e x hx)), hc]

theorem epochSwitched_last (h : k.waiting.contains n = true) (hall : ∀ x ∈ k.waiting, x = n) : s.epochSwitched n =
    s.commitEpoch { k with waiting := [], switched := k.switched ++ [n] } := by
  have hnil : k.waiting.filter (· ≠ n) = [] := List.isEmpty_iff.mp (filter_ne_isEmpty.mpr hall)
  rw [State.epochSwitched, hk]
  dsimp only
  rw [if_neg (by rw [hc, h]; decide), if_pos (filter_ne_isEmpty.mpr hall), hnil, hc]

theorem epochStuck_resets (b : BootInfo) : s.epochStuck b =
    State.warmNow { s.raise 0x202 6 noInst (leBytes 8 k.e) with pw := { (s.raise 0x202 6 noInst (leBytes 8 k.e)).pw with epoch := none } } b := by
  rw [State.epochStuck, hk]
  exact if_pos hc

end

/-! ### The memory operating point -/

theorem freqEnded_fields (s : State) (result : Nat) :
    (s.freqEnded result none).fld MC_FREQ 0 MC_FREQ_BUSY = 0 ∧
      (s.freqEnded result none).fld MC_FREQ 0 MC_FREQ_CURRENT = s.fld MC_FREQ 0 MC_FREQ_CURRENT := by
  unfold State.freqEnded
  dsimp only
  constructor
  · rw [fld_setFld_beside _ _ _ _ _ _ (by decide) (by decide), fld_setFld_same _ _ _ _ _ (by decide), Nat.zero_mod]
  · rw [fld_setFld_beside _ _ _ _ _ _ (by decide) (by decide), fld_setFld_beside _ _ _ _ _ _ (by decide) (by decide)]

theorem freqEnded_point (s : State) {p : Nat} (hp : p < 4) : (s.freqEnded 1 (some p)).fld MC_FREQ 0 MC_FREQ_BUSY = 0 ∧
    (s.freqEnded 1 (some p)).fld MC_FREQ 0 MC_FREQ_CURRENT = p ∧ (s.freqEnded 1 (some p)).fld MC_FREQ 0 MC_FREQ_RESULT = 1 := by
  have hmod : p % 2 ^ MC_FREQ_CURRENT.len = p := Nat.mod_eq_of_lt hp
  unfold State.freqEnded
  dsimp only
  refine ⟨?_, ?_, ?_⟩
  · rw [fld_setFld_beside _ _ _ _ _ _ (by decide) (by decide), fld_setFld_beside _ _ _ _ _ _ (by decide) (by decide),
      fld_setFld_same _ _ _ _ _ (by decide), Nat.zero_mod]
  · rw [fld_setFld_same _ _ _ _ _ (by decide), hmod]
  · rw [fld_setFld_beside _ _ _ _ _ _ (by decide) (by decide), fld_setFld_same _ _ _ _ _ (by decide)]
    rfl

/-- The state in which an epoch has ended without its mode, with its event. -/
def State.epochDropped (s : State) (e unit result : Nat) : State :=
  State.raise { s with pw := { s.pw with epoch := none, modeResult := result, modeUnit := unit } } 0x201 4 noInst (leBytes 8 e)

/-- The state in which an operating point was not reached. -/
def State.freqDropped (s : State) (result : Nat) : State := { (s.freqEnded result none) with mc := { s.mc with discard := false } }

theorem freqDropped_pw (s : State) (result : Nat) : (s.freqDropped result).pw = s.pw := rfl

theorem freqDropped_regs (s : State) (result : Nat) : (s.freqDropped result).regs = (s.freqEnded result none).regs := rfl

theorem abortEpoch_freq {p unit result : Nat} (hk : s.pw.epoch = some k) (hf : k.kind = .freq p) :
    ∃ r, s.abortEpoch unit result = (s.epochDropped k.e unit result).freqDropped r := by
  refine ⟨if (s.epochDropped k.e unit result).fld MC_FREQ 0 MC_FREQ_TRAINED / 2 ^ p % 2 = 0 then 2 else 3, ?_⟩
  rw [State.abortEpoch, hk]
  dsimp only
  rw [hf]
  rfl

/-- An epoch for an operating point that is not reached leaves the old point. -/
theorem freqDropped_spec (s : State) (e unit result r : Nat) :
    ((s.epochDropped e unit result).freqDropped r).pw = { s.pw with epoch := none, modeResult := result, modeUnit := unit } ∧
      ((s.epochDropped e unit result).freqDropped r).fld MC_FREQ 0 MC_FREQ_BUSY = 0 ∧
      ((s.epochDropped e unit result).freqDropped r).fld MC_FREQ 0 MC_FREQ_CURRENT = s.fld MC_FREQ 0 MC_FREQ_CURRENT := by
  obtain ⟨hbusy, hcur⟩ := freqEnded_fields (s.epochDropped e unit result) r
  rw [freqDropped_pw, fld_of_regs_eq (freqDropped_regs _ r), fld_of_regs_eq (freqDropped_regs _ r), hbusy, hcur]
  refine ⟨raise_pw _ _ _ _ _, rfl, ?_⟩
  rw [State.epochDropped, fld_raise (by decide)]
  exact fld_of_regs_eq (s := s) rfl _ _ _

/-- A committed epoch for an operating point is in effect, and the channels begin their retraining. -/
theorem commitEpoch_freq {p : Nat} (hf : k.kind = .freq p) (hp : p < 4) : (s.commitEpoch k).pw.epoch = none ∧
    (s.commitEpoch k).pw.epochDone = k.e ∧ (s.commitEpoch k).pw.modeResult = 1 ∧ (s.commitEpoch k).fld MC_FREQ 0 MC_FREQ_BUSY = 0 ∧
    (s.commitEpoch k).fld MC_FREQ 0 MC_FREQ_CURRENT = p ∧ (s.commitEpoch k).fld MC_FREQ 0 MC_FREQ_RESULT = 1 := by
  have heq : s.commitEpoch k =
      (State.freqEnded { s with pw := { s.pw with epoch := none, epochDone := k.e, modeResult := 1 } } 1 (some p)).startRetrain := by
    unfold State.commitEpoch
    rw [hf]
  have hat (c : Nat) : MC_FREQ.at 0 ≠ MC_CH_STATUS.at c := by
    show 0x440004 + 0 * 0 ≠ 0x400000 + c * 0x1000
    omega
  obtain ⟨hbusy, hcur, hres⟩ := freqEnded_point { s with pw := { s.pw with epoch := none, epochDone := k.e, modeResult := 1 } } hp
  rw [heq, startRetrain_fld_other hat, startRetrain_fld_other hat, startRetrain_fld_other hat, startRetrain_frame]
  exact ⟨rfl, rfl, rfl, hbusy, hcur, hres⟩

/-- The state in which a point is asked for, and waits for its epoch when it is not the current one. -/
def State.freqAsked (s : State) (p : Nat) : State :=
  if p = s.fld MC_FREQ 0 MC_FREQ_CURRENT then s.setFld MC_FREQ 0 MC_FREQ_TARGET p
  else (s.setFld MC_FREQ 0 MC_FREQ_TARGET p).setFld MC_FREQ 0 MC_FREQ_BUSY 1

theorem freqTarget_current (s : State) (p : Nat) :
    (s.setFld MC_FREQ 0 MC_FREQ_TARGET p).fld MC_FREQ 0 MC_FREQ_CURRENT = s.fld MC_FREQ 0 MC_FREQ_CURRENT :=
  fld_setFld_beside _ _ _ _ _ _ (by decide) (by decide)

theorem mcFreqWrite_busy {v : Word} (h : s.fld MC_FREQ 0 MC_FREQ_BUSY = 1) : mcFreqWrite v s = s := if_pos h

theorem mcFreqWrite_current {v : Word} (h : s.fld MC_FREQ 0 MC_FREQ_BUSY = 0)
    (hp : MC_FREQ_TARGET.get v = s.fld MC_FREQ 0 MC_FREQ_CURRENT) : mcFreqWrite v s = s.freqAsked (MC_FREQ_TARGET.get v) := by
  rw [mcFreqWrite, if_neg (by rw [h]; decide)]
  dsimp only
  rw [freqTarget_current, if_pos hp, State.freqAsked, if_pos hp]

theorem mcFreqWrite_other {v : Word} (h : s.fld MC_FREQ 0 MC_FREQ_BUSY = 0)
    (hp : MC_FREQ_TARGET.get v ≠ s.fld MC_FREQ 0 MC_FREQ_CURRENT) : mcFreqWrite v s =
      if s.pw.epoch.isNone then (s.freqAsked (MC_FREQ_TARGET.get v)).startEpoch (.freq (MC_FREQ_TARGET.get v)) none
      else s.freqAsked (MC_FREQ_TARGET.get v) := by
  rw [mcFreqWrite, if_neg (by rw [h]; decide)]
  dsimp only
  rw [freqTarget_current, if_neg hp, State.freqAsked, if_neg hp]
  rfl

theorem freqAsked_spec (s : State) {p : Nat} (hp : p < 4) (h : s.fld MC_FREQ 0 MC_FREQ_BUSY = 0) :
    (s.freqAsked p).fld MC_FREQ 0 MC_FREQ_TARGET = p ∧
    (s.freqAsked p).fld MC_FREQ 0 MC_FREQ_CURRENT = s.fld MC_FREQ 0 MC_FREQ_CURRENT ∧
    (s.freqAsked p).fld MC_FREQ 0 MC_FREQ_TRAINED = s.fld MC_FREQ 0 MC_FREQ_TRAINED ∧ OnlyRegs [MC_FREQ.at 0] s (s.freqAsked p) ∧
    (s.freqAsked p).fld MC_FREQ 0 MC_FREQ_BUSY = if p = s.fld MC_FREQ 0 MC_FREQ_CURRENT then 0 else 1 := by
  have hset := onlyRegs_setFld s MC_FREQ 0 MC_FREQ_TARGET p
  have hmod : p % 2 ^ MC_FREQ_TARGET.len = p := Nat.mod_eq_of_lt hp
  have htarget : (s.setFld MC_FREQ 0 MC_FREQ_TARGET p).fld MC_FREQ 0 MC_FREQ_TARGET = p := by
    rw [fld_setFld_same _ _ _ _ _ (by decide), hmod]
  have hother {f : Fld} (hf : f.lo + f.len ≤ 32) (hd : f.lo + f.len ≤ 4 ∨ 6 ≤ f.lo) :
      (s.setFld MC_FREQ 0 MC_FREQ_TARGET p).fld MC_FREQ 0 f = s.fld MC_FREQ 0 f := fld_setFld_beside _ _ _ _ _ _ hf hd
  unfold State.freqAsked
  split
  · exact ⟨htarget, hother (by decide) (by decide), hother (by decide) (by decide), hset, (hother (by decide) (by decide)).trans h⟩
  · have hbeside {f : Fld} (hf : f.lo + f.len ≤ 32) (hd : f.lo + f.len ≤ 14 ∨ 15 ≤ f.lo) :
        ((s.setFld MC_FREQ 0 MC_FREQ_TARGET p).setFld MC_FREQ 0 MC_FREQ_BUSY 1).fld MC_FREQ 0 f =
          (s.setFld MC_FREQ 0 MC_FREQ_TARGET p).fld MC_FREQ 0 f := fld_setFld_beside _ _ _ _ _ _ hf hd
    refine ⟨(hbeside (by decide) (by decide)).trans htarget, (hbeside (by decide) (by decide)).trans (hother (by decide) (by decide)),
      (hbeside (by decide) (by decide)).trans (hother (by decide) (by decide)), hset.setFld (by simp) _ _, ?_⟩
    rw [fld_setFld_same _ _ _ _ _ (by decide)]
    rfl

/-- Settles O58: HARBOUR's own branches, and the epoch by whether it is committed and whose answer comes. -/
theorem harbourAndModes : Obligations.HarbourAndModes := by
  intro s
  refine ⟨fun h => ?_, fun h => ⟨s.harbourDown, ?_, harbourDown_due h⟩, fun h p => ⟨?_, ?_⟩, fun h => ⟨⟨s.leaveHarbour, rfl, ?_,
    woken_leaveHarbour h⟩, fun hp => ?_, fun hp => ?_, fun ht => ?_, fun ht => ?_⟩, fun hup h n b => ⟨?_, ?_, ?_, ?_, ?_⟩,
    fun k n hup hk => ⟨fun hc => ⟨fun h => ?_, fun h => ⟨k.acked n, ?_, acked_spec hc⟩, ?_, ?_, ?_, fun b => ?_, fun p hf => ?_⟩,
      fun hc => ⟨?_, ?_, ?_, fun h => ?_, fun h => ⟨fun hmore => ?_, fun hall => ⟨?_, fun p hf hp => ?_⟩⟩, fun b => ?_⟩⟩,
    fun port v p hp hw => ⟨fun h => ?_, fun h => ?_⟩⟩
  · have hb := harbourPhyDown_brings s
    rwa [show s.harbourDown = s from if_pos (by simp [h])] at hb
  · have hb := harbourPhyDown_brings s
    obtain ⟨hpower, -⟩ := harbourDown_due h
    rwa [Brings, if_neg (by simp [State.up, hpower])] at hb
  · have hb := harbourExit_brings s p
    unfold State.harbourExit at hb
    rwa [leaveHarbour_stays h, ite_self] at hb
  · have hb := harbourTimer_brings s
    unfold State.harbourTimer at hb
    rwa [leaveHarbour_stays h, ite_self] at hb
  · have hb := harbourExit_brings s false
    rwa [State.harbourExit, if_neg (by simp)] at hb
  · have hb := harbourExit_brings s true
    rwa [State.harbourExit, if_pos ⟨rfl, hp⟩] at hb
  · have hb := harbourExit_brings s true
    rwa [State.harbourExit, if_neg (by rw [hp]; simp)] at hb
  · have hb := harbourTimer_brings s
    rwa [State.harbourTimer, if_pos ht] at hb
  · have hb := harbourTimer_brings s
    rwa [State.harbourTimer, if_neg ht] at hb
  · exact ends_eq (epochAck_none h) (modeEpochAck_ends hup n)
  · exact ends_eq (epochRefused_none h) (modeRollback_ends hup n)
  · exact ends_eq (epochTimeout_none h) (modeEpochTimeout_ends hup)
  · exact ends_eq (epochSwitched_none h) (modeSwitchDone_ends hup n)
  · exact ends_of_brings hup (brings_eq (epochStuck_none h) (modeStuck_brings hup b))
  · exact ends_eq (epochAck_stranger hk h) (modeEpochAck_ends hup n)
  · exact ends_eq (epochAck_takes hk hc h) (modeEpochAck_ends hup n)
  · exact ends_eq (epochRefused_aborts hk hc) (modeRollback_ends hup n)
  · exact ends_eq (epochTimeout_aborts hk hc) (modeEpochTimeout_ends hup)
  · exact ends_eq (epochSwitched_early hk hc) (modeSwitchDone_ends hup n)
  · exact ends_of_brings hup (brings_eq (epochStuck_early hk hc) (modeStuck_brings hup b))
  · obtain ⟨r, heq⟩ := abortEpoch_freq (unit := n) (result := 3) hk hf
    obtain ⟨hpw, hbusy, hcur⟩ := freqDropped_spec s k.e n 3 r
    refine ⟨s.abortEpoch n 3, ends_eq (epochRefused_aborts hk hc) (modeRollback_ends hup n), ?_⟩
    rw [heq, hpw]
    exact ⟨rfl, rfl, rfl, rfl, hbusy, hcur⟩
  · exact ends_eq (epochAck_late hk hc) (modeEpochAck_ends hup n)
  · exact ends_eq (epochRefused_late hk hc) (modeRollback_ends hup n)
  · exact ends_eq (epochTimeout_late hk hc) (modeEpochTimeout_ends hup)
  · exact ends_eq (epochSwitched_stranger hk h) (modeSwitchDone_ends hup n)
  · exact ends_eq (epochSwitched_one hk hc h hmore) (modeSwitchDone_ends hup n)
  · exact ends_eq (epochSwitched_last hk hc h hall) (modeSwitchDone_ends hup n)
  · exact ⟨_, ends_eq (epochSwitched_last hk hc h hall) (modeSwitchDone_ends hup n), commitEpoch_freq hf hp⟩
  · refine ⟨_, brings_eq (epochStuck_resets hk hc b) (modeStuck_brings hup b), ?_, raise_se _ _ _ _ _, raise_dram _ _ _ _ _⟩
    rw [raise_pw]
  · have hend : Ends (.mcFreqTargetWrite port v) s (mcFreqWrite v s) := by
      simp only [Ends, Runs, exec_mcFreqTargetWrite, execMcFreqTargetWrite, whenUp_up hw.up, hostWrite_taken hw]
    rwa [mcFreqWrite_busy h] at hend
  · have hend : Ends (.mcFreqTargetWrite port v) s (mcFreqWrite v s) := by
      simp only [Ends, Runs, exec_mcFreqTargetWrite, execMcFreqTargetWrite, whenUp_up hw.up, hostWrite_taken hw]
    subst hp
    have hlt : MC_FREQ_TARGET.get v < 4 := Nat.mod_lt _ (by decide)
    obtain ⟨htarget, hcur, htrained, honly, hbusy⟩ := freqAsked_spec s hlt h
    refine ⟨s.freqAsked (MC_FREQ_TARGET.get v), htarget, hcur, htrained, honly, fun hp => ⟨?_, ?_⟩, fun hp => ⟨?_, fun he => ?_, fun he => ?_⟩⟩
    · rwa [mcFreqWrite_current h hp] at hend
    · rw [hbusy, if_pos hp]
    · rw [hbusy, if_neg hp]
    · rwa [mcFreqWrite_other h hp, he] at hend
    · rwa [mcFreqWrite_other h hp, if_neg (by simpa using he)] at hend

end Sys2Proof.Machine
end

section
/-! The event recorder (R603 to R618): tokens and intake, records and where they are kept. -/

namespace Sys2Proof.Machine

open Sys2Proof

variable {s t : State} {e : RaisedEvent} {r : EvRecord}

/-! ### Tokens and intake (R606 to R609) -/

theorem evLose_onlyRegs (s : State) : OnlyRegs [EV_LOST.at 0] { s with ev := s.evLose.ev } s.evLose :=
  ⟨fun a ha => getReg_setFld_other s _ _ _ _ (by simpa using ha), rfl⟩

theorem evLose_count (s : State) :
    s.evLose.fld EV_LOST 0 EV_LOST_COUNT = min (s.fld EV_LOST 0 EV_LOST_COUNT + 1) (2 ^ EV_LOST_COUNT.len - 1) :=
  fld_bump_same s _ _ _ _ (by decide)

theorem evIntake_room (hr : s.ev.resetting = false) (hf : s.ev.fifo.length < 64) (e : RaisedEvent) :
    s.evIntake e = { s with ev := { s.ev with fifo := s.ev.fifo ++ [e] } } :=
  if_neg (not_or.mpr ⟨by simp [hr], Nat.not_le.mpr hf⟩)

theorem evIntake_lost (h : s.ev.resetting = true ∨ 64 ≤ s.ev.fifo.length) (e : RaisedEvent) : s.evIntake e = s.evLose := if_pos h

/-- The state with one token of an event's code taken. -/
def State.tokenTaken (s : State) (e : RaisedEvent) : State :=
  { s with ev := { s.ev with tokens := Tab.set s.ev.tokens e.code (s.tokens e.code e.sev - 1) } }

theorem tokenTaken_tokens (s : State) (e : RaisedEvent) : (s.tokenTaken e).tokens e.code e.sev = s.tokens e.code e.sev - 1 := by
  have hle : s.tokens e.code e.sev ≤ s.burst e.sev := Nat.min_le_right _ _
  have hget : Tab.getD (s.tokenTaken e).ev.tokens e.code (s.burst e.sev) = s.tokens e.code e.sev - 1 := by
    rw [Tab.getD]
    exact congrArg (Option.getD · _) (Tab.get?_set_same _ _ _)
  show min (Tab.getD (s.tokenTaken e).ev.tokens e.code (s.burst e.sev)) (s.burst e.sev) = _
  rw [hget]
  omega

theorem raiseEvent_severe (h : 7 ≤ e.sev) : s.raiseEvent e = s.evIntake e := if_pos h

theorem raiseEvent_token (hr : s.ev.resetting = false) (hsev : e.sev < 7) (ht : s.tokens e.code e.sev ≠ 0) :
    s.raiseEvent e = (s.tokenTaken e).evIntake e := by
  rw [State.raiseEvent, if_neg (by omega), if_neg (by simp [hr]), if_neg ht]
  rfl

theorem raiseEvent_resetting (hr : s.ev.resetting = true) : s.raiseEvent e = s.evLose := by
  rcases Nat.lt_or_ge e.sev 7 with h | h
  · rw [State.raiseEvent, if_neg (by omega), if_pos hr]
  · rw [raiseEvent_severe h, evIntake_lost (.inl hr)]

/-- The state in which an event without a token is counted for its code. -/
def State.evSuppressed (s : State) (e : RaisedEvent) : State :=
  let u := s.bump EV_SUPPRESSED 0 EV_SUPPRESSED_COUNT
  { u with ev := { u.ev with
      suppressed := Tab.set u.ev.suppressed e.code (min (Tab.getD u.ev.suppressed e.code 0 + 1) 0xFFFFFFFF) } }

theorem raiseEvent_suppressed (hr : s.ev.resetting = false) (hsev : e.sev < 7) (ht : s.tokens e.code e.sev = 0) :
    s.raiseEvent e = s.evSuppressed e := by
  rw [State.raiseEvent, if_neg (by omega), if_neg (by simp [hr]), if_pos ht]
  rfl

/-! ### Records (R603, R610) -/

theorem keepRecord_room {cap : Nat} {held : List EvRecord} (h : held.length < cap) (r : EvRecord) :
    keepRecord cap held r = some (held ++ [r]) := if_pos h

theorem keepRecord_replaces {cap : Nat} {held : List EvRecord} (h : cap ≤ held.length) {x : EvRecord}
    (hx : held.find? (fun y => y.sev ≤ r.sev) = some x) : keepRecord cap held r = some (held.erase x ++ [r]) := by
  rw [keepRecord, if_neg (Nat.not_lt.mpr h), hx]

theorem keepRecord_drops {cap : Nat} {held : List EvRecord} (h : cap ≤ held.length) (hx : ∀ y ∈ held, r.sev < y.sev) :
    keepRecord cap held r = none := by
  have hnone : held.find? (fun y => y.sev ≤ r.sev) = none := List.find?_eq_none.mpr fun y hy => by simpa using hx y hy
  rw [keepRecord, if_neg (Nat.not_lt.mpr h), hnone]

theorem toRing_kept {ring : List EvRecord} (h : keepRecord 256 s.ev.ring r = some ring) :
    s.toRing r = { s with ev := { s.ev with ring := ring } } := by
  rw [State.toRing, h]

theorem toRing_dropped (h : keepRecord 256 s.ev.ring r = none) : s.toRing r = s.dropRecord := by
  rw [State.toRing, h]

theorem toLog_kept {log : List EvRecord} (h : keepRecord logCapacity s.ev.log r = some log) :
    s.toLog r = { s with ev := { s.ev with log := log } } := by
  rw [State.toLog, h]

/-- What the formation of a record leaves of the recorder, wherever the record goes. -/
theorem formNow_facts (s : State) (e : RaisedEvent) (always : Bool) :
    (s.formNow e always).ev.fifo = s.ev.fifo ∧ (s.formNow e always).ev.seq = s.ev.seq + 1 ∧ (s.formNow e always).ev.log = s.ev.log ∧
      Tab.get? (s.formNow e always).ev.suppressed e.code = none ∧ (s.formNow e always).ev.storeFault = s.ev.storeFault ∧
      OnlyRegs [EV_DROPPED.at 0] { s with ev := (s.formNow e always).ev } (s.formNow e always) := by
  have hsup : Tab.get? (s.recordFormed e always).ev.suppressed e.code = none := Tab.get?_erase_same _ _
  unfold State.formNow State.toRing
  dsimp only
  split
  · exact ⟨rfl, rfl, rfl, hsup, rfl, fun _ _ => rfl, rfl⟩
  · exact ⟨rfl, rfl, rfl, hsup, rfl, fun a ha => getReg_setFld_other s _ _ _ _ (by simpa using ha), rfl⟩

theorem formNow_kept {ring : List EvRecord} {always : Bool} (h : keepRecord 256 s.ev.ring (s.newRecord e) = some ring) :
    s.formNow e always = { s.recordFormed e always with ev := { (s.recordFormed e always).ev with ring := ring } } :=
  toRing_kept (s := s.recordFormed e always) h

theorem formNow_dropped {always : Bool} (h : keepRecord 256 s.ev.ring (s.newRecord e) = none) :
    s.formNow e always = (s.recordFormed e always).dropRecord := toRing_dropped (s := s.recordFormed e always) h

/-- Records that have room in the log region are all written there, and nothing else changes. -/
theorem logAll_room (rs : List EvRecord) (s : State) (h : s.ev.log.length + rs.length ≤ logCapacity) :
    s.each rs (fun r s => s.toLog r) = { s with ev := { s.ev with log := s.ev.log ++ rs } } := by
  induction rs generalizing s with
  | nil => rw [List.append_nil]; rfl
  | cons r rs ih =>
    rw [List.length_cons] at h
    rw [each_cons, toLog_kept (keepRecord_room (by omega) r), ih]
    · simp only [List.append_assoc, List.cons_append, List.nil_append]
    · simp only [List.length_append, List.length_cons, List.length_nil]
      omega

theorem ringOut_room {n : Nat} (h : s.ev.log.length + (s.ev.ring.take n).length ≤ logCapacity) : s.ringOut n =
    { s with ev := { s.ev with ring := s.ev.ring.drop n, log := s.ev.log ++ s.ev.ring.take n } } :=
  logAll_room (s.ev.ring.take n) { s with ev := { s.ev with ring := s.ev.ring.drop n } } h

theorem refillToken_tokens (s : State) (code : Nat) : (s.refillToken code).tokens code (codeSev code) =
    min (s.tokens code (codeSev code) + 1) (s.burst (codeSev code)) := by
  show min (Tab.getD (s.refillToken code).ev.tokens code (s.burst (codeSev code))) (s.burst (codeSev code)) = _
  unfold State.refillToken Tab.getD
  dsimp only
  split
  · rw [Tab.get?_erase_same]
    simp only [Option.getD_none]
    omega
  · rw [Tab.get?_set_same]
    rfl

theorem refillToken_other (s : State) {code d : Nat} (h : d ≠ code) :
    Tab.get? (s.refillToken code).ev.tokens d = Tab.get? s.ev.tokens d := by
  unfold State.refillToken
  dsimp only
  split
  · exact Tab.get?_erase_other _ h
  · exact Tab.get?_set_other _ _ h

/-! ### The clauses -/

section
variable (hup : s.plantUp = true)
include hup

theorem eventRaise_ends (e : RaisedEvent) : Ends (.eventRaise e) s (s.raiseEvent e) := by
  simp only [Ends, Runs, exec_eventRaise, execEventRaise, whenPlant_up hup]

theorem evRecordForm_ends : Ends .evRecordForm s s.formRecord := by
  simp only [Ends, Runs, exec_evRecordForm, execEvRecordForm, whenPlant_up hup]

theorem evLogWriteDone_ends : Ends .evLogWriteDone s s.logWritten := by
  simp only [Ends, Runs, exec_evLogWriteDone, execEvLogWriteDone, whenPlant_up hup]

theorem evNotifyTick_ends (port : Nat) : Ends (.evNotifyTick port) s (s.notifyTick port) := by
  simp only [Ends, Runs, exec_evNotifyTick, execEvNotifyTick, whenPlant_up hup]

theorem evClearEraseDone_ends : Ends .evClearEraseDone s s.eraseDone := by
  simp only [Ends, Runs, exec_evClearEraseDone, execEvClearEraseDone, whenPlant_up hup]

theorem storeFault_ends : Ends .storeFault s s.evStoreFault := by
  simp only [Ends, Runs, exec_storeFault, execStoreFault, whenPlant_up hup]

theorem storeBack_ends : Ends .storeBack s s.evStoreBack := by
  simp only [Ends, Runs, exec_storeBack, execStoreBack, whenPlant_up hup]

/-- An event with a token of its code, or severe, and room in the intake. -/
theorem eventRaise_taken (hr : s.ev.resetting = false) (ht : 7 ≤ e.sev ∨ s.tokens e.code e.sev ≠ 0) (hf : s.ev.fifo.length < 64) :
    ∃ u : State, Ends (.eventRaise e) s u ∧ u = { s with ev := u.ev } ∧ u.ev.fifo = s.ev.fifo ++ [e] ∧ u.ev.lostNow = s.ev.lostNow ∧
      (e.sev < 7 → u.tokens e.code e.sev = s.tokens e.code e.sev - 1) ∧ (7 ≤ e.sev → u.ev.tokens = s.ev.tokens) := by
  refine ⟨_, eventRaise_ends hup e, ?_⟩
  rcases Nat.lt_or_ge e.sev 7 with h | h
  · rw [raiseEvent_token hr h (ht.resolve_left (by omega)), evIntake_room (s := s.tokenTaken e) hr hf]
    exact ⟨rfl, rfl, rfl, fun _ => tokenTaken_tokens s e, fun h7 => by omega⟩
  · rw [raiseEvent_severe h, evIntake_room hr hf]
    exact ⟨rfl, rfl, rfl, fun h7 => by omega, fun _ => rfl⟩

/-- An event that is lost. -/
theorem eventRaise_lost (h : s.ev.resetting = true ∨ (64 ≤ s.ev.fifo.length ∧ (7 ≤ e.sev ∨ s.tokens e.code e.sev ≠ 0))) :
    ∃ u : State, Ends (.eventRaise e) s u ∧ OnlyRegs [EV_LOST.at 0] { s with ev := u.ev } u ∧ u.ev.fifo = s.ev.fifo ∧
      u.ev.lostNow = min (s.ev.lostNow + 1) 0xFFFFFFFF ∧
      u.fld EV_LOST 0 EV_LOST_COUNT = min (s.fld EV_LOST 0 EV_LOST_COUNT + 1) (2 ^ EV_LOST_COUNT.len - 1) := by
  refine ⟨_, eventRaise_ends hup e, ?_⟩
  cases hr : s.ev.resetting
  · obtain ⟨hf, ht⟩ := h.resolve_left (by simp [hr])
    rcases Nat.lt_or_ge e.sev 7 with h7 | h7
    · rw [raiseEvent_token hr h7 (ht.resolve_left (by omega)), evIntake_lost (s := s.tokenTaken e) (.inr hf)]
      exact ⟨evLose_onlyRegs (s.tokenTaken e), rfl, rfl, evLose_count (s.tokenTaken e)⟩
    · rw [raiseEvent_severe h7, evIntake_lost (.inr hf)]
      exact ⟨evLose_onlyRegs s, rfl, rfl, evLose_count s⟩
  · rw [raiseEvent_resetting hr]
    exact ⟨evLose_onlyRegs s, rfl, rfl, evLose_count s⟩

end

/-- The recorder's state once the oldest event has left the intake. -/
def State.intakeLeft (s : State) (es : List RaisedEvent) : State := { s with ev := { s.ev with fifo := es } }

theorem formRecord_front {es : List RaisedEvent} (hf : s.ev.fifo = e :: es) (hr : s.ev.resetting = false) :
    s.formRecord = (s.intakeLeft es).formNow e false := by
  rw [State.formRecord, hf]
  exact if_neg (by simp [hr])

theorem formRecord_none (h : s.ev.fifo = [] ∨ s.ev.resetting = true) : s.formRecord = s := by
  unfold State.formRecord
  split
  · rfl
  next hf => exact if_pos (h.resolve_left (by simp [hf]))

/-- Where the record of the oldest event goes (R610). -/
theorem formRecord_ring (s : State) (es : List RaisedEvent) (e : RaisedEvent) :
    (s.ev.ring.length < 256 → ((s.intakeLeft es).formNow e false).ev.ring = s.ev.ring ++ [(s.intakeLeft es).newRecord e] ∧
      ((s.intakeLeft es).formNow e false).ev.lostNow = 0) ∧
    (256 ≤ s.ev.ring.length → ∀ x, s.ev.ring.find? (fun y => y.sev ≤ e.sev) = some x →
      ((s.intakeLeft es).formNow e false).ev.ring = s.ev.ring.erase x ++ [(s.intakeLeft es).newRecord e] ∧
        ((s.intakeLeft es).formNow e false).ev.lostNow = 0) ∧
    (256 ≤ s.ev.ring.length → (∀ y ∈ s.ev.ring, e.sev < y.sev) →
      ((s.intakeLeft es).formNow e false).ev.ring = s.ev.ring ∧ ((s.intakeLeft es).formNow e false).ev.lostNow = 1) := by
  refine ⟨fun h => ?_, fun h x hx => ?_, fun h hx => ?_⟩
  · rw [formNow_kept (s := s.intakeLeft es) (keepRecord_room h _)]
    exact ⟨rfl, rfl⟩
  · rw [formNow_kept (s := s.intakeLeft es) (keepRecord_replaces h hx)]
    exact ⟨rfl, rfl⟩
  · rw [formNow_dropped (s := s.intakeLeft es) (keepRecord_drops h hx)]
    exact ⟨rfl, rfl⟩

theorem copiedBack_room (hring : s.ev.ring.length ≤ 256) (hlog : s.ev.log.length + s.ev.ring.length ≤ logCapacity) :
    ∃ r : EvRecord, s.copiedBack.ev.storeFault = false ∧ s.copiedBack.ev.log = s.ev.log ++ s.ev.ring ∧ s.copiedBack.ev.ring = [r] ∧
      r.code = 0x303 ∧ r.sev = 3 ∧ r.seq = s.ev.seq + 1 ∧ s.copiedBack = { s with ev := s.copiedBack.ev } := by
  have htake : s.ev.ring.take 256 = s.ev.ring := List.take_of_length_le hring
  have hdrop : s.ev.ring.drop 256 = [] := List.drop_of_length_le hring
  rw [State.copiedBack, ringOut_room (by rw [htake]; exact hlog), htake, hdrop, formNow_kept (keepRecord_room (by exact Nat.zero_lt_succ _) _)]
  exact ⟨_, rfl, rfl, rfl, rfl, rfl, rfl, rfl⟩

/-- Settles O55: the intake by what the bucket holds, each record by the room there is. -/
theorem eventsAreRecorded : Obligations.EventsAreRecorded := by
  intro s hup
  refine ⟨fun e => ⟨fun hr ht hf => eventRaise_taken hup hr ht hf, fun hr hsev ht => ?_, fun h => eventRaise_lost hup h⟩, fun h => ?_,
    fun e es hf hr => ?_, fun h => ?_, fun h hroom => ?_, fun code => ?_, fun port => ⟨fun h => ?_, fun h => ?_⟩, ?_, fun h => ?_,
    fun r hc hb hr => ⟨_, rfl, ?_⟩, fun h => ?_, fun h heb hring => ?_, fun h => ?_, fun h hc => ?_, fun h hc hring hlog => ?_⟩
  · refine ⟨_, eventRaise_ends hup e, ?_⟩
    rw [raiseEvent_suppressed hr hsev ht]
    refine ⟨⟨fun a ha => getReg_setFld_other s _ _ _ _ (by simpa using ha), rfl⟩, rfl, ?_⟩
    rw [Tab.getD]
    exact congrArg (Option.getD · 0) (Tab.get?_set_same _ _ _)
  · exact ends_eq (formRecord_none h) (evRecordForm_ends hup)
  · obtain ⟨hfifo, hseq, hlog, hsup, -, honly⟩ := formNow_facts (s.intakeLeft es) e false
    exact ⟨_, (s.intakeLeft es).newRecord e, ends_eq (formRecord_front hf hr) (evRecordForm_ends hup), honly, hfifo, hseq, hlog, hsup,
      rfl, rfl, rfl, rfl, rfl, rfl, rfl, rfl, rfl, formRecord_ring s es e⟩
  · exact ends_eq (if_neg (by simp [h])) (evLogWriteDone_ends hup)
  · refine ⟨_, evLogWriteDone_ends hup, ?_⟩
    rw [State.logWritten, if_pos h, ringOut_room (by rw [List.length_take]; omega)]
    exact ⟨rfl, rfl, rfl⟩
  · refine ⟨s.refillToken code, ?_, rfl, refillToken_tokens s code, fun d hd => refillToken_other s hd⟩
    simp only [Ends, Runs, exec_evTokenRefill, execEvTokenRefill, whenPlant_up hup]
  · exact ends_eq (if_pos (by simpa using h)) (evNotifyTick_ends hup port)
  · exact ends_eq (if_neg (by simpa using h)) (evNotifyTick_ends hup port)
  · simp only [Ends, Runs, exec_evScanDone, execEvScanDone, whenPlant_up hup, State.scanDone]
  · refine ends_eq (if_pos ?_) (evClearEraseDone_ends hup)
    rcases h with h | ⟨hf, hb⟩
    · exact .inl (by simp [h])
    · exact .inr ⟨hf, by simp [hb]⟩
  · have hgo : ¬ ((!s.ev.clearing) = true ∨ (s.ev.storeFault = true ∧ (!s.ev.backWait) = true)) := by
      rcases hb with hb | hb <;> simp [hc, hb]
    refine ends_eq ?_ (evClearEraseDone_ends hup)
    rw [State.eraseDone, if_neg hgo, hr] <;> rfl
  · exact ends_eq (if_pos (h.imp id fun h => by simp [h])) (storeFault_ends hup)
  · have hgo : s.evStoreFault = State.formNow { s with ev := { s.ev with storeFault := true } } ⟨0x302, 6, noInst, [], s.devNs⟩ true :=
      if_neg (by simp [h, heb])
    refine ⟨_, _, ends_eq (hgo.trans (formNow_kept (keepRecord_room hring _))) (storeFault_ends hup), rfl, rfl, rfl, rfl, rfl, rfl, rfl, rfl⟩
  · exact ends_eq (if_pos (by simp [h])) (storeBack_ends hup)
  · refine ends_eq ?_ (storeBack_ends hup)
    rw [State.evStoreBack, if_neg (by simp [h]), if_pos hc]
  · obtain ⟨r, hback⟩ := copiedBack_room hring hlog
    refine ⟨s.copiedBack, r, ends_eq ?_ (storeBack_ends hup), hback⟩
    rw [State.evStoreBack, if_neg (by simp [h]), if_neg (by simp [hc])]

end Sys2Proof.Machine
end

section
/-! Resets, starts and the ebb (R169, R170, R522 to R529, R601, R639 to R643). -/

namespace Sys2Proof.Machine

open Sys2Proof

variable {s t : State}

/-! ### COLD resets -/

/-- What a COLD start begins with. -/
def State.coldBase (s : State) (kind : Nat) : State := { s.coldKeep with pw := { s.coldKeep.pw with lastReset := kind } }

/-- The fans at full speed, where there is a climate unit. -/
def State.fansFull (s : State) : State := if s.hasCL then s.each (List.range 32) (fun f s => s.setFld CL_FAN f CL_FAN_DUTY 10000) else s

/-- The device with an identity for a pair, a new one when it has none. -/
def State.pairNamed (s : State) : State :=
  if s.pl.pairUuid = 0 then
    let u := s.newUuid
    { u.2 with pl := { u.2.pl with pairUuid := u.1 } }
  else s

/-- The device with its straps sampled and its firmware chosen. -/
def State.coldBegun (s : State) (kind : Nat) (b : BootInfo) : State :=
  (((s.coldBase kind).setFld QM_PORT 0 QM_PORT_SPLIT (b2n b.haSplit)).setFld QM_PORT 1 QM_PORT_SPLIT
    (b2n b.hbSplit)).fansFull.pairNamed.startFirmware b

/-- The memory trained and the ebb store looked at. -/
def State.coldTrained (s : State) (b : BootInfo) : State :=
  let s := (s.trainMemory b.trained).nameplateBank
  let s := if bit b.trained 3 then s else s.raise 0x804 5 noInst [3]
  let s := (s.setFld EB_GEOM 0 EB_GEOM_SLOT_GIB b.slotGib).setFld EB_GEOM 0 EB_GEOM_TARGETS b.targets
  if s.hasEB then s.scanSlots.restoreMirror else s

theorem coldStart_testMode {b : BootInfo} (h : b.testMode = true) (kind : Nat) : s.coldStart kind b =
    { s.coldBase kind with pw := { (s.coldBase kind).pw with power := .inReset } } := if_pos h

theorem coldStart_run {b : BootInfo} (h : b.testMode = false) (kind : Nat) : s.coldStart kind b =
    if (s.coldBegun kind b).boot.romHeld then s.coldBegun kind b
    else ((s.coldBegun kind b).coldTrained b).gateLanes.findOutputs.winRecompute := if_neg (by simp [h])

section
variable {P : State → Prop} (H : Stable P)
include H

theorem fansFull_stable (h : P s) : P s.fansFull := by
  unfold State.fansFull
  split
  · exact each_stable P _ _ (fun _ _ ht => setFld_stable H ht _ _ _ _) h
  · exact h

theorem pairNamed_stable (h : P s) : P s.pairNamed := by
  unfold State.pairNamed
  split
  · exact H.upd (newUuid_stable H h)
  · exact h

theorem coldTrained_stable (h : P s) (b : BootInfo) : P (s.coldTrained b) := by
  have htrain : P (s.trainMemory b.trained).nameplateBank := nameplateBank_stable H (trainMemory_stable H h _)
  have hraise : P (if bit b.trained 3 then (s.trainMemory b.trained).nameplateBank
      else (s.trainMemory b.trained).nameplateBank.raise 0x804 5 noInst [3]) :=
    ite_stable P htrain (raise_stable H htrain _ _ _ _)
  have hgeom := setFld_stable H (setFld_stable H hraise EB_GEOM 0 EB_GEOM_SLOT_GIB b.slotGib) EB_GEOM 0 EB_GEOM_TARGETS b.targets
  exact ite_stable P (restoreMirror_stable H (scanSlots_stable H hgeom)) hgeom

/-- What the updates of a COLD start keep holds after it, once it holds of what a COLD reset keeps. -/
theorem coldStart_of_coldKeep (h : P s.coldKeep) (kind : Nat) (b : BootInfo) : P (s.coldStart kind b) := by
  have hbase : P (s.coldBase kind) := H.upd h
  cases htest : b.testMode
  · have hbegun : P (s.coldBegun kind b) := startFirmware_stable H (pairNamed_stable H (fansFull_stable H
      (setFld_stable H (setFld_stable H hbase _ _ _ _) _ _ _ _))) b
    rw [coldStart_run htest]
    exact ite_stable P hbegun (winRecompute_stable H (findOutputs_stable H (gateLanes_stable H (coldTrained_stable H hbegun b))))
  · rw [coldStart_testMode htest]
    exact H.upd hbase

end

/-- What a COLD reset keeps and loses. -/
theorem coldStart_spec (s : State) (kind : Nat) (b : BootInfo) : (s.coldStart kind b).dram = [] ∧ (s.coldStart kind b).sram = [] ∧
    (∀ f ∈ s.sec.fuses, f ∈ (s.coldStart kind b).sec.fuses) ∧ (∀ k ∈ s.sec.enrolled, k ∈ (s.coldStart kind b).sec.enrolled) ∧
    (b.testMode = true → (s.coldStart kind b).pw.power = .inReset ∧ (s.coldStart kind b).regs = []) := by
  obtain ⟨hdram, hsram⟩ := coldStart_of_coldKeep (sameMemory_stable s.coldKeep) ⟨rfl, rfl⟩ kind b
  obtain ⟨hfuses, henrolled, -, -⟩ := coldStart_stable (fusedSince_stableMem s) ⟨fun _ => id, fun _ => id, rfl, rfl⟩ kind b
  refine ⟨hdram, hsram, hfuses, henrolled, fun h => ?_⟩
  rw [coldStart_testMode h]
  exact ⟨rfl, rfl⟩

/-! ### The recorder before a reset (R523, R613) -/

/-- `t` is `s` but for the recorder and register values. -/
def Recorded (s t : State) : Prop := t = { s with regs := t.regs, ev := t.ev }

namespace Recorded

theorem refl (s : State) : Recorded s s := rfl

theorem trans {u : State} (h : Recorded s t) (k : Recorded t u) : Recorded s u := by
  unfold Recorded at h k ⊢
  rw [k, h]

/-- A part of the state that is neither of the two is kept. -/
theorem keeps (h : Recorded s t) {β : Type} (g : State → β)
    (hg : ∀ (x : State) (r : List (Nat × Word)) (e : EvUnit), g { x with regs := r, ev := e } = g x) : g t = g s := by
  rw [h, hg]

theorem dropRecord (s : State) : Recorded s s.dropRecord := rfl

theorem toRing (s : State) (r : EvRecord) : Recorded s (s.toRing r) := by
  unfold State.toRing
  split
  · rfl
  · exact dropRecord s

theorem toLog (s : State) (r : EvRecord) : Recorded s (s.toLog r) := by
  unfold State.toLog
  split
  · rfl
  · exact dropRecord s

theorem formNow (s : State) (e : RaisedEvent) (always : Bool) : Recorded s (s.formNow e always) :=
  (show Recorded s (s.recordFormed e always) from rfl).trans (toRing _ _)

theorem formRecord (s : State) : Recorded s s.formRecord := by
  unfold State.formRecord
  split
  · rfl
  · split
    · rfl
    · exact (show Recorded s (s.intakeLeft _) from rfl).trans (formNow _ _ _)

theorem formAll (s : State) : Recorded s s.formAll :=
  each_stable (Recorded s) _ _ (fun _ _ h => h.trans (formRecord _)) (refl s)

theorem ringOut (s : State) (n : Nat) : Recorded s (s.ringOut n) :=
  each_stable (Recorded s) _ _ (fun _ _ h => h.trans (toLog _ _)) rfl

theorem ringSaved (s : State) : Recorded s s.ringSaved := by
  unfold State.ringSaved
  split
  · exact ringOut s 256
  · rfl

end Recorded

/-! ### Entry to EBB (R169, R535, R597) -/

/-- In EBB, with the ebb store as `e` says. -/
def Ebbing (e : EbUnit) (t : State) : Prop := t.pw.power = .ebb ∧ t.eb = e

namespace Ebbing

variable {e : EbUnit}

theorem setFld (h : Ebbing e t) (r : Reg) (i : Nat) (f : Fld) (v : Nat) : Ebbing e (t.setFld r i f v) := h

theorem setCl (h : Ebbing e t) (c : ClUnit) : Ebbing e { t with cl := c } := h

theorem emit (h : Ebbing e t) (o : Out) : Ebbing e (t.emit o) := h

theorem setFlds (h : Ebbing e t) (ks : List Nat) (r : Reg) (f : Fld) (v : Nat) : Ebbing e (t.each ks (fun k s => s.setFld r k f v)) :=
  each_stable (Ebbing e) ks _ (fun k _ hx => hx.setFld r k f v) h

theorem switchLoad (h : Ebbing e t) (on : Bool) : Ebbing e (t.switchLoad on) := (h.setFlds _ _ _ _).setFld _ _ _ _

theorem xmStopFw (h : Ebbing e t) (n : Nat) : Ebbing e (t.xmStopFw n) := by
  unfold State.xmStopFw
  split
  · exact h.setFld _ _ _ _
  · exact h

theorem dropTest (h : Ebbing e t) : Ebbing e t.dropTest := by
  unfold State.dropTest
  dsimp only
  split
  · exact (((h.xmStopFw 30).setCl _).switchLoad false).setFld _ _ _ _
  · exact ((h.setCl _).switchLoad false).setFld _ _ _ _

theorem setCharger (h : Ebbing e t) (v : Nat) : Ebbing e (t.setCharger v) := ((((h.setFld _ _ _ _).setFld _ _ _ _).emit _).emit _)

theorem climateEbb (h : Ebbing e t) : Ebbing e t.climateEbb := by
  unfold State.climateEbb
  split
  · exact h
  · exact (((h.dropTest.setFlds _ _ _ _).setFlds _ _ _ _).setCharger _).setFld _ _ _ _

end Ebbing

/-- In EBB with the mover's channels but 31 stopped. -/
def EbbStopped (e : EbUnit) (t : State) : Prop :=
  Ebbing e t ∧ ∀ n, n < 31 → t.fld XM_CH_STATUS n XM_CH_STATUS_STATE = xmStopped

namespace EbbStopped

variable {e : EbUnit}

theorem setReg (h : EbbStopped e t) {a : Nat} (ha : ∀ n, n < 31 → XM_CH_STATUS.at n ≠ a) (v : Word) : EbbStopped e (t.setReg a v) :=
  ⟨h.1, fun n hn => (fld_setReg_other t (ha n hn) _ v).trans (h.2 n hn)⟩

theorem setXmChan (h : EbbStopped e t) (n : Nat) (c : XmChan) : EbbStopped e (t.setXmChan n c) := h

theorem draw (h : EbbStopped e t) (f : Nat → Nat) : EbbStopped e (t.draw f).2 := h

/-- Starting channel 31 leaves the others stopped. -/
theorem xmStartFw (h : EbbStopped e t) (program : List (List Byte)) : EbbStopped e (t.xmStartFw 31 program) := by
  have hstatus (n : Nat) (hn : n < 31) : XM_CH_STATUS.at n ≠ XM_CH_STATUS.at 31 := at_ne_of_index_ne (by decide) (by omega)
  have hremain (n : Nat) (hn : n < 31) : XM_CH_STATUS.at n ≠ XM_CH_REMAIN.at 31 := at_ne_of_phase (by decide) n 31
  have hpclo (n : Nat) (hn : n < 31) : XM_CH_STATUS.at n ≠ XM_CH_PC_LO.at 31 := at_ne_of_phase (by decide) n 31
  have hpchi (n : Nat) (hn : n < 31) : XM_CH_STATUS.at n ≠ XM_CH_PC_HI.at 31 := at_ne_of_phase (by decide) n 31
  have hloop (k n : Nat) (hn : n < 31) : XM_CH_STATUS.at n ≠ XM_CH_LOOP.at2 31 k := by
    show 0x600010 + n * 0x400 ≠ 0x600030 + 31 * 0x400 + k * 4
    omega
  have hloops := foldl_stable (EbbStopped e) (fun (t : State) k => t.setXmLoop 31 k 0) (List.range 4) (fun x k hx => hx.setReg (hloop k) _)
    ((h.draw Config.freeNat).setXmChan 31 ⟨none, [], none, program, 32 * ((t.draw Config.freeNat).1 % 2 ^ 20)⟩)
  exact (((((((hloops.setReg hstatus _).setReg hstatus _).setReg hstatus _).setReg hremain 0).setReg hpclo _).setReg hpchi _).setReg
    hstatus _)

end EbbStopped

theorem xmStartFw_state (s : State) (n : Nat) (program : List (List Byte)) :
    (s.xmStartFw n program).fld XM_CH_STATUS n XM_CH_STATUS_STATE = xmRun :=
  fld_setFld_same _ _ _ _ _ (by decide)

theorem xmHalt_state (s : State) (n : Nat) : (s.xmHalt n xmStopped).fld XM_CH_STATUS n XM_CH_STATUS_STATE = xmStopped :=
  fld_setFld_same _ _ _ _ _ (by decide)

theorem xmHalt_other {m n : Nat} (h : m ≠ n) (s : State) (v : Nat) :
    (s.xmHalt n v).fld XM_CH_STATUS m XM_CH_STATUS_STATE = s.fld XM_CH_STATUS m XM_CH_STATUS_STATE :=
  fld_setFld_other (s.setXmChan n _) _ _ _ _ _ _ _ (at_ne_of_index_ne (by decide) h)

/-- The channels but 31 stopped, one after the other. -/
def State.moverHalted (s : State) : State := s.each (List.range 31) (fun n s => s.xmHalt n xmStopped)

theorem moverHalted_stopped {e : EbUnit} (h : Ebbing e s) : EbbStopped e s.moverHalted := by
  refine ⟨each_stable (Ebbing e) _ _ (fun n x hx => ?_) h, fun n hn => ?_⟩
  · exact hx
  · have hin : n ∈ List.range 31 := List.mem_range.mpr hn
    refine each_reaches (Pre := fun _ => True) (Post := fun x => x.fld XM_CH_STATUS n XM_CH_STATUS_STATE = xmStopped) hin
      (fun n s => s.xmHalt n xmStopped) (fun _ _ _ _ => trivial) (fun x _ => xmHalt_state x n) (fun m x hx => ?_) trivial
    rcases Classical.em (n = m) with rfl | hne
    · exact xmHalt_state x n
    · exact (xmHalt_other hne x xmStopped).trans hx

/-- The flush is on channel 31 when there is a slot for it; the others stay stopped. -/
theorem startFlush_spec {e : EbUnit} (h : EbbStopped e s) : EbbStopped e s.startFlush ∧
    ∀ i, e.running = some (some i) → s.startFlush.fld XM_CH_STATUS 31 XM_CH_STATUS_STATE = xmRun := by
  have he : s.eb = e := h.1.2
  unfold State.startFlush
  rw [he]
  split
  next =>
    have hcfg (n : Nat) (hn : n < 31) : XM_CH_STATUS.at n ≠ XM_CH_CFG.at 31 := at_ne_of_phase (by decide) n 31
    refine ⟨EbbStopped.xmStartFw (EbbStopped.setReg (EbbStopped.draw (EbbStopped.draw ?_ _) _) hcfg _) _, fun _ _ => xmStartFw_state _ _ _⟩
    exact foldl_snd_stable (EbbStopped e) _ _ _ (fun _ _ hx => hx) h
  next hne => exact ⟨h, fun i hi => absurd hi (hne i)⟩

/-- The state in which the memory is out of self-refresh. -/
def State.refreshLeft (s : State) : State :=
  s.each ((List.range 64).filter (fun ch => s.fld MC_CH_STATUS ch MC_CH_STATUS_STATE = 2)) (fun ch s =>
    s.setFld MC_CH_STATUS ch MC_CH_STATUS_STATE 0)

/-- The domains of the ebb path alone are on. -/
def State.pathDomains (s : State) : State :=
  { s with pw := { s.pw with doms := ((List.range 192).filter ebbGated).map (fun d => (d, 2)), idleGated := [], ungating := [] } }

theorem ebbPath_eq (h : s.pw.power = .ebb) : s.ebbPath = s.refreshLeft.moverHalted.startFlush.pathDomains := if_neg (by simp [h])

theorem ebbPath_spec {e : EbUnit} (h : Ebbing e s) : EbbStopped e s.ebbPath ∧
    ∀ i, e.running = some (some i) → s.ebbPath.fld XM_CH_STATUS 31 XM_CH_STATUS_STATE = xmRun := by
  have hleft : Ebbing e s.refreshLeft := h.setFlds _ _ _ _
  obtain ⟨hstop, hrun⟩ := startFlush_spec (moverHalted_stopped hleft)
  rw [ebbPath_eq h.1]
  exact ⟨hstop, hrun⟩

end Sys2Proof.Machine
end

section
/-! What resets and the ebb keep and lose, command by command. -/

namespace Sys2Proof.Machine

open Sys2Proof

variable {s t : State}

/-! ### Power that fails -/

/-- A state in which the device runs, or leaves a state in which it did. -/
def Power.live (p : Power) : Prop := p = .run ∨ p = .harbourPrep ∨ p = .harbour ∨ p = .harbourExit ∨ p = .warmPrep

theorem powerFail_live (h : s.pw.power.live) : s.powerFail =
    if s.boot.fwReady then s.formAll.ringSaved.enterEbb 1
    else { s with pw := { s.pw with power := .inReset, boot := none, warmKind := none } } := by
  unfold State.powerFail
  rcases h with h | h | h | h | h <;> rw [h]

/-- The state with the ebb begun. -/
def State.ebbBegun (s : State) (trigger : Nat) : State :=
  { s with
      pw := { s.pw with power := .ebb, epoch := none, phyDue := false, prepStep := 0 }
      eb := { s.eb with running := some s.ebTarget, lastTrigger := trigger, lastMs := 0, lastComplete := false } }

theorem enterEbb_eq (h : s.pw.power ≠ .ebb ∧ s.pw.power ≠ .off) (trigger : Nat) :
    s.enterEbb trigger = (s.ebbBegun trigger).climateEbb.ebbPath := by
  rw [State.enterEbb, State.startEbb, if_neg (not_or.mpr h)]
  rfl

/-- Power that fails brings EBB with its trigger; the mover's channels stop but 31. -/
theorem powerFail_ebb (h : s.pw.power.live) (hfw : s.boot.fwReady = true) :
    s.powerFail.pw.power = .ebb ∧ s.powerFail.eb.lastTrigger = 1 ∧ s.powerFail.eb.lastMs = 0 ∧ s.powerFail.eb.lastComplete = false ∧
      s.powerFail.eb.running.isSome = true ∧ s.powerFail.dram = s.dram ∧ s.powerFail.sram = s.sram ∧
      (∀ i, s.powerFail.eb.running = some (some i) → s.powerFail.fld XM_CH_STATUS 31 XM_CH_STATUS_STATE = xmRun) ∧
      ∀ n, n < 31 → s.powerFail.fld XM_CH_STATUS n XM_CH_STATUS_STATE = xmStopped := by
  obtain ⟨hdram, hsram⟩ := powerFail_stable (sameMemory_stable s) ⟨rfl, rfl⟩
  have hrec : Recorded s s.formAll.ringSaved := (Recorded.formAll s).trans (Recorded.ringSaved _)
  have hpw : s.formAll.ringSaved.pw.power = s.pw.power := hrec.keeps (·.pw.power) fun _ _ _ => rfl
  have hlive : s.formAll.ringSaved.pw.power ≠ .ebb ∧ s.formAll.ringSaved.pw.power ≠ .off := by
    rw [hpw]
    rcases h with h | h | h | h | h <;> rw [h] <;> decide
  have heq : s.powerFail = (s.formAll.ringSaved.ebbBegun 1).climateEbb.ebbPath := by
    rw [powerFail_live h, if_pos hfw, enterEbb_eq hlive]
  have hbegun : Ebbing (s.formAll.ringSaved.ebbBegun 1).eb (s.formAll.ringSaved.ebbBegun 1) := ⟨rfl, rfl⟩
  obtain ⟨⟨⟨hpower, heb⟩, hstop⟩, hrun⟩ := ebbPath_spec hbegun.climateEbb
  rw [← heq] at hpower heb hstop hrun
  refine ⟨hpower, ?_, ?_, ?_, ?_, hdram, hsram, fun i hi => hrun i (heb ▸ hi), hstop⟩ <;> rw [heb] <;> rfl

/-! ### The end of an ebb -/

/-- What an ebb writes last: the state in which a slot holds the image, under the next sequence number. -/
def State.imaged (s : State) (i : Nat) : State :=
  let d := s.draw Config.freeNat
  let e := d.2.draw id
  let s := e.2
  let x : EbSlot := { image := some (s.ebImage i (d.1 % 2 ^ 256) e.1), consumed := false, ready := false,
                      erasing := false, programmed := true }
  let q := s.eb.seq + 1
  let s := s.setEbSlot i x
  { s with eb := { s.eb with seq := q, seqSlot := i, lastComplete := true } }

/-- The state in which a slot holds no image of this ebb. -/
def State.spoiled (s : State) (i : Nat) : State := s.setEbSlot i { s.ebSlot i with ready := false, programmed := true }

/-- The state in which no ebb runs and every domain is gated. -/
def State.ebbOver (s : State) : State := State.gateAll { s with eb := { s.eb with running := none } }

theorem endEbb_imaged {i : Nat} (h : s.eb.running = some (some i)) (hx : s.fld XM_CH_STATUS 31 XM_CH_STATUS_STATE ≠ xmError) :
    s.endEbb true = (s.imaged i).ebbOver := by
  have hgo : (true && s.fld XM_CH_STATUS 31 XM_CH_STATUS_STATE != 5) = true := by simpa [xmError] using hx
  rw [State.endEbb, h]
  dsimp only
  rw [if_pos hgo]
  rfl

theorem endEbb_spoiled {i : Nat} {b : Bool} (h : s.eb.running = some (some i))
    (hx : b = false ∨ s.fld XM_CH_STATUS 31 XM_CH_STATUS_STATE = xmError) : s.endEbb b = (s.spoiled i).ebbOver := by
  have hgo : ¬ (b && s.fld XM_CH_STATUS 31 XM_CH_STATUS_STATE != 5) = true := by
    rcases hx with hx | hx
    · simp [hx]
    · rw [hx]
      simp [xmError]
  rw [State.endEbb, h]
  dsimp only
  rw [if_neg hgo]
  rfl

theorem ebbEnd_brings (s : State) (b : Bool) : Brings (.ebbEnd b) s (s.endEbb b) := by
  simp only [Brings, Runs, exec_ebbEnd, execEbbEnd, State.anyTime]

theorem ebSlot_ebbOver (s : State) (i : Nat) : s.ebbOver.ebSlot i = s.ebSlot i := rfl

/-- The slot that is set, when there is such a slot. -/
theorem ebSlot_setEbSlot {i : Nat} (h : i < s.eb.slots.length) (x : EbSlot) : (s.setEbSlot i x).ebSlot i = x := by
  show (s.eb.slots.set i x).getD i EbSlot.blank = x
  rw [List.getD_eq_getElem?_getD, List.getElem?_set_self h]
  rfl

theorem getD_of_length_le {α : Type} {l : List α} {n : Nat} (h : l.length ≤ n) (d : α) : l.getD n d = d :=
  (List.getD_eq_getElem?_getD ..).trans (congrArg (Option.getD · d) (List.getElem?_eq_none h))

/-- A slot is what it is set to, or there is none. -/
theorem ebSlot_setEbSlot_image (s : State) (i : Nat) (x : EbSlot) (hx : x.image = none) : ((s.setEbSlot i x).ebSlot i).image = none := by
  rcases Nat.lt_or_ge i s.eb.slots.length with h | h
  · rw [ebSlot_setEbSlot h, hx]
  · show ((s.eb.slots.set i x).getD i EbSlot.blank).image = none
    rw [getD_of_length_le (by rwa [List.length_set])]
    rfl

/-! ### A device without power (R640, R641) -/

/-- The state in which an ebb in progress has ended without a header. -/
def State.ebbCut (s : State) : State :=
  match s.eb.running with
  | some (some i) => s.setEbSlot i { s.ebSlot i with ready := false, image := none, programmed := true }
  | _ => s

theorem suppliesGone_eq (s : State) (vaon : Bool) : s.suppliesGone vaon =
    if vaon then { s.ebbCut.goOff with eb := { s.ebbCut.goOff.eb with lastTrigger := 0, lastMs := 0, lastComplete := false } }
    else s.ebbCut.goOff := rfl

theorem ebbCut_frame (s : State) : s.ebbCut = { s with eb := { s.eb with slots := s.ebbCut.eb.slots } } := by
  unfold State.ebbCut
  split <;> rfl

theorem ebbCut_image {i : Nat} (h : s.eb.running = some (some i)) : (s.ebbCut.ebSlot i).image = none := by
  rw [State.ebbCut, h]
  exact ebSlot_setEbSlot_image s i _ rfl

/-- What is left of a device whose rails are gone. -/
theorem suppliesGone_spec (s : State) (vaon : Bool) : (s.suppliesGone vaon).pw.power = .off ∧ (s.suppliesGone vaon).dram = [] ∧
    (s.suppliesGone vaon).sec.fuses = s.sec.fuses ∧
    (vaon = true → (s.suppliesGone vaon).eb.lastTrigger = 0 ∧ (s.suppliesGone vaon).eb.lastMs = 0 ∧
      (s.suppliesGone vaon).eb.lastComplete = false) ∧
    (vaon = false → (s.suppliesGone vaon).eb.lastTrigger = s.eb.lastTrigger ∧ (s.suppliesGone vaon).eb.lastMs = s.eb.lastMs) ∧
    ∀ i, s.eb.running = some (some i) → ((s.suppliesGone vaon).ebSlot i).image = none := by
  have hfuses : s.ebbCut.sec.fuses = s.sec.fuses := by rw [ebbCut_frame]
  have htrigger : s.ebbCut.eb.lastTrigger = s.eb.lastTrigger := by rw [ebbCut_frame]
  have hms : s.ebbCut.eb.lastMs = s.eb.lastMs := by rw [ebbCut_frame]
  rw [suppliesGone_eq]
  cases vaon
  · exact ⟨rfl, rfl, hfuses, fun h => absurd h (by decide), fun _ => ⟨htrigger, hms⟩, fun i hi => ebbCut_image hi⟩
  · exact ⟨rfl, rfl, hfuses, fun _ => ⟨rfl, rfl, rfl⟩, fun h => absurd h (by decide), fun i hi => ebbCut_image hi⟩

/-- What a command leaves of a device that is off, with nothing more to end. -/
theorem runs_off {c : Instr} {u : State} (h : Brings c s u) (hoff : u.pw.power = .off ∨ u.pw.power = .ebb ∨ u.boot.fwReady = false) :
    Runs c s u := by
  have hup : u.up = false := by
    rcases hoff with h | h | h <;> simp [State.up, h]
  rwa [Brings, if_neg (by simp [hup])] at h

/-! ### The retention check (R526, R527) -/

/-- The state in which the check has its result, before what it retains or discards is dealt with. -/
def State.retentionSet (s : State) (pass : Bool) : State :=
  let u := if s.pw.record then s else s.raise 0x204 5 noInst
  { u with pw := { u.pw with checkDue := false, retained := pass, power := .run } }

/-- The state in which the result has taken its effect. -/
def State.retentionKept (s : State) (pass : Bool) : State :=
  if pass then (s.retentionSet pass).layTable else (s.retentionSet pass).discardDram

theorem retentionDone_due (h : s.pw.checkDue = true) (sr ecc rec : Bool) :
    s.retentionDone sr ecc rec = (s.retentionKept (sr && ecc && rec)).winRecompute.admitHeld := by
  rw [State.retentionDone, if_neg (by simp [h])]
  rfl

theorem retentionSet_frame (s : State) (pass : Bool) : (s.retentionSet pass).dram = s.dram ∧ (s.retentionSet pass).se = s.se ∧
    (s.retentionSet pass).qm = s.qm ∧ (s.retentionSet pass).pw = { s.pw with checkDue := false, retained := pass, power := .run } := by
  unfold State.retentionSet
  dsimp only
  split
  · exact ⟨rfl, rfl, rfl, rfl⟩
  · rw [raise_dram, raise_se, raise_qm, raise_pw]
    exact ⟨rfl, rfl, rfl, rfl⟩

theorem layTable_frame (s : State) : s.layTable = { s with sec := s.layTable.sec } := by
  unfold State.layTable
  split <;> rfl

/-- What the check retains, and what it discards. -/
theorem retentionKept_spec (s : State) (pass : Bool) :
    (s.retentionKept pass).pw = { s.pw with checkDue := false, retained := pass, power := .run } ∧
    (pass = true → (s.retentionKept pass).dram = s.dram ∧ (s.retentionKept pass).se = s.se ∧ (s.retentionKept pass).qm = s.qm) ∧
    (pass = false → (s.retentionKept pass).dram = [] ∧ (s.retentionKept pass).qm.orphans = [] ∧ (s.retentionKept pass).se.sets = [] ∧
      (s.retentionKept pass).se.stripes = [] ∧ (s.retentionKept pass).se.pending = []) := by
  obtain ⟨hdram, hse, hqm, hpw⟩ := retentionSet_frame s pass
  cases pass
  · exact ⟨hpw, fun h => absurd h (by decide), fun _ => ⟨rfl, rfl, rfl, rfl, rfl⟩⟩
  · have heq : s.retentionKept true = (s.retentionSet true).layTable := rfl
    rw [heq, layTable_frame]
    exact ⟨hpw, fun _ => ⟨hdram, hse, hqm⟩, fun h => absurd h (by decide)⟩

/-! ### The commands -/

theorem coldReset_brings (s : State) (b : BootInfo) : Brings (.coldReset b) s (s.powerGood b) := by
  simp only [Brings, Runs, exec_coldReset, execColdReset, State.anyTime]

theorem ebbRestart_brings (s : State) (b : BootInfo) : Brings (.ebbRestart b) s (s.powerBack b) := by
  simp only [Brings, Runs, exec_ebbRestart, execEbbRestart, State.anyTime]

theorem warmReset_brings (s : State) (b : BootInfo) : Brings (.warmReset b) s (s.warmRequest b) := by
  simp only [Brings, Runs, exec_warmReset, execWarmReset, State.anyTime]

theorem warmPrepTimeout_brings (s : State) (b : BootInfo) : Brings (.warmPrepTimeout b) s (s.prepTimeout b) := by
  simp only [Brings, Runs, exec_warmPrepTimeout, execWarmPrepTimeout, State.anyTime]

theorem resetNRise_brings (s : State) : Brings .resetNRise s s.resetRise := by
  simp only [Brings, Runs, exec_resetNRise, execResetNRise, State.anyTime]

theorem retentionCheckDone_brings (s : State) (sr ecc rec : Bool) : Brings (.retentionCheckDone sr ecc rec) s (s.retentionDone sr ecc rec) := by
  simp only [Brings, Runs, exec_retentionCheckDone, execRetentionCheckDone, State.anyTime]

theorem pwrgdFall_brings (s : State) : Brings .pwrgdFall s s.powerLost := by
  simp only [Brings, Runs, exec_pwrgdFall, execPwrgdFall, State.anyTime]

theorem suppliesRemoved_brings (s : State) (vaon : Bool) : Brings (.suppliesRemoved vaon) s (s.suppliesGone vaon) := by
  simp only [Brings, Runs, exec_suppliesRemoved, execSuppliesRemoved, State.anyTime]

theorem ebbEntry_brings (s : State) : Brings .ebbEntry s s.powerFail := by
  simp only [Brings, Runs, exec_ebbEntry, execEbbEntry, State.anyTime]

/-- RESET_N falls on a device that runs or is in HARBOUR. -/
theorem warmRequest_begins {b : BootInfo} (h : s.pw.power = .run ∨ s.pw.power = .harbourPrep ∨ s.pw.power = .harbour ∨ s.pw.power = .harbourExit) :
    s.warmRequest b = { s with pw := { s.pw with
      power := .warmPrep, warmKind := some 1, boot := some b, resetN := false, epoch := none, phyDue := false, prepStep := 0 } } := by
  unfold State.warmRequest
  rcases h with h | h | h | h <;> rw [h]

theorem warmRequest_prepared {b : BootInfo} {k : Nat} (h : s.pw.power = .warmPrep) (hr : s.pw.resetN = true) (hk : s.pw.warmKind = some k) :
    s.warmRequest b = s.warmReset k true b := by
  unfold State.warmRequest
  rw [h]
  dsimp only
  rw [if_pos hr, hk]
  rfl

theorem warmRequest_ignored {b : BootInfo} (h : s.pw.power = .ebb ∨ s.pw.power = .off ∨ s.pw.power = .inReset) : s.warmRequest b = s := by
  unfold State.warmRequest
  rcases h with h | h | h <;> rw [h]

/-- The state in which RESET_N has risen. -/
def State.resetHigh (s : State) : State := { s with pw := { s.pw with resetN := true } }

section
variable {b : BootInfo} {k : Nat} (hb : s.pw.boot = some b) (hk : s.pw.warmKind = some k)
include hb hk

theorem resetRise_prepared (h : s.pw.power = .warmPrep) (hr : s.pw.resetN = false) : s.resetRise = s.resetHigh.warmReset k true b := by
  unfold State.resetRise State.resetHigh
  dsimp only
  rw [h, hb, hk, hr]
  exact if_neg Bool.false_ne_true

theorem resetRise_held (h : s.pw.power = .inReset) : s.resetRise = s.resetHigh.warmStart k s.pw.record b := by
  unfold State.resetRise State.resetHigh
  dsimp only
  rw [h, hb, hk]

end

/-- The end of an ebb whose header is read back, or is not (R170, R601). -/
theorem ebbEnd_slot {i : Nat} (h : s.eb.running = some (some i)) (hi : i < s.eb.slots.length) :
    (s.fld XM_CH_STATUS 31 XM_CH_STATUS_STATE = xmError → ∃ u : State, Brings (.ebbEnd true) s u ∧ u.eb.running = none ∧
      u.eb.seq = s.eb.seq ∧ (u.ebSlot i).image = (s.ebSlot i).image ∧ (u.ebSlot i).ready = false) ∧
    (s.fld XM_CH_STATUS 31 XM_CH_STATUS_STATE ≠ xmError → ∃ (u : State) (e : EbbImage), Brings (.ebbEnd true) s u ∧ u.eb.running = none ∧
      u.eb.seq = s.eb.seq + 1 ∧ u.eb.seqSlot = i ∧ u.eb.lastComplete = true ∧ (u.ebSlot i).image = some e ∧ e.seq = s.eb.seq + 1 ∧
      e.trigger = s.eb.lastTrigger ∧ e.tables.stripes = s.se.stripes ∧ u.regs = s.regs) ∧
    (∃ u : State, Brings (.ebbEnd false) s u ∧ u.eb.running = none ∧ u.eb.seq = s.eb.seq ∧ (u.ebSlot i).ready = false ∧ u.regs = s.regs) := by
  have hspoiled : (s.spoiled i).ebbOver.ebSlot i = { s.ebSlot i with ready := false, programmed := true } := ebSlot_setEbSlot hi _
  refine ⟨fun hx => ⟨(s.spoiled i).ebbOver, brings_eq (endEbb_spoiled h (.inr hx)) (ebbEnd_brings s true), rfl, rfl, ?_, ?_⟩, fun hx => ?_,
    ⟨(s.spoiled i).ebbOver, brings_eq (endEbb_spoiled h (.inl rfl)) (ebbEnd_brings s false), rfl, rfl, ?_, rfl⟩⟩
  · rw [hspoiled]
  · rw [hspoiled]
  · have himage : (s.imaged i).ebbOver.ebSlot i = _ := ebSlot_setEbSlot (s := ((s.draw Config.freeNat).2.draw id).2) hi _
    refine ⟨(s.imaged i).ebbOver, _, brings_eq (endEbb_imaged h hx) (ebbEnd_brings s true), rfl, rfl, rfl, rfl,
      (congrArg EbSlot.image himage).trans rfl, rfl, rfl, rfl, rfl⟩
  · rw [hspoiled]

/-- Settles O57: each command by the power state it finds. -/
theorem resetsKeepWhatTheyMust : Obligations.ResetsKeepWhatTheyMust := by
  intro s b
  refine ⟨fun h hr => ?_, fun h => ⟨s.coldStart 0 b, ?_, rfl, coldStart_spec s 0 b⟩, fun h hr => ?_, fun h hb => ?_, fun h => ?_, fun h => ?_,
    fun h hr k hk => ?_, fun h => ?_, fun h => ?_, fun h => ?_, fun k hb hk => ⟨fun h hr => ?_, fun h => ?_⟩,
    fun sr ecc rec => ⟨fun h => ?_, fun h => ?_⟩, fun h => ?_, fun h => ⟨s.goOff, ?_, rfl, rfl, rfl, rfl, rfl, rfl, rfl, rfl⟩,
    fun vaon => ⟨s.suppliesGone vaon, ?_, suppliesGone_spec s vaon⟩, fun h => ?_, fun h => ⟨fun hfw => ⟨s.powerFail, ?_, powerFail_ebb h hfw⟩,
    fun hfw => ?_⟩, fun h => ?_, fun h => ?_, fun h c => ?_, fun i h hi => ebbEnd_slot h hi⟩
  · exact brings_eq (if_pos ⟨h, hr⟩) (coldReset_brings s b)
  · refine brings_eq (if_neg ?_) (coldReset_brings s b)
    rintro ⟨he, hr⟩
    exact h.elim (fun hne => hne he) fun hn => by simp [hn] at hr
  · refine brings_eq ?_ (ebbRestart_brings s b)
    rw [State.powerBack, h]
    exact if_pos (by simp [hr])
  · refine brings_eq ?_ (ebbRestart_brings s b)
    rw [State.powerBack, h]
    exact if_pos (by simp [hb])
  · refine brings_eq ?_ (ebbRestart_brings s b)
    rw [State.powerBack, h]
  · exact brings_eq (warmRequest_begins h) (warmReset_brings s b)
  · exact brings_eq (warmRequest_prepared h hr hk) (warmReset_brings s b)
  · exact brings_eq (warmRequest_ignored h) (warmReset_brings s b)
  · exact brings_eq (if_pos h) (warmPrepTimeout_brings s b)
  · exact brings_eq (if_neg h) (warmPrepTimeout_brings s b)
  · exact brings_eq (resetRise_prepared hb hk h hr) (resetNRise_brings s)
  · exact brings_eq (resetRise_held hb hk h) (resetNRise_brings s)
  · exact brings_eq (if_pos (by simp [h])) (retentionCheckDone_brings s sr ecc rec)
  · obtain ⟨hpw, hkept, hlost⟩ := retentionKept_spec s (sr && ecc && rec)
    refine ⟨s.retentionKept (sr && ecc && rec), brings_eq (retentionDone_due h sr ecc rec) (retentionCheckDone_brings s sr ecc rec),
      by rw [hpw], by rw [hpw], by rw [hpw], fun h1 h2 h3 => hkept (by rw [h1, h2, h3]; rfl), fun hany => hlost ?_⟩
    rcases hany with h1 | h1 | h1 <;> simp [h1]
  · exact brings_eq (if_pos h) (pwrgdFall_brings s)
  · exact runs_off (brings_eq (if_neg h) (pwrgdFall_brings s)) (.inl rfl)
  · exact runs_off (suppliesRemoved_brings s vaon) (.inl (suppliesGone_spec s vaon).1)
  · refine brings_eq ?_ (ebbEntry_brings s)
    unfold State.powerFail
    rcases h with h | h <;> rw [h]
  · exact runs_off (ebbEntry_brings s) (.inr (.inl (powerFail_ebb h hfw).1))
  · refine runs_off (brings_eq ((powerFail_live h).trans (if_neg (by simp [hfw]))) (ebbEntry_brings s)) (.inr (.inr hfw))
  · simp [Runs, execEbbLastUpdate, h]
  · simp only [Runs, exec_ebbLastUpdate, execEbbLastUpdate, if_pos h]
  · refine brings_eq ?_ (ebbEnd_brings s c)
    rw [State.endEbb, h]

end Sys2Proof.Machine
end

section
/-! Enrolment, sessions and the configuration flash (R474, R490, R500, R503, R511 to R514). -/

namespace Sys2Proof.Machine

open Sys2Proof

variable {s t : State} {port op index svn : Nat} {v : Word}

/-! ### Enrolment operations -/

/-- The rows of SEC_ENROLL_CTL, by their operation. -/
theorem enroll_ends (hup : s.plantUp = true) {c : Instr}
    (h : (op, c) ∈ [(1, Instr.enroll port v), (2, Instr.revokeOwner port v), (3, Instr.raiseSvn port v), (4, Instr.revokeVendor port v)]) :
    op ≠ 0 ∧ Ends c s (if SEC_ENROLL_CTL_OP.get v = op ∧ SEC_ENROLL_CTL_GO.get v = 1 then s.enrollCtlWrite port v else s) := by
  simp only [List.mem_cons, List.not_mem_nil, or_false, Prod.mk.injEq] at h
  rcases h with ⟨rfl, rfl⟩ | ⟨rfl, rfl⟩ | ⟨rfl, rfl⟩ | ⟨rfl, rfl⟩ <;>
  refine ⟨by decide, ?_⟩ <;>
  simp only [Ends, Runs, exec_enroll, execEnroll, exec_revokeOwner, execRevokeOwner, exec_raiseSvn, execRaiseSvn, exec_revokeVendor,
    execRevokeVendor, enrollRow, whenPlant_up hup]

theorem regLookup_enrollCtl : regLookup (SEC_ENROLL_CTL.at 0) = some (SEC_ENROLL_CTL, 0, 0) := by decide +kernel

theorem enrollCtl_ne_key (w : Nat) : SEC_ENROLL_CTL.at 0 ≠ SEC_ENROLL_KEY.at w := by
  show 0x20040 + 0 * 0 ≠ 0x21000 + w * 4
  omega

/-- The state in which SEC_ENROLL_CTL holds a write's fields and the key registers are cleared. -/
def State.enrollTaken (s : State) (v : Word) : State :=
  (s.writeByType (SEC_ENROLL_CTL.at 0) v).each (List.range 328) (fun w s => s.setReg (SEC_ENROLL_KEY.at w) 0)

theorem enrollTaken_frame (s : State) (v : Word) : RegsOnly s (s.enrollTaken v) :=
  RegsOnly.each (writeByType_onlyRegs regLookup_enrollCtl s v).2 _ _ fun _ x => (RegsOnly.refl x).setReg _ _

theorem enrollTaken_key (s : State) (v : Word) {w : Nat} (hw : w < 328) : (s.enrollTaken v).getReg (SEC_ENROLL_KEY.at w) = 0 := by
  have hin : w ∈ List.range 328 := List.mem_range.mpr hw
  refine each_reaches (Pre := fun _ => True) (Post := fun t => t.getReg (SEC_ENROLL_KEY.at w) = 0) hin
    (fun w s => s.setReg (SEC_ENROLL_KEY.at w) 0) (fun _ _ _ _ => trivial) (fun t _ => getReg_setReg_same t _ _) (fun x t ht => ?_) trivial
  rcases Classical.em (w = x) with rfl | hne
  · exact getReg_setReg_same t _ _
  · exact (getReg_setReg_other t (at_ne_of_index_ne (by decide) hne) _).trans ht

/-- The operation's fields are those written. -/
theorem writeByType_enroll (s : State) (v : Word) {f : Fld} (hf : f ∈ SEC_ENROLL_CTL.fields) (hrw : f.acc = .rw) :
    (s.writeByType (SEC_ENROLL_CTL.at 0) v).fld SEC_ENROLL_CTL 0 f = f.get v := writeByType_rw regLookup_enrollCtl hf hrw s v

theorem enrollKey_writeByType (s : State) (v : Word) : (s.writeByType (SEC_ENROLL_CTL.at 0) v).enrollKey = s.enrollKey := by
  have hkey (w : Nat) : (s.writeByType (SEC_ENROLL_CTL.at 0) v).getReg (SEC_ENROLL_KEY.at w) = s.getReg (SEC_ENROLL_KEY.at w) :=
    (writeByType_onlyRegs regLookup_enrollCtl s v).1 _ (by simpa using Ne.symm (enrollCtl_ne_key w))
  simp only [State.enrollKey, hkey]

theorem enrollRefusal_congr (h : RegsOnly s t) (port op index svn : Nat) : t.enrollRefusal port op index svn = s.enrollRefusal port op index svn :=
  h.keeps (fun x => x.enrollRefusal port op index svn) fun _ _ => rfl

/-- The state in which an operation is under way. -/
def State.enrolling (s : State) (op index svn : Nat) (key : BitVec 256) : State :=
  { s with sec := { s.sec with enrollBusy := some (op, index, svn, key) } }

theorem enrolling_getReg (s : State) (op index svn : Nat) (key : BitVec 256) (a : Nat) :
    (s.enrolling op index svn key).getReg a = s.getReg a := rfl

section
variable (hg : s.gatedAt (SEC_ENROLL_CTL.at 0) = false) (hop : SEC_ENROLL_CTL_OP.get v ≠ 0) (hgo : SEC_ENROLL_CTL_GO.get v = 1)
  (hbusy : s.sec.enrollBusy = none)
include hg hop hgo hbusy

/-- GO refuses the operation or starts it (R512). -/
theorem enrollCtlWrite_go (port : Nat) : s.enrollCtlWrite port v =
    match s.enrollRefusal port (SEC_ENROLL_CTL_OP.get v) (SEC_ENROLL_CTL_INDEX.get v) (SEC_ENROLL_CTL_SVN.get v) with
    | some r => (s.enrollTaken v).enrollResult r
    | none => (s.enrollTaken v).enrolling (SEC_ENROLL_CTL_OP.get v) (SEC_ENROLL_CTL_INDEX.get v) (SEC_ENROLL_CTL_SVN.get v)
        (Config.sha3 s.enrollKey) := by
  have hsec : (s.writeByType (SEC_ENROLL_CTL.at 0) v).sec.enrollBusy = none :=
    ((writeByType_onlyRegs regLookup_enrollCtl s v).keeps (·.sec.enrollBusy) fun _ _ => rfl).trans hbusy
  have hop' := writeByType_enroll s v (f := SEC_ENROLL_CTL_OP) (by decide) rfl
  have hindex := writeByType_enroll s v (f := SEC_ENROLL_CTL_INDEX) (by decide) rfl
  have hsvn := writeByType_enroll s v (f := SEC_ENROLL_CTL_SVN) (by decide) rfl
  rw [State.enrollCtlWrite]
  dsimp only
  rw [if_neg (by simp [hg]), if_pos ⟨hgo, by simp [hsec]⟩, State.enrollGo, hop', hindex, hsvn, enrollKey_writeByType, if_neg hop]
  rw [← State.enrollTaken, enrollRefusal_congr (enrollTaken_frame s v)]
  rfl

end

/-- Every RESULT of a refusal fits its field. -/
theorem enrollRefusal_le {r : Nat} (h : s.enrollRefusal port op index svn = some r) : r ≤ 9 := by
  unfold State.enrollRefusal at h
  repeat' split at h
  all_goals simp only [Option.some.injEq, reduceCtorEq] at h
  all_goals omega

theorem enrollResult_shown (s : State) {r : Nat} (hr : r ≤ 9) : (s.enrollResult r).fld SEC_ENROLL_CTL 0 SEC_ENROLL_CTL_RESULT = r :=
  (fld_setFld_same s _ _ _ _ (by decide)).trans (Nat.mod_eq_of_lt (by show r < 16; omega))

/-- A refused operation. -/
theorem enrollTaken_refused (s : State) (v : Word) {r : Nat} (hr : r ≤ 9) :
    (s.enrollTaken v).enrollResult r = { s with regs := ((s.enrollTaken v).enrollResult r).regs } ∧
      ((s.enrollTaken v).enrollResult r).fld SEC_ENROLL_CTL 0 SEC_ENROLL_CTL_RESULT = r ∧
      ∀ w, w < 328 → ((s.enrollTaken v).enrollResult r).getReg (SEC_ENROLL_KEY.at w) = 0 :=
  ⟨(enrollTaken_frame s v).setFld _ _ _ _, enrollResult_shown _ hr, fun w hw =>
    (getReg_setFld_other _ _ _ _ _ (Ne.symm (enrollCtl_ne_key w))).trans (enrollTaken_key s v hw)⟩

/-- An operation that has started. -/
theorem enrollTaken_started (s : State) (v : Word) (op index svn : Nat) (key : BitVec 256) :
    (s.enrollTaken v).enrolling op index svn key = { s with
        regs := ((s.enrollTaken v).enrolling op index svn key).regs, sec := { s.sec with enrollBusy := some (op, index, svn, key) } } ∧
      ∀ w, w < 328 → ((s.enrollTaken v).enrolling op index svn key).getReg (SEC_ENROLL_KEY.at w) = 0 := by
  refine ⟨?_, fun w hw => (enrolling_getReg _ _ _ _ _ _).trans (enrollTaken_key s v hw)⟩
  have h := enrollTaken_frame s v
  unfold RegsOnly at h
  unfold State.enrolling
  rw [h]

/-! ### The end of a fuse operation -/

/-- The state in which an operation is no longer under way, its area counted. -/
def State.fuseEnded (s : State) (op index : Nat) : State :=
  let u : State := { s with sec := { s.sec with enrollBusy := none } }
  if op = 1 then u.useArea index else u

/-- What a successful operation blows or enrols. -/
def State.fuseBlown (s : State) (op index svn : Nat) (key : BitVec 256) : State :=
  if op = 1 then s.enrol index key
  else if op = 2 then s.blow [2 + index]
  else if op = 3 then s.blow ((List.range svn).map (6 + ·))
  else s.blow [index]

/-- The state in which a success is shown and recorded. -/
def State.fuseShown (s : State) (op index : Nat) : State :=
  (s.enrollResult 1).raise 0x104 4 noInst [BitVec.ofNat 8 op, BitVec.ofNat 8 index]

/-- A session of a key that is revoked ends (R503). -/
def State.keyRevoked (s : State) (op index : Nat) : State :=
  match s.sec.session with
  | some o => if op = 2 ∧ o.keySlot = index then s.endSession 5 else s
  | none => s

theorem fuseDone_none (h : s.sec.enrollBusy = none) (ok : Bool) : s.fuseDone ok = s := by
  rw [State.fuseDone, h]

section
variable {key : BitVec 256} (h : s.sec.enrollBusy = some (op, index, svn, key))
include h

theorem fuseDone_failed : s.fuseDone false = (s.fuseEnded op index).enrollResult 9 := by
  rw [State.fuseDone, h]
  rfl

theorem fuseDone_blown : s.fuseDone true =
    (((s.fuseEnded op index).fuseBlown op index svn key).fuseShown op index).keyRevoked op index := by
  rw [State.fuseDone, h]
  rfl

end

theorem fuseEnded_sec (s : State) (op index : Nat) : (s.fuseEnded op index).sec =
    { s.sec with enrollBusy := none, areasUsed := (s.fuseEnded op index).sec.areasUsed } := by
  unfold State.fuseEnded
  dsimp only
  split <;> rfl

theorem fuseEnded_areas (s : State) (op index : Nat) :
    (op = 1 → Tab.getD (s.fuseEnded op index).sec.areasUsed index 0 = Tab.getD s.sec.areasUsed index 0 + 1) ∧
      (op ≠ 1 → (s.fuseEnded op index).sec.areasUsed = s.sec.areasUsed) := by
  unfold State.fuseEnded
  refine ⟨fun h => ?_, fun h => ?_⟩
  · rw [if_pos h, Tab.getD]
    exact congrArg (Option.getD · 0) (Tab.get?_set_same _ _ _)
  · rw [if_neg h]

theorem fuseEnded_frame (s : State) (op index : Nat) : s.fuseEnded op index = { s with sec := (s.fuseEnded op index).sec } := by
  unfold State.fuseEnded
  dsimp only
  split <;> rfl

theorem fuseShown_sec (s : State) (op index : Nat) : (s.fuseShown op index).sec = s.sec := raise_sec _ _ _ _ _

/-- Of the security unit, the end of a session changes the session alone. -/
theorem keyRevoked_sec (s : State) (op index : Nat) : (s.keyRevoked op index).sec =
    { s.sec with session := (s.keyRevoked op index).sec.session } := by
  unfold State.keyRevoked
  split
  · split
    · unfold State.endSession
      split
      · rw [if_neg (by decide), raise_sec]
        rfl
      · rfl
    · rfl
  · rfl

theorem keyRevoked_other (h : op ≠ 2) (s : State) (index : Nat) : s.keyRevoked op index = s := by
  unfold State.keyRevoked
  split
  · exact if_neg fun e => h e.1
  · rfl

theorem keyRevoked_ends {o : Session} (ho : s.sec.session = some o) (hk : o.keySlot = index) :
    (s.keyRevoked 2 index).sec.session = none := by
  rw [State.keyRevoked, ho]
  dsimp only
  rw [if_pos ⟨rfl, hk⟩, State.endSession, ho]
  dsimp only
  rw [if_neg (by decide), raise_sec]
  rfl

theorem keyRevoked_getReg (s : State) (op index : Nat) {a : Nat} (ha : a ∉ evCounts) : (s.keyRevoked op index).getReg a = s.getReg a := by
  unfold State.keyRevoked
  split
  · split
    · unfold State.endSession
      split
      · rw [if_neg (by decide), getReg_raise ha]
        rfl
      · rfl
    · rfl
  · rfl

theorem mem_blow (s : State) (fs : List Nat) (f : Nat) : f ∈ (s.blow fs).sec.fuses ↔ f ∈ s.sec.fuses ∨ f ∈ fs := by
  show f ∈ s.sec.fuses ++ fs.filter (fun f => !s.sec.fuses.contains f) ↔ _
  rw [List.mem_append, List.mem_filter]
  by_cases hf : f ∈ s.sec.fuses
  · simp [hf]
  · simp [hf]

/-! ### Sessions -/

/-- The state in which the session is over, and what it staged is gone. -/
def State.sessionLeft (s : State) : State := State.dropStaged { s with sec := { s.sec with session := none } }

theorem endSession_held {o : Session} (h : s.sec.session = some o) {cause : Nat} (hc : cause ≠ 0) :
    s.endSession cause = s.sessionLeft.raise 0x102 2 noInst [BitVec.ofNat 8 cause] := by
  rw [State.endSession, h]
  exact if_neg hc

/-- No buffer has a writer any more. -/
theorem sessionLeft_writers (s : State) : s.sessionLeft.boot.fwBuf.writer = none ∧ s.sessionLeft.boot.imgBuf.writer = none := by
  have hclear (b : StageBuf) : (if b.writer.isSome then StageBuf.mk [] none else b).writer = none := by
    split
    · rfl
    next h => exact Option.not_isSome_iff_eq_none.mp h
  exact ⟨hclear _, hclear _⟩

/-! ### The configuration flash (R474, R490) -/

/-- The state in which programming is over and the flash gated again. -/
def State.flashIdle (s : State) : State := State.setDomain { s with boot := { s.boot with stage := none } } 187 2

/-- The state with the staging buffer of a target empty. -/
def State.unstaged (s : State) (target : Nat) : State := s.setStageBuf target ⟨[], none⟩

theorem flashDone_programmed {r : StageRun} (h : s.boot.stage = some r) : s.flashDone true =
    ((s.flashIdle.writeDirectory r.target r.slot (some r.len)).unstaged r.target).complete r.cmd stSuccess (leBytes 1 r.slot) := by
  rw [State.flashDone, h]
  rfl

theorem flashDone_failed {r : StageRun} (h : s.boot.stage = some r) : s.flashDone false =
    (s.flashIdle.unstaged r.target).complete r.cmd stStageInvalid := by
  rw [State.flashDone, h]
  rfl

theorem domain_flash (s : State) : (s.setDomain 187 2).domain 187 = 2 := by
  have hset : Tab.getD (s.setDomain 187 2).pw.doms 187 0 = 2 := congrArg (Option.getD · 0) (Tab.get?_set_same s.pw.doms 187 2)
  rw [State.domain, if_neg (by simp), hset]

theorem unstaged_buf (s : State) (target : Nat) : (s.unstaged target).stageBuf target = ⟨[], none⟩ := by
  unfold State.stageBuf State.unstaged State.setStageBuf
  split <;> rfl

/-! ### The clauses -/

/-- The security unit after a success: what was blown or enrolled, and the session when its key is revoked. -/
theorem fuseDone_sec {key : BitVec 256} (h : s.sec.enrollBusy = some (op, index, svn, key)) : (s.fuseDone true).sec =
    { ((s.fuseEnded op index).fuseBlown op index svn key).sec with session := (s.fuseDone true).sec.session } := by
  rw [fuseDone_blown h, keyRevoked_sec, fuseShown_sec]

theorem fuseBlown_busy (s : State) (op index svn : Nat) (key : BitVec 256) :
    (s.fuseBlown op index svn key).sec.enrollBusy = s.sec.enrollBusy := by
  unfold State.fuseBlown
  split
  · rfl
  · split
    · rfl
    · split <;> rfl

/-- A fuse operation that succeeds. -/
theorem fuseDone_success {key : BitVec 256} (h : s.sec.enrollBusy = some (op, index, svn, key)) :
    (s.fuseDone true).fld SEC_ENROLL_CTL 0 SEC_ENROLL_CTL_RESULT = 1 ∧ (s.fuseDone true).sec.enrollBusy = none ∧
      (op = 1 → (s.fuseDone true).sec.enrolled = s.sec.enrolled ++ [index] ∧ Tab.get? (s.fuseDone true).sec.ownerKeys index = some key ∧
        (s.fuseDone true).sec.fuses = s.sec.fuses ∧ (s.fuseDone true).sec.session = s.sec.session) ∧
      (op = 2 → 2 + index ∈ (s.fuseDone true).sec.fuses ∧ (∀ f ∈ (s.fuseDone true).sec.fuses, f ∈ s.sec.fuses ∨ f = 2 + index) ∧
        (∀ o, s.sec.session = some o → o.keySlot = index → (s.fuseDone true).sec.session = none)) ∧
      (op = 3 → (∀ i, i < svn → 6 + i ∈ (s.fuseDone true).sec.fuses) ∧ (s.fuseDone true).sec.enrolled = s.sec.enrolled) ∧
      (op = 4 → index ∈ (s.fuseDone true).sec.fuses ∧ (s.fuseDone true).sec.enrolled = s.sec.enrolled) := by
  have hsec := fuseEnded_sec s op index
  have hfuses : (s.fuseEnded op index).sec.fuses = s.sec.fuses := by rw [hsec]
  have henrolled : (s.fuseEnded op index).sec.enrolled = s.sec.enrolled := by rw [hsec]
  have hheld : (s.fuseEnded op index).sec.session = s.sec.session := by rw [hsec]
  have hidle : (s.fuseEnded op index).sec.enrollBusy = none := by rw [hsec]
  refine ⟨?_, ?_, fun hop => ?_, fun hop => ?_, fun hop => ?_, fun hop => ?_⟩
  · rw [fuseDone_blown h, State.fld, keyRevoked_getReg _ _ _ (by decide), State.fuseShown, getReg_raise (by decide)]
    exact enrollResult_shown _ (by decide)
  · rw [fuseDone_sec h]
    exact (fuseBlown_busy _ _ _ _ _).trans hidle
  · have hsession : (s.fuseDone true).sec.session = s.sec.session := by
      rw [fuseDone_blown h, keyRevoked_other (by omega), fuseShown_sec, State.fuseBlown, if_pos hop]
      exact hheld
    rw [hsession, fuseDone_sec h, State.fuseBlown, if_pos hop]
    exact ⟨congrArg (· ++ [index]) henrolled, Tab.get?_set_same _ _ _, hfuses, rfl⟩
  · have hblown : (s.fuseEnded op index).fuseBlown op index svn key = (s.fuseEnded op index).blow [2 + index] := by
      rw [State.fuseBlown, if_neg (by omega), if_pos hop]
    have hmem (f : Nat) : f ∈ (s.fuseDone true).sec.fuses ↔ f ∈ s.sec.fuses ∨ f = 2 + index := by
      rw [fuseDone_sec h, hblown, ← hfuses, ← List.mem_singleton]
      exact mem_blow _ _ _
    refine ⟨(hmem _).mpr (.inr rfl), fun f hf => (hmem f).mp hf, fun o ho hk => ?_⟩
    have hkey : (((s.fuseEnded op index).fuseBlown op index svn key).fuseShown op index).sec.session = some o := by
      rw [fuseShown_sec, hblown]
      exact hheld.trans ho
    rw [fuseDone_blown h]
    subst hop
    exact keyRevoked_ends hkey hk
  · have hblown : (s.fuseEnded op index).fuseBlown op index svn key = (s.fuseEnded op index).blow ((List.range svn).map (6 + ·)) := by
      rw [State.fuseBlown, if_neg (by omega), if_neg (by omega), if_pos hop]
    rw [fuseDone_sec h, hblown]
    exact ⟨fun i hi => (mem_blow _ _ _).mpr (.inr (List.mem_map_of_mem (List.mem_range.mpr hi))), henrolled⟩
  · have hblown : (s.fuseEnded op index).fuseBlown op index svn key = (s.fuseEnded op index).blow [index] := by
      rw [State.fuseBlown, if_neg (by omega), if_neg (by omega), if_neg (by omega)]
    rw [fuseDone_sec h, hblown]
    exact ⟨(mem_blow _ _ _).mpr (.inr (List.mem_singleton_self _)), henrolled⟩

theorem fuseOp_ends (hup : s.plantUp = true) (ok : Bool) : Ends (.fuseOp ok) s (s.fuseDone ok) := by
  simp only [Ends, Runs, exec_fuseOp, execFuseOp, whenPlant_up hup]

/-- A fuse operation that fails. -/
theorem fuseDone_failure {key : BitVec 256} (h : s.sec.enrollBusy = some (op, index, svn, key)) :
    (s.fuseDone false).fld SEC_ENROLL_CTL 0 SEC_ENROLL_CTL_RESULT = 9 ∧
      (s.fuseDone false).sec = { s.sec with enrollBusy := none, areasUsed := (s.fuseDone false).sec.areasUsed } ∧
      OnlyRegs [SEC_ENROLL_CTL.at 0] { s with sec := (s.fuseDone false).sec } (s.fuseDone false) ∧
      (op = 1 → Tab.getD (s.fuseDone false).sec.areasUsed index 0 = Tab.getD s.sec.areasUsed index 0 + 1) ∧
      (op ≠ 1 → (s.fuseDone false).sec.areasUsed = s.sec.areasUsed) := by
  have hregs : (s.fuseEnded op index).regs = s.regs := by rw [fuseEnded_frame]
  have hshown := onlyRegs_setFld (s.fuseEnded op index) SEC_ENROLL_CTL 0 SEC_ENROLL_CTL_RESULT 9
  rw [fuseDone_failed h]
  refine ⟨enrollResult_shown _ (by decide), fuseEnded_sec s op index, ⟨fun a ha => ?_, ?_⟩, fuseEnded_areas s op index⟩
  · exact (hshown.1 a ha).trans (congrArg (fun r => regGet r a) hregs)
  · have heq := hshown.2
    rw [fuseEnded_frame s op index] at heq ⊢
    exact heq

theorem flashProgramDone_ends (hup : s.up = true) (ok : Bool) : Ends (.flashProgramDone ok) s (s.flashDone ok) := by
  simp only [Ends, Runs, exec_flashProgramDone, execFlashProgramDone, whenUp_up hup]

theorem sessionIdleExpiry_ends (hup : s.up = true) : Ends .sessionIdleExpiry s (s.endSession 4) := by
  simp only [Ends, Runs, exec_sessionIdleExpiry, execSessionIdleExpiry, whenUp_up hup]

/-- The state of the directory and the flash after programming that succeeded. -/
theorem programmed_spec (s : State) (r : StageRun) :
    let w := (s.flashIdle.writeDirectory r.target r.slot (some r.len)).unstaged r.target
    w.boot.stage = none ∧ w.boot.lens = s.boot.lens.set (2 * r.target + r.slot) r.len ∧ (r.target = 0 → w.boot.fwPref = r.slot) ∧
      (r.target ≠ 0 → w.boot.imgPref = r.slot) ∧ w.stageBuf r.target = ⟨[], none⟩ ∧ w.domain 187 = 2 ∧ w.qm = s.qm ∧ w.regs = s.regs := by
  have hdomain : ((s.flashIdle.writeDirectory r.target r.slot (some r.len)).unstaged r.target).domain 187 = 2 :=
    (domain_of_doms_eq (s := s.flashIdle) rfl rfl 187).trans (domain_flash _)
  refine ⟨?_, ?_, fun h => ?_, fun h => ?_, unstaged_buf _ _, hdomain, rfl, rfl⟩ <;>
    unfold State.unstaged State.setStageBuf State.writeDirectory
  · dsimp only
    split <;> rfl
  · dsimp only
    split <;> rfl
  · simp only [if_pos h]
  · simp only [if_neg h]

theorem unprogrammed_spec (s : State) (r : StageRun) :
    let w := s.flashIdle.unstaged r.target
    w.boot.stage = none ∧ w.boot.lens = s.boot.lens ∧ w.boot.fwPref = s.boot.fwPref ∧ w.boot.imgPref = s.boot.imgPref ∧
      w.stageBuf r.target = ⟨[], none⟩ ∧ w.domain 187 = 2 ∧ w.qm = s.qm ∧ w.regs = s.regs := by
  have hdomain : (s.flashIdle.unstaged r.target).domain 187 = 2 :=
    (domain_of_doms_eq (s := s.flashIdle) rfl rfl 187).trans (domain_flash _)
  refine ⟨?_, ?_, ?_, ?_, unstaged_buf _ _, hdomain, rfl, rfl⟩ <;>
    unfold State.unstaged State.setStageBuf <;> dsimp only <;> split <;> rfl

/-- Settles O56: GO by what refuses it, the end of a fuse operation by its OP, and the directory by how programming ended. -/
theorem keysAndFlash : Obligations.KeysAndFlash := by
  intro s
  refine ⟨fun port v op c hc hup hg => ⟨fun h => ?_, fun hop hgo hbusy => ?_⟩, fun hup h ok => ?_, fun op index svn key hup h => ⟨?_, ?_⟩,
    fun hup => ⟨fun x => ?_, fun h => ?_, fun o ho => ?_, fun h ok => ?_, fun r hr => ⟨?_, ?_⟩⟩⟩
  · obtain ⟨-, hend⟩ := enroll_ends hup hc
    rwa [if_neg fun e => h.elim (fun hne => hne e.1) fun hne => hne e.2] at hend
  · obtain ⟨hne, hend⟩ := enroll_ends hup hc
    rw [if_pos ⟨hop, hgo⟩, enrollCtlWrite_go hg (hop ▸ hne) hgo hbusy, hop] at hend
    refine ⟨fun r hr => ?_, fun hr => ?_, fun hs hop1 => ?_⟩
    · rw [hr] at hend
      exact ⟨_, hend, enrollTaken_refused s v (enrollRefusal_le hr)⟩
    · rw [hr] at hend
      exact ⟨_, hend, enrollTaken_started s v _ _ _ _⟩
    · have hr : s.enrollRefusal port op (SEC_ENROLL_CTL_INDEX.get v) (SEC_ENROLL_CTL_SVN.get v) = some 2 := by
        refine if_pos ?_
        rcases hop1 with h1 | h1 <;> simp [hs, h1]
      rw [hr] at hend
      obtain ⟨hframe, hresult, -⟩ := enrollTaken_refused s v (r := 2) (by decide)
      refine ⟨(s.enrollTaken v).enrollResult 2, hend, ?_, hresult⟩
      rw [hframe]
  · exact ends_eq (fuseDone_none h ok) (fuseOp_ends hup ok)
  · exact ⟨s.fuseDone false, fuseOp_ends hup false, fuseDone_failure h⟩
  · exact ⟨s.fuseDone true, fuseOp_ends hup true, fuseDone_success h⟩
  · refine ⟨s.dropChallenge x, ?_, rfl, Tab.get?_erase_same _ _, fun y hy => Tab.get?_erase_other _ hy⟩
    simp only [Ends, Runs, exec_challengeExpiry, execChallengeExpiry, whenUp_up hup]
  · refine ends_eq ?_ (sessionIdleExpiry_ends hup)
    rw [State.endSession, h]
  · exact ⟨s.sessionLeft, ends_eq (endSession_held ho (by decide)) (sessionIdleExpiry_ends hup), rfl, rfl, sessionLeft_writers s⟩
  · refine ends_eq ?_ (flashProgramDone_ends hup ok)
    rw [State.flashDone, h]
  · exact ⟨_, ends_eq (flashDone_programmed hr) (flashProgramDone_ends hup true), programmed_spec s r⟩
  · exact ⟨_, ends_eq (flashDone_failed hr) (flashProgramDone_ends hup false), unprogrammed_spec s r⟩

end Sys2Proof.Machine
end

section
/-! Thermal states and the condensation hold (R431 to R436, R447). -/

namespace Sys2Proof.Machine

open Sys2Proof

variable {s t : State}

/-! ### What is measured -/

/-- The offsets of the measurements and their limits: the inputs, the sensors and CL_CLIM_PARAM. -/
def measureAt (a : Nat) : Prop := (0x700100 ≤ a ∧ a < 0x700200) ∨ (0x700400 ≤ a ∧ a < 0x700600) ∨ a = 0x70002c

/-- `t` has the measurements, the image and the stripe engine of `s`. -/
def Measured (s t : State) : Prop := t.boot = s.boot ∧ t.se = s.se ∧ ∀ a, measureAt a → t.getReg a = s.getReg a

namespace Measured

theorem refl (s : State) : Measured s s := ⟨rfl, rfl, fun _ _ => rfl⟩

theorem setReg (h : Measured s t) {a : Nat} (ha : ¬ measureAt a) (v : Word) : Measured s (t.setReg a v) :=
  ⟨h.1, h.2.1, fun b hb => (getReg_setReg_other t (by rintro rfl; exact ha hb) v).trans (h.2.2 b hb)⟩

theorem setFld (h : Measured s t) {r : Reg} {i : Nat} (ha : ¬ measureAt (r.at i)) (f : Fld) (v : Nat) : Measured s (t.setFld r i f v) :=
  h.setReg ha _

theorem raise (h : Measured s t) (code sev inst : Nat) (detail : List Byte) : Measured s (t.raise code sev inst detail) := by
  refine ⟨(raise_boot _ _ _ _ _).trans h.1, (raise_se _ _ _ _ _).trans h.2.1, fun a ha => (getReg_raise (fun hin => ?_) _ _ _ _).trans (h.2.2 a ha)⟩
  have hlt : a < 0x700000 := by
    simp only [evCounts, List.mem_cons, List.not_mem_nil, or_false] at hin
    rcases hin with rfl | rfl <;> decide
  unfold measureAt at ha
  omega

theorem ain (h : Measured s t) {k : Nat} (hk : k < 64) (f : Fld) : t.fld CL_AIN k f = s.fld CL_AIN k f := by
  have hat : measureAt (CL_AIN.at k) := by
    refine .inl ?_
    show 0x700100 ≤ 0x700100 + k * 4 ∧ 0x700100 + k * 4 < 0x700200
    omega
  rw [State.fld, h.2.2 _ hat]
  rfl

theorem sns (h : Measured s t) {k : Nat} (hk : k < 128) (f : Fld) : t.fld CL_SNS k f = s.fld CL_SNS k f := by
  have hat : measureAt (CL_SNS.at k) := by
    refine .inr (.inl ?_)
    show 0x700400 ≤ 0x700400 + k * 4 ∧ 0x700400 + k * 4 < 0x700600
    omega
  rw [State.fld, h.2.2 _ hat]
  rfl

theorem clim (h : Measured s t) (f : Fld) : t.fld CL_CLIM_PARAM 0 f = s.fld CL_CLIM_PARAM 0 f := by
  rw [State.fld, h.2.2 (CL_CLIM_PARAM.at 0) (.inr (.inr rfl))]
  rfl

theorem validInputs (h : Measured s t) (e role : Nat) : t.validInputs e role = s.validInputs e role := by
  have hfilter : ∀ k ∈ List.range 64, (t.fld CL_AIN k CL_AIN_VALID = 1 && t.fld CL_AIN k CL_AIN_ENC = e && t.fld CL_AIN k CL_AIN_ROLE = role) =
      (s.fld CL_AIN k CL_AIN_VALID = 1 && s.fld CL_AIN k CL_AIN_ENC = e && s.fld CL_AIN k CL_AIN_ROLE = role) := fun k hk => by
    have hlt := List.mem_range.mp hk
    rw [h.ain hlt, h.ain hlt, h.ain hlt]
  unfold State.validInputs
  rw [List.filter_congr hfilter]
  refine List.map_congr_left fun k hk => ?_
  rw [State.sfld, State.sfld, h.ain (List.mem_range.mp (List.mem_filter.mp hk).1)]

theorem validSensors (h : Measured s t) (e : Nat) : t.validSensors e = s.validSensors e := by
  refine List.filter_congr fun k hk => ?_
  have hlt := List.mem_range.mp hk
  rw [h.sns hlt, h.sns hlt]

theorem airTemps (h : Measured s t) (e : Nat) : t.airTemps e = s.airTemps e := by
  unfold State.airTemps
  rw [h.validInputs, h.validSensors]
  refine congrArg _ (List.map_congr_left fun k hk => ?_)
  rw [State.sfld, State.sfld, h.sns (List.mem_range.mp (List.mem_filter.mp hk).1)]

theorem humidity (h : Measured s t) (e : Nat) : t.humidity e = s.humidity e := by
  have hprofile (k : Nat) : t.snsProfile k = s.snsProfile k := by rw [State.snsProfile, State.snsProfile, h.1]
  have hmap : ((t.validSensors e).filter (fun k => t.snsProfile k = 2)).map (fun k => t.fld CL_SNS k CL_SNS_RH) =
      ((s.validSensors e).filter (fun k => s.snsProfile k = 2)).map (fun k => s.fld CL_SNS k CL_SNS_RH) := by
    simp only [h.validSensors, hprofile]
    exact List.map_congr_left fun k hk => h.sns (List.mem_range.mp ((List.mem_filter.mp (List.mem_filter.mp hk).1).1)) _
  unfold State.humidity
  rw [hmap]

theorem dewPoint (h : Measured s t) (e : Nat) : t.dewPoint e = s.dewPoint e := by
  rw [State.dewPoint, State.dewPoint, h.humidity, h.airTemps, h.clim]

theorem damp (h : Measured s t) (e : Nat) : t.damp e = s.damp e := by
  rw [State.damp, State.damp, h.airTemps, h.dewPoint]

theorem headroomNow (h : Measured s t) (e : Nat) : t.headroomNow e = s.headroomNow e := by
  rw [State.headroomNow, State.headroomNow, h.airTemps, h.clim]

end Measured

/-! ### Headroom (R431, R432) -/

theorem satSigned_lt (len : Nat) (hlen : 0 < len) (v : Int) : satSigned len v < 2 ^ len := by
  have hpow : 2 ^ len = 2 * 2 ^ (len - 1) := by
    rw [← Nat.pow_succ', Nat.succ_eq_add_one, Nat.sub_add_cancel hlen]
  have hpos : 0 < 2 ^ (len - 1) := Nat.two_pow_pos _
  unfold satSigned
  dsimp only
  rw [hpow]
  push_cast
  generalize hk : (2 : Nat) ^ (len - 1) = k at hpos ⊢
  have hk' : (2 : Int) ^ (len - 1) = (k : Int) := by rw [← hk]; push_cast; rfl
  rw [hk']
  split <;> omega

theorem encState_not_measure (e : Nat) (he : e < 32) : ¬ measureAt (CL_ENC_STATE.at e) := by
  show ¬ ((0x700100 ≤ 0x700300 + e * 8 ∧ 0x700300 + e * 8 < 0x700200) ∨ (0x700400 ≤ 0x700300 + e * 8 ∧ 0x700300 + e * 8 < 0x700600) ∨
    0x700300 + e * 8 = 0x70002c)
  omega

theorem encAir_not_measure (e : Nat) (he : e < 32) : ¬ measureAt (CL_ENC_AIR.at e) := by
  show ¬ ((0x700100 ≤ 0x700304 + e * 8 ∧ 0x700304 + e * 8 < 0x700200) ∨ (0x700400 ≤ 0x700304 + e * 8 ∧ 0x700304 + e * 8 < 0x700600) ∨
    0x700304 + e * 8 = 0x70002c)
  omega

theorem trip_not_measure : ¬ measureAt (CL_TRIP.at 0) := by unfold measureAt; decide

theorem hold_not_measure : ¬ measureAt (CL_HOLD.at 0) := by unfold measureAt; decide

theorem showEnclosure_measured (h : Measured s t) {e : Nat} (he : e < 32) : Measured s (t.showEnclosure e) :=
  ((((h.setFld (encState_not_measure e he) _ _).setFld (encState_not_measure e he) _ _).setFld (encState_not_measure e he) _ _).setFld
    (encAir_not_measure e he) _ _).setFld (encAir_not_measure e he) _ _

theorem showEnclosure_regsOnly (s : State) (e : Nat) : RegsOnly s (s.showEnclosure e) :=
  (((((RegsOnly.refl s).setFld _ _ _ _).setFld _ _ _ _).setFld _ _ _ _).setFld _ _ _ _).setFld _ _ _ _

/-- Showing an enclosure leaves what is not measured of it. -/
theorem showEnclosure_fld (s : State) (e : Nat) {f : Fld} (hf : f = CL_ENC_STATE_HOT ∨ f = CL_ENC_STATE_CRIT ∨ f = CL_ENC_STATE_HOLD) :
    (s.showEnclosure e).fld CL_ENC_STATE e f = s.fld CL_ENC_STATE e f := by
  have hair : CL_ENC_STATE.at e ≠ CL_ENC_AIR.at e := at_ne_of_phase (by decide) e e
  unfold State.showEnclosure State.setSfld
  dsimp only
  rw [fld_setFld_other _ _ _ _ _ _ _ _ hair, fld_setFld_other _ _ _ _ _ _ _ _ hair]
  rcases hf with rfl | rfl | rfl <;>
  rw [fld_setFld_beside _ _ _ _ _ _ (by decide) (by decide), fld_setFld_beside _ _ _ _ _ _ (by decide) (by decide),
    fld_setFld_beside _ _ _ _ _ _ (by decide) (by decide)]

theorem showEnclosure_other (s : State) {e f : Nat} (h : f ≠ e) :
    (s.showEnclosure e).getReg (CL_ENC_STATE.at f) = s.getReg (CL_ENC_STATE.at f) := by
  have hstate : CL_ENC_STATE.at f ≠ CL_ENC_STATE.at e := at_ne_of_index_ne (by decide) h
  have hair : CL_ENC_STATE.at f ≠ CL_ENC_AIR.at e := at_ne_of_phase (by decide) f e
  unfold State.showEnclosure State.setSfld
  dsimp only
  rw [getReg_setFld_other _ _ _ _ _ hair, getReg_setFld_other _ _ _ _ _ hair, getReg_setFld_other _ _ _ _ _ hstate,
    getReg_setFld_other _ _ _ _ _ hstate, getReg_setFld_other _ _ _ _ _ hstate]

/-- The state with the headroom of an enclosure shown. -/
def State.headroomShown (s : State) (e : Nat) : State :=
  (s.showEnclosure e).setSfld CL_ENC_STATE e CL_ENC_STATE_HEADROOM_DC (s.headroomNow e / 10)

/-- The state in which an enclosure has entered HOT. -/
def State.hotEntered (s : State) (e : Nat) : State :=
  ((s.setFld CL_ENC_STATE e CL_ENC_STATE_HOT 1).trip CL_TRIP_ENC_HOT).raise 0xB02 5 e

/-- What HEADROOM_TICK does for one enclosure. -/
def State.headroomOf (s : State) (e : Nat) : State :=
  if s.headroomNow e < 0 ∧ !(s.headroomShown e).encHot e then (s.headroomShown e).hotEntered e else s.headroomShown e

/-- The state after all enclosures. -/
def State.headrooms (s : State) : State := s.each (List.range 32) (fun e s => s.headroomOf e)

theorem headroomTick_eq (h : s.hasCL = true) : s.headroomTick = s.headrooms.issuePasses := if_neg (by simp [h])

/-- What is kept from one enclosure to the next. -/
def Ticking (s t : State) : Prop := Measured s t ∧ t.dl = s.dl

theorem headroomShown_ticking (h : Ticking s t) {e : Nat} (he : e < 32) : Ticking s (t.headroomShown e) :=
  ⟨(showEnclosure_measured h.1 he).setFld (encState_not_measure e he) _ _,
    (((showEnclosure_regsOnly t e).setFld _ _ _ _).keeps (·.dl) fun _ _ => rfl).trans h.2⟩

theorem hotEntered_ticking (h : Ticking s t) {e : Nat} (he : e < 32) : Ticking s (t.hotEntered e) :=
  ⟨((h.1.setFld (encState_not_measure e he) _ _).setFld trip_not_measure _ _).raise _ _ _ _, (raise_dl _ _ _ _ _).trans h.2⟩

theorem headroomOf_ticking (h : Ticking s t) {e : Nat} (he : e < 32) : Ticking s (t.headroomOf e) := by
  unfold State.headroomOf
  split
  · exact hotEntered_ticking (headroomShown_ticking h he) he
  · exact headroomShown_ticking h he

theorem headroomShown_fields (s : State) (e : Nat) :
    (s.headroomShown e).fld CL_ENC_STATE e CL_ENC_STATE_HOT = s.fld CL_ENC_STATE e CL_ENC_STATE_HOT ∧
      (s.headroomShown e).fld CL_ENC_STATE e CL_ENC_STATE_HEADROOM_DC = satSigned CL_ENC_STATE_HEADROOM_DC.len (s.headroomNow e / 10) := by
  unfold State.headroomShown State.setSfld
  constructor
  · rw [fld_setFld_beside _ _ _ _ _ _ (by decide) (by decide), showEnclosure_fld s e (.inl rfl)]
  · rw [fld_setFld_same _ _ _ _ _ (by decide), Nat.mod_eq_of_lt (satSigned_lt _ (by decide) _)]

theorem trip_encState (s : State) (f : Fld) (e : Nat) : (s.trip f).getReg (CL_ENC_STATE.at e) = s.getReg (CL_ENC_STATE.at e) := by
  refine getReg_setFld_other s _ _ _ _ ?_
  show 0x700300 + e * 8 ≠ 0x700008
  omega

theorem hotEntered_fields (s : State) (e : Nat) : (s.hotEntered e).fld CL_ENC_STATE e CL_ENC_STATE_HOT = 1 ∧
    (s.hotEntered e).fld CL_ENC_STATE e CL_ENC_STATE_HEADROOM_DC = s.fld CL_ENC_STATE e CL_ENC_STATE_HEADROOM_DC := by
  have hreg (f : Fld) : (s.hotEntered e).fld CL_ENC_STATE e f = (s.setFld CL_ENC_STATE e CL_ENC_STATE_HOT 1).fld CL_ENC_STATE e f := by
    rw [State.hotEntered, fld_raise (by decide), State.fld, trip_encState]
    rfl
  constructor
  · rw [hreg, fld_setFld_same _ _ _ _ _ (by decide)]
    rfl
  · rw [hreg, fld_setFld_beside _ _ _ _ _ _ (by decide) (by decide)]

theorem hotEntered_other (s : State) {e f : Nat} (h : f ≠ e) :
    (s.hotEntered e).getReg (CL_ENC_STATE.at f) = s.getReg (CL_ENC_STATE.at f) := by
  have hout : CL_ENC_STATE.at f ∉ evCounts := by
    simp only [evCounts, List.mem_cons, List.not_mem_nil, or_false, not_or]
    exact ⟨at_ne_of_lt_base (by decide) f, at_ne_of_lt_base (by decide) f⟩
  rw [State.hotEntered, getReg_raise hout, trip_encState, getReg_setFld_other _ _ _ _ _ (at_ne_of_index_ne (by decide) h)]

theorem headroomOf_other (s : State) {e f : Nat} (h : f ≠ e) :
    (s.headroomOf e).getReg (CL_ENC_STATE.at f) = s.getReg (CL_ENC_STATE.at f) := by
  have hshown : (s.headroomShown e).getReg (CL_ENC_STATE.at f) = s.getReg (CL_ENC_STATE.at f) :=
    (getReg_setFld_other _ _ _ _ _ (at_ne_of_index_ne (by decide) h)).trans (showEnclosure_other s h)
  unfold State.headroomOf
  split
  · rw [hotEntered_other _ h, hshown]
  · exact hshown

theorem headroomOf_fields (s : State) (e : Nat) :
    (s.headroomOf e).fld CL_ENC_STATE e CL_ENC_STATE_HOT = (if s.headroomNow e < 0 then 1 else s.fld CL_ENC_STATE e CL_ENC_STATE_HOT) ∧
      (s.headroomOf e).fld CL_ENC_STATE e CL_ENC_STATE_HEADROOM_DC = satSigned CL_ENC_STATE_HEADROOM_DC.len (s.headroomNow e / 10) := by
  obtain ⟨hhot, hdc⟩ := headroomShown_fields s e
  obtain ⟨hhot', hdc'⟩ := hotEntered_fields (s.headroomShown e) e
  unfold State.headroomOf
  split
  next h =>
    rw [if_pos h.1]
    exact ⟨hhot', hdc'.trans hdc⟩
  next h =>
    refine ⟨?_, hdc⟩
    split
    next hneg => simpa [hneg, State.encHot] using h
    next => exact hhot

/-- The thermal state of an enclosure as HEADROOM_TICK leaves it. -/
def HeadroomSet (s : State) (e : Nat) (t : State) : Prop :=
  t.fld CL_ENC_STATE e CL_ENC_STATE_HOT = (if s.headroomNow e < 0 then 1 else s.fld CL_ENC_STATE e CL_ENC_STATE_HOT) ∧
    t.fld CL_ENC_STATE e CL_ENC_STATE_HEADROOM_DC = satSigned CL_ENC_STATE_HEADROOM_DC.len (s.headroomNow e / 10)

/-- As `each_reaches`, for steps that keep what they keep on the list's own elements. -/
theorem each_reaches_mem {Pre Post : State → Prop} {xs : List Nat} {a : Nat} (ha : a ∈ xs) (f : Nat → State → State)
    (hpre : ∀ b ∈ xs, ∀ t, b ≠ a → Pre t → Pre (f b t)) (hgo : ∀ t, Pre t → Post (f a t)) (hpost : ∀ b ∈ xs, ∀ t, Post t → Post (f b t))
    {s : State} (h : Pre s) : Post (s.each xs f) := by
  induction xs generalizing s with
  | nil => cases ha
  | cons b xs ih =>
    rw [each_cons]
    rcases Classical.em (b = a) with rfl | hne
    · exact each_stable_mem xs f (fun c hc => hpost c (List.mem_cons_of_mem _ hc)) (hgo s h)
    · exact ih ((List.mem_cons.mp ha).resolve_left (Ne.symm hne)) (fun c hc => hpre c (List.mem_cons_of_mem _ hc))
        (fun c hc => hpost c (List.mem_cons_of_mem _ hc)) (hpre b List.mem_cons_self s hne h)

theorem headroomSet_of_getReg {e : Nat} {u : State} (h : HeadroomSet s e t)
    (hr : u.getReg (CL_ENC_STATE.at e) = t.getReg (CL_ENC_STATE.at e)) : HeadroomSet s e u := by
  simpa only [HeadroomSet, State.fld, hr] using h

/-- The turn of an enclosure, whether or not it has had one. -/
theorem headroomSet_headroomOf {e : Nat} (h : Ticking s t) (hhot : t.fld CL_ENC_STATE e CL_ENC_STATE_HOT =
    s.fld CL_ENC_STATE e CL_ENC_STATE_HOT ∨ HeadroomSet s e t) : HeadroomSet s e (t.headroomOf e) := by
  obtain ⟨hset, hdc⟩ := headroomOf_fields t e
  rw [h.1.headroomNow] at hset hdc
  refine ⟨hset.trans ?_, hdc⟩
  rcases hhot with hhot | ⟨hhot, -⟩
  · rw [hhot]
  · rw [hhot]
    split <;> rfl

theorem headrooms_spec (s : State) {e : Nat} (he : e < 32) : Ticking s s.headrooms ∧ HeadroomSet s e s.headrooms := by
  have hin : e ∈ List.range 32 := List.mem_range.mpr he
  refine each_reaches_mem
    (Pre := fun t => Ticking s t ∧ t.getReg (CL_ENC_STATE.at e) = s.getReg (CL_ENC_STATE.at e))
    (Post := fun t => Ticking s t ∧ HeadroomSet s e t) hin (fun e t => t.headroomOf e)
    (fun b hb t hne ht => ⟨headroomOf_ticking ht.1 (List.mem_range.mp hb), (headroomOf_other t (Ne.symm hne)).trans ht.2⟩)
    (fun t ht => ⟨headroomOf_ticking ht.1 he, headroomSet_headroomOf ht.1 (.inl (by rw [State.fld, ht.2]; rfl))⟩)
    (fun b hb t ht => ⟨headroomOf_ticking ht.1 (List.mem_range.mp hb), ?_⟩) ⟨⟨Measured.refl s, rfl⟩, rfl⟩
  rcases Classical.em (e = b) with rfl | hne
  · exact headroomSet_headroomOf ht.1 (.inr ht.2)
  · exact headroomSet_of_getReg ht.2 (headroomOf_other t hne)

/-! ### The condensation hold (R434 to R436) -/

/-- The state in which an enclosure counts as evaluated. -/
def State.evaluatedWith (s : State) (e : Nat) : State :=
  { s with cl := { s.cl with evaluated := if !s.cl.evaluated.contains e then s.cl.evaluated ++ [e] else s.cl.evaluated } }

/-- What HOLD_EVALUATION does for one enclosure. -/
def State.holdOf (s : State) (e : Nat) : State :=
  if ((s.showEnclosure e).evaluatedWith e).damp e then ((s.showEnclosure e).evaluatedWith e).setHold e true
  else if !(s.showEnclosure e).cl.evaluated.contains e then ((s.showEnclosure e).evaluatedWith e).setHold e false
  else (s.showEnclosure e).evaluatedWith e

theorem evaluateHold_eq (h : s.hasCL = true) : s.evaluateHold = s.each (List.range 32) (fun e s => s.holdOf e) := if_neg (by simp [h])

/-- The measurements, and the enclosures held and evaluated, after the hold of one is set. -/
theorem setHold_cl (s : State) (e : Nat) (on : Bool) : (s.setHold e on).cl.evaluated = s.cl.evaluated ∧
    (s.setHold e on).cl.held = if on then s.cl.held.filter (· ≠ e) ++ [e] else s.cl.held.filter (· ≠ e) := by
  cases on <;> exact ⟨rfl, rfl⟩

theorem setHold_measured (h : Measured s t) {e : Nat} (he : e < 32) (on : Bool) : Measured s (t.setHold e on) := by
  have hcl : Measured s { t with cl := { t.cl with held := if on then t.cl.held.filter (· ≠ e) ++ [e] else t.cl.held.filter (· ≠ e) } } := h
  cases on
  · exact (hcl.setFld hold_not_measure _ _).setFld (encState_not_measure e he) _ _
  · exact (hcl.setFld hold_not_measure _ _).setFld (encState_not_measure e he) _ _

theorem mem_setHold_other {e f : Nat} (h : f ≠ e) (s : State) (on : Bool) : f ∈ (s.setHold e on).cl.held ↔ f ∈ s.cl.held := by
  rw [(setHold_cl s e on).2]
  cases on <;> simp [h]

theorem mem_setHold_same (s : State) (e : Nat) (on : Bool) : e ∈ (s.setHold e on).cl.held ↔ on = true := by
  rw [(setHold_cl s e on).2]
  cases on <;> simp

theorem showEnclosure_cl (s : State) (e : Nat) : (s.showEnclosure e).cl = s.cl := (showEnclosure_regsOnly s e).keeps (·.cl) fun _ _ => rfl

theorem mem_evaluatedWith (s : State) (e f : Nat) : f ∈ (s.evaluatedWith e).cl.evaluated ↔ f ∈ s.cl.evaluated ∨ f = e := by
  show f ∈ (if !s.cl.evaluated.contains e then s.cl.evaluated ++ [e] else s.cl.evaluated) ↔ _
  split
  next => rw [List.mem_append, List.mem_singleton]
  next h =>
    refine ⟨.inl, fun hf => hf.elim id fun he => ?_⟩
    rw [he]
    simpa using h

theorem evaluatedWith_measured (h : Measured s t) (e : Nat) : Measured s (t.evaluatedWith e) := h

theorem holdOf_measured (h : Measured s t) {e : Nat} (he : e < 32) : Measured s (t.holdOf e) := by
  have hshown := evaluatedWith_measured (showEnclosure_measured h he) e
  unfold State.holdOf
  split
  · exact setHold_measured hshown he true
  · split
    · exact setHold_measured hshown he false
    · exact hshown

/-- Who is held and evaluated after the turn of one enclosure. -/
theorem holdOf_other {e f : Nat} (h : f ≠ e) (s : State) :
    (f ∈ (s.holdOf e).cl.held ↔ f ∈ s.cl.held) ∧ (f ∈ (s.holdOf e).cl.evaluated ↔ f ∈ s.cl.evaluated) := by
  have hheld : f ∈ ((s.showEnclosure e).evaluatedWith e).cl.held ↔ f ∈ s.cl.held := by
    show f ∈ (s.showEnclosure e).cl.held ↔ _
    rw [showEnclosure_cl]
  have heval : f ∈ ((s.showEnclosure e).evaluatedWith e).cl.evaluated ↔ f ∈ s.cl.evaluated := by
    rw [mem_evaluatedWith, showEnclosure_cl]
    simp [h]
  unfold State.holdOf
  split
  · exact ⟨(mem_setHold_other h _ _).trans hheld, by rw [(setHold_cl _ _ _).1]; exact heval⟩
  · split
    · exact ⟨(mem_setHold_other h _ _).trans hheld, by rw [(setHold_cl _ _ _).1]; exact heval⟩
    · exact ⟨hheld, heval⟩

theorem holdOf_same (h : Measured s t) {e : Nat} (he : e < 32) :
    e ∈ (t.holdOf e).cl.evaluated ∧ (s.damp e = true → e ∈ (t.holdOf e).cl.held) ∧
      (s.damp e = false → e ∉ t.cl.evaluated → e ∉ (t.holdOf e).cl.held) ∧
      (s.damp e = false → e ∈ t.cl.evaluated → (e ∈ (t.holdOf e).cl.held ↔ e ∈ t.cl.held)) := by
  have hdamp : ((t.showEnclosure e).evaluatedWith e).damp e = s.damp e :=
    (evaluatedWith_measured (showEnclosure_measured h he) e).damp e
  have hin : e ∈ ((t.showEnclosure e).evaluatedWith e).cl.evaluated := (mem_evaluatedWith _ e e).mpr (.inr rfl)
  have hheld : e ∈ ((t.showEnclosure e).evaluatedWith e).cl.held ↔ e ∈ t.cl.held := by
    show e ∈ (t.showEnclosure e).cl.held ↔ _
    rw [showEnclosure_cl]
  unfold State.holdOf
  rw [hdamp, showEnclosure_cl]
  split
  next hd =>
    refine ⟨by rw [(setHold_cl _ _ _).1]; exact hin, fun _ => (mem_setHold_same _ _ _).mpr rfl, fun hn => ?_, fun hn => ?_⟩ <;>
      simp [hd] at hn
  next hd =>
    split
    next hnew =>
      refine ⟨by rw [(setHold_cl _ _ _).1]; exact hin, fun hy => absurd hy hd, fun _ _ hmem => ?_, fun _ hmem => ?_⟩
      · exact absurd ((mem_setHold_same _ _ _).mp hmem) (by decide)
      · simp [hmem] at hnew
    next hold =>
      refine ⟨hin, fun hy => absurd hy hd, fun _ hn => ?_, fun _ _ => hheld⟩
      simp [hn] at hold

/-- The hold of an enclosure as HOLD_EVALUATION leaves it. -/
def HoldSet (s : State) (e : Nat) (t : State) : Prop :=
  e ∈ t.cl.evaluated ∧ (s.damp e = true → e ∈ t.cl.held) ∧ (s.damp e = false → e ∉ s.cl.evaluated → e ∉ t.cl.held) ∧
    (s.damp e = false → e ∈ s.cl.evaluated → (e ∈ t.cl.held ↔ e ∈ s.cl.held))

/-- The turn of an enclosure that has had one changes nothing of its hold. -/
theorem holdSet_again {e : Nat} (he : e < 32) (hm : Measured s t) (h : HoldSet s e t) : HoldSet s e (t.holdOf e) := by
  obtain ⟨heval, hdamp, hfirst, hlater⟩ := h
  obtain ⟨heval', hdamp', -, hlater'⟩ := holdOf_same hm he
  exact ⟨heval', hdamp', fun hd hn hin => hfirst hd hn ((hlater' hd heval).mp hin), fun hd hin => (hlater' hd heval).trans (hlater hd hin)⟩

theorem evaluateHold_spec (hcl : s.hasCL = true) {e : Nat} (he : e < 32) : Measured s s.evaluateHold ∧ HoldSet s e s.evaluateHold := by
  have hin : e ∈ List.range 32 := List.mem_range.mpr he
  rw [evaluateHold_eq hcl]
  refine each_reaches_mem
    (Pre := fun t => Measured s t ∧ (e ∈ t.cl.held ↔ e ∈ s.cl.held) ∧ (e ∈ t.cl.evaluated ↔ e ∈ s.cl.evaluated))
    (Post := fun t => Measured s t ∧ HoldSet s e t) hin (fun e t => t.holdOf e) (fun b hb t hne ht => ?_) (fun t ht => ?_)
    (fun b hb t ht => ⟨holdOf_measured ht.1 (List.mem_range.mp hb), ?_⟩) ⟨Measured.refl s, Iff.rfl, Iff.rfl⟩
  · obtain ⟨hheld, heval⟩ := holdOf_other (Ne.symm hne) t
    exact ⟨holdOf_measured ht.1 (List.mem_range.mp hb), hheld.trans ht.2.1, heval.trans ht.2.2⟩
  · obtain ⟨hm, hheld, heval⟩ := ht
    obtain ⟨heval', hdamp, hfirst, hlater⟩ := holdOf_same hm he
    exact ⟨holdOf_measured hm he, heval', hdamp, fun hd hn => hfirst hd (fun hin => hn (heval.mp hin)),
      fun hd hin => (hlater hd (heval.mpr hin)).trans hheld⟩
  · rcases Classical.em (e = b) with rfl | hne
    · exact holdSet_again he ht.1 ht.2
    · obtain ⟨hheld, heval⟩ := holdOf_other hne t
      obtain ⟨hin', hdamp, hfirst, hlater⟩ := ht.2
      exact ⟨heval.mpr hin', fun hd => hheld.mpr (hdamp hd), fun hd hn hmem => hfirst hd hn (hheld.mp hmem),
        fun hd hmem => hheld.trans (hlater hd hmem)⟩

/-! ### The clauses -/

theorem tripped (s : State) {f : Fld} (hf : f.lo + f.len ≤ 32) (hl : f.len = 1) : (s.trip f).fld CL_TRIP 0 f = 1 := by
  rw [State.trip, fld_setFld_same _ _ _ _ _ hf, hl] <;> rfl

theorem trip_onlyRegs (s : State) (f : Fld) : OnlyRegs [CL_TRIP.at 0] s (s.trip f) := onlyRegs_setFld s _ _ _ _

/-- The state in which an enclosure is in CRIT. -/
def State.critEntered (s : State) (e : Nat) : State := (s.setFld CL_ENC_STATE e CL_ENC_STATE_CRIT 1).trip CL_TRIP_ENC_CRIT

/-- The drives of an enclosure. -/
def State.drivesIn (s : State) (e : Nat) : List Nat := (Tab.keys s.dl.slots).filter (fun n => s.enclosure n = e)

theorem drivesIn_congr (hd : t.dl = s.dl) (hb : t.boot = s.boot) (e : Nat) : t.drivesIn e = s.drivesIn e := by
  have henc (n : Nat) : t.enclosure n = s.enclosure n := by rw [State.enclosure, State.enclosure, State.slotCfg, State.slotCfg, hb]
  simp only [State.drivesIn, hd, henc]

theorem enterCrit_eq {e : Nat} (hcl : s.hasCL = true) (h : s.headroomNow e < -(100 * (s.fld CL_CLIM_PARAM 0 CL_CLIM_PARAM_CRIT_MARGIN_C : Nat)))
    (hhot : s.encHot e = true) (hcrit : s.fld CL_ENC_STATE e CL_ENC_STATE_CRIT = 0) :
    s.enterCrit e = ((s.critEntered e).raise 0xB03 6 e).sendStandby (s.drivesIn e) := by
  have hdrives : ((s.critEntered e).raise 0xB03 6 e).drivesIn e = s.drivesIn e :=
    drivesIn_congr (raise_dl _ _ _ _ _) (raise_boot _ _ _ _ _) e
  rw [← hdrives, State.enterCrit]
  refine if_pos ?_
  simp only [hcl, hhot, hcrit, Bool.true_and, Bool.and_true, decide_true, decide_eq_true_eq]
  exact h

/-- Settles O50: each enclosure's turn sets its thermal state and its hold, and the trips set their bits with their events. -/
theorem enclosuresAreKeptSafe : Obligations.EnclosuresAreKeptSafe := by
  intro s e hup hcl he
  refine ⟨?_, fun h hhot hcrit => ⟨s.critEntered e, ?_, ?_, ?_, ?_⟩, fun h hhot => ?_, ?_, fun hheld hd => ?_, fun hheld => ?_,
    fun h hh h8 => ?_⟩
  · obtain ⟨⟨⟨-, hse, -⟩, hdl⟩, hhot, hdc⟩ := headrooms_spec s he
    refine ⟨s.headrooms, ?_, hse, hdl, fun h => hhot.trans (if_pos h), fun h => hhot.trans (if_neg (by omega)), hdc⟩
    simp only [Ends, Runs, exec_headroomTick, execHeadroomTick, whenPlant_up hup, headroomTick_eq hcl]
  · have heq := enterCrit_eq hcl h hhot hcrit
    simp only [Ends, Runs, exec_encCrit, execEncCrit, whenPlant_up hup, heq]
    rfl
  · rw [State.critEntered, State.fld, trip_encState]
    exact fld_setFld_same s CL_ENC_STATE e CL_ENC_STATE_CRIT 1 (by decide)
  · exact tripped _ (by decide) rfl
  · exact ((onlyRegs_refl _ s).setFld (by simp) _ _).setFld (by simp) _ _
  · have hgo : (s.hasCL && s.headroomNow e ≥ 100 && s.encHot e) = true := by simp [hcl, h, hhot]
    have heq : s.leaveHot e = _ := if_pos hgo
    refine ⟨s.leaveHot e, ?_, ?_⟩
    · simp only [Ends, Runs, exec_encHotExit, execEncHotExit, whenPlant_up hup]
    · have honly : OnlyRegs [CL_ENC_STATE.at e] s ((s.setFld CL_ENC_STATE e CL_ENC_STATE_HOT 0).setFld CL_ENC_STATE e CL_ENC_STATE_CRIT 0) :=
        (onlyRegs_setFld s _ _ _ _).setFld (by simp) _ _
      rw [heq]
      refine ⟨?_, ?_, rfl, honly.1, rfl⟩
      · exact (fld_setFld_beside (s.setFld CL_ENC_STATE e CL_ENC_STATE_HOT 0) CL_ENC_STATE e CL_ENC_STATE_CRIT CL_ENC_STATE_HOT 0 (by decide)
          (by decide)).trans (fld_setFld_same s _ _ _ _ (by decide))
      · exact fld_setFld_same (s.setFld CL_ENC_STATE e CL_ENC_STATE_HOT 0) CL_ENC_STATE e CL_ENC_STATE_CRIT 0 (by decide)
  · obtain ⟨⟨-, hse, -⟩, heval, hdamp, hfirst, hlater⟩ := evaluateHold_spec hcl he
    refine ⟨s.evaluateHold, ?_, hdamp, fun hd hn => hfirst hd (by simpa using hn), fun hd hin => hlater hd (by simpa using hin), heval, hse⟩
    simp only [Ends, Runs, exec_holdEvaluation, execHoldEvaluation, whenPlant_up hup]
  · have heq : s.holdOver e = s.setHold e false := if_pos (by rw [hcl, hheld, hd]; simpa using he)
    refine ⟨s.setHold e false, ?_, fun hin => absurd ((mem_setHold_same s e false).mp hin) (by decide), ?_,
      fun f hf => mem_setHold_other hf s false, rfl⟩
    · simp only [Ends, Runs, exec_holdDwellExpiry, execHoldDwellExpiry, whenPlant_up hup, heq]
    · exact fld_setFld_same _ CL_ENC_STATE e CL_ENC_STATE_HOLD 0 (by decide)
  · have heq : s.holdLong e = (s.trip CL_TRIP_HOLD_LONG).raise 0xB04 5 e := if_pos (by rw [hcl, hheld]; rfl)
    refine ⟨s.trip CL_TRIP_HOLD_LONG, ?_, tripped _ (by decide) rfl, trip_onlyRegs _ _⟩
    simp only [Ends, Runs, exec_holdLong, execHoldLong, whenPlant_up hup, heq]
  · have heq : s.humidHigh e = (s.trip CL_TRIP_HUMID_HIGH).raise 0xB09 4 e := by
      rw [State.humidHigh, hh]
      exact if_pos (by rw [hcl]; simpa using h8)
    refine ⟨s.trip CL_TRIP_HUMID_HIGH, ?_, tripped _ (by decide) rfl, trip_onlyRegs _ _⟩
    simp only [Ends, Runs, exec_humidHigh, execHumidHigh, whenPlant_up hup, heq]

end Sys2Proof.Machine
end

section
/-! The capacitor bank (R437 to R445): which registers its operations leave, and what they measure. -/

namespace Sys2Proof.Machine

open Sys2Proof

variable {s t : State} {A : Nat → Prop}

/-! ### Registers that are kept -/

/-- `t` has the values of `s` in the registers at the offsets of `A`. -/
def KeepsRegs (A : Nat → Prop) (s t : State) : Prop := ∀ a, A a → t.getReg a = s.getReg a

namespace KeepsRegs

theorem refl (s : State) : KeepsRegs A s s := fun _ _ => rfl

theorem trans {u : State} (h : KeepsRegs A s t) (k : KeepsRegs A t u) : KeepsRegs A s u := fun a ha => (k a ha).trans (h a ha)

theorem setReg (h : KeepsRegs A s t) {b : Nat} (hb : ¬ A b) (v : Word) : KeepsRegs A s (t.setReg b v) := fun a ha =>
  (getReg_setReg_other t (by rintro rfl; exact hb ha) v).trans (h a ha)

theorem setFld (h : KeepsRegs A s t) {r : Reg} {i : Nat} (hb : ¬ A (r.at i)) (f : Fld) (v : Nat) : KeepsRegs A s (t.setFld r i f v) :=
  h.setReg hb _

theorem each {α : Type} (h : KeepsRegs A s t) (xs : List α) (f : α → State → State) (hf : ∀ a ∈ xs, ∀ x, KeepsRegs A x (f a x)) :
    KeepsRegs A s (t.each xs f) :=
  each_stable_mem (P := KeepsRegs A s) xs f (fun a ha x hx => hx.trans (hf a ha x)) h

theorem raise (h : KeepsRegs A s t) (hA : ∀ a, A a → a ∉ evCounts) (code sev inst : Nat) (detail : List Byte) :
    KeepsRegs A s (t.raise code sev inst detail) := fun a ha => (getReg_raise (hA a ha) _ _ _ _).trans (h a ha)

theorem fld (h : KeepsRegs A s t) {r : Reg} {i : Nat} (ha : A (r.at i)) (f : Fld) : t.fld r i f = s.fld r i f := by
  rw [State.fld, h _ ha]
  rfl

end KeepsRegs

/-! ### The charger and the test load -/

/-- Registers that neither the charger nor a running test writes. -/
def outsideTest (a : Nat) : Prop := a < 0x600000 ∨ (0x700000 ≤ a ∧ a < 0x700280 ∧ a ≠ CL_CHG.at 0 ∧ a ≠ CL_STATUS.at 0)

theorem setCharger_keeps (h : ¬ A (CL_CHG.at 0)) (s : State) (v : Nat) : KeepsRegs A s (s.setCharger v) :=
  ((KeepsRegs.refl s).setFld h _ _).setFld h _ _

theorem switchLoad_keeps (s : State) (on : Bool) : KeepsRegs outsideTest s (s.switchLoad on) := by
  have hchg : ¬ outsideTest (CL_CHG.at 0) := by unfold outsideTest; decide
  refine KeepsRegs.setFld (KeepsRegs.each (KeepsRegs.refl s) _ _ fun k _ x => (KeepsRegs.refl x).setFld ?_ _ _) hchg _ _
  show ¬ (0x700280 + k * 4 < 0x600000 ∨ (0x700000 ≤ 0x700280 + k * 4 ∧ 0x700280 + k * 4 < 0x700280 ∧ _ ∧ _))
  omega

theorem xmStopFw_keeps (s : State) (n : Nat) (h : ¬ A (XM_CH_STATUS.at n)) : KeepsRegs A s (s.xmStopFw n) := by
  unfold State.xmStopFw
  split
  · exact (KeepsRegs.refl s).setFld h _ _
  · exact KeepsRegs.refl s

theorem dropTest_keeps (s : State) : KeepsRegs outsideTest s s.dropTest := by
  have hstatus : ¬ outsideTest (CL_STATUS.at 0) := by unfold outsideTest; decide
  have hxm : ¬ outsideTest (XM_CH_STATUS.at 30) := by unfold outsideTest; decide
  have hcl (x : State) (c : ClUnit) : KeepsRegs outsideTest x { x with cl := c } := KeepsRegs.refl x
  unfold State.dropTest
  dsimp only
  split
  · exact (((xmStopFw_keeps s 30 hxm).trans (hcl _ _)).trans (switchLoad_keeps _ false)).setFld hstatus _ _
  · exact ((hcl s _).trans (switchLoad_keeps _ false)).setFld hstatus _ _

/-! ### What is measured of the bank -/

/-- The registers that the bank's energy is computed from, beside its voltage and current. -/
def bankAt (a : Nat) : Prop :=
  a = CL_BANK_CE.at 0 ∨ a = CL_BANK_PARAM.at 0 ∨ a = CL_TEST_PARAM.at 0 ∨ a = CL_BANK_NAMEPLATE.at 0 ∨ a = SE_WIN_PARAM.at 0

theorem usableEnergy_congr (h : KeepsRegs bankAt s t) (v : Nat) (i : Int) : t.usableEnergy v i = s.usableEnergy v i := by
  have hce := h.fld (r := CL_BANK_CE) (i := 0) (.inl rfl)
  have hparam := h.fld (r := CL_BANK_PARAM) (i := 0) (.inr (.inl rfl))
  have hwin := h.fld (r := SE_WIN_PARAM) (i := 0) (.inr (.inr (.inr (.inr rfl))))
  have hfloor : t.vFloor = s.vFloor := by simp only [State.vFloor, hce, hparam, hwin]
  unfold State.usableEnergy
  rw [hfloor, hce, hce, hparam]

theorem testEnergy_congr (h : KeepsRegs bankAt s t) (hvi : t.getReg (CL_BANK_VI.at 0) = s.getReg (CL_BANK_VI.at 0)) :
    t.testEnergy = s.testEnergy := by
  have hce := h.fld (r := CL_BANK_CE) (i := 0) (.inl rfl)
  have htest := h.fld (r := CL_TEST_PARAM) (i := 0) (.inr (.inr (.inl rfl)))
  have hv (f : Fld) : t.fld CL_BANK_VI 0 f = s.fld CL_BANK_VI 0 f := by
    rw [State.fld, hvi]
    rfl
  simp only [State.testEnergy, State.sfld, hce, htest, hv]

theorem testRejected_congr (h : KeepsRegs bankAt s t) (v0 : Nat) (f : PulseFit) : t.testRejected v0 f = s.testRejected v0 f := by
  have htest := h.fld (r := CL_TEST_PARAM) (i := 0) (.inr (.inr (.inl rfl)))
  have hname := h.fld (r := CL_BANK_NAMEPLATE) (i := 0) (.inr (.inr (.inr (.inl rfl))))
  simp only [State.testRejected, htest, hname]

theorem outsideTest_of_bankAt {a : Nat} (h : bankAt a) : outsideTest a := by
  unfold outsideTest
  rcases h with rfl | rfl | rfl | rfl | rfl <;> decide

theorem KeepsRegs.bank (h : KeepsRegs outsideTest s t) : KeepsRegs bankAt s t := fun a ha => h a (outsideTest_of_bankAt ha)

/-! ### EU_COMPUTE (R437 to R441) -/

/-- The state with the bank's voltage and current shown. -/
def State.bankRead (s : State) (v : Nat) (i : Int) : State :=
  (s.setFld CL_BANK_VI 0 CL_BANK_VI_V_MV (min v 65535)).setSfld CL_BANK_VI 0 CL_BANK_VI_I_MA i

/-- The trip armed once the voltage is above it. -/
def State.tripArmed (s : State) (v : Nat) : State :=
  if v > 100 * s.fld CL_BANK_PARAM 0 CL_BANK_PARAM_V_TRIP_DV + 1000 && s.pw.power != .ebb then s.setFld CL_STATUS 0 CL_STATUS_TRIP_ARMED 1
  else s

/-- The state in which the charger and the trip follow a reading. -/
def State.bankFollowed (s : State) (v : Nat) (i : Int) : State := ((s.bankRead v i).followBank v).tripArmed v

/-- The state with an energy shown. -/
def State.energyShown (s : State) (e : Nat) : State := s.setFld CL_BANK_EU 0 CL_BANK_EU_E_U e

theorem followBank_cases (s : State) (v : Nat) : s.followBank v = s ∨ ∃ st, s.followBank v = s.setCharger st := by
  unfold State.followBank
  dsimp only
  split
  · exact .inl rfl
  · split
    · exact .inr ⟨_, rfl⟩
    · split
      · exact .inl rfl
      · exact .inr ⟨_, rfl⟩

theorem followBank_keeps (h : ¬ A (CL_CHG.at 0)) (s : State) (v : Nat) : KeepsRegs A s (s.followBank v) := by
  rcases followBank_cases s v with heq | ⟨st, heq⟩ <;> rw [heq]
  · exact KeepsRegs.refl s
  · exact setCharger_keeps h s st

theorem followBank_parts (s : State) (v : Nat) : (s.followBank v).se = s.se ∧ (s.followBank v).cl = s.cl := by
  rcases followBank_cases s v with heq | ⟨st, heq⟩ <;> rw [heq]
  · exact ⟨rfl, rfl⟩
  · exact ⟨rfl, rfl⟩

theorem tripArmed_keeps (h : ¬ A (CL_STATUS.at 0)) (s : State) (v : Nat) : KeepsRegs A s (s.tripArmed v) := by
  unfold State.tripArmed
  split
  · exact (KeepsRegs.refl s).setFld h _ _
  · exact KeepsRegs.refl s

theorem tripArmed_parts (s : State) (v : Nat) : (s.tripArmed v).se = s.se ∧ (s.tripArmed v).cl = s.cl := by
  unfold State.tripArmed
  split <;> exact ⟨rfl, rfl⟩

theorem bankFollowed_keeps (s : State) (v : Nat) (i : Int) : KeepsRegs bankAt s (s.bankFollowed v i) := by
  have hvi : ¬ bankAt (CL_BANK_VI.at 0) := by unfold bankAt; decide
  have hchg : ¬ bankAt (CL_CHG.at 0) := by unfold bankAt; decide
  have hstatus : ¬ bankAt (CL_STATUS.at 0) := by unfold bankAt; decide
  have hread : KeepsRegs bankAt s (s.bankRead v i) := ((KeepsRegs.refl s).setFld hvi _ _).setFld hvi _ _
  exact (hread.trans (followBank_keeps hchg _ v)).trans (tripArmed_keeps hstatus _ v)

/-- What EU_COMPUTE shows, and leaves. -/
theorem energyShown_spec (s : State) (v : Nat) (i : Int) {e : Nat} (he : e ≤ 65535) :
    ((s.bankFollowed v i).energyShown e).fld CL_BANK_EU 0 CL_BANK_EU_E_U = e ∧
      ((s.bankFollowed v i).energyShown e).fld CL_BANK_VI 0 CL_BANK_VI_V_MV = min v 65535 ∧
      ((s.bankFollowed v i).energyShown e).se = s.se ∧ ((s.bankFollowed v i).energyShown e).cl = s.cl := by
  obtain ⟨hse, hcl⟩ := followBank_parts (s.bankRead v i) v
  obtain ⟨hse', hcl'⟩ := tripArmed_parts ((s.bankRead v i).followBank v) v
  have hread : (s.bankRead v i).fld CL_BANK_VI 0 CL_BANK_VI_V_MV = min v 65535 := by
    rw [State.bankRead, State.setSfld, fld_setFld_beside _ _ _ _ _ _ (by decide) (by decide), fld_setFld_same _ _ _ _ _ (by decide)]
    exact Nat.mod_eq_of_lt (by show min v 65535 < 65536; omega)
  have hkeep : KeepsRegs (· = CL_BANK_VI.at 0) (s.bankRead v i) (s.bankFollowed v i) :=
    (followBank_keeps (by decide) _ v).trans (tripArmed_keeps (by decide) _ v)
  refine ⟨?_, ?_, hse'.trans (hse.trans rfl), hcl'.trans (hcl.trans rfl)⟩
  · rw [State.energyShown, fld_setFld_same _ _ _ _ _ (by decide)]
    exact Nat.mod_eq_of_lt (by show e < 65536; omega)
  · rw [State.energyShown, fld_setFld_other _ _ _ _ _ _ _ _ (by decide), hkeep.fld rfl, hread]

theorem euCompute_eq (hcl : s.hasCL = true) (v : Nat) (i : Int) : s.euCompute v i =
    let e := min 65535 (s.usableEnergy v i)
    let w := (s.bankFollowed v i).energyShown e
    if 100 * e < 98 * w.cl.euReported && w.cl.testV0.isNone && !w.cl.testWait then w.reportEu e else w := by
  rw [← usableEnergy_congr (bankFollowed_keeps s v i), State.euCompute, if_neg (by simp [hcl])]
  rfl

/-! ### The trip (R439, R445) -/

/-- The registers of the charger and of the trip. -/
def chargerAt (a : Nat) : Prop := a = CL_CHG.at 0 ∨ a = CL_STATUS.at 0

theorem toRing_keeps (s : State) (r : EvRecord) : KeepsRegs chargerAt s (s.toRing r) := by
  have hdropped : ¬ chargerAt (EV_DROPPED.at 0) := by unfold chargerAt; decide
  unfold State.toRing
  split
  · exact KeepsRegs.refl s
  · exact (KeepsRegs.refl s).setFld hdropped _ _

theorem toLog_keeps (s : State) (r : EvRecord) : KeepsRegs chargerAt s (s.toLog r) := by
  have hdropped : ¬ chargerAt (EV_DROPPED.at 0) := by unfold chargerAt; decide
  unfold State.toLog
  split
  · exact KeepsRegs.refl s
  · exact (KeepsRegs.refl s).setFld hdropped _ _

theorem formRecord_keeps (s : State) : KeepsRegs chargerAt s s.formRecord := by
  unfold State.formRecord
  split
  · exact KeepsRegs.refl s
  next e es _ =>
    split
    · exact KeepsRegs.refl s
    · exact toRing_keeps ((s.intakeLeft es).recordFormed e false) _

theorem ringOut_keeps (s : State) (n : Nat) : KeepsRegs chargerAt s (s.ringOut n) :=
  KeepsRegs.each (s := s) (t := { s with ev := { s.ev with ring := s.ev.ring.drop n } }) (KeepsRegs.refl s) _ _ fun _ _ x => toLog_keeps x _

theorem ringSaved_keeps (s : State) : KeepsRegs chargerAt s s.ringSaved := by
  unfold State.ringSaved
  split
  · exact ringOut_keeps s 256
  · exact KeepsRegs.refl s

theorem formAll_keeps (s : State) : KeepsRegs chargerAt s s.formAll :=
  (KeepsRegs.refl s).each _ _ fun _ _ x => formRecord_keeps x

theorem not_chargerAt_below {a : Nat} (h : a < 0x700000) : ¬ chargerAt a := by
  show ¬ (a = 0x70001c ∨ a = 0x700004)
  omega

theorem xmStartFw_keeps {n : Nat} (hn : n < 32) (s : State) (program : List (List Byte)) : KeepsRegs chargerAt s (s.xmStartFw n program) := by
  have hat {r : Reg} (h : r.base < 0x600400 ∧ r.stride1 = 0x400) : ¬ chargerAt (r.at n) := by
    refine not_chargerAt_below ?_
    rw [Reg.at, h.2]
    omega
  have hloop (k : Nat) (hk : k < 4) : ¬ chargerAt (XM_CH_LOOP.at2 n k) := by
    refine not_chargerAt_below ?_
    show 0x600030 + n * 0x400 + k * 4 < 0x700000
    omega
  have hbase : KeepsRegs chargerAt s ((s.draw Config.freeNat).2.setXmChan n ⟨none, [], none, program, 32 * ((s.draw Config.freeNat).1 % 2 ^ 20)⟩) :=
    KeepsRegs.refl s
  have hloops := hbase.each (List.range 4) (fun k (t : State) => t.setXmLoop n k 0) fun k hk x =>
    (KeepsRegs.refl x).setReg (hloop k (List.mem_range.mp hk)) _
  exact ((((((hloops.setFld (r := XM_CH_STATUS) (hat (by decide)) _ _).setFld (hat (by decide)) _ _).setFld (hat (by decide)) _ _).setReg
    (b := XM_CH_REMAIN.at n) (hat (by decide)) 0).setReg (b := XM_CH_PC_LO.at n) (hat (by decide)) _).setReg (b := XM_CH_PC_HI.at n)
    (hat (by decide)) _).setFld (r := XM_CH_STATUS) (hat (by decide)) _ _

end Sys2Proof.Machine
end

section
/-! The trip of the capacitor bank and its pulse-load test (R430, R439, R442 to R445). -/

namespace Sys2Proof.Machine

open Sys2Proof

variable {s t : State}

/-! ### The trip -/

theorem startFlush_keeps (s : State) : KeepsRegs chargerAt s s.startFlush := by
  have hcfg : ¬ chargerAt (XM_CH_CFG.at 31) := by unfold chargerAt; decide
  have hdraw (x : State) (f : Nat → Nat) : KeepsRegs chargerAt x (x.draw f).2 := KeepsRegs.refl x
  unfold State.startFlush
  split
  · refine KeepsRegs.trans (KeepsRegs.setFld ((KeepsRegs.trans ?_ (hdraw _ _)).trans (hdraw _ _)) hcfg _ _) (xmStartFw_keeps (by decide) _ _)
    exact foldl_snd_stable (KeepsRegs chargerAt s) _ _ _ (fun _ _ hx => hx) (KeepsRegs.refl s)
  · exact KeepsRegs.refl s

theorem refreshLeft_keeps (s : State) : KeepsRegs chargerAt s s.refreshLeft := by
  refine (KeepsRegs.refl s).each _ _ fun ch hch x => (KeepsRegs.refl x).setFld (not_chargerAt_below ?_) _ _
  have hlt := List.mem_range.mp (List.mem_filter.mp hch).1
  show 0x400000 + ch * 0x1000 < 0x700000
  omega

theorem moverHalted_keeps (s : State) : KeepsRegs chargerAt s s.moverHalted := by
  refine (KeepsRegs.refl s).each _ _ fun n hn x => ?_
  have hstatus : ¬ chargerAt (XM_CH_STATUS.at n) := by
    have hlt := List.mem_range.mp hn
    refine not_chargerAt_below ?_
    show 0x600010 + n * 0x400 < 0x700000
    omega
  have hchan : KeepsRegs chargerAt x (x.setXmChan n ⟨none, [], none, [], 0⟩) := KeepsRegs.refl x
  exact hchan.setFld hstatus _ _

theorem ebbPath_keeps (h : s.pw.power = .ebb) : KeepsRegs chargerAt s s.ebbPath := by
  rw [ebbPath_eq h]
  exact ((refreshLeft_keeps s).trans (moverHalted_keeps _)).trans (startFlush_keeps _)

theorem setCharger_state (s : State) (v : Nat) (hv : v < 4) : (s.setCharger v).charger = v :=
  (fld_setFld_beside (s.setFld CL_CHG 0 CL_CHG_STATE v) CL_CHG 0 CL_CHG_EN CL_CHG_STATE _ (by decide) (by decide)).trans
    ((fld_setFld_same s _ _ _ _ (by decide)).trans (Nat.mod_eq_of_lt hv))

theorem climateEbb_charger (hcl : s.hasCL = true) (h : s.pw.power = .ebb) :
    s.climateEbb.charger = chgOff ∧ s.climateEbb.fld CL_STATUS 0 CL_STATUS_TRIP_ARMED = 0 := by
  rw [State.climateEbb, if_neg (by simp [hcl, h])]
  constructor
  · refine (fld_setFld_other _ CL_STATUS CL_CHG 0 0 _ _ _ (by decide)).trans (setCharger_state _ _ (by decide))
  · exact fld_setFld_same _ CL_STATUS 0 CL_STATUS_TRIP_ARMED 0 (by decide)

/-- The state in which the comparator has tripped, before the ebb begins. -/
def State.bankTripped (s : State) : State := (s.trip CL_TRIP_VBANK_TRIP).raise 0xB0A 6 noInst

theorem bankTripped_pw (s : State) : s.bankTripped.pw = s.pw := raise_pw _ _ _ _ _

theorem bankTripped_variant (s : State) : s.bankTripped.variant = s.variant := raise_variant _ _ _ _ _

theorem startEbb_live (hebb : s.pw.power ≠ .ebb) (hoff : s.pw.power ≠ .off) (trigger : Nat) : s.startEbb trigger = s.ebbBegun trigger :=
  if_neg (not_or.mpr ⟨hebb, hoff⟩)

/-- The armed comparator brings the device to EBB with trigger 2. -/
theorem tripEbb_spec (hcl : s.hasCL = true) (harm : s.fld CL_STATUS 0 CL_STATUS_TRIP_ARMED = 1) (hebb : s.pw.power ≠ .ebb)
    (hoff : s.pw.power ≠ .off) : s.tripEbb.pw.power = .ebb ∧ s.tripEbb.eb.lastTrigger = 2 ∧ s.tripEbb.charger = chgOff ∧
      s.tripEbb.fld CL_STATUS 0 CL_STATUS_TRIP_ARMED = 0 ∧ s.tripEbb.eb.running.isSome = true := by
  have htrip : s.bankTrip = (s.bankTripped.ebbBegun 2).climateEbb := by
    rw [State.bankTrip, if_pos (by simp [hcl, harm]), ← State.bankTripped, startEbb_live (by rwa [bankTripped_pw]) (by rwa [bankTripped_pw])]
  have hclimate : (s.bankTripped.ebbBegun 2).hasCL = true := by
    have hvar : (s.bankTripped.ebbBegun 2).variant = s.variant := bankTripped_variant s
    rw [State.hasCL, hvar, ← hcl, State.hasCL]
  obtain ⟨hcharger, harmed⟩ := climateEbb_charger hclimate rfl
  have hbegun : Ebbing (s.bankTripped.ebbBegun 2).eb (s.bankTripped.ebbBegun 2).climateEbb := Ebbing.climateEbb ⟨rfl, rfl⟩
  have hrec : Recorded s.bankTrip s.bankTrip.formAll.ringSaved := (Recorded.formAll _).trans (Recorded.ringSaved _)
  have hsaved : Ebbing (s.bankTripped.ebbBegun 2).eb s.bankTrip.formAll.ringSaved :=
    ⟨(hrec.keeps (·.pw.power) fun _ _ _ => rfl).trans (htrip ▸ hbegun.1), (hrec.keeps (·.eb) fun _ _ _ => rfl).trans (htrip ▸ hbegun.2)⟩
  have heq : s.tripEbb = s.bankTrip.formAll.ringSaved.ebbPath := by
    rw [State.tripEbb, htrip]
    exact if_pos (by simp [hebb, hbegun.1])
  obtain ⟨⟨⟨hpower, heb⟩, -⟩, -⟩ := ebbPath_spec hsaved
  have hkeep : KeepsRegs chargerAt s.bankTrip s.tripEbb :=
    heq ▸ ((formAll_keeps _).trans (ringSaved_keeps _)).trans (ebbPath_keeps hsaved.1)
  rw [← heq] at hpower heb
  refine ⟨hpower, by rw [heb]; rfl, ?_, ?_, by rw [heb]; rfl⟩
  · rw [State.charger, hkeep.fld (.inl rfl), htrip]
    exact hcharger
  · rw [hkeep.fld (.inr rfl), htrip]
    exact harmed

/-! ### The pulse-load test -/

theorem KeepsRegs.of_regs_eq {A : Nat → Prop} {u : State} (h : KeepsRegs A s t) (hr : u.regs = t.regs) : KeepsRegs A s u := fun a ha => by
  rw [State.getReg, hr]
  exact h a ha

/-- The state in which a test is shown, the charger off. -/
def State.testShown (s : State) : State := (s.setCharger chgOff).setFld CL_STATUS 0 CL_STATUS_TEST_RUN 1

/-- The state in which a test waits for its onset. -/
def State.testBegun (s : State) : State :=
  { s.testShown with cl := { s.testShown.cl with testWait := true, lastStart := some s.testShown.devNs } }

theorem testBegun_regs (s : State) : s.testBegun.regs = s.testShown.regs := rfl

theorem testBegun_fields (s : State) : s.testBegun.charger = chgOff ∧ s.testBegun.fld CL_STATUS 0 CL_STATUS_TEST_RUN = 1 := by
  rw [State.charger, fld_of_regs_eq (testBegun_regs s), fld_of_regs_eq (testBegun_regs s)]
  exact ⟨(fld_setFld_other (s.setCharger chgOff) _ _ _ _ _ _ _ (by decide)).trans (setCharger_state s _ (by decide)),
    fld_setFld_same (s.setCharger chgOff) CL_STATUS 0 CL_STATUS_TEST_RUN 1 (by decide)⟩

theorem testBegun_keeps (s : State) : KeepsRegs (fun a => bankAt a ∨ a = CL_BANK_VI.at 0) s s.testBegun := by
  have hchg : ¬ (bankAt (CL_CHG.at 0) ∨ CL_CHG.at 0 = CL_BANK_VI.at 0) := by unfold bankAt; decide
  have hstatus : ¬ (bankAt (CL_STATUS.at 0) ∨ CL_STATUS.at 0 = CL_BANK_VI.at 0) := by unfold bankAt; decide
  have hshown : KeepsRegs (fun a => bankAt a ∨ a = CL_BANK_VI.at 0) s s.testShown :=
    (setCharger_keeps (A := fun a => bankAt a ∨ a = CL_BANK_VI.at 0) hchg s chgOff).setFld (r := CL_STATUS) hstatus _ _
  exact hshown.of_regs_eq (testBegun_regs s)

theorem testStart_eq (hcl : s.hasCL = true) (hfloat : s.charger = chgFloat) (hrun : s.pw.power = .run) (hloads : s.testLoads ≠ [])
    (hwait : s.cl.testWait = false) (hv0 : s.cl.testV0 = none) (hlast : s.cl.lastStart = none)
    (he : s.testEnergy + s.energyRequired ≤ s.fld CL_BANK_EU 0 CL_BANK_EU_E_U) :
    s.testStart = s.testBegun.reportEu (s.fld CL_BANK_EU 0 CL_BANK_EU_E_U - s.testEnergy) := by
  have henergy : s.testBegun.testEnergy = s.testEnergy :=
    testEnergy_congr (fun a ha => testBegun_keeps s a (.inl ha)) (testBegun_keeps s _ (.inr rfl))
  have hempty : s.testLoads.isEmpty = false := by simpa using hloads
  rw [← henergy]
  unfold State.testStart
  rw [hlast]
  generalize s.fld CL_BANK_EU 0 CL_BANK_EU_E_U = e at he ⊢
  dsimp only
  rw [if_pos (by simp [hcl, hfloat, hrun, hempty, hwait, hv0, he])]
  delta State.testBegun State.testShown
  with_reducible rfl

/-- The state in which a program is laid at its place for channel `n`. -/
def State.programLaid (s : State) (n : Nat) (program : List (List Byte)) : State :=
  (s.draw Config.freeNat).2.setXmChan n ⟨none, [], none, program, 32 * ((s.draw Config.freeNat).1 % 2 ^ 20)⟩

theorem programLaid_parts (s : State) (n : Nat) (program : List (List Byte)) :
    (s.programLaid n program).cl = s.cl ∧ (s.programLaid n program).boot = s.boot := ⟨rfl, rfl⟩

theorem xmStartFw_regsOnly (s : State) (n : Nat) (program : List (List Byte)) :
    RegsOnly (s.programLaid n program) (s.xmStartFw n program) := by
  have hloops := (RegsOnly.refl (s.programLaid n program)).each (List.range 4) (fun k (t : State) => t.setXmLoop n k 0)
    fun k x => (RegsOnly.refl x).setReg (XM_CH_LOOP.at2 n k) _
  exact ((((((hloops.setFld _ _ _ _).setFld _ _ _ _).setFld _ _ _ _).setReg _ _).setReg _ _).setReg _ _).setFld _ _ _ _

theorem xmStartFw_parts (s : State) (n : Nat) (program : List (List Byte)) :
    (s.xmStartFw n program).cl = s.cl ∧ (s.xmStartFw n program).boot = s.boot := by
  have h := xmStartFw_regsOnly s n program
  obtain ⟨hcl, hboot⟩ := programLaid_parts s n program
  exact ⟨(h.keeps (·.cl) fun _ _ => rfl).trans hcl, (h.keeps (·.boot) fun _ _ => rfl).trans hboot⟩

theorem switchLoad_regsOnly (s : State) (on : Bool) : RegsOnly s (s.switchLoad on) :=
  ((RegsOnly.refl s).each _ _ fun _ x => (RegsOnly.refl x).setFld _ _ _ _).setFld _ _ _ _

/-- The test load as it is switched. -/
theorem switchLoad_loads (s : State) : (s.switchLoad true).fld CL_CHG 0 CL_CHG_TEST = 1 ∧
    ∀ h ∈ s.testLoads, (s.switchLoad true).fld CL_HTR h CL_HTR_DUTY = 10000 := by
  refine ⟨fld_setFld_same _ CL_CHG 0 CL_CHG_TEST 1 (by decide), fun h hh => ?_⟩
  have hchg : CL_HTR.at h ≠ CL_CHG.at 0 := at_ne_of_lt_base (by decide) h
  have hsame (x : State) : (x.setFld CL_HTR h CL_HTR_DUTY 10000).fld CL_HTR h CL_HTR_DUTY = 10000 :=
    fld_setFld_same x CL_HTR h CL_HTR_DUTY 10000 (by decide)
  refine (fld_setFld_other _ _ _ _ _ _ _ _ hchg).trans ?_
  refine each_reaches (Pre := fun _ => True) (Post := fun x => x.fld CL_HTR h CL_HTR_DUTY = 10000) hh
    (fun k x => x.setFld CL_HTR k CL_HTR_DUTY 10000) (fun _ _ _ _ => trivial) (fun x _ => hsame x) (fun k x hx => ?_) trivial
  rcases Classical.em (h = k) with rfl | hne
  · exact hsame x
  · exact (fld_setFld_other x _ _ _ _ _ _ _ (at_ne_of_index_ne (by decide) hne)).trans hx

theorem switchLoad_channel (s : State) (on : Bool) (n : Nat) (hn : n < 32) : (s.switchLoad on).xmState n = s.xmState n := by
  have hchg : ¬ CL_CHG.at 0 = XM_CH_STATUS.at n := by
    show ¬ 0x70001c = 0x600010 + n * 0x400
    omega
  have hkeep : KeepsRegs (· = XM_CH_STATUS.at n) s (s.switchLoad on) := by
    have hheater (k : Nat) : ¬ CL_HTR.at k = XM_CH_STATUS.at n := by
      show ¬ 0x700280 + k * 4 = 0x600010 + n * 0x400
      omega
    have hloads := (KeepsRegs.refl (A := (· = XM_CH_STATUS.at n)) s).each s.testLoads
      (fun k x => x.setFld CL_HTR k CL_HTR_DUTY (if on then 10000 else 0)) fun k _ x => (KeepsRegs.refl x).setFld (r := CL_HTR) (i := k) (hheater k) _ _
    exact hloads.setFld (r := CL_CHG) hchg _ _
  exact hkeep.fld rfl _

/-- The state in which the onset of a test is known. -/
def State.onsetKnown (s : State) (v0 : Nat) : State := { s with cl := { s.cl with testWait := false, testV0 := some v0 } }

theorem onsetKnown_boot (s : State) (v0 : Nat) : (s.onsetKnown v0).boot = s.boot := rfl

theorem onsetKnown_cl (s : State) (v0 : Nat) : (s.onsetKnown v0).cl = { s.cl with testWait := false, testV0 := some v0 } := rfl

theorem onsetKnown_regs (s : State) (v0 : Nat) : (s.onsetKnown v0).regs = s.regs := rfl

/-- The state in which channel 30 captures and the onset is known, the load still off. -/
def State.onsetTaken (s : State) (v0 : Nat) : State := (s.xmStartFw 30 (captureProgram 0 traceBuffer 65536)).onsetKnown v0

theorem testOnset_eq (h : s.cl.testWait = true) (v0 : Nat) : s.testOnset v0 = (s.onsetTaken v0).switchLoad true := by
  rw [State.testOnset, if_pos h]
  delta State.onsetTaken State.onsetKnown
  with_reducible rfl

theorem onsetTaken_spec (s : State) (v0 : Nat) : (s.onsetTaken v0).cl = { s.cl with testWait := false, testV0 := some v0 } ∧
    (s.onsetTaken v0).testLoads = s.testLoads ∧ (s.onsetTaken v0).xmState 30 = xmRun := by
  obtain ⟨hcl, hboot⟩ := xmStartFw_parts s 30 (captureProgram 0 traceBuffer 65536)
  unfold State.onsetTaken
  refine ⟨by rw [onsetKnown_cl, hcl], by rw [State.testLoads, State.testLoads, onsetKnown_boot, hboot], ?_⟩
  rw [State.xmState, fld_of_regs_eq (onsetKnown_regs _ v0)]
  exact xmStartFw_state s 30 _

theorem dropTest_cl (s : State) : s.dropTest.cl = { s.cl with testV0 := none, testWait := false } := by
  have hload (x : State) : ((x.switchLoad false).setFld CL_STATUS 0 CL_STATUS_TEST_RUN 0).cl = x.cl :=
    ((switchLoad_regsOnly x false).setFld _ _ _ _).keeps (·.cl) fun _ _ => rfl
  have hstop : (s.xmStopFw 30).cl = s.cl := by
    unfold State.xmStopFw
    split <;> rfl
  unfold State.dropTest
  dsimp only
  rw [hload]
  split
  · rw [hstop]
  · rfl

end Sys2Proof.Machine
end

section
/-! The end of a pulse-load test, and the statement of the capacitor bank (R437 to R445). -/

namespace Sys2Proof.Machine

open Sys2Proof

variable {s t : State}

/-! ### The end of a test -/

theorem dropTest_devNs (s : State) : s.dropTest.devNs = s.devNs := by
  have hload (x : State) : ((x.switchLoad false).setFld CL_STATUS 0 CL_STATUS_TEST_RUN 0).devNs = x.devNs :=
    ((switchLoad_regsOnly x false).setFld _ _ _ _).keeps (·.devNs) fun _ _ => rfl
  have hstop : (s.xmStopFw 30).devNs = s.devNs := by
    unfold State.xmStopFw
    split <;> rfl
  unfold State.dropTest
  dsimp only
  rw [hload]
  split
  · exact hstop
  · rfl

/-- The state in which a test has ended and the bank charges again. -/
def State.testDropped (s : State) : State := s.dropTest.setCharger chgCharge

theorem testDropped_keeps (s : State) : KeepsRegs outsideTest s s.testDropped :=
  (dropTest_keeps s).trans (setCharger_keeps (by unfold outsideTest; decide) _ _)

theorem testDropped_cl (s : State) : s.testDropped.cl = { s.cl with testV0 := none, testWait := false } :=
  dropTest_cl s

theorem testDropped_devNs (s : State) : s.testDropped.devNs = s.devNs :=
  dropTest_devNs s

theorem testDropped_charger (s : State) : s.testDropped.charger = chgCharge := setCharger_state _ _ (by decide)

/-- The state with capacitance and resistance of a fit shown. -/
def State.bankShown (s : State) (r : Nat × Nat) : State :=
  (s.setFld CL_BANK_CE 0 CL_BANK_CE_C_MF (min r.2 65535)).setFld CL_BANK_CE 0 CL_BANK_CE_ESR (min r.1 65535)

/-- The state with the time of the last test. -/
def State.testTimed (s : State) : State := { s with cl := { s.cl with lastTest := some s.devNs } }

theorem testTimed_regs (s : State) : s.testTimed.regs = s.regs := rfl

theorem testTimed_cl (s : State) : s.testTimed.cl = { s.cl with lastTest := some s.devNs } := rfl

/-- The state in which a test has left its measured values. -/
def State.bankTaken (s : State) (r : Nat × Nat) : State := (s.bankShown r).testTimed.setFld CL_STATUS 0 CL_STATUS_BANK_MEASURED 1

theorem bankShown_fields (s : State) (r : Nat × Nat) : (s.bankShown r).fld CL_BANK_CE 0 CL_BANK_CE_C_MF = min r.2 65535 ∧
    (s.bankShown r).fld CL_BANK_CE 0 CL_BANK_CE_ESR = min r.1 65535 := by
  have hmod (n : Nat) : min n 65535 % 2 ^ 16 = min n 65535 := Nat.mod_eq_of_lt (by omega)
  rw [State.bankShown, fld_setFld_beside _ _ _ _ _ _ (by decide) (by decide), fld_setFld_same _ _ _ _ _ (by decide),
    fld_setFld_same _ _ _ _ _ (by decide)]
  exact ⟨hmod _, hmod _⟩

theorem bankTaken_cl (s : State) (r : Nat × Nat) : (s.bankTaken r).cl = { s.cl with lastTest := some s.devNs } := by
  rw [State.bankTaken, setFld_cl, testTimed_cl]
  rfl

theorem bankTaken_fields (s : State) (r : Nat × Nat) : (s.bankTaken r).fld CL_BANK_CE 0 CL_BANK_CE_C_MF = min r.2 65535 ∧
    (s.bankTaken r).fld CL_BANK_CE 0 CL_BANK_CE_ESR = min r.1 65535 ∧ (s.bankTaken r).fld CL_STATUS 0 CL_STATUS_BANK_MEASURED = 1 := by
  obtain ⟨hc, hesr⟩ := bankShown_fields s r
  have hkeep (f : Fld) : (s.bankTaken r).fld CL_BANK_CE 0 f = (s.bankShown r).fld CL_BANK_CE 0 f :=
    (fld_setFld_other _ CL_STATUS CL_BANK_CE 0 0 _ _ _ (by decide)).trans (fld_of_regs_eq (testTimed_regs _) _ _ _)
  exact ⟨(hkeep _).trans hc, (hkeep _).trans hesr, fld_setFld_same _ CL_STATUS 0 CL_STATUS_BANK_MEASURED 1 (by decide)⟩

/-- The comparison of a test's result with the bank's name plate is unchanged by the values it leaves. -/
theorem bankTaken_nameplate (s : State) (r : Nat × Nat) (f : Fld) :
    (s.bankTaken r).fld CL_BANK_NAMEPLATE 0 f = s.fld CL_BANK_NAMEPLATE 0 f :=
  calc (s.bankTaken r).fld CL_BANK_NAMEPLATE 0 f
    _ = (s.bankShown r).testTimed.fld CL_BANK_NAMEPLATE 0 f := fld_setFld_other _ CL_STATUS CL_BANK_NAMEPLATE 0 0 _ _ _ (by decide)
    _ = (s.bankShown r).fld CL_BANK_NAMEPLATE 0 f := fld_of_regs_eq (testTimed_regs _) _ _ _
    _ = (s.setFld CL_BANK_CE 0 CL_BANK_CE_C_MF (min r.2 65535)).fld CL_BANK_NAMEPLATE 0 f :=
      fld_setFld_other _ CL_BANK_CE CL_BANK_NAMEPLATE 0 0 _ _ _ (by decide)
    _ = s.fld CL_BANK_NAMEPLATE 0 f := fld_setFld_other _ CL_BANK_CE CL_BANK_NAMEPLATE 0 0 _ _ _ (by decide)

theorem testEnd_rejected {v0 : Nat} (hv : s.cl.testV0 = some v0) {f : PulseFit} (h : s.testRejected v0 f = true) :
    s.testEnd f = s.testDropped.raise 0xB07 3 noInst := by
  rw [State.testEnd, hv]
  exact if_pos ((testRejected_congr (testDropped_keeps s).bank v0 f).trans h)

theorem testEnd_measured {v0 : Nat} (hv : s.cl.testV0 = some v0) {f : PulseFit} (h : s.testRejected v0 f = false)
    (hc : 8 * s.fld CL_BANK_NAMEPLATE 0 CL_BANK_NAMEPLATE_C_MF ≤ 10 * (fitResults v0 f).2)
    (hesr : (fitResults v0 f).1 ≤ 2 * s.fld CL_BANK_NAMEPLATE 0 CL_BANK_NAMEPLATE_ESR) :
    s.testEnd f = s.testDropped.bankTaken (fitResults v0 f) := by
  have hname (g : Fld) : (s.testDropped.bankTaken (fitResults v0 f)).fld CL_BANK_NAMEPLATE 0 g = s.fld CL_BANK_NAMEPLATE 0 g :=
    (bankTaken_nameplate _ _ g).trans
      ((testDropped_keeps s).fld (r := CL_BANK_NAMEPLATE) (i := 0) (outsideTest_of_bankAt (.inr (.inr (.inr (.inl rfl))))) g)
  have hkept : s.testDropped.testRejected v0 f = false := (testRejected_congr (testDropped_keeps s).bank v0 f).trans h
  have hyoung : ¬ (10 * (fitResults v0 f).2 <
        8 * (s.testDropped.bankTaken (fitResults v0 f)).fld CL_BANK_NAMEPLATE 0 CL_BANK_NAMEPLATE_C_MF ∨
      (fitResults v0 f).1 > 2 * (s.testDropped.bankTaken (fitResults v0 f)).fld CL_BANK_NAMEPLATE 0 CL_BANK_NAMEPLATE_ESR) := by
    rw [hname, hname]
    omega
  rw [State.testEnd, hv]
  dsimp only
  rw [← State.testDropped, if_neg (by rw [hkept]; decide)]
  exact if_neg hyoung

/-! ### The settlement -/

/-- The state in which a reported energy stands. -/
def State.euTaken (s : State) (e : Nat) : State := { s with cl := { s.cl with euReported := e }, se := { s.se with eu := e } }

theorem reportEu_eq (s : State) (e : Nat) : s.reportEu e = (s.euTaken e).winRecompute := rfl

/-- The state in which the charger has failed. -/
def State.chargerFaulted (s : State) : State := (s.setCharger chgFault).trip CL_TRIP_CHARGER_FAULT

theorem chargerFaulted_charger (s : State) : s.chargerFaulted.charger = chgFault := by
  rw [State.charger, State.chargerFaulted, State.trip, fld_setFld_other _ CL_TRIP CL_CHG 0 0 _ _ _ (by decide)]
  exact setCharger_state s _ (by decide)

/-- `t` differs from `s` in outputs and in the registers of `as` alone. -/
def OnlyRegsOut (as : List Nat) (s t : State) : Prop := OnlyRegs as { s with out := t.out } t

theorem onlyRegsOut_refl (as : List Nat) (s : State) : OnlyRegsOut as s s := onlyRegs_refl as s

theorem OnlyRegsOut.setFld {as : List Nat} (h : OnlyRegsOut as s t) {r : Reg} {i : Nat} (ha : r.at i ∈ as) (f : Fld) (v : Nat) :
    OnlyRegsOut as s (t.setFld r i f v) := OnlyRegs.setFld h ha f v

theorem OnlyRegsOut.emit {as : List Nat} (h : OnlyRegsOut as s t) (o : Out) : OnlyRegsOut as s (t.emit o) :=
  ⟨fun a ha => h.1 a ha, congrArg (fun x : State => x.emit o) h.2⟩

theorem chargerFaulted_onlyRegs (s : State) : OnlyRegsOut [CL_CHG.at 0, CL_TRIP.at 0] s s.chargerFaulted := by
  have hchg : CL_CHG.at 0 ∈ [CL_CHG.at 0, CL_TRIP.at 0] := List.mem_cons_self
  have htrip : CL_TRIP.at 0 ∈ [CL_CHG.at 0, CL_TRIP.at 0] := List.mem_cons_of_mem _ List.mem_cons_self
  have hstate := ((onlyRegsOut_refl _ s).setFld hchg CL_CHG_STATE chgFault).setFld hchg CL_CHG_EN (b2n (chgFault != chgOff))
  have hout : OnlyRegsOut [CL_CHG.at 0, CL_TRIP.at 0] s (s.setCharger chgFault) := (hstate.emit _).emit _
  exact hout.setFld htrip CL_TRIP_CHARGER_FAULT 1

theorem testBegun_parts (s : State) : s.testBegun.cl.testWait = true ∧ s.testBegun.cl.lastStart = some s.testShown.devNs ∧
    s.testBegun.se = s.testShown.se := ⟨rfl, rfl, rfl⟩

theorem testShown_parts (s : State) : s.testShown.devNs = s.devNs ∧ s.testShown.se = s.se := by
  rw [State.testShown, setFld_devNs, setFld_se]
  exact ⟨rfl, rfl⟩

theorem plantUp_not_off (h : s.plantUp = true) : s.pw.power ≠ .off := by
  intro hoff
  simp [State.plantUp, State.up, hoff] at h

/-- Settles O51: EU_COMPUTE, the trip and the pulse-load test, each by what its operation shows. -/
theorem bankIsMeasured : Obligations.BankIsMeasured := by
  intro s hup hcl _hloads
  refine ⟨fun v i => ?_, fun hwait hv0 => ?_, fun hchg hlow => ?_, fun harm hebb => ?_,
    fun hfloat hrun hloads hwait hv0 hlast he => ?_, fun v0 hwait => ?_, fun v0 f hv => ⟨fun hrej => ?_, fun hrej hc hesr => ?_⟩, ?_⟩
  · obtain ⟨heu, hvi, hse, hcl'⟩ := energyShown_spec s v i (Nat.min_le_left 65535 (s.usableEnergy v i))
    refine ⟨_, heu, hvi, hse, hcl', ?_⟩
    simp only [Ends, Runs, exec_euCompute, execEuCompute, whenPlant_up hup, euCompute_eq hcl, hcl']
    simp only [Bool.and_eq_true, decide_eq_true_eq, Option.isNone_iff_eq_none, Bool.not_eq_true', and_assoc]
  · have heq : s.euReport = s.reportEu _ := if_neg (by simp [hcl, hwait, hv0])
    refine ⟨s.euTaken (s.fld CL_BANK_EU 0 CL_BANK_EU_E_U), ?_, rfl, rfl, rfl⟩
    simp only [Ends, Runs, exec_euReport, execEuReport, whenPlant_up hup, heq, reportEu_eq]
  · have heq : s.chargerFails = s.chargerFaulted.raise 0xB05 5 noInst := if_pos (by rw [hcl, hchg]; simpa using hlow)
    refine ⟨s.chargerFaulted, ?_, chargerFaulted_charger s, tripped _ (by decide) rfl, ?_⟩
    · simp only [Ends, Runs, exec_chargerFault, execChargerFault, whenPlant_up hup, heq]
    · exact chargerFaulted_onlyRegs s
  · obtain ⟨hpower, htrigger, hcharger, harmed, hrunning⟩ := tripEbb_spec hcl harm hebb (plantUp_not_off hup)
    refine ⟨s.tripEbb, ?_, hpower, htrigger, hcharger, harmed, hrunning⟩
    simp only [Runs, exec_vbankTrip, execVbankTrip, hup, if_true, hpower]
  · obtain ⟨hoff, hshow⟩ := testBegun_fields s
    obtain ⟨hwait', hstart, hse⟩ := testBegun_parts s
    obtain ⟨hns, hse'⟩ := testShown_parts s
    refine ⟨s.testBegun, ?_, hwait', hns ▸ hstart, hoff, hshow, hse.trans hse'⟩
    simp only [Ends, Runs, exec_pulseTestStart, execPulseTestStart, whenPlant_up hup,
      testStart_eq hcl hfloat hrun hloads hwait hv0 hlast he]
  · obtain ⟨hcl', hsame, hchan⟩ := onsetTaken_spec s v0
    obtain ⟨htest, hduty⟩ := switchLoad_loads (s.onsetTaken v0)
    refine ⟨(s.onsetTaken v0).switchLoad true, ?_, ?_, (switchLoad_channel _ true 30 (by decide)).trans hchan, htest, hsame ▸ hduty⟩
    · simp only [Ends, Runs, exec_pulseTestOnset, execPulseTestOnset, whenPlant_up hup, testOnset_eq hwait]
    · exact ((switchLoad_regsOnly _ true).keeps (·.cl) fun _ _ => rfl).trans hcl'
  · refine ⟨s.testDropped, ?_, by rw [testDropped_cl], testDropped_charger s, testDropped_keeps s _ (outsideTest_of_bankAt (.inl rfl))⟩
    simp only [Ends, Runs, exec_pulseTestEnd, execPulseTestEnd, whenPlant_up hup, testEnd_rejected hv hrej]
  · obtain ⟨hcf, hr, hmeasured⟩ := bankTaken_fields s.testDropped (fitResults v0 f)
    refine ⟨s.testDropped.bankTaken (fitResults v0 f), ?_, hcf, hr, hmeasured, ?_, ?_⟩
    · simp only [Ends, Runs, exec_pulseTestEnd, execPulseTestEnd, whenPlant_up hup, testEnd_measured hv hrej hc hesr]
    · rw [bankTaken_cl, testDropped_devNs]
    · rw [bankTaken_cl, testDropped_cl]
  · have heq : s.testPostponed = (s.trip CL_TRIP_TEST_POSTPONED).raise 0xB08 4 noInst := if_pos hcl
    refine ⟨s.trip CL_TRIP_TEST_POSTPONED, ?_, tripped _ (by decide) rfl, trip_onlyRegs _ _⟩
    simp only [Ends, Runs, exec_testPostponed, execTestPostponed, whenPlant_up hup, heq]

end Sys2Proof.Machine
end

section
/-! The protected window and its credit (R157 to R163, R176, R662). -/

namespace Sys2Proof.Machine

open Sys2Proof

variable {s t : State}

/-- The state with the marks that follow U set. -/
def State.marked (s : State) (above : Bool) (credit : Nat) (stopped : Bool) : State :=
  { s with se := { s.se with above := above, credit := credit, stopped := stopped } }

theorem noteU_marked (s : State) : ∃ above credit stopped, s.noteU = s.marked above credit stopped := ⟨_, _, _, rfl⟩

/-- `t` has the window limit, its coverage and the pools of `s`. -/
def SameWindow (s t : State) : Prop :=
  t.se.f = s.se.f ∧ t.se.w = s.se.w ∧ t.se.wTarget = s.se.wTarget ∧ t.se.covered = s.se.covered ∧ t.se.pools = s.se.pools

namespace SameWindow

theorem refl (s : State) : SameWindow s s := ⟨rfl, rfl, rfl, rfl, rfl⟩

theorem trans {u : State} (h : SameWindow s t) (k : SameWindow t u) : SameWindow s u :=
  ⟨k.1.trans h.1, k.2.1.trans h.2.1, k.2.2.1.trans h.2.2.1, k.2.2.2.1.trans h.2.2.2.1, k.2.2.2.2.trans h.2.2.2.2⟩

theorem of_se_eq (h : t.se = s.se) : SameWindow s t := by
  rw [SameWindow, h]
  exact ⟨rfl, rfl, rfl, rfl, rfl⟩

theorem raise (s : State) (code sev inst : Nat) (detail : List Byte) : SameWindow s (s.raise code sev inst detail) :=
  of_se_eq (raise_se _ _ _ _ _)

theorem marked (s : State) (above : Bool) (credit : Nat) (stopped : Bool) : SameWindow s (s.marked above credit stopped) :=
  ⟨rfl, rfl, rfl, rfl, rfl⟩

theorem noteU (s : State) : SameWindow s s.noteU := by
  obtain ⟨above, credit, stopped, heq⟩ := noteU_marked s
  exact heq ▸ marked s above credit stopped

theorem startSeal (s : State) (p n : Nat) : SameWindow s (s.startSeal p n) :=
  ⟨rfl, rfl, rfl, rfl, rfl⟩

theorem shrinkSeals (n : Nat) (s : State) : SameWindow s (State.shrinkSeals n s) := by
  induction n generalizing s with
  | zero => exact refl s
  | succ n ih =>
    unfold State.shrinkSeals
    split
    · exact refl s
    · dsimp only
      split
      · exact (startSeal s _ _).trans (ih _)
      · exact refl s

theorem winShrunk (s : State) : SameWindow s s.winShrunk := by
  have hstop : SameWindow s { s with se := { s.se with stopped := true } } := ⟨rfl, rfl, rfl, rfl, rfl⟩
  unfold State.winShrunk
  dsimp only
  split
  · refine trans ?_ (shrinkSeals _ _)
    split
    · exact refl s
    · exact hstop.trans (raise _ _ _ _ _)
  · exact refl s

end SameWindow

/-! ### The recomputation (R158, R160, R161) -/

/-- The limit a recomputation calls for. -/
def State.winGoal (s : State) : Nat := max (s.winComputed s.flushCap) (4 * 2 ^ 30)

/-- Whether a recomputation is the first to take effect at once. -/
def State.winFirst (s : State) : Bool := !s.se.wComputed && (s.se.bEbb.isSome || !s.hasEB || s.eb.storeFault)

/-- The limit a recomputation leaves. -/
def State.winNow (s : State) : Nat :=
  if s.winFirst ∨ s.se.w = 0 ∨ s.winGoal < s.se.w then s.winGoal else s.se.w

/-- The coverage a recomputation finds. -/
def State.winCover (s : State) : Bool := s.winCovered (s.winComputed s.flushCap)

/-- The state with the recomputed limit and coverage. -/
def State.winSet (s : State) : State :=
  let t := s.setFld SE_WIN_ENERGY 0 SE_WIN_ENERGY_E_USABLE (min s.se.eu 65535)
  { t with se := { t.se with f := s.flushCap, w := s.winNow, wTarget := s.winGoal, wComputed := t.se.wComputed || s.winFirst,
                             covered := s.winCover, coverKnown := t.se.coverKnown || s.winFirst } }

/-- The state once a loss of coverage has its event. -/
def State.coverTold (s : State) : State :=
  if !s.winCover && ((s.se.coverKnown && s.se.covered) || (s.winFirst && !s.se.coverKnown)) then s.winSet.raise 0x502 5 noInst
  else s.winSet

/-- The state a recomputation leaves, before held APPENDs are admitted. -/
def State.winLimited (s : State) : State := if decide (s.winNow < s.se.w) then s.coverTold.winShrunk else s.coverTold.noteU

theorem winRecompute_eq (h : s.se.covered = true ∨ s.winCover = false) : s.winRecompute = s.winLimited.admitHeld := by
  have hno : ¬ (s.winCover && !s.se.covered) = true := by
    rcases h with h | h <;> simp [h]
  have heq : s.winRecompute = (if s.winCover && !s.se.covered then s.winLimited.tryAllAcks else s.winLimited).admitHeld := by
    delta State.winLimited State.coverTold State.winSet State.winCover State.winNow State.winFirst State.winGoal State.winRecompute
    rfl
  rw [heq, if_neg hno]

theorem winLimited_window (s : State) : s.winLimited.se.f = s.flushCap ∧ s.winLimited.se.w = s.winNow ∧
    s.winLimited.se.wTarget = s.winGoal ∧ s.winLimited.se.covered = s.winCover ∧ s.winLimited.se.pools = s.se.pools := by
  have htold : SameWindow s.winSet s.coverTold := by
    unfold State.coverTold
    split
    · exact SameWindow.raise _ _ _ _ _
    · exact SameWindow.refl _
  have hlimited : SameWindow s.coverTold s.winLimited := by
    unfold State.winLimited
    split
    · exact SameWindow.winShrunk _
    · exact SameWindow.noteU _
  obtain ⟨hf, hw, hgoal, hcover, hpools⟩ := htold.trans hlimited
  exact ⟨hf, hw, hgoal, hcover, hpools⟩

theorem winNow_lower (h : s.winGoal < s.se.w) : s.winNow = s.winGoal := if_pos (.inr (.inr h))

theorem winNow_stays (hc : s.se.wComputed = true) (hw : s.se.w ≠ 0) (h : s.se.w ≤ s.winGoal) : s.winNow = s.se.w := by
  have hfirst : s.winFirst = false := by simp [State.winFirst, hc]
  exact if_neg (by simp [hfirst, hw, h])

/-! ### Image slots -/

theorem setEbSlot_erasing {i : Nat} (h : (s.ebSlot i).erasing = true) (x : EbSlot) : (s.setEbSlot i x).ebSlot i = x := by
  have hlt : i < s.eb.slots.length := by
    refine Decidable.byContradiction fun hge => ?_
    rw [State.ebSlot, getD_of_length_le (Nat.le_of_not_lt hge)] at h
    exact absurd h (by decide)
  exact ebSlot_setEbSlot hlt x

/-! ### The settlement -/

/-- The state with a limit set. -/
def State.limited (s : State) (w : Nat) : State := { s with se := { s.se with w := w } }

/-- The state with the limit one step up. -/
def State.limitStepped (s : State) : State := (s.limited (min s.se.wTarget (s.se.w + 2 ^ 30))).noteU

theorem noteU_kept (s : State) : s.noteU.se.stripes = s.se.stripes ∧ s.noteU.qm = s.qm ∧ s.noteU.regs = s.regs := by
  obtain ⟨above, credit, stopped, heq⟩ := noteU_marked s
  rw [heq]
  exact ⟨rfl, rfl, rfl⟩

theorem limitStepped_spec (s : State) : s.limitStepped.se.w = min s.se.wTarget (s.se.w + 2 ^ 30) ∧
    s.limitStepped.se.stripes = s.se.stripes ∧ s.limitStepped.qm = s.qm ∧ s.limitStepped.regs = s.regs := by
  obtain ⟨-, hw, -⟩ := SameWindow.noteU (s.limited (min s.se.wTarget (s.se.w + 2 ^ 30)))
  exact ⟨hw, noteU_kept _⟩

/-- The ticks of freed bytes that the credit looks back on. -/
def State.lastTicks (s : State) : List Nat := (s.se.freedTicks ++ [s.se.freedNow]).drop (s.se.freedTicks.length + 1 - 10)

/-- The state with the admission credit of a tick. -/
def State.creditGiven (s : State) : State :=
  { s with se := { s.se with freedTicks := s.lastTicks, freedNow := 0,
                             credit := min (s.se.credit + s.lastTicks.sum / 10) s.lastTicks.sum } }

/-- The state with a measured rate. -/
def State.rateShown (s : State) (rate : Nat) : State :=
  let t := s.setFld EB_RATE 0 EB_RATE_RATE_MBS (min rate 0xFFFF)
  { t with se := { t.se with bEbb := some (min (min rate 0xFFFF) 8000) } }

theorem rateShown_rate (s : State) (rate : Nat) : (s.rateShown rate).fld EB_RATE 0 EB_RATE_RATE_MBS = min rate 0xFFFF :=
  (fld_setFld_same s EB_RATE 0 EB_RATE_RATE_MBS (min rate 0xFFFF) (by decide)).trans
    (Nat.mod_eq_of_lt (by show min rate 65535 < 65536; omega))

/-- Settles O45: the recomputation's limit is named, and what seals to come under it leaves the limit. -/
theorem windowFollowsEnergy : Obligations.WindowFollowsEnergy := by
  intro s hup
  refine ⟨?_, fun h => ⟨s.limitStepped, ?_, limitStepped_spec s⟩, ⟨s.creditGiven, ?_, rfl, rfl, rfl, rfl, rfl⟩,
    fun rate heb hfault hready => ⟨s.rateShown rate, ?_, rfl, rateShown_rate s rate, ?_⟩,
    fun i hi herase => ⟨⟨_, ?_, setEbSlot_erasing herase { s.ebSlot i with erasing := false, ready := true, programmed := false }, rfl, rfl⟩,
      ⟨_, ?_, setEbSlot_erasing herase { s.ebSlot i with erasing := false }, rfl, rfl⟩⟩⟩
  · rintro target rfl hcover
    obtain ⟨hf, hw, hgoal, hcovered, hpools⟩ := winLimited_window s
    refine ⟨s.winLimited, ?_, hf, hgoal, hcovered, fun h => hw.trans (winNow_lower h), fun hc hw0 h => hw.trans (winNow_stays hc hw0 h), hpools⟩
    simp only [Ends, Runs, exec_windowRecompute, execWindowRecompute, whenUp_up hup, winRecompute_eq hcover]
  · have heq : s.winStep = s.limitStepped.admitHeld := if_pos h
    simp only [Ends, Runs, exec_windowStepUp, execWindowStepUp, whenUp_up hup, heq]
  · have heq : s.creditTick = s.creditGiven.admitHeld := rfl
    simp only [Ends, Runs, exec_admitCreditTick, execAdmitCreditTick, whenUp_up hup, heq]
  · have heq : s.ebMeasured rate = (s.rateShown rate).winRecompute := if_pos (by simp [heb, hfault, hready])
    simp only [Ends, Runs, exec_ebRateMeasured, execEbRateMeasured, whenUp_up hup, heq]
  · exact (onlyRegs_refl [EB_RATE.at 0] { s with se := { s.se with bEbb := some (min (min rate 0xFFFF) 8000) } }).setFld List.mem_cons_self _ _
  · simp only [Ends, Runs, exec_slotEraseDone, execSlotEraseDone, whenUp_up hup, if_pos hi, State.ebErased, herase, Bool.not_true,
      Bool.false_eq_true, if_false, if_true]
  · simp only [Ends, Runs, exec_slotEraseDone, execSlotEraseDone, whenUp_up hup, if_pos hi, State.ebErased, herase, Bool.not_true,
      Bool.false_eq_true, if_false]

end Sys2Proof.Machine
end

section
/-! The coding engine (R101 to R112). -/

namespace Sys2Proof.Machine

open Sys2Proof

variable {s t : State}

/-! ### The end of an ENCODE (R94, R123, R136) -/

theorem hashSubmit_stripes (s : State) (user : HashUser) (cls : Nat) (digest : BitVec 256) :
    (s.hashSubmit user cls digest).se.stripes = s.se.stripes := rfl

theorem hashChunks_stripes (s : State) (p n : Nat) : (s.hashChunks p n).se.stripes = s.se.stripes := by
  unfold State.hashChunks
  split
  · dsimp only
    split
    · exact each_stable (fun x : State => x.se.stripes = s.se.stripes) _ _ (fun _ x hx => (hashSubmit_stripes x _ _ _).trans hx) rfl
    · rfl
  · rfl

theorem hashChunks_stripe? (s : State) (p n q m : Nat) : (s.hashChunks p n).stripe? q m = s.stripe? q m := by
  rw [State.stripe?, hashChunks_stripes, State.stripe?]

theorem stripe?_modStripe_same (s : State) (p n : Nat) (f : Stripe → Stripe) : (s.modStripe p n f).stripe? p n = (s.stripe? p n).map f :=
  (Tab.get?_modify s.se.stripes _ _ f).trans (if_pos rfl)

/-- A SEALED stripe that an ENCODE ends is coded, with its directory and its parities in its cells. -/
theorem encodeDone_coded {p n : Nat} {x : Pool} {t : Stripe} (hx : s.pool? p = some x) (ht : s.stripe? p n = some t)
    (hstate : t.state = .sealed) (hcoded : t.coded = false) :
    ∃ y : Stripe, (s.encodeDone p n).stripe? p n = some y ∧ y.coded = true ∧
      y.data = encodeCells (x.paramsOf t.gen).k (x.paramsOf t.gen).m (chunkPayload (x.paramsOf t.gen).chunk)
        (memWrite t.data ((x.paramsOf t.gen).dirUnit * 4096) (dirBytes p n t)) := by
  unfold State.encodeDone
  simp only [hx, ht, hstate, hcoded, decide_true, Bool.not_false, Bool.and_true, if_true]
  rw [hashChunks_stripe?, stripe?_modStripe_same, ht]
  exact ⟨_, rfl, rfl, rfl⟩

/-! ### The end of a job (R101, R109) -/

theorem reg64_setReg64_mod (s : State) {lo hi : Nat} (h : lo ≠ hi) (v : Nat) : (s.setReg64 lo hi v).reg64 lo hi = v % 2 ^ 64 := by
  rw [State.reg64, State.setReg64, getReg_setReg_same, getReg_setReg_other _ h, getReg_setReg_same, BitVec.toNat_ofNat, BitVec.toNat_ofNat]
  omega

/-- The state with a cluster's job taken off it. -/
def State.jobOff (s : State) (n : Nat) : State := { s with ce := { s.ce with running := Tab.erase s.ce.running n } }

/-- The state with a cluster's bytes and jobs counted. -/
def State.jobCounted (s : State) (n : Nat) (bytes : Nat) : State :=
  State.bumpWrap (s.setReg64 (CE_CL_BYTES_LO.at n) (CE_CL_BYTES_HI.at n)
    (s.reg64 (CE_CL_BYTES_LO.at n) (CE_CL_BYTES_HI.at n) + bytes)) CE_CL_JOBS n CE_CL_JOBS_COUNT

theorem ceFinish_encode {n : Nat} {j : CeJob} (hj : Tab.get? s.ce.running n = some j) (hw : s.ce.waiting.contains n = false)
    (hk : j.kind = .encode) (hc : j.cls ≠ 3) : s.ceFinish n [] = ((s.jobOff n).jobCounted n j.bytes).encodeDone j.pool j.stripe := by
  unfold State.ceFinish
  rw [hj]
  dsimp only
  rw [if_neg (by rw [hw]; decide), hk]
  exact if_neg hc

theorem jobRegs_apart (n : Nat) : CE_CL_BYTES_LO.at n ≠ CE_CL_BYTES_HI.at n ∧ CE_CL_JOBS.at n ≠ CE_CL_BYTES_LO.at n ∧
    CE_CL_JOBS.at n ≠ CE_CL_BYTES_HI.at n :=
  ⟨at_ne_of_phase (by decide) n n, at_ne_of_phase (by decide) n n, at_ne_of_phase (by decide) n n⟩

theorem jobCounted_bytes (s : State) (n bytes : Nat) : (s.jobCounted n bytes).reg64 (CE_CL_BYTES_LO.at n) (CE_CL_BYTES_HI.at n) =
    (s.reg64 (CE_CL_BYTES_LO.at n) (CE_CL_BYTES_HI.at n) + bytes) % 2 ^ 64 := by
  obtain ⟨hlohi, hlo, hhi⟩ := jobRegs_apart n
  rw [← reg64_setReg64_mod s hlohi, State.jobCounted, State.bumpWrap, State.setFld, State.reg64, getReg_setReg_other _ hlo.symm,
    getReg_setReg_other _ hhi.symm, ← State.reg64]

theorem jobCounted_jobs (s : State) (n bytes : Nat) : (s.jobCounted n bytes).fld CE_CL_JOBS n CE_CL_JOBS_COUNT =
    (s.fld CE_CL_JOBS n CE_CL_JOBS_COUNT + 1) % 2 ^ CE_CL_JOBS_COUNT.len := by
  obtain ⟨-, hlo, hhi⟩ := jobRegs_apart n
  rw [State.jobCounted, State.bumpWrap, fld_setFld_same _ _ _ _ _ (by decide), fld_setReg64_other _ hlo hhi]

theorem jobCounted_onlyRegs (s : State) (n bytes : Nat) :
    OnlyRegs [CE_CL_BYTES_LO.at n, CE_CL_BYTES_HI.at n, CE_CL_JOBS.at n] s (s.jobCounted n bytes) :=
  (((onlyRegs_refl _ s).setReg (by simp) _).setReg (by simp) _).setFld (by simp) _ _

/-! ### A fault (R110) -/

theorem ceInvertNext_parts (s : State) : s.ceInvertNext.ce.running = s.ce.running ∧ s.ceInvertNext.ce.queue = s.ce.queue ∧
    s.ceInvertNext.ce.waiting = s.ce.waiting ∧ s.ceInvertNext.ce.l1 = s.ce.l1 ∧ s.ceInvertNext.ce.l2 = s.ce.l2 ∧
    s.ceInvertNext.regs = s.regs := by
  unfold State.ceInvertNext
  split <;> exact ⟨rfl, rfl, rfl, rfl, rfl, rfl⟩

theorem ceDrop_parts (s : State) (n : Nat) :
    (s.ceDrop n).ce.running = Tab.erase s.ce.running n ∧ (s.ceDrop n).ce.queue = s.ce.queue ∧ (s.ceDrop n).regs = s.regs := by
  unfold State.ceDrop
  dsimp only
  split
  · split
    · exact ⟨rfl, rfl, rfl⟩
    · obtain ⟨hrunning, hqueue, -, -, -, hregs⟩ := ceInvertNext_parts
        { s with ce := { s.ce with running := Tab.erase s.ce.running n, waiting := s.ce.waiting.filter (· ≠ n), inverting := none } }
      exact ⟨hrunning, hqueue, hregs⟩
  · exact ⟨rfl, rfl, rfl⟩

/-- The state with a faulted cluster's job back at the front of the queue. -/
def State.jobReturned (s : State) (n : Nat) : State :=
  match Tab.get? s.ce.running n with
  | some j => { s.ceDrop n with ce := { (s.ceDrop n).ce with queue := j :: (s.ceDrop n).ce.queue } }
  | none => s

theorem jobReturned_parts (s : State) (n : Nat) : (s.jobReturned n).ce.queue = (Tab.get? s.ce.running n).toList ++ s.ce.queue ∧
    Tab.get? (s.jobReturned n).ce.running n = none ∧ (s.jobReturned n).regs = s.regs := by
  obtain ⟨hrunning, hqueue, hregs⟩ := ceDrop_parts s n
  unfold State.jobReturned
  split
  next j hj => exact ⟨by rw [hj, hqueue]; rfl, by rw [hrunning, Tab.get?_erase_same], hregs⟩
  next hj => exact ⟨by rw [hj]; rfl, hj, rfl⟩

/-- The state with a cluster marked as faulted, and out. -/
def State.clusterOut (s : State) (n : Nat) : State :=
  let t := s.setFld CE_CLUSTER_FAULT 0 CE_CLUSTER_FAULT_FAULT (s.fld CE_CLUSTER_FAULT 0 CE_CLUSTER_FAULT_FAULT ||| 2 ^ n)
  t.setFld CE_CLUSTER_EN 0 CE_CLUSTER_EN_EN (t.fld CE_CLUSTER_EN 0 CE_CLUSTER_EN_EN &&& (0xFF ^^^ 2 ^ n))

theorem ceFault_eq {n : Nat} (h : n < 8) : s.ceFault n = (((s.jobReturned n).clusterOut n).raise 0x701 5 n).noteClusters := by
  unfold State.ceFault
  rw [if_neg (by omega)]
  rfl

theorem clusterOut_fields (s : State) {n : Nat} (h : n < 8) :
    (s.clusterOut n).fld CE_CLUSTER_EN 0 CE_CLUSTER_EN_EN = s.fld CE_CLUSTER_EN 0 CE_CLUSTER_EN_EN &&& (0xFF ^^^ 2 ^ n) ∧
      (s.clusterOut n).fld CE_CLUSTER_FAULT 0 CE_CLUSTER_FAULT_FAULT = s.fld CE_CLUSTER_FAULT 0 CE_CLUSTER_FAULT_FAULT ||| 2 ^ n := by
  have hen : s.fld CE_CLUSTER_EN 0 CE_CLUSTER_EN_EN < 2 ^ 8 := Fld.get_lt _ _
  have hfault : s.fld CE_CLUSTER_FAULT 0 CE_CLUSTER_FAULT_FAULT < 2 ^ 8 := Fld.get_lt _ _
  unfold State.clusterOut
  dsimp only
  constructor
  · rw [fld_setFld_same _ _ _ _ _ (by decide), fld_setFld_other _ _ _ _ _ _ _ _ (by decide)]
    exact Nat.mod_eq_of_lt (Nat.lt_of_le_of_lt Nat.and_le_left hen)
  · rw [fld_setFld_other _ _ _ _ _ _ _ _ (by decide), fld_setFld_same _ _ _ _ _ (by decide)]
    exact Nat.mod_eq_of_lt (Nat.or_lt_two_pow hfault (Nat.pow_lt_pow_right (by decide) h))

/-! ### Inversions (R105 to R107) -/

theorem mem_ceTouch {n : Nat} (h : 0 < n) (k : MatrixKey) (l : List MatrixKey) : k ∈ ceTouch n k l := by
  obtain ⟨m, rfl⟩ := Nat.exists_eq_succ_of_ne_zero (Nat.pos_iff_ne_zero.mp h)
  exact List.mem_cons_self

/-- The clusters that wait for an inversion. -/
def State.waitingFor (s : State) (k : MatrixKey) : List Nat := s.ce.waiting.filter (fun n => s.ceKeyOf n = some k)

/-- The state with an inversion installed, and the clusters that wait for it going on. -/
def State.inversionIn (s : State) (k : MatrixKey) : State :=
  { s.ceInstall k with ce := { (s.ceInstall k).ce with inverting := none,
                                                       waiting := s.ce.waiting.filter (fun n => !(s.waitingFor k).contains n) } }

theorem ceInverted_cached {k : MatrixKey} (hk : s.ce.inverting = some k) (hc : s.fld CE_CTL 0 CE_CTL_CACHE_EN = 1) :
    s.ceInverted = (s.inversionIn k).ceInvertNext := by
  unfold State.ceInverted
  rw [hk]
  simp only [hc, decide_true, if_true]
  rfl

/-! ### Enables (R111, R112) -/

/-- The state without the mark of no cluster. -/
def State.clustersOn (s : State) : State := { s with ce := { s.ce with noCluster := false } }

/-- Once a cluster is enabled, the mark of none is off. -/
theorem noteClusters_some (h : s.fld CE_CLUSTER_EN 0 CE_CLUSTER_EN_EN ≠ 0) : s.noteClusters = s.clustersOn := if_neg (by simpa [State.noCluster] using h)

/-- The state with both cache levels empty. -/
def State.cachesEmptied (s : State) : State := { s with ce := { s.ce with l1 := [], l2 := [] } }

theorem ceCtl_lookup : regLookup (CE_CTL.at 0) = some (CE_CTL, 0, 0) := by decide +kernel

theorem ceEn_lookup : regLookup (CE_CLUSTER_EN.at 0) = some (CE_CLUSTER_EN, 0, 0) := by decide +kernel

/-- Settles O42: each clause by the shared operation that it names. -/
theorem codingEngineRuns : Obligations.CodingEngineRuns := by
  intro s hup
  refine ⟨fun j credits n hbusy hpick hm hkey hidle => ?_, fun n j hn hj hw hk hc => ?_, fun n hn => ?_, fun k hk hc => ?_,
    fun port v hw hv => ?_, ?_, fun port v hw hv => ?_⟩
  · have heq : s.ceDispatch = { s with ce := { s.ce with queue := s.ce.queue.erase j, credits := credits,
                                                         running := Tab.set s.ce.running n j } } := by
      unfold State.ceDispatch
      rw [hpick]
      dsimp only
      rw [if_neg (by omega), hidle]
      dsimp only [State.ceStart]
      rw [hkey]
    simp only [Ends, Runs, exec_ceJobDispatch, execCeJobDispatch, whenUp_up hup, hbusy, Bool.false_eq_true, if_false, heq]
  · refine ⟨(s.jobOff n).jobCounted n j.bytes, ?_, rfl, jobCounted_bytes (s.jobOff n) n j.bytes, jobCounted_jobs (s.jobOff n) n j.bytes,
      jobCounted_onlyRegs (s.jobOff n) n j.bytes, fun x t hx ht hst hcod => encodeDone_coded hx ht hst hcod⟩
    simp only [Ends, Runs, exec_ceJobComplete, execCeJobComplete, whenUp_up hup, ceFinish_encode hj hw hk hc]
  · obtain ⟨hqueue, hgone, hregs⟩ := jobReturned_parts s n
    obtain ⟨hen, hfault⟩ := clusterOut_fields (s.jobReturned n) hn
    rw [fld_of_regs_eq hregs] at hen hfault
    refine ⟨(s.jobReturned n).clusterOut n, _, ?_, hqueue, rfl, hgone, hen, hfault⟩
    simp only [Ends, Runs, exec_clusterFault, execClusterFault, whenUp_up hup, ceFault_eq hn]
  · obtain ⟨-, hqueue, hwaiting, hl1, hl2, hregs⟩ := ceInvertNext_parts (s.inversionIn k)
    refine ⟨(s.inversionIn k).ceInvertNext, ?_, hl1 ▸ mem_ceTouch (by decide) k _, hl2 ▸ mem_ceTouch (by decide) k _, hqueue, hregs,
      fun w hmem hkey => ?_⟩
    · simp only [Ends, Runs, exec_matrixInversionDone, execMatrixInversionDone, whenUp_up hup, ceInverted_cached hk hc]
    · rw [hwaiting] at hmem
      obtain ⟨hin, hout⟩ := List.mem_filter.mp hmem
      have hfor : w ∈ s.waitingFor k := List.mem_filter.mpr ⟨hin, decide_eq_true hkey⟩
      simp [hfor] at hout
  · have heq : ceCtlWrite v s = ((s.writeByType (CE_CTL.at 0) v).cachesEmptied).setFld CE_STATUS 0 CE_STATUS_INV_BUSY 1 := if_pos hv
    refine ⟨((s.writeByType (CE_CTL.at 0) v).cachesEmptied).setFld CE_STATUS 0 CE_STATUS_INV_BUSY 1, ?_, rfl, rfl,
      fld_setFld_same _ _ _ _ _ (by decide), ?_, ?_⟩
    · simp only [Ends, Runs, exec_invalidate, execInvalidate, whenUp_up hup, hostWrite_taken hw, heq]
    · exact (fld_setFld_other _ CE_STATUS CE_CTL 0 0 _ _ _ (by decide)).trans
        (writeByType_rw ceCtl_lookup (f := CE_CTL_CACHE_EN) (by decide) rfl s v)
    · have hwrite : OnlyRegs [CE_CTL.at 0, CE_STATUS.at 0] s.cachesEmptied (s.cachesEmptied.writeByType (CE_CTL.at 0) v) :=
        onlyRegs_mono (writeByType_onlyRegs ceCtl_lookup _ v) (by simp)
      have hsame : (s.writeByType (CE_CTL.at 0) v).cachesEmptied = s.cachesEmptied.writeByType (CE_CTL.at 0) v := by
        rw [writeByType_eq ceCtl_lookup, writeByType_eq ceCtl_lookup]
        rfl
      have hce : (((s.writeByType (CE_CTL.at 0) v).cachesEmptied).setFld CE_STATUS 0 CE_STATUS_INV_BUSY 1).ce = s.cachesEmptied.ce := by
        rw [setFld_ce, hsame, writeByType_eq ceCtl_lookup]
        rfl
      rw [hce, hsame]
      exact hwrite.setFld (by simp) _ _
  · exact ⟨s.setFld CE_STATUS 0 CE_STATUS_INV_BUSY 0,
      by simp only [Ends, Runs, exec_ceInvalidateDone, execCeInvalidateDone, whenUp_up hup], fld_setFld_same s _ _ _ _ (by decide),
      onlyRegs_setFld s _ _ _ _⟩
  · have hen : (s.writeByType (CE_CLUSTER_EN.at 0) v).fld CE_CLUSTER_EN 0 CE_CLUSTER_EN_EN = CE_CLUSTER_EN_EN.get v :=
      writeByType_rw ceEn_lookup (by decide) rfl s v
    have heq : ceEnWrite v s = (s.writeByType (CE_CLUSTER_EN.at 0) v).clustersOn := noteClusters_some (by rwa [hen])
    refine ⟨(s.writeByType (CE_CLUSTER_EN.at 0) v).clustersOn, ?_, hen, rfl, ?_⟩
    · simp only [Ends, Runs, exec_ceClusterEnWrite, execCeClusterEnWrite, whenUp_up hup, hostWrite_taken hw, heq]
    · rw [writeByType_eq ceEn_lookup]
      exact onlyRegs_setReg s.clustersOn _ _

end Sys2Proof.Machine
end

section
/-! Forming and keeping the pair (R454 to R458, R462, R463, R465, R466). -/

namespace Sys2Proof.Machine

open Sys2Proof

variable {s t : State}

theorem whenLinked_up (hup : s.up = true) (hb : s.boot.bare = false) (act : State → State) : s.whenLinked act = (act s).finish := by
  rw [State.whenLinked, whenUp_up hup, hb]
  rfl

theorem hasPL_of_paired (h : s.paired = true) : s.hasPL = true := by
  rw [State.paired, Bool.and_eq_true] at h
  exact h.2

/-! ### Training -/

/-- The rate and width a trained link shows. -/
def State.linked (s : State) (rate width : Nat) : State :=
  { s with pl := { s.pl with linkUp := true, rate := if rate = 5 then 5 else 6, width := if width = 8 then 8 else 16 } }

/-- Whether a link that trains does so from a pair. -/
def State.trainedFromPair (s : State) : Bool :=
  match s.pl.peer with
  | .paired | .lost => true
  | .training | .hello | .copying => s.pl.fromPair
  | _ => false

/-- The state in which a trained link waits for HELLO. -/
def State.helloState (s : State) (rate width : Nat) : State :=
  { s.linked rate width with pl := { (s.linked rate width).pl with peer := .hello, fromPair := s.trainedFromPair } }

theorem peerTrained_eq (hp : s.paired = true) (hn : s.pl.peer ≠ .silent) (rate width : Nat) :
    s.peerTrained rate width = (s.helloState rate width).endGives.dropClaims.sendHello := by
  unfold State.peerTrained
  rw [if_neg (by rw [hasPL_of_paired hp]; decide)]
  refine (if_neg (show ¬ (!s.paired) = true by rw [hp]; decide)).trans ?_
  dsimp only
  rw [if_neg hn]
  rfl

theorem linked_rate (rate : Nat) (h : rate = 5 ∨ rate = 6) : (if rate = 5 then 5 else 6) = rate := by
  rcases h with rfl | rfl <;> rfl

theorem linked_width (width : Nat) (h : width = 8 ∨ width = 16) : (if width = 8 then 8 else 16) = width := by
  rcases h with rfl | rfl <;> rfl

/-! ### HELLO (R462) -/

theorem registerKey_parts (s : State) (n : Nat) :
    (s.registerKey n).pl = s.pl ∧ (s.registerKey n).qm = s.qm ∧ (s.registerKey n).regs = s.regs := by
  unfold State.registerKey
  split
  · split <;> exact ⟨rfl, rfl, rfl⟩
  · exact ⟨rfl, rfl, rfl⟩

/-- Whether the device takes the pair's identity from its partner. -/
def State.adopts (s : State) (h : HelloFrame) : Bool := !s.ownsPools && h.pairUuid != s.pl.pairUuid

/-- The state with a pair's identity taken, and its key registered at every drive. -/
def State.uuidTaken (s : State) (u : Nat) : State :=
  let t := { s with pl := { s.pl with pairUuid := u } }
  t.each (Tab.keys t.se.drives) (fun n s => s.registerKey n)

/-- The state with the identity of the pair settled. -/
def State.identitySettled (s : State) (h : HelloFrame) : State := if s.adopts h then s.uuidTaken h.pairUuid else s

/-- Whether a HELLO comes from a pair. -/
def State.helloFromPair (s : State) : Bool :=
  match s.pl.peer with
  | .paired | .lost | .silent => true
  | _ => s.pl.fromPair

/-- The state with the marks of a good HELLO. -/
def State.helloTaken (s : State) (keep : Bool) (f : Nat) : State :=
  { s with pl := { s.pl with fromPair := keep, resolving := false, fPartner := f, mseqSent := 0,
                             mseqConfirmed := 0, mseqApplied := 0, lag := [], appendMseq := [], discardM := false, giveWaits := [] } }

/-- Whether the devices of a HELLO fit each other. -/
def State.helloFits (s : State) (h : HelloFrame) : Bool :=
  h.side != s.pl.side && 1 ≥ h.protoMin && h.protoMax ≥ 1 && (h.pairUuid = s.pl.pairUuid || (s.ownsPools != h.ownsPools))

theorem uuidTaken_parts (s : State) (u : Nat) :
    (s.uuidTaken u).pl = { s.pl with pairUuid := u } ∧ (s.uuidTaken u).qm = s.qm ∧ (s.uuidTaken u).regs = s.regs := by
  refine each_stable (fun x : State => x.pl = { s.pl with pairUuid := u } ∧ x.qm = s.qm ∧ x.regs = s.regs) _ _ (fun n x hx => ?_)
    ⟨rfl, rfl, rfl⟩
  obtain ⟨hpl, hqm, hregs⟩ := registerKey_parts x n
  exact ⟨hpl.trans hx.1, hqm.trans hx.2.1, hregs.trans hx.2.2⟩

theorem identitySettled_parts (s : State) (h : HelloFrame) :
    (s.identitySettled h).pl.pairUuid = (if s.ownsPools then s.pl.pairUuid else h.pairUuid) ∧
      (s.identitySettled h).qm = s.qm ∧ (s.identitySettled h).regs = s.regs := by
  unfold State.identitySettled State.adopts
  split
  next ha =>
    obtain ⟨hpl, hqm, hregs⟩ := uuidTaken_parts s h.pairUuid
    simp only [Bool.and_eq_true, Bool.not_eq_true'] at ha
    exact ⟨by rw [hpl, ha.1]; rfl, hqm, hregs⟩
  next ha =>
    refine ⟨?_, rfl, rfl⟩
    split
    · rfl
    next ho =>
      simp only [ho, Bool.not_false, Bool.true_and, bne_iff_ne, ne_eq, Decidable.not_not] at ha
      exact ha.symm

theorem hello_good (hp : s.paired = true) (hpeer : s.pl.peer ≠ .unpaired) {h : HelloFrame} (hfit : s.helloFits h = true) :
    s.hello h = (((s.identitySettled h).helloTaken s.helloFromPair h.flushCap).endGives.dropClaims.sendCopies.winRecompute).tryAllAcks := by
  unfold State.hello
  rw [if_neg (by simp [hp, hpeer])]
  dsimp only
  rw [← State.helloFits, hfit, if_neg (by decide)]
  delta State.identitySettled State.helloTaken State.adopts State.helloFromPair State.uuidTaken
  rfl

theorem hello_bad (hp : s.paired = true) (hpeer : s.pl.peer ≠ .unpaired) {h : HelloFrame} (hfit : s.helloFits h = false) :
    s.hello h = s.conflict := by
  unfold State.hello
  rw [if_neg (by simp [hp, hpeer])]
  dsimp only
  rw [← State.helloFits, hfit]
  rfl

/-! ### Confirmations and heartbeats (R461, R465, R466) -/

/-- The state with frames confirmed. -/
def State.confirmed (s : State) (q : Nat) : State :=
  { s with pl := { s.pl with mseqConfirmed := q, lag := s.pl.lag.filter (fun (e : Nat × Nat) => e.1 > q) } }

theorem mirConfirm_eq {q : Nat} (hlo : s.pl.mseqConfirmed ≤ q) (hhi : q ≤ s.pl.mseqSent) :
    s.mirConfirm q = if s.pl.peer = .copying ∧ q ≥ s.pl.copyEnd then (s.confirmed q).enterPaired else (s.confirmed q).tryAllAcks :=
  if_neg (by omega)

/-- The state from which the copies start again. -/
def State.resynced (s : State) (q : Nat) : State :=
  { s with pl := { s.pl with fromPair := s.pl.peer = .paired || s.pl.fromPair, mseqSent := q,
                             mseqConfirmed := min q s.pl.mseqConfirmed, lag := [], appendMseq := [] } }

/-- The state with the partner's pools and F. -/
def State.heard (s : State) (f : Nat) (owned : BitVec 64) : State :=
  let t := s.setReg64 (PL_PEER_OWNED_LO.at 0) (PL_PEER_OWNED_HI.at 0) owned.toNat
  { t with pl := { t.pl with fPartner := f } }

theorem heartbeat_eq (hp : s.paired = true) (f : Nat) (owned : BitVec 64) : s.heartbeat f owned =
    if s.pl.peer = .silent ∧ !s.pl.resolving then (s.heard f owned).enterPaired
    else if s.pl.peer = .paired ∨ s.pl.peer = .copying then (s.heard f owned).winRecompute else s.heard f owned :=
  if_neg (by rw [hp]; decide)

theorem heard_spec (s : State) (f : Nat) (owned : BitVec 64) :
    (s.heard f owned).reg64 (PL_PEER_OWNED_LO.at 0) (PL_PEER_OWNED_HI.at 0) = owned.toNat ∧
      OnlyRegs [PL_PEER_OWNED_LO.at 0, PL_PEER_OWNED_HI.at 0] { s with pl := { s.pl with fPartner := f } } (s.heard f owned) :=
  ⟨reg64_setReg64_same s (by decide) owned.isLt,
    ((onlyRegs_refl _ { s with pl := { s.pl with fPartner := f } }).setReg (by simp) _).setReg (by simp) _⟩

theorem replay_spec (s : State) : s.replay.out = s.out ++ [.peer 0xFE [(s.pl.flitAcked + 1) % 2 ^ 24] []] ∧ s.replay.pl = s.pl ∧
    s.replay.fld PL_REPLAY 0 PL_REPLAY_COUNT = min (s.fld PL_REPLAY 0 PL_REPLAY_COUNT + 1) (2 ^ PL_REPLAY_COUNT.len - 1) :=
  ⟨rfl, rfl, fld_bump_same s _ _ _ _ (by decide)⟩

/-- The state of a trained link, as it was but for rate and width. -/
theorem retrainDone_eq (h : s.hasPL = true) (rate width : Nat) : s.retrainDone rate width = s.linked rate width := if_pos h

theorem sendFrame_eq (h : s.hasPL = true) (type : Nat) (args : List Nat) (bytes : List Byte) :
    s.sendFrame type args bytes = s.emit (.peer type (0 :: args) bytes) := if_pos h

theorem peerSilent_eq (hp : s.paired = true)
    (h : s.pl.peer = .paired ∨ s.pl.peer = .copying ∨ s.pl.peer = .hello ∨ s.pl.peer = .training) :
    s.peerSilent = { s with pl := { s.pl with peer := .silent, resolving := false } } := by
  unfold State.peerSilent
  rw [if_neg (by rw [hp]; decide)]
  rcases h with h | h | h | h <;> rw [h]

/-- Settles O52: each frame of the pair by the state it leaves and what goes on from there. -/
theorem pairFormsAndIsKept : Obligations.PairFormsAndIsKept := by
  intro s hup hbare hp
  have hpl := hasPL_of_paired hp
  have hlink (act : State → State) : s.whenLinked act = (act s).finish := whenLinked_up hup hbare act
  refine ⟨fun rate width hn => ?_, fun h hpeer => ⟨fun hside hmin hmax huuid => ?_, fun hbad => ?_⟩,
    fun q => ⟨fun hout => ?_, fun hlo hhi => ?_⟩, fun q hpeer => ?_, fun f owned last => ?_, fun hpeer => ?_, fun hpeer => ?_,
    fun ack => ?_, ?_, ?_, ?_, fun rate width => ?_⟩
  · refine ⟨s.helloState rate width, ?_, rfl, linked_rate rate, linked_width width, fun h => ?_⟩
    · simp only [Ends, Runs, exec_peerLinkTrained, execPeerLinkTrained, hlink, peerTrained_eq hp hn]
    · show s.trainedFromPair = true
      unfold State.trainedFromPair
      rcases h with h | h <;> rw [h]
  · have hfit : s.helloFits h = true := by
      unfold State.helloFits
      rcases huuid with huuid | huuid <;> simp [hside, hmin, hmax, huuid]
    obtain ⟨hname, hqm, hregs⟩ := identitySettled_parts s h
    refine ⟨(s.identitySettled h).helloTaken s.helloFromPair h.flushCap, ?_, rfl, rfl, rfl, rfl, rfl, rfl, hname, hqm, hregs⟩
    simp only [Ends, Runs, exec_peerHello, execPeerHello, hlink, hello_good hp hpeer hfit]
  · have hfit : s.helloFits h = false := by
      unfold State.helloFits
      rcases hbad with h1 | h1 | h1 | ⟨h1, h2⟩
      · simp [h1]
      · simp [Nat.not_le.mpr h1]
      · simp [Nat.not_le.mpr h1]
      · simp [h1, h2]
    simp only [Ends, Runs, exec_peerHello, execPeerHello, hlink, hello_bad hp hpeer hfit]
    rfl
  · have heq : s.mirConfirm q = s := if_pos (by omega)
    simp only [Ends, Runs, exec_mirConfirm, execMirConfirm, hlink, heq]
  · have heq := mirConfirm_eq hlo hhi
    refine ⟨s.confirmed q, rfl, fun e he => by simpa using (List.mem_filter.mp he).2, fun hcopy hend => ?_, fun hno => ?_⟩
    · rw [if_pos ⟨hcopy, hend⟩] at heq
      simp only [Ends, Runs, exec_mirConfirm, execMirConfirm, hlink, heq]
    · rw [if_neg (fun hc => hno.elim (fun hne => hne hc.1) (Nat.not_lt.mpr hc.2))] at heq
      simp only [Ends, Runs, exec_mirConfirm, execMirConfirm, hlink, heq]
  · have heq : s.mirResync q = (((s.resynced q).sendCopies).raise 0xDFF 4 noInst).tryAllAcks := if_pos hpeer
    refine ⟨s.resynced q, ?_, rfl, rfl, rfl, Nat.min_le_left _ _⟩
    simp only [Ends, Runs, exec_mirResync, execMirResync, hlink, heq]
  · obtain ⟨howned, honly⟩ := heard_spec s f owned
    have heq := heartbeat_eq hp f owned
    refine ⟨s.heard f owned, rfl, howned, honly, fun hsil hres => ?_, fun hpair => ?_⟩
    · rw [if_pos ⟨hsil, by rw [hres]; rfl⟩] at heq
      simp only [Ends, Runs, exec_heartbeat, execHeartbeat, hlink, heq]
    · rw [if_neg (fun hc => by rcases hpair with hpair | hpair <;> rw [hpair] at hc <;> exact absurd hc.1 (by decide)), if_pos hpair] at heq
      simp only [Ends, Runs, exec_heartbeat, execHeartbeat, hlink, heq]
  · have heq : s.sendHeartbeat = _ := (if_pos hpeer).trans (sendFrame_eq hpl _ _ _)
    simp only [Ends, Runs, exec_heartbeatSend, execHeartbeatSend, hlink, heq]
  · simp only [Ends, Runs, exec_peerSilent, execPeerSilent, hlink, peerSilent_eq hp hpeer]
  · obtain ⟨hout, hsame, hcount⟩ := replay_spec { s with pl := { s.pl with flitAcked := ack % 2 ^ 24 } }
    have heq : s.flitNak ack = _ := if_pos hpl
    refine ⟨_, ?_, hout, hsame, hcount⟩
    simp only [Ends, Runs, exec_flitNak, execFlitNak, hlink, heq]
  · refine ⟨s.replay, ?_, replay_spec s⟩
    simp only [Ends, Runs, exec_replayTimeout, execReplayTimeout, hlink]
  · have heq : s.flitCrcFail = _ := if_pos hpl
    simp only [Ends, Runs, exec_peerFlitCrcFail, execPeerFlitCrcFail, hlink, heq]
  · simp only [Ends, Runs, exec_peerRetrain, execPeerRetrain, hlink, State.retrain]
  · refine ⟨s.linked rate width, ?_, rfl, linked_rate rate, linked_width width⟩
    simp only [Ends, Runs, exec_peerRetrainDone, execPeerRetrainDone, hlink, retrainDone_eq hpl]

end Sys2Proof.Machine
end

section
/-! Drives that spin up and sleep (R393, R400, R401, R411 to R416). -/

namespace Sys2Proof.Machine

open Sys2Proof

variable {s t : State}

theorem whenSlot_up (hup : s.up = true) (hb : s.boot.bare = false) {n : Nat} (hn : n < s.slotCount) (act : State → State) :
    s.whenSlot n act = (act s).finish := by
  rw [State.whenSlot, whenLinked_up hup hb, if_pos hn]

/-! ### Slots and drives -/

theorem slot?_setSlot_same (s : State) (n : Nat) (x : Slot) : (s.setSlot n x).slot? n = some x := Tab.get?_set_same _ _ _

theorem slot?_modSlot_same (s : State) (n : Nat) (f : Slot → Slot) : (s.modSlot n f).slot? n = (s.slot? n).map f :=
  (Tab.get?_modify s.dl.slots n n f).trans (if_pos rfl)

theorem drive?_modDrive_same (s : State) (n : Nat) (f : Drive → Drive) : (s.modDrive n f).drive? n = (s.drive? n).map f :=
  (Tab.get?_modify s.se.drives n n f).trans (if_pos rfl)

theorem memberPool_none {n : Nat} (h : s.drive? n = none) : s.memberPool n = none := by
  rw [State.memberPool, h]

/-! ### A drive found (R393) -/

/-- The slot of a drive that has been found, and needs no wake. -/
def Slot.found (x : Slot) (d : DriveInfo) (paired : Bool) : Slot :=
  { x with linkUp := true, rate := d.rate, sata := d.sata, known := true, zoned := d.zoned, flash := d.flash,
           single := d.sata || d.ports = 1, noPr := paired && !(d.sata || d.ports = 1) && !d.reserveOk, unsupported := false,
           attempts := 0, pwrDis := false, cond := if x.cond = .off then .held else x.cond }

/-- The state with a drive that no other is known beside. -/
def State.firstDrive (s : State) (n : Nat) (d : DriveInfo) : State :=
  { s with se := { s.se with drives := [(n, Drive.fresh d)], bands := s.se.bands.filter (fun e => e.1 / 2 ^ 32 != n) } }

theorem foundDrive_first {n : Nat} (h : s.se.drives = []) (d : DriveInfo) : s.foundDrive n d = s.firstDrive n d := by
  have hdrive : s.drive? n = none := by rw [State.drive?, h, Tab.get?_nil]
  have hentry : (s.firstDrive n d).entryOfWwn d.wwn = none := by
    unfold State.entryOfWwn
    simp only [State.firstDrive, List.findSome?_cons, List.findSome?_nil]
    cases hdesc : (Drive.fresh d).info.desc with
    | none => rfl
    | some x => simp [Drive.fresh]
  have hset : Tab.set s.se.drives n (Drive.fresh d) = [(n, Drive.fresh d)] := by rw [h]; rfl
  unfold State.foundDrive
  simp only [hdrive, memberPool_none hdrive, Option.isSome_none, Bool.false_eq_true, if_false]
  rw [show s.se.drives.find? (fun e => e.1 != n && decide (e.2.info.wwn = d.wwn)) = none by rw [h]; rfl]
  dsimp only
  rw [hset]
  change (match (s.firstDrive n d).entryOfWwn d.wwn with
    | some (p, m) => (s.firstDrive n d).modDrive n (fun v => { v with state := m.state, pool := p, classified := true })
    | none => s.firstDrive n d) = _
  rw [hentry]

/-- A key's registration leaves what is known of the drive and of its slot. -/
theorem registerKey_kept (s : State) (n : Nat) :
    ((s.registerKey n).drive? n).map (fun v => (v.info, v.state, v.classified)) =
        (s.drive? n).map (fun v => (v.info, v.state, v.classified)) ∧
      (s.registerKey n).dl = s.dl := by
  unfold State.registerKey
  split
  · split
    · refine ⟨?_, rfl⟩
      rw [drive?_modDrive_same, Option.map_map]
      rfl
    · exact ⟨rfl, rfl⟩
  · exact ⟨rfl, rfl⟩

/-- The state in which a sleeping drive has been found. -/
def State.sleeperFound (s : State) (n : Nat) (x : Slot) (d : DriveInfo) : State :=
  ((s.setSlot n (x.found d s.paired)).firstDrive n d).registerKey n

theorem sleeperFound_spec (s : State) (n : Nat) (x : Slot) (d : DriveInfo) :
    ((s.sleeperFound n x d).drive? n).map (fun v => (v.info, v.state, v.classified)) = some (d, .candidate, false) ∧
      (s.sleeperFound n x d).slot? n = some (x.found d s.paired) ∧ (s.sleeperFound n x d).regs = s.regs := by
  obtain ⟨hdrive, hdl⟩ := registerKey_kept ((s.setSlot n (x.found d s.paired)).firstDrive n d) n
  obtain ⟨-, -, hregs⟩ := registerKey_parts ((s.setSlot n (x.found d s.paired)).firstDrive n d) n
  refine ⟨hdrive.trans ?_, ?_, hregs⟩
  · rw [State.drive?, State.firstDrive, Tab.get?_cons, if_pos rfl]
    rfl
  · rw [State.slot?, State.sleeperFound, hdl]
    exact slot?_setSlot_same s n _

theorem linkFound_sleeper {n : Nat} {y : Slot} {d : DriveInfo} (hy : s.slot? n = some y) (hp : y.present = true) (hf : y.linkFail = false)
    (hl : y.linkUp = false) (hr : s.fld DL_SLOT_CTL n DL_SLOT_CTL_MAX_RATE ≠ 0) (he : d.expander = false)
    (hb : d.block = 512 ∨ d.block = 4096) (hd : s.se.drives = []) (hflash : d.flash = false) (hspin : d.spinning = false) :
    s.linkFound n d = (s.sleeperFound n y d).wake [n] 4 := by
  obtain ⟨hdrive, -, -⟩ := sleeperFound_spec s n y d
  obtain ⟨v, hv, hvd⟩ := Option.map_eq_some_iff.mp hdrive
  obtain ⟨hinfo, hstate, hclass⟩ : v.info = d ∧ v.state = .candidate ∧ v.classified = false := by simpa using hvd
  have hgood : (d.block != 512 && d.block != 4096) = false := by rcases hb with hb | hb <;> simp [hb]
  have hfound : (s.setSlot n (y.found d s.paired)).foundDrive n d = (s.setSlot n (y.found d s.paired)).firstDrive n d :=
    foundDrive_first (s := s.setSlot n (y.found d s.paired)) hd d
  have hcond : ¬ (!y.present || y.linkFail || y.linkUp || s.fld DL_SLOT_CTL n DL_SLOT_CTL_MAX_RATE = 0) = true := by simp [hp, hf, hl, hr]
  unfold State.linkFound
  rw [hy]
  dsimp only
  rw [if_neg hcond, he, if_neg (by decide), hgood, hflash, hspin]
  simp only [Bool.or_self, Bool.false_eq_true, if_false]
  have hslot : ({ y with linkUp := true, rate := d.rate, sata := d.sata, known := true, zoned := d.zoned, flash := false,
                         single := d.sata || d.ports = 1, noPr := s.paired && !(d.sata || d.ports = 1) && !d.reserveOk,
                         unsupported := false, attempts := 0, pwrDis := false, cond := if y.cond = .off then .held else y.cond } : Slot) =
      y.found d s.paired := by
    rw [Slot.found, hflash]
  rw [hslot, hfound, ← State.sleeperFound, hv]
  simp only [hinfo, hclass, bne_self_eq_false, Bool.false_eq_true, if_false]

/-! ### Admission (R412, R415, R416) -/

/-- The state in which what the admission of an enclosure uses is reported. -/
def State.baseShown (s : State) (e : Nat) : State :=
  (s.setFld DL_ENC_SPIN e DL_ENC_SPIN_I_BASE_DA (min ((s.iBase e).1 / 10) 1023)).setFld DL_ENC_SPIN e DL_ENC_SPIN_MODELLED (b2n (s.iBase e).2)

/-- The state in which no evaluation is due. -/
def State.evaluated (s : State) : State := { s with dl := { s.dl with evaluate := false } }

theorem baseShown_regsOnly (s : State) (e : Nat) : RegsOnly s (s.baseShown e) := ((RegsOnly.refl s).setFld _ _ _ _).setFld _ _ _ _

theorem baseShown_fld_other (s : State) {e : Nat} {r : Reg} {i : Nat} (h : r.at i ≠ DL_ENC_SPIN.at e) (f : Fld) :
    (s.baseShown e).fld r i f = s.fld r i f :=
  (fld_setFld_other _ _ _ _ _ _ _ _ h).trans (fld_setFld_other _ _ _ _ _ _ _ _ h)

theorem baseShown_fld (s : State) (e : Nat) {r : Reg} {i : Nat} (h : r.at i < 0x1408000) (f : Fld) :
    (s.baseShown e).fld r i f = s.fld r i f :=
  baseShown_fld_other s (at_ne_of_lt_base h e).symm f

theorem baseShown_limit (s : State) (e : Nat) : (s.baseShown e).fld DL_ENC_SPIN e DL_ENC_SPIN_I_MAX_DA = s.fld DL_ENC_SPIN e DL_ENC_SPIN_I_MAX_DA :=
  (fld_setFld_beside (s.setFld DL_ENC_SPIN e DL_ENC_SPIN_I_BASE_DA (min ((s.iBase e).1 / 10) 1023)) DL_ENC_SPIN e DL_ENC_SPIN_MODELLED
    DL_ENC_SPIN_I_MAX_DA _ (by decide) (by decide)).trans (fld_setFld_beside s DL_ENC_SPIN e _ _ _ (by decide) (by decide))

theorem measuredBase_congr (h : RegsOnly s t) (hf : ∀ k < 64, ∀ f, t.fld CL_AIN k f = s.fld CL_AIN k f) (e : Nat) :
    t.measuredBase e = s.measuredBase e := by
  have hks : (List.range 64).filter (fun k =>
        t.fld CL_AIN k CL_AIN_ROLE = 3 && t.fld CL_AIN k CL_AIN_VALID = 1 && t.fld CL_AIN k CL_AIN_ENC = e) =
      (List.range 64).filter (fun k =>
        s.fld CL_AIN k CL_AIN_ROLE = 3 && s.fld CL_AIN k CL_AIN_VALID = 1 && s.fld CL_AIN k CL_AIN_ENC = e) :=
    List.filter_congr fun k hk => by
      simp only [hf k (List.mem_range.mp hk)]
  have hcl : t.cl = s.cl := h.keeps (·.cl) fun _ _ => rfl
  have hhas : t.hasCL = s.hasCL := h.keeps State.hasCL fun _ _ => rfl
  unfold State.measuredBase
  rw [hks, hcl, hhas]

theorem iBase_congr (h : RegsOnly s t) (hf : ∀ k < 64, ∀ f, t.fld CL_AIN k f = s.fld CL_AIN k f) (e : Nat) : t.iBase e = s.iBase e := by
  have hboot : t.boot = s.boot := h.keeps (·.boot) fun _ _ => rfl
  have hdl : t.dl = s.dl := h.keeps (·.dl) fun _ _ => rfl
  have henc (n : Nat) : t.enclosure n = s.enclosure n := h.keeps (fun x => x.enclosure n) fun _ _ => rfl
  have hawake (n : Nat) : t.awake n = s.awake n := h.keeps (fun x => x.awake n) fun _ _ => rfl
  have hprofile (n : Nat) : t.profile n = s.profile n := h.keeps (fun x => x.profile n) fun _ _ => rfl
  unfold State.iBase
  simp only [measuredBase_congr h hf, hboot, hdl, henc, hawake, hprofile]

theorem ain_below {k : Nat} (h : k < 64) : CL_AIN.at k < 0x1408000 := by
  show 0x700100 + k * 0x4 < 0x1408000
  omega

theorem spinFits_baseShown (s : State) {n : Nat} (he : s.enclosure n < 32) : (s.baseShown (s.enclosure n)).spinFits n = s.spinFits n := by
  have h := baseShown_regsOnly s (s.enclosure n)
  have hbase : (s.baseShown (s.enclosure n)).iBase (s.enclosure n) = s.iBase (s.enclosure n) :=
    iBase_congr h (fun k hk f => baseShown_fld s _ (ain_below hk) f) _
  have hguard : (s.baseShown (s.enclosure n)).fld DL_SPIN_PARAM 0 DL_SPIN_PARAM_I_GUARD_DA = s.fld DL_SPIN_PARAM 0 DL_SPIN_PARAM_I_GUARD_DA :=
    baseShown_fld_other s (by show 0x1408400 ≠ 0x1408000 + s.enclosure n * 0x10; omega) _
  have henc : (s.baseShown (s.enclosure n)).enclosure n = s.enclosure n := h.keeps (fun x => x.enclosure n) fun _ _ => rfl
  have hpeak : (s.baseShown (s.enclosure n)).reservedPeak (s.enclosure n) = s.reservedPeak (s.enclosure n) :=
    h.keeps (fun x => x.reservedPeak (s.enclosure n)) fun _ _ => rfl
  have hprofile : (s.baseShown (s.enclosure n)).profile n = s.profile n := h.keeps (fun x => x.profile n) fun _ _ => rfl
  unfold State.spinFits
  simp only [henc, hbase, hguard, hpeak, hprofile, baseShown_limit]

theorem spinBlocked_baseShown (s : State) {e : Nat} (he : e < 32) : (s.baseShown e).spinBlocked e = s.spinBlocked e := by
  have h := baseShown_regsOnly s e
  have hstate (f : Fld) : (s.baseShown e).fld CL_ENC_STATE e f = s.fld CL_ENC_STATE e f :=
    baseShown_fld s e (by show 0x700300 + e * 0x8 < 0x1408000; omega) f
  have hcl : (s.baseShown e).cl = s.cl := h.keeps (·.cl) fun _ _ => rfl
  have hhas : (s.baseShown e).hasCL = s.hasCL := h.keeps State.hasCL fun _ _ => rfl
  have hdl : (s.baseShown e).dl = s.dl := h.keeps (·.dl) fun _ _ => rfl
  have henc (n : Nat) : (s.baseShown e).enclosure n = s.enclosure n := h.keeps (fun x => x.enclosure n) fun _ _ => rfl
  have hfault (n : Nat) : (s.baseShown e).chainFault n = s.chainFault n := h.keeps (fun x => x.chainFault n) fun _ _ => rfl
  unfold State.spinBlocked
  simp only [hstate, hcl, hhas, hdl, henc, hfault]

/-- The state in which a sleeping drive has been admitted. -/
def State.spinStarted (s : State) (n : Nat) (y : Slot) (cls : Nat) : State :=
  ((s.unqueue n).setSlot n { y with pwrEn := y.pwrEn || s.extended (n / 32), cond := .spinningUp, inS := true, cls := cls }).driveOut n 7 0 0

theorem admitSpin_standby {n cls : Nat} {y : Slot} (hy : s.slot? n = some y) (hp : y.present = true) (hpf : y.powerFault = false)
    (hlf : y.linkFail = false) (hc : y.cond = .standby) : s.admitSpin { slot := n, cls := cls } = s.spinStarted n y cls := by
  have hslot : (s.unqueue n).slot? n = some y := hy
  have hasleep : ((s.unqueue n).awake n && !y.flash) = false := by
    rw [State.awake, hslot]
    simp [hc, Cond.awake]
  unfold State.admitSpin
  dsimp only
  rw [hslot]
  dsimp only
  rw [if_neg (by simp [hp, hpf, hlf]), if_neg (by rw [hasleep]; decide)]
  exact if_neg (by rw [hc]; decide)

theorem classOrder_single (n : Nat) {cls : Nat} (h : cls < 5) :
    (List.range 5).flatMap (fun c => [({ slot := n, cls := cls } : WakeReq)].filter (fun q => q.cls = c)) = [{ slot := n, cls := cls }] := by
  match cls, h with
  | 0, _ | 1, _ | 2, _ | 3, _ | 4, _ => rfl

theorem spinAdmission_single {n cls : Nat} {y : Slot} (hq : s.dl.queue = [{ slot := n, cls := cls }]) (hc : cls < 5) (he : s.enclosure n < 32)
    (hb : s.spinBlocked (s.enclosure n) = false) (hfit : s.spinFits n = true) (hy : s.slot? n = some y) (hp : y.present = true)
    (hpf : y.powerFault = false) (hlf : y.linkFail = false) (hcond : y.cond = .standby) :
    s.spinAdmission = (s.evaluated.baseShown (s.enclosure n)).spinStarted n y cls := by
  have hregs := baseShown_regsOnly s.evaluated (s.enclosure n)
  have hdl : (s.evaluated.baseShown (s.enclosure n)).dl = s.evaluated.dl := hregs.keeps (·.dl) fun _ _ => rfl
  have hqueue : (s.evaluated.baseShown (s.enclosure n)).dl.queue = [{ slot := n, cls := cls }] := by
    rw [hdl]
    exact hq
  have henc (m : Nat) : (s.evaluated.baseShown (s.enclosure n)).enclosure m = s.enclosure m := hregs.keeps (fun x => x.enclosure m) fun _ _ => rfl
  have hblocked : (s.evaluated.baseShown (s.enclosure n)).spinBlocked (s.enclosure n) = false :=
    (spinBlocked_baseShown s.evaluated he).trans hb
  have hfits : (s.evaluated.baseShown (s.enclosure n)).spinFits n = true := (spinFits_baseShown s.evaluated he).trans hfit
  have hslot : (s.evaluated.baseShown (s.enclosure n)).slot? n = some y := by
    rw [State.slot?, hdl]
    exact hy
  have hone : (s.dl.queue.map (fun q => s.evaluated.enclosure q.slot)).eraseDups = [s.enclosure n] := by
    rw [hq]
    rfl
  unfold State.spinAdmission
  dsimp only
  rw [← State.evaluated]
  rw [hone, each_cons]
  change (if (s.evaluated.baseShown (s.enclosure n)).spinBlocked (s.enclosure n) then s.evaluated.baseShown (s.enclosure n)
    else State.admitList ((List.range 5).flatMap (fun c => ((s.evaluated.baseShown (s.enclosure n)).dl.queue.filter
      (fun q => (s.evaluated.baseShown (s.enclosure n)).enclosure q.slot = s.enclosure n)).filter (fun q => q.cls = c)))
      (s.evaluated.baseShown (s.enclosure n))) = _
  have hmine : [({ slot := n, cls := cls } : WakeReq)].filter
      (fun q => (s.evaluated.baseShown (s.enclosure n)).enclosure q.slot = s.enclosure n) = [{ slot := n, cls := cls }] := by
    simp [henc]
  rw [hblocked, hqueue, hmine, classOrder_single n hc]
  simp only [Bool.false_eq_true, if_false, State.admitList, hfits, if_true]
  exact admitSpin_standby hslot hp hpf hlf hcond

end Sys2Proof.Machine
end

section
/-! Spin-ups and standby (R400, R401, R413 to R415). -/

namespace Sys2Proof.Machine

open Sys2Proof

variable {s t : State}

/-! ### Admission -/

theorem spinStarted_parts (s : State) (n : Nat) (y : Slot) (cls : Nat) :
    (s.spinStarted n y cls).dl.queue = s.dl.queue.filter (fun q => q.slot != n) ∧
      (s.spinStarted n y cls).slot? n =
        some { y with pwrEn := y.pwrEn || s.extended (n / 32), cond := .spinningUp, inS := true, cls := cls } ∧
      Out.drive n 7 0 0 [] ∈ (s.spinStarted n y cls).out ∧
      s.spinStarted n y cls = { s with out := (s.spinStarted n y cls).out, dl := (s.spinStarted n y cls).dl } :=
  ⟨rfl, Tab.get?_set_same _ _ _, List.mem_append_right _ List.mem_cons_self, rfl⟩

/-- The admission of a drive changes its slot, the queue, the outputs and what its enclosure reports. -/
theorem spinStarted_onlyRegs (s : State) (n e : Nat) (y : Slot) (cls : Nat) (u : State)
    (hu : u = (s.evaluated.baseShown e).spinStarted n y cls) : OnlyRegs [DL_ENC_SPIN.at e] { s with out := u.out, dl := u.dl } u := by
  have hframe : u = { s.evaluated.baseShown e with out := u.out, dl := u.dl } := by
    rw [hu]
    exact (spinStarted_parts _ n y cls).2.2.2
  have hshown : OnlyRegs [DL_ENC_SPIN.at e] s.evaluated (s.evaluated.baseShown e) :=
    ((onlyRegs_refl _ _).setFld List.mem_cons_self _ _).setFld List.mem_cons_self _ _
  have hregs : u.regs = (s.evaluated.baseShown e).regs := by rw [hframe]
  refine ⟨fun a ha => ?_, ?_⟩
  · have hsame := hshown.1 a ha
    rw [State.getReg, hregs]
    exact hsame
  · rw [hregs]
    exact hframe.trans (congrArg (fun x : State => ({ x with out := u.out, dl := u.dl } : State)) hshown.2)

/-! ### Spin-ups -/

/-- The state in which a spin-up has ended. -/
def State.spunUp (s : State) (n ds : Nat) (y : Slot) : State :=
  let t := (s.setSlot n { y with cond := .idle }).bumpWrap DL_SLOT_SPINS n DL_SLOT_SPINS_SPINUPS
  (t.setFld DL_SLOT_SPINS n DL_SLOT_SPINS_LAST_READY_DS (min ds 65535)).modDrive n (fun d => { d with spinFails := 0 })

theorem spinupDone_eq {n : Nat} {y : Slot} (hy : s.slot? n = some y) (hc : y.cond = .spinningUp) (ds : Nat) :
    s.spinupDone n ds = (s.spunUp n ds y).awakened n y.cls := by
  unfold State.spinupDone
  rw [hy]
  dsimp only
  rw [if_neg (by rw [hc]; decide)]
  rfl

theorem spunUp_fields (s : State) (n ds : Nat) (y : Slot) :
    (s.spunUp n ds y).fld DL_SLOT_SPINS n DL_SLOT_SPINS_LAST_READY_DS = min ds 65535 ∧
      (s.spunUp n ds y).fld DL_SLOT_SPINS n DL_SLOT_SPINS_SPINUPS =
        (s.fld DL_SLOT_SPINS n DL_SLOT_SPINS_SPINUPS + 1) % 2 ^ DL_SLOT_SPINS_SPINUPS.len := by
  constructor
  · exact (fld_setFld_same ((s.setSlot n { y with cond := .idle }).bumpWrap DL_SLOT_SPINS n DL_SLOT_SPINS_SPINUPS) DL_SLOT_SPINS n
      DL_SLOT_SPINS_LAST_READY_DS (min ds 65535) (by decide)).trans (Nat.mod_eq_of_lt (by show min ds 65535 < 65536; omega))
  · exact (fld_setFld_beside ((s.setSlot n { y with cond := .idle }).bumpWrap DL_SLOT_SPINS n DL_SLOT_SPINS_SPINUPS) DL_SLOT_SPINS n
      DL_SLOT_SPINS_LAST_READY_DS DL_SLOT_SPINS_SPINUPS _ (by decide) (by decide)).trans (fld_setFld_same _ _ _ _ _ (by decide))

/-- The state in which a spin-up has failed once more, and the drive waits again. -/
def State.spinRequeued (s : State) (n : Nat) (y : Slot) : State :=
  let t := (s.setSlot n { y with cond := .standby }).modDrive n (fun d => { d with spinFails := 1 })
  { t with dl := { t.dl with queue := t.dl.queue ++ [{ slot := n, cls := y.cls }], evaluate := true } }

theorem spinupLate_unknown {n : Nat} {y : Slot} (hy : s.slot? n = some y) (hc : y.cond = .spinningUp) (hd : s.drive? n = none) :
    s.spinupLate n = s.spinRequeued n y := by
  have hdrive : (s.setSlot n { y with cond := .standby }).drive? n = none := hd
  have hpool : ((s.setSlot n { y with cond := .standby }).modDrive n (fun d => { d with spinFails := 1 })).memberPool n = none :=
    memberPool_none (by rw [drive?_modDrive_same, hdrive]; rfl)
  have hjudge : ((s.setSlot n { y with cond := .standby }).modDrive n (fun d => { d with spinFails := 1 })).judge n 1 1 2 5 =
      (s.setSlot n { y with cond := .standby }).modDrive n (fun d => { d with spinFails := 1 }) := if_pos (by rw [hpool]; rfl)
  unfold State.spinupLate
  rw [hy]
  dsimp only
  rw [if_neg (by rw [hc]; decide), hdrive]
  dsimp only
  rw [hjudge, if_pos (.inr (by decide))]
  rfl

/-! ### Sleep -/

/-- The slot of a drive whose standby is complete. -/
def Slot.slept (x : Slot) : Slot := { x with standbyIssued := false, wakeAfter := none, cond := .standby }

/-- Slots of a wake group whose standby is issued. -/
def State.sleepers (s : State) (g : Nat) : List Nat :=
  (s.groupSlots g).filter (fun n => match s.slot? n with
    | some x => x.standbyIssued
    | none => false)

theorem keys_of_get? {α : Type} {t : Tab α} {k : Nat} {v : α} (h : Tab.get? t k = some v) : k ∈ Tab.keys t := by
  induction t with
  | nil => simp at h
  | cons a t ih =>
    rw [Tab.get?_cons] at h
    split at h
    next hk => exact hk ▸ List.mem_cons_self
    · exact List.mem_cons_of_mem _ (ih h)

/-- Setting the slots of a group that has one slot alone to sleep sets that one. -/
theorem slept_only {n : Nat} {y : Slot} (ns : List Nat) (hns : ∀ m ∈ ns, m = n) (hn : n ∈ ns) (hy : s.slot? n = some y) :
    (s.each ns (fun m t => t.modSlot m Slot.slept)).slot? n = some y.slept := by
  refine each_reaches_mem (Pre := fun t => t.slot? n = some y) (Post := fun t => t.slot? n = some y.slept) hn
    (fun m t => t.modSlot m Slot.slept) (fun m hm t hne => absurd (hns m hm) hne) (fun t ht => ?_) (fun m hm t ht => ?_) hy
  · rw [slot?_modSlot_same, ht]
    rfl
  · rw [hns m hm, slot?_modSlot_same, ht]
    rfl

theorem standbyDone_alone {n : Nat} {y : Slot} (hy : s.slot? n = some y) (hi : y.standbyIssued = true) (hw : y.wakeAfter = none)
    (hg : (s.groupSlots (s.wakeGroup n)).filter (fun m => m ≠ n) = []) :
    s.standbyDone (s.wakeGroup n) = s.each (s.sleepers (s.wakeGroup n)) (fun m t => t.modSlot m Slot.slept) ∧
      (∀ m ∈ s.sleepers (s.wakeGroup n), m = n) ∧ n ∈ s.sleepers (s.wakeGroup n) := by
  have honly : ∀ m ∈ s.sleepers (s.wakeGroup n), m = n := fun m hm => by
    refine Decidable.byContradiction fun hne => ?_
    have hin : m ∈ (s.groupSlots (s.wakeGroup n)).filter (fun m => m ≠ n) :=
      List.mem_filter.mpr ⟨(List.mem_filter.mp hm).1, decide_eq_true hne⟩
    rw [hg] at hin
    exact absurd hin List.not_mem_nil
  have hmem : n ∈ s.sleepers (s.wakeGroup n) := by
    refine List.mem_filter.mpr ⟨List.mem_filter.mpr ⟨keys_of_get? hy, decide_eq_true rfl⟩, ?_⟩
    rw [hy]
    exact hi
  have hnone : (s.sleepers (s.wakeGroup n)).filterMap (fun m => (s.slot? m).bind (fun x => x.wakeAfter.map (fun c => (m, c)))) = [] := by
    refine List.filterMap_eq_nil_iff.mpr fun m hm => ?_
    rw [honly m hm, hy]
    simp [hw]
  refine ⟨?_, honly, hmem⟩
  unfold State.standbyDone
  dsimp only
  change State.each _ ((s.sleepers (s.wakeGroup n)).filterMap _) _ = _
  rw [hnone]
  rfl

/-- Settles O48: each row by the state from which its shared operation goes on. -/
theorem drivesSpinUpAndSleep : Obligations.DrivesSpinUpAndSleep := by
  intro s n y hup hb hn hy
  have hslot (act : State → State) : s.whenSlot n act = (act s).finish := whenSlot_up hup hb hn act
  have hlink (act : State → State) : s.whenLinked act = (act s).finish := whenLinked_up hup hb act
  refine ⟨fun d hp hf hl hr => ⟨fun hexp => ?_, fun hexp hblock _ hd hflash hspin => ?_⟩,
    fun cls hq hc he hblocked hfit hp hpf hlf hcond => ?_, ?_, fun hc => ⟨fun ds => ?_, fun hd => ?_⟩,
    fun g up hupper => ⟨fun hbusy => ?_, fun hidle => ?_⟩, fun hi hw hg => ?_⟩
  · have heq : s.linkFound n d = s.setSlot n { y with unsupported := true, linkUp := false, rate := 0 } := by
      unfold State.linkFound
      rw [hy]
      dsimp only
      rw [if_neg (by simp [hp, hf, hl, hr]), if_pos hexp]
    simp only [Ends, Runs, exec_linkUp, execLinkUp, hslot, heq]
  · obtain ⟨hdrive, hfound, hregs⟩ := sleeperFound_spec s n y d
    refine ⟨s.sleeperFound n y d, ?_, hdrive, by rw [hfound]; rfl, hregs⟩
    simp only [Ends, Runs, exec_linkUp, execLinkUp, hslot, linkFound_sleeper hy hp hf hl hr hexp hblock hd hflash hspin]
  · have heq := spinAdmission_single hq hc he hblocked hfit hy hp hpf hlf hcond
    have hregs := baseShown_regsOnly s.evaluated (s.enclosure n)
    have hdl : (s.evaluated.baseShown (s.enclosure n)).dl = s.evaluated.dl := hregs.keeps (·.dl) fun _ _ => rfl
    have hext : (s.evaluated.baseShown (s.enclosure n)).extended (n / 32) = s.extended (n / 32) :=
      hregs.keeps (fun x => x.extended (n / 32)) fun _ _ => rfl
    obtain ⟨hqueue, hset, hout, -⟩ := spinStarted_parts (s.evaluated.baseShown (s.enclosure n)) n y cls
    refine ⟨(s.evaluated.baseShown (s.enclosure n)).spinStarted n y cls, ?_, ?_, hext ▸ hset, hout, spinStarted_onlyRegs s n _ y cls _ rfl⟩
    · simp only [Ends, Runs, exec_spinAdmissionTick, execSpinAdmissionTick, hlink, heq]
    · rw [hqueue, hdl]
      show s.dl.queue.filter _ = []
      rw [hq]
      simp
  · refine ⟨s.modSlot n (fun x => { x with inS := false }), ?_, ?_, rfl, rfl⟩
    · simp only [Ends, Runs, exec_spinPeakExpiry, execSpinPeakExpiry, hslot, State.peakOver]
    · rw [slot?_modSlot_same, hy]
      rfl
  · obtain ⟨hlast, hcount⟩ := spunUp_fields s n ds y
    refine ⟨s.spunUp n ds y, ?_, slot?_setSlot_same s n { y with cond := .idle }, hlast, hcount⟩
    simp only [Ends, Runs, exec_spinupComplete, execSpinupComplete, hslot, spinupDone_eq hy hc]
  · refine ⟨s.spinRequeued n y, ?_, slot?_setSlot_same s n { y with cond := .standby }, rfl, rfl⟩
    simp only [Ends, Runs, exec_spinupTimeout, execSpinupTimeout, hslot, spinupLate_unknown hy hc hd]
  · have heq : s.groupIdle g = s := if_pos (hupper ▸ hbusy)
    simp only [Ends, Runs, exec_wakeGroupIdleExpiry, execWakeGroupIdleExpiry, hlink, heq]
  · have heq : s.groupIdle g = s.sendStandby up := by
      rw [State.groupIdle, ← hupper]
      exact if_neg (by rw [hidle]; decide)
    simp only [Ends, Runs, exec_wakeGroupIdleExpiry, execWakeGroupIdleExpiry, hlink, heq]
  · obtain ⟨heq, honly, hmem⟩ := standbyDone_alone hy hi hw hg
    have hkept : (s.each (s.sleepers (s.wakeGroup n)) (fun m t => t.modSlot m Slot.slept)).se = s.se ∧
        (s.each (s.sleepers (s.wakeGroup n)) (fun m t => t.modSlot m Slot.slept)).regs = s.regs :=
      each_stable (fun t : State => t.se = s.se ∧ t.regs = s.regs) _ _ (fun _ _ h => h) ⟨rfl, rfl⟩
    refine ⟨s.each (s.sleepers (s.wakeGroup n)) (fun m t => t.modSlot m Slot.slept), ?_, ?_, hkept⟩
    · simp only [Ends, Runs, exec_standbyComplete, execStandbyComplete, hlink, heq]
    · rw [slept_only _ honly hmem hy, Slot.slept, hw]

end Sys2Proof.Machine
end

section
/-! Rebuild passes and tide rounds (R213 to R217, R229 to R241). -/

namespace Sys2Proof.Machine

open Sys2Proof

variable {s t : State}

theorem pool?_modPool_same (s : State) (p : Nat) (f : Pool → Pool) : (s.modPool p f).pool? p = (s.pool? p).map f :=
  (Tab.get?_modify s.se.pools p p f).trans (if_pos rfl)

/-! ### Rebuild -/

theorem startPass_eq {e : Nat × SetRec} (hmax : s.se.sets.countP (fun e => e.2.passRunning) < s.fld SE_RB_PARAM 0 SE_RB_PARAM_MAX_PASSES)
    (he : pickBest s.rebuildBefore (s.se.sets.filter (fun e => s.passStartable e.2)) = some e) :
    s.startPass = State.passNext (s.modSet e.1 (fun x => { x with passRunning := true, passSubs := x.substitutes })).passFuel
      (s.modSet e.1 (fun x => { x with passRunning := true, passSubs := x.substitutes })) e.1 := by
  unfold State.startPass
  dsimp only
  rw [if_neg (by omega), he]

/-- While chunks of the stripe are still out, a written one moves its cursor alone. -/
theorem passWritten_more {i q r : Nat} {rest : List Nat} {k : Pass} (hk : s.pass? i = some k) (hw : k.writing = q :: r :: rest) :
    s.passWritten i = (s.passOffset i k.off (fun p => p = q)).setPass i { k with writing := r :: rest } := by
  unfold State.passWritten
  rw [hk]
  dsimp only
  rw [hw]
  exact if_neg Bool.false_ne_true

/-! ### Tide rounds -/

/-- The pool of a round that starts. -/
def Pool.roundBegun (x : Pool) (now : Nat) : Pool :=
  { x with round := (x.round + 1) % 2 ^ 32, roundStart := now, roundOver := false, verified := 0,
           tideLate := false, tideWaking := false, tideLog := [] }

/-- The state with the cursors of some sets at the start. -/
def State.cursorsBack (s : State) (sets : List (Nat × SetRec)) : State :=
  s.each sets (fun e s => s.modSet e.1 (fun y => { y with tideCursor := 0 }))

theorem tideStart_eq {p : Nat} {x : Pool} (hx : s.pool? p = some x) (hup : s.poolUp p = true) (hr : x.round = 0 ∨ x.roundOver = true) :
    s.tideStart p = (s.modPool p (fun x => Pool.roundBegun x s.devNs)).cursorsBack ((s.modPool p (fun x => Pool.roundBegun x s.devNs)).setsOf p) := by
  unfold State.tideStart
  rw [hx]
  exact if_pos (by rcases hr with hr | hr <;> simp [hup, hr])

theorem cursorsBack_pools (s : State) (sets : List (Nat × SetRec)) : (s.cursorsBack sets).se.pools = s.se.pools :=
  each_stable (fun t : State => t.se.pools = s.se.pools) _ _ (fun _ _ h => h) rfl

/-- A set after some cursors are back: it is a set of before, and its cursor is back when its index was among them. -/
theorem mem_cursorsBack (sets : List (Nat × SetRec)) {e : Nat × SetRec} (he : e ∈ (s.cursorsBack sets).se.sets) :
    ∃ y, (e.1, y) ∈ s.se.sets ∧ y.pool = e.2.pool ∧ y.state = e.2.state ∧ (e.1 ∈ sets.map (·.1) → e.2.tideCursor = 0) ∧
      (y.tideCursor = 0 → e.2.tideCursor = 0) := by
  induction sets generalizing s with
  | nil => exact ⟨e.2, he, rfl, rfl, fun h => absurd h List.not_mem_nil, id⟩
  | cons a sets ih =>
    rw [State.cursorsBack, each_cons, ← State.cursorsBack] at he
    obtain ⟨y, hy, hpool, hstate, hback, hkept⟩ := ih he
    obtain ⟨b, hb, hbe⟩ := List.mem_map.mp (show (e.1, y) ∈ s.se.sets.map _ from hy)
    by_cases hkey : b.1 = a.1
    · rw [if_pos (by simp [hkey])] at hbe
      obtain ⟨hk, hv⟩ := Prod.mk.inj hbe
      have hzero : e.2.tideCursor = 0 := hkept (by rw [← hv])
      exact ⟨b.2, hk ▸ hb, by rw [← hpool, ← hv], by rw [← hstate, ← hv], fun _ => hzero, fun _ => hzero⟩
    · rw [if_neg (by simp [hkey])] at hbe
      refine ⟨y, hbe ▸ hb, hpool, hstate, fun hin => ?_, hkept⟩
      rcases List.mem_cons.mp hin with hin | hin
      · exact absurd (by rw [hbe]; exact hin) hkey
      · exact hback hin

/-- Every set of the pool starts its round with no stripe verified. -/
theorem cursorsBack_setsOf (p : Nat) : ∀ e ∈ (s.cursorsBack (s.setsOf p)).setsOf p, e.2.tideCursor = 0 := by
  intro e he
  obtain ⟨hin, hmine⟩ := List.mem_filter.mp he
  obtain ⟨y, hy, hpool, hstate, hback, -⟩ := mem_cursorsBack _ hin
  refine hback (List.mem_map.mpr ⟨(e.1, y), List.mem_filter.mpr ⟨hy, ?_⟩, rfl⟩)
  dsimp only
  rw [hpool, hstate]
  exact hmine

/-- What the device finds of a stripe that is whole. -/
def cleanFinding : TideFinding := { lost := [], unreadable := [], mismatch := false, badExtents := [] }

/-- A stripe found whole counts as verified. -/
theorem tideVerify_clean {p n : Nat} {x : Pool} {t : Stripe} (hx : s.pool? p = some x) (ht : s.stripe? p n = some t) (hw : t.state = .written)
    (hmay : s.tideMay p n = true) (hl : (s.lostPos t).isEmpty = true) : s.tideVerify p n cleanFinding = s.tideCount p n t x := by
  unfold State.tideVerify
  rw [hx, ht]
  simp only [cleanFinding, List.filter_nil, List.append_nil, List.eraseDups_nil, hmay, hl]
  change (match s.stripe? p n with
    | some u => if u.state = StripeState.written then s.tideCount p n t x else s
    | none => s) = _
  rw [ht]
  exact if_pos hw

/-- Settles O43: each row by the branch that its hypotheses choose. -/
theorem rebuildAndTide : Obligations.RebuildAndTide := by
  intro s hup
  refine ⟨fun e hmax he => ⟨_, ?_, rfl⟩, fun i k q r rest hk hw => ?_, fun p x hx hpup hr => ?_, ?_, fun p n x t hx ht hw hmay hl => ?_,
    fun p x hx hruns => ⟨fun hlate => ?_, fun hlate => ?_⟩, fun p => ⟨s.modPool p (fun x => { x with tideWake := none }), ?_, fun x hx => ?_, rfl, rfl, rfl⟩⟩
  · simp only [Ends, Runs, exec_rebuildPassStart, execRebuildPassStart, whenUp_up hup, startPass_eq hmax he]
  · simp only [Ends, Runs, exec_rebuildChunkWritten, execRebuildChunkWritten, whenUp_up hup, passWritten_more hk hw]
  · have hbegun : (s.modPool p (fun x => Pool.roundBegun x s.devNs)).pool? p = some (Pool.roundBegun x s.devNs) := by
      rw [pool?_modPool_same, hx]
      rfl
    refine ⟨s.tideStart p, Pool.roundBegun x s.devNs, ?_, ?_, rfl, rfl, rfl, rfl, rfl, rfl, ?_⟩
    · simp only [Ends, Runs, exec_tideRoundStart, execTideRoundStart, whenUp_up hup]
    · rw [tideStart_eq hx hpup hr, State.pool?, cursorsBack_pools]
      exact hbegun
    · rw [tideStart_eq hx hpup hr]
      exact cursorsBack_setsOf p
  · simp only [Ends, Runs, exec_tideMarkTick, execTideMarkTick, whenUp_up hup]
  · have heq := tideVerify_clean hx ht hw hmay hl
    rw [cleanFinding] at heq
    simp only [Ends, Runs, exec_tideStripeVerify, execTideStripeVerify, whenUp_up hup, heq]
  · have heq : s.tideLateNow p = ((s.modPool p (fun x => { x with tideLate := true })).raise 0x607 4 p).tideAsk p := by
      unfold State.tideLateNow
      rw [hx]
      exact if_pos (by rw [hruns, hlate]; rfl)
    simp only [Ends, Runs, exec_tideLate, execTideLate, whenUp_up hup, heq]
  · simp only [Ends, Runs, exec_tideLateReminder, execTideLateReminder, whenUp_up hup, hx, hlate, if_true]
  · simp only [Ends, Runs, exec_tideWakeExpiry, execTideWakeExpiry, whenUp_up hup]
  · rw [pool?_modPool_same] at hx
    obtain ⟨y, -, rfl⟩ := Option.map_eq_some_iff.mp hx
    rfl

end Sys2Proof.Machine
end

section
/-! The mirror as its receiver keeps it (R164 to R168, R185, R460, R461, R463, R465, R528). -/

namespace Sys2Proof.Machine

open Sys2Proof

variable {s t : State}

/-! ### Frames in order (R165, R461, R465) -/

/-- The state with a frame counted as applied. -/
def State.frameApplied (s : State) (m : Nat) : State := { s with pl := { s.pl with mseqApplied := m } }

/-- The next frame in order is applied and confirmed. -/
theorem applyM_next {m : Nat} (hm : m = s.pl.mseqApplied + 1) (hmir : s.mirrors = true) (hd : s.pl.discardM = false)
    (act : State → State) : s.applyM m act = (((act s).frameApplied m).sendFrame 0x16 [m]).answerGives := by
  unfold State.applyM
  rw [if_neg (by simp [hm, hmir]), hd]
  rfl

/-- Any other does nothing. -/
theorem applyM_other {m : Nat} (h : m ≠ s.pl.mseqApplied + 1 ∨ s.mirrors = false) (act : State → State) : s.applyM m act = s :=
  if_pos (by rcases h with h | h <;> simp [h])

/-! ### What a frame does -/

theorem Tab.getD_of_get? {α : Type} {t : Tab α} {k : Nat} {v : α} (h : Tab.get? t k = some v) (d : α) : Tab.getD t k d = v := by
  rw [Tab.getD, h]
  rfl

/-- The stripe of the mirror that a frame changes. -/
def State.mirrored (s : State) (p n : Nat) : Stripe :=
  let gen := match Tab.get? s.pl.standby p with
    | some t => t.pool.params.gen
    | none => 0
  Tab.getD s.pl.mirror (stripeKey p n) (Stripe.fresh gen 0 s.devNs 0 false false)

/-- A change of a mirrored stripe leaves all but the peer link, and of the link all but the mirror. -/
theorem modMirror_parts (s : State) (p n m : Nat) (f : Stripe → Stripe) :
    (s.modMirror p n f).frameApplied m = { s with pl := ((s.modMirror p n f).frameApplied m).pl } ∧
      ((s.modMirror p n f).frameApplied m).pl.mseqApplied = m ∧ ((s.modMirror p n f).frameApplied m).pl.standby = s.pl.standby ∧
      Tab.get? ((s.modMirror p n f).frameApplied m).pl.mirror (stripeKey p n) = some (f (s.mirrored p n)) :=
  ⟨rfl, rfl, rfl, Tab.get?_set_same _ _ _⟩

theorem mirrored_of_get? {p n : Nat} {t : Stripe} (h : Tab.get? s.pl.mirror (stripeKey p n) = some t) : s.mirrored p n = t :=
  Tab.getD_of_get? h _

theorem dirent_placed (l : List DirEnt) (k : Nat) (d e : DirEnt) : ((l ++ List.replicate (k + 1 - l.length) d).set k e)[k]? = some e := by
  refine List.getElem?_set_self ?_
  rw [List.length_append, List.length_replicate]
  omega

/-- Pending release records join those of the mirror. -/
theorem mirRelease_pending (s : State) (p : Nat) (rs : List (List Byte)) : s.mirRelease p 0 rs =
    { s with pl := { s.pl with mirPending := s.pl.mirPending ++ rs.map (fun r => { parsePend r with pool := p }) } } := by
  induction rs generalizing s with
  | nil =>
    rw [List.map_nil, List.append_nil]
    rfl
  | cons r rs ih =>
    have hstep : s.mirRelease p 0 (r :: rs) =
      State.mirRelease { s with pl := { s.pl with mirPending := s.pl.mirPending ++ [{ parsePend r with pool := p }] } } p 0 rs := rfl
    rw [hstep, ih]
    simp only [List.append_assoc, List.map_cons, List.singleton_append]

/-- The state with a ledger of the mirror. -/
def State.ledgered (s : State) (l : Tab (List Byte)) : State := { s with pl := { s.pl with mirLedger := l } }

/-- Ledger entries change the mirror's ledger alone, and the last one stands there. -/
theorem mirRelease_ledger {kind : Nat} (hk : kind ≠ 0) (s : State) (p : Nat) (rs : List (List Byte)) (r : List Byte) :
    s.mirRelease p kind (rs ++ [r]) = s.ledgered (s.mirRelease p kind (rs ++ [r])).pl.mirLedger ∧
      Tab.get? (s.mirRelease p kind (rs ++ [r])).pl.mirLedger (stripeKey p (leAt r 0 8)) = some r := by
  have hstep (x : State) (q : List Byte) : x.mirRelease p kind [q] = x.ledgered (Tab.set x.pl.mirLedger (stripeKey p (leAt q 0 8)) q) :=
    if_neg hk
  have hframe : (s.mirRelease p kind rs) = s.ledgered (s.mirRelease p kind rs).pl.mirLedger := by
    refine each_stable (fun x : State => x = s.ledgered x.pl.mirLedger) _ _ (fun q x hx => ?_) rfl
    rw [if_neg hk]
    have h := congrArg (fun y : State => y.ledgered (Tab.set x.pl.mirLedger (stripeKey p (leAt q 0 8)) q)) hx
    exact h
  have hlast : s.mirRelease p kind (rs ++ [r]) =
      (s.mirRelease p kind rs).ledgered (Tab.set (s.mirRelease p kind rs).pl.mirLedger (stripeKey p (leAt r 0 8)) r) :=
    (List.foldl_append (l := rs) (l' := [r])).trans (hstep _ r)
  rw [hlast]
  have h := congrArg (fun y : State => y.ledgered (Tab.set (s.mirRelease p kind rs).pl.mirLedger (stripeKey p (leAt r 0 8)) r)) hframe
  exact ⟨h, Tab.get?_set_same _ _ _⟩

/-- `t` is `s` but for the peer link. -/
def PeerOnly (s t : State) : Prop := t = { s with pl := t.pl }

theorem PeerOnly.setPl (h : PeerOnly s t) (q : PlUnit) : PeerOnly s { t with pl := q } := by
  have hq := congrArg (fun y : State => ({ y with pl := q } : State)) h
  exact hq

/-- The window's bytes come first; only what they hold changes the mirrored stripes. -/
theorem takeWindow_parts (s : State) (off : Nat) (bytes : List Byte) (held : Tab (Tab Stripe)) :
    PeerOnly s (s.takeWindow off bytes held) ∧ (s.takeWindow off bytes held).pl.mirrorRaw = memWrite s.pl.mirrorRaw off bytes :=
  each_stable (fun x : State => PeerOnly s x ∧ x.pl.mirrorRaw = memWrite s.pl.mirrorRaw off bytes) held _
    (fun _ _ hx => ⟨hx.1.setPl _, hx.2⟩) ⟨rfl, rfl⟩

/-! ### Sections and pulled mirrors -/

theorem takeSection_spec (s : State) (p sect off : Nat) (bytes : List Byte) :
    s.takeSection p sect off bytes = { s with pl := (s.takeSection p sect off bytes).pl } ∧
      (s.takeSection p sect off bytes).section p sect = memWrite (if off = 0 then [] else s.section p sect) off bytes ∧
      Tab.get? (s.takeSection p sect off bytes).pl.standby p = some ((s.takeSection p sect off bytes).standbyTables p) ∧
      (s.takeSection p sect off bytes).pl.mirror = s.pl.mirror :=
  ⟨rfl, Tab.getD_of_get? (Tab.get?_set_same _ _ _) _, Tab.get?_set_same _ _ _, rfl⟩

/-- Frames that go out one by one stand in the trace one after the other. -/
theorem each_sendFrame {α : Type} (hpl : s.hasPL = true) (type : Nat) (f : α → List Nat) (xs : List α) :
    s.each xs (fun e t => t.sendFrame type (f e)) = { s with out := s.out ++ xs.map (fun e => Out.peer type (0 :: f e) []) } := by
  induction xs generalizing s with
  | nil =>
    rw [List.map_nil, List.append_nil]
    rfl
  | cons a xs ih =>
    rw [each_cons, sendFrame_eq hpl, ih (s := s.emit (.peer type (0 :: f a) [])) hpl]
    simp only [State.emit, List.append_assoc, List.map_cons, List.singleton_append]

/-- The state that has asked for a new copy of the mirror. -/
def State.copyWanted (s : State) : State :=
  let t := s.bump PL_BAD_FRAME 0 PL_BAD_FRAME_COUNT
  { t with pl := { t.pl with discardM := true } }

/-- Settles O53: each frame by what it applies, between its order and its confirmation. -/
theorem mirrorIsApplied : Obligations.MirrorIsApplied := by
  intro s m p n hup hb hpl
  have hlink (act : State → State) : s.whenLinked act = (act s).finish := whenLinked_up hup hb act
  refine ⟨fun hm hmir hd => ?_, fun hno unit off bytes slot entry seq set rs kind rels held => ?_, ?_, fun hd => ?_, fun hd => ?_,
    fun sect off bytes => ?_, fun hno => ?_, fun hyes => ?_, fun off bytes => ?_, fun x r hx hrec hr => ?_⟩
  · have hnext := fun act => applyM_next hm hmir hd act
    refine ⟨fun unit off bytes t ht => ?_, fun slot entry => ?_, fun seq off set => ?_, fun rs => ?_, fun rs => ?_,
      fun kind rs r hk => ?_, ?_, fun off bytes held => ?_⟩
    · obtain ⟨hframe, happlied, hstandby, hmirror⟩ := modMirror_parts s p n m (fun t =>
        { t with data := memWrite t.data (unit * 4096 + off) bytes
                 nextUnit := max t.nextUnit (ceilDiv (unit * 4096 + off + bytes.length) 4096) })
      rw [mirrored_of_get? ht] at hmirror
      refine ⟨_, ?_, hframe, happlied, hstandby, hmirror⟩
      simp only [Ends, Runs, exec_mirPayload, execMirPayload, hlink, hnext, State.mirPayload]
    · obtain ⟨hframe, happlied, -, hmirror⟩ := modMirror_parts s p n m (fun t =>
        { t with dir := (t.dir ++ List.replicate (slot + 1 - t.dir.length) DirEnt.placeholder).set slot (parseDirEnt entry)
                 nextUnit := max t.nextUnit ((parseDirEnt entry).off + ceilDiv (parseDirEnt entry).len 4096) })
      refine ⟨_, _, ?_, hframe, happlied, hmirror, dirent_placed _ _ _ _⟩
      simp only [Ends, Runs, exec_mirDirent, execMirDirent, hlink, hnext, State.mirDirent]
    · obtain ⟨hframe, happlied, -, hmirror⟩ := modMirror_parts s p n m (fun t =>
        { t with state := .sealed, sealSeq := seq, chunkOffset := off, set := set, sealTime := s.devNs })
      refine ⟨_, _, ?_, hframe, happlied, hmirror, rfl, rfl, rfl, rfl⟩
      simp only [Ends, Runs, exec_mirSeal, execMirSeal, hlink, hnext, State.mirSeal]
    · simp only [Ends, Runs, exec_mirDelta, execMirDelta, hlink, hnext, State.frameApplied]
    · refine ⟨(s.mirRelease p 0 rs).frameApplied m, ?_, ?_⟩
      · simp only [Ends, Runs, exec_mirRelease, execMirRelease, hlink, hnext]
      · rw [mirRelease_pending]
        rfl
    · obtain ⟨hframe, hlast⟩ := mirRelease_ledger hk s p rs r
      refine ⟨(s.mirRelease p kind (rs ++ [r])).frameApplied m, ?_, ?_, hlast⟩
      · simp only [Ends, Runs, exec_mirRelease, execMirRelease, hlink, hnext]
      · have h := congrArg (fun y : State => y.frameApplied m) hframe
        exact h
    · refine ⟨(s.mirRetire p n).frameApplied m, ?_, rfl, rfl, Tab.get?_erase_same _ _, fun k hk => Tab.get?_erase_other _ hk⟩
      simp only [Ends, Runs, exec_mirRetire, execMirRetire, hlink, hnext]
    · obtain ⟨hframe, hraw⟩ := takeWindow_parts s off bytes held
      refine ⟨(s.takeWindow off bytes held).frameApplied m, ?_, ?_, rfl, hraw, ?_⟩
      · simp only [Ends, Runs, exec_windowCopy, execWindowCopy, hlink, hnext]
      · exact hframe.setPl _
      · rintro rfl
        exact ⟨rfl, rfl⟩
  · have hsame := fun act => applyM_other hno act
    simp only [Ends, Runs, exec_mirPayload, execMirPayload, exec_mirDirent, execMirDirent, exec_mirSeal, execMirSeal, exec_mirDelta,
      execMirDelta, exec_mirRelease, execMirRelease, exec_mirRetire, execMirRetire, exec_windowCopy, execWindowCopy, hlink, hsame, and_self]
  · have heq : s.frameBad false = s.bump PL_BAD_FRAME 0 PL_BAD_FRAME_COUNT := by
      unfold State.frameBad
      exact if_neg (by simp)
    simp only [Ends, Runs, exec_peerFrameBad, execPeerFrameBad, hlink, heq]
  · have heq : s.frameBad true = s.bump PL_BAD_FRAME 0 PL_BAD_FRAME_COUNT := if_neg (by simp [hd])
    simp only [Ends, Runs, exec_peerFrameBad, execPeerFrameBad, hlink, heq]
  · have heq : s.frameBad true = (s.copyWanted.sendFrame 0x19 [s.pl.mseqApplied]).raise 0xDFF 4 noInst := if_pos (by simp [hd])
    refine ⟨s.copyWanted, ?_, rfl, ?_, fld_bump_same s _ _ _ _ (by decide)⟩
    · simp only [Ends, Runs, exec_peerFrameBad, execPeerFrameBad, hlink, heq]
    · exact (onlyRegs_refl _ { s with pl := { s.pl with discardM := true } }).bump List.mem_cons_self _ _
  · refine ⟨s.takeSection p sect off bytes, ?_, takeSection_spec s p sect off bytes⟩
    simp only [Ends, Runs, exec_standbyCopy, execStandbyCopy, hlink]
  · have heq : s.answerPull p = s.sendFrame 0x32 [p, 1] := if_neg (by rw [hno]; decide)
    simp only [Ends, Runs, exec_pullReq, execPullReq, hlink, heq]
  · have hsent := each_sendFrame hpl 0x31 (fun e : Nat × Stripe => [p, keyStripe e.1, e.2.nextUnit])
      (s.pl.mirror.filter (fun e => keyPool e.1 = p))
    have heq : s.answerPull p = (s.each (s.pl.mirror.filter (fun e => keyPool e.1 = p)) (fun e t =>
      t.sendFrame 0x31 [p, keyStripe e.1, e.2.nextUnit])).sendFrame 0x32 [p, 0] := if_pos hyes
    rw [hsent] at heq
    refine ⟨{ s with out := (s.out ++ (s.pl.mirror.filter (fun e => keyPool e.1 = p)).map
      (fun e => Out.peer 0x31 [0, p, keyStripe e.1, e.2.nextUnit] [])) }, ?_, rfl, rfl⟩
    simp only [Ends, Runs, exec_pullReq, execPullReq, hlink, heq]
  · simp only [Ends, Runs, exec_pullData, execPullData, hlink, State.takePull]
  · have hend (no : Bool) : s.endPull p no = if no then State.recoverLate { s with pl := { s.pl with pull := [] } } p r
        else State.recoverMirror { s with pl := { s.pl with pull := [] } } p r := by
      have hx' : State.pool? { s with pl := { s.pl with pull := [] } } p = some x := hx
      unfold State.endPull
      dsimp only
      rw [hx', hr]
      exact if_neg (by rw [hrec]; decide)
    have hlate := (hend true).trans (if_pos rfl)
    have hmirror := (hend false).trans (if_neg Bool.false_ne_true)
    constructor
    · simp only [Ends, Runs, exec_pullEnd, execPullEnd, hlink, hlate]
    · simp only [Ends, Runs, exec_pullEnd, execPullEnd, hlink, hmirror]

end Sys2Proof.Machine
end

section
/-! Ownership of pools: resolution, takeover, claims and giveback (R464, R467, R469, R626). -/

namespace Sys2Proof.Machine

open Sys2Proof

variable {s t : State}

/-! ### Resolution (R467) -/

/-- The journal members of the pools the device owns. -/
def State.journalSlots (s : State) : List Nat :=
  (s.ownedPools.flatMap (fun p => match s.pool? p with
    | some x => x.journal
    | none => [])).eraseDups

theorem mem_journalSlots (n : Nat) : n ∈ s.journalSlots ↔ ∃ p x, p ∈ s.ownedPools ∧ s.pool? p = some x ∧ n ∈ x.journal := by
  rw [State.journalSlots, List.mem_eraseDups, List.mem_flatMap]
  constructor
  · rintro ⟨p, hp, hn⟩
    split at hn
    next x hx => exact ⟨p, x, hp, hx, hn⟩
    · exact absurd hn List.not_mem_nil
  · rintro ⟨p, x, hp, hx, hn⟩
    exact ⟨p, hp, by rw [hx]; exact hn⟩

/-- Drive commands that go out one by one stand in the trace one after the other. -/
theorem each_driveOut {α : Type} (f : α → Out) (g : α → State → State) (hg : ∀ a x, g a x = x.emit (f a)) (xs : List α) :
    s.each xs g = { s with out := s.out ++ xs.map f } := by
  induction xs generalizing s with
  | nil =>
    rw [List.map_nil, List.append_nil]
    rfl
  | cons a xs ih =>
    rw [each_cons, hg, ih (s := s.emit (f a))]
    simp only [State.emit, List.append_assoc, List.map_cons, List.singleton_append]

theorem startResolution_eq (hpeer : s.pl.peer = .silent) (hres : s.pl.resolving = false) : s.startResolution =
    { s with out := s.out ++ s.journalSlots.map (fun n => Out.drive n 9 2 0 []), pl := { s.pl with resolving := true } } := by
  unfold State.startResolution
  rw [if_pos ⟨hpeer, by rw [hres]; rfl⟩]
  exact each_driveOut (s := { s with pl := { s.pl with resolving := true } }) (fun n => Out.drive n 9 2 0 [])
    (fun n t => t.driveOut n 9 2 0) (fun _ _ => rfl) s.journalSlots

/-- `t` has the outputs of `s`, the peer link, the store, the commands and the drives. -/
def OutGrown (s t : State) : Prop :=
  t.pl = s.pl ∧ t.se = s.se ∧ t.qm = s.qm ∧ t.dl = s.dl ∧ t.variant = s.variant ∧ ∀ o ∈ s.out, o ∈ t.out

namespace OutGrown

theorem refl (s : State) : OutGrown s s := ⟨rfl, rfl, rfl, rfl, rfl, fun _ h => h⟩

theorem trans {u : State} (h : OutGrown s t) (k : OutGrown t u) : OutGrown s u :=
  ⟨k.1.trans h.1, k.2.1.trans h.2.1, k.2.2.1.trans h.2.2.1, k.2.2.2.1.trans h.2.2.2.1, k.2.2.2.2.1.trans h.2.2.2.2.1,
    fun o ho => k.2.2.2.2.2 o (h.2.2.2.2.2 o ho)⟩

theorem raise (s : State) (code sev inst : Nat) (detail : List Byte) : OutGrown s (s.raise code sev inst detail) :=
  ⟨raise_pl _ _ _ _ _, raise_se _ _ _ _ _, raise_qm _ _ _ _ _, raise_dl _ _ _ _ _, raise_variant _ _ _ _ _,
    fun o ho => (raise_out (s := s) code sev inst detail).symm ▸ ho⟩

theorem emit (s : State) (o : Out) : OutGrown s (s.emit o) := ⟨rfl, rfl, rfl, rfl, rfl, fun _ h => List.mem_append_left _ h⟩

theorem each {α : Type} (h : OutGrown s t) (xs : List α) (f : α → State → State) (hf : ∀ a x, OutGrown x (f a x)) :
    OutGrown s (t.each xs f) :=
  each_stable (OutGrown s) xs f (fun a x hx => hx.trans (hf a x)) h

end OutGrown

/-- Whether the drive of a slot can be reached over its link. -/
def State.reached (s : State) (n : Nat) : Bool :=
  match s.slot? n with
  | some x => x.linkUp
  | none => false

/-- The PREEMPTs of one of the partner's pools. -/
def State.preemptPool (s : State) (reach : Nat → Bool) (p : Nat) : State :=
  match Tab.get? s.pl.standby p with
  | some t =>
    let ms := (t.pool.journal ++ t.pool.members).eraseDups
    s.each (ms.filter reach) (fun n s => s.driveOut n 9 3 5 (s.reservationKey (otherSide s.pl.side)))
  | none => s

theorem preemptPool_grown (s : State) (reach : Nat → Bool) (p : Nat) : OutGrown s (s.preemptPool reach p) := by
  unfold State.preemptPool
  split
  · exact (OutGrown.refl s).each _ _ fun _ x => OutGrown.emit x _
  · exact OutGrown.refl s

theorem preempt_eq (s : State) : s.preempt =
    let t := s.each (s.pl.standby.filter (fun e => e.2.pool.params.m > s.maxM)) (fun e s => s.raise 0xDFF 6 e.1)
    t.each t.partnerPools (fun p x => x.preemptPool t.reached p) := rfl

/-- The PREEMPT of a reachable member is among a pool's. -/
theorem preemptPool_sends {p n : Nat} {t : PoolTables} (ht : Tab.get? s.pl.standby p = some t) (hn : n ∈ t.pool.journal ++ t.pool.members)
    {reach : Nat → Bool} (hr : reach n = true) : Out.drive n 9 3 5 (s.reservationKey (otherSide s.pl.side)) ∈ (s.preemptPool reach p).out := by
  unfold State.preemptPool
  rw [ht]
  have hin : n ∈ ((t.pool.journal ++ t.pool.members).eraseDups).filter reach :=
    List.mem_filter.mpr ⟨List.mem_eraseDups.mpr hn, hr⟩
  refine each_reaches_mem (Pre := fun x => x.pl = s.pl)
    (Post := fun x => Out.drive n 9 3 5 (s.reservationKey (otherSide s.pl.side)) ∈ x.out) hin
    (fun n s => s.driveOut n 9 3 5 (s.reservationKey (otherSide s.pl.side))) (fun _ _ _ _ h => h) (fun x hx => ?_)
    (fun _ _ _ h => List.mem_append_left _ h) rfl
  refine List.mem_append_right _ (List.mem_singleton.mpr ?_)
  simp only [State.reservationKey, hx]

theorem mem_of_get? {α : Type} {t : Tab α} {k : Nat} {v : α} (h : Tab.get? t k = some v) : (k, v) ∈ t := by
  obtain ⟨e, he, hv⟩ := Option.map_eq_some_iff.mp h
  have hk : e.1 = k := by simpa using List.find?_some he
  exact hk ▸ hv ▸ List.mem_of_find?_eq_some he

theorem preempt_grown (s : State) : OutGrown s s.preempt := by
  rw [preempt_eq]
  exact ((OutGrown.refl s).each _ _ fun _ x => OutGrown.raise x _ _ _ _).each _ _ fun p x => preemptPool_grown x _ p

/-- The reachable members of each pool that this device can serve are preempted. -/
theorem preempt_sends {p n : Nat} {t : PoolTables} {y : Slot} (ht : Tab.get? s.pl.standby p = some t) (hm : t.pool.params.m ≤ s.maxM)
    (hn : n ∈ t.pool.journal ++ t.pool.members) (hy : s.slot? n = some y) (hl : y.linkUp = true) :
    Out.drive n 9 3 5 (s.reservationKey (otherSide s.pl.side)) ∈ s.preempt.out := by
  rw [preempt_eq]
  dsimp only
  have hgrown : OutGrown s (s.each (s.pl.standby.filter (fun e => e.2.pool.params.m > s.maxM)) (fun e s => s.raise 0xDFF 6 e.1)) :=
    (OutGrown.refl s).each _ _ fun _ x => OutGrown.raise x _ _ _ _
  generalize s.each (s.pl.standby.filter (fun e => e.2.pool.params.m > s.maxM)) (fun e s => s.raise 0xDFF 6 e.1) = u at hgrown ⊢
  obtain ⟨hpl, -, -, hdl, hvar, -⟩ := hgrown
  have hmax : u.maxM = s.maxM := by rw [State.maxM, hvar, State.maxM]
  have hpool : p ∈ u.partnerPools := by
    rw [State.partnerPools, hpl, hmax]
    exact List.mem_map.mpr ⟨(p, t), List.mem_filter.mpr ⟨mem_of_get? ht, decide_eq_true hm⟩, rfl⟩
  have hreach : u.reached n = true := by
    rw [State.reached, State.slot?, hdl, show Tab.get? s.dl.slots n = some y from hy]
    exact hl
  have hkey : s.reservationKey (otherSide s.pl.side) = u.reservationKey (otherSide u.pl.side) := by
    simp only [State.reservationKey, hpl]
  rw [hkey]
  refine each_reaches_mem (Pre := fun x => x.pl = u.pl)
    (Post := fun x => Out.drive n 9 3 5 (u.reservationKey (otherSide u.pl.side)) ∈ x.out) hpool (fun p x => x.preemptPool u.reached p)
    (fun b _ x _ hx => (preemptPool_grown x _ b).1.trans hx) (fun x hx => ?_)
    (fun b _ x hx => (preemptPool_grown x _ b).2.2.2.2.2 _ hx) rfl
  have hsend := preemptPool_sends (s := x) (p := p) (n := n) (t := t) (by rw [hx, hpl]; exact ht) hn hreach
  rwa [State.reservationKey, hx, ← State.reservationKey] at hsend

/-! ### Claims (R464) -/

theorem claimRefused_taken {pool n : Nat} {slots : List Nat} (hn : n ∈ slots) (h : (s.memberPool n).isSome = true ∨ s.pl.taken.contains n = true) :
    s.claimRefused pool slots = true := by
  refine Bool.or_eq_true_iff.mpr (.inr (List.any_eq_true.mpr ⟨n, hn, ?_⟩))
  rcases h with h | h <;> rw [h] <;> simp

theorem claimRefused_pool {pool : Nat} {slots : List Nat} (hp : pool ≠ 0xFF) (h : (s.pool? pool).isSome = true) :
    s.claimRefused pool slots = true := by
  refine Bool.or_eq_true_iff.mpr (.inl ?_)
  rw [h]
  simp [hp]

/-- Side B's own claims do not stand in the way of a claim for free drives. -/
theorem claimRefused_free {slots : List Nat} (hside : s.pl.side = 1)
    (h : ∀ n ∈ slots, (s.memberPool n).isSome = false ∧ s.pl.taken.contains n = false) : s.claimRefused 0xFF slots = false := by
  have hslots : slots.any (fun n => (s.memberPool n).isSome || s.pl.taken.contains n ||
      (([] : List Claim).any (fun c => c.slots.contains n))) = false := by
    refine List.any_eq_false.mpr fun n hn => ?_
    obtain ⟨hm, ht⟩ := h n hn
    rw [hm, ht, List.any_nil]
    decide
  unfold State.claimRefused
  rw [hside]
  exact hslots

theorem b2n_le (b : Bool) : b2n b ≤ 1 := by
  cases b <;> decide

/-! ### What CLAIM_REPLY goes on with -/

/-- The state without a claim. -/
def State.claimOff (s : State) (k : Claim) : State := { s with pl := { s.pl with claims := s.pl.claims.filter (· ≠ k) } }

theorem claimAnswered_none {pool id : Nat} (h : s.pl.claims.find? (fun k => k.pool = pool && k.id = id) = none) (refused : Bool) :
    s.claimAnswered pool id refused = s := by
  rw [State.claimAnswered, h]

theorem claimAnswered_subst {pool id : Nat} {k : Claim} (h : s.pl.claims.find? (fun k => k.pool = pool && k.id = id) = some k)
    (hk : k.cmd = substClaim) (refused : Bool) : s.claimAnswered pool id refused = (s.claimOff k).substReply k.slots refused := by
  rw [State.claimAnswered, h]
  exact if_pos hk

theorem claimAnswered_serial {pool id : Nat} {k : Claim} {q : Cmd} {c : HostCmd}
    (h : s.pl.claims.find? (fun k => k.pool = pool && k.id = id) = some k) (hk : k.cmd ≠ substClaim) (hq : s.cmd? k.cmd = some q)
    (hb : q.body = .serial c 2) (refused : Bool) : s.claimAnswered pool id refused =
      if !refused then (s.claimOff k).takeTurn k.cmd c true 0
      else if entryOpcode c = 0x20 then (s.claimOff k).complete k.cmd stPoolExists
      else (s.claimOff k).complete k.cmd stDriveState [] (match k.slots with
        | [n] => n
        | _ => noDetail) := by
  have hq' : (s.claimOff k).cmd? k.cmd = some q := hq
  rw [State.claimAnswered, h]
  dsimp only
  rw [if_neg hk, ← State.claimOff, hq']
  dsimp only
  rw [hb]
  rfl

/-! ### Giveback (R469) -/

/-- The state in which the partner's readiness for a pool is no longer waited for. -/
def State.giveHeard (s : State) (p : Nat) : State := { s with pl := { s.pl with giveSent := s.pl.giveSent.filter (· ≠ p) } }

theorem giveReady_eq {p id : Nat} {x : Pool} (hx : s.pool? p = some x) (hg : x.giving = some id) (refused : Bool) :
    s.giveReady p refused =
      if !s.pl.giveSent.contains p then s
      else if refused then ((s.giveHeard p).modPool p (fun x => { x with giving := none })).giveEnded id p true
      else
        let v := ((s.giveHeard p).modPool p (fun x => { x with side := otherSide s.pl.side })).newDescriptor p
        (((v.toStandby p).cedePool p).sendFrame 0x22 [p, match v.pool? p with
          | some x => x.descSeq
          | none => 0]).giveEnded id p false := by
  have hbind : (s.pool? p).bind (·.giving) = some id := by rw [hx]; exact hg
  unfold State.giveReady
  rw [hbind]
  rfl

/-! ### Takeover (R467) -/

/-- The state in which the partner is lost, before anything goes on. -/
def State.partnerLost (s : State) : State :=
  State.bumpWrap { s with pl := { s.pl with peer := .lost, resolving := false, fromPair := false, appendMseq := [], lag := [] } }
    PL_HANDOVERS 0 PL_HANDOVERS_TAKEOVERS

/-- Settles O54: each row by the branch that the peer's state, the claim or the give chooses. -/
theorem ownershipMoves : Obligations.OwnershipMoves := by
  intro s hup hb
  have hlink (act : State → State) : s.whenLinked act = (act s).finish := whenLinked_up hup hb act
  refine ⟨fun hpeer hres => ?_, fun hno => ?_, fun hpeer hres => ⟨?_, ?_, ?_⟩, fun pool id slots => ⟨fun hmir => ?_, fun hmir => ?_⟩,
    fun pool id refused => ⟨fun hnone => ?_, fun k hk => ?_⟩, fun p q hmir => ?_,
    fun p x id hx hg => ⟨fun hno refused => ?_, fun hyes => ?_⟩, fun p seq t hpeer ht => ?_⟩
  · have heq := startResolution_eq hpeer hres
    refine ⟨s.startResolution, s.journalSlots, ?_, by rw [heq], by rw [heq], mem_journalSlots⟩
    simp only [Ends, Runs, exec_resolutionStart, execResolutionStart, hlink]
  · have heq : s.startResolution = s := if_neg (fun hc => by
      rcases hno with hno | hno
      · exact hno hc.1
      · simp [hno] at hc)
    simp only [Ends, Runs, exec_resolutionStart, execResolutionStart, hlink, heq]
  · have heq : s.keysRead true = s.preempt := by
      rw [State.keysRead, if_pos ⟨hpeer, hres⟩]
      rfl
    obtain ⟨hpl, hse, hqm, -⟩ := preempt_grown s
    refine ⟨s.preempt, ?_, hpl, hse, hqm, fun p t n y ht hm hn hy hl => preempt_sends ht hm hn hy hl⟩
    simp only [Ends, Runs, exec_reservationKeysRead, execReservationKeysRead, hlink, heq]
  · refine ⟨_, _, rfl, rfl, ?_⟩
    simp only [Ends, Runs, exec_reservationKeysRead, execReservationKeysRead, hlink, State.keysRead, hpeer, hres, and_self, if_true,
      Bool.false_eq_true, if_false]
  · have heq : s.preempted = _ := if_pos ⟨hpeer, hres⟩
    refine ⟨s.partnerLost, _, (onlyRegs_refl _ _).setFld List.mem_cons_self _ _, fld_setFld_same _ _ _ _ _ (by decide), rfl, ?_⟩
    simp only [Ends, Runs, exec_preemptComplete, execPreemptComplete, hlink, heq]
    rfl
  · have heq : s.claimIn pool id slots = s := if_pos (by rw [hmir]; rfl)
    simp only [Ends, Runs, exec_claim, execClaim, hlink, heq]
  · have heq : s.claimIn pool id slots = s.sendFrame 0x04 [pool, id, b2n (s.claimRefused pool slots)] := if_neg (by rw [hmir]; decide)
    refine ⟨b2n (s.claimRefused pool slots), ?_, b2n_le _, fun n hn h => by rw [claimRefused_taken hn h]; rfl,
      fun hp h => by rw [claimRefused_pool hp h]; rfl, fun hp hside h => ?_⟩
    · simp only [Ends, Runs, exec_claim, execClaim, hlink, heq]
    · rw [hp, claimRefused_free hside h]
      rfl
  · simp only [Ends, Runs, exec_claimReply, execClaimReply, hlink, claimAnswered_none hnone]
  · refine ⟨s.claimOff k, rfl, fun hc => ?_, fun hc => ⟨_, rfl, ?_⟩, fun q c hc hq hbody => ?_⟩
    · simp only [Ends, Runs, exec_claimReply, execClaimReply, hlink, claimAnswered_subst hk hc, State.substReply, if_true]
    · simp only [Ends, Runs, exec_claimReply, execClaimReply, hlink, claimAnswered_subst hk hc, State.substReply, Bool.false_eq_true, if_false]
    · have hserial := claimAnswered_serial hk hc hq hbody
      refine ⟨?_, fun hop => ?_, fun n hop hslots => ?_⟩
      · have heq := (hserial false).trans (if_pos rfl)
        simp only [Ends, Runs, exec_claimReply, execClaimReply, hlink, heq]
      · have heq := (hserial true).trans ((if_neg (by decide)).trans (if_pos hop))
        simp only [Ends, Runs, exec_claimReply, execClaimReply, hlink, heq]
      · have heq := (hserial true).trans ((if_neg (by decide)).trans (if_neg hop))
        rw [hslots] at heq
        simp only [Ends, Runs, exec_claimReply, execClaimReply, hlink, heq]
  · have heq : s.giveReq p q = _ := if_neg (by rw [hmir]; decide)
    simp only [Ends, Runs, exec_giveReq, execGiveReq, hlink, heq]
  · have heq := (giveReady_eq hx hg refused).trans (if_pos (by rw [hno]; rfl))
    simp only [Ends, Runs, exec_giveReady, execGiveReady, hlink, heq]
  · have heq (refused : Bool) := (giveReady_eq hx hg refused).trans (if_neg (by rw [hyes]; decide))
    refine ⟨s.giveHeard p, rfl, ?_, _, rfl, fun y hy => ?_⟩
    · have htrue := (heq true).trans (if_pos rfl)
      simp only [Ends, Runs, exec_giveReady, execGiveReady, hlink, htrue]
    · have hfalse := (heq false).trans (if_neg Bool.false_ne_true)
      dsimp only at hfalse
      rw [hy] at hfalse
      simp only [Ends, Runs, exec_giveReady, execGiveReady, hlink, hfalse]
  · have heq : s.giveDone p seq = _ := if_pos ⟨hpeer, by rw [ht]; rfl⟩
    simp only [Ends, Runs, exec_giveDone, execGiveDone, hlink, heq]

end Sys2Proof.Machine
end

section
/-! What the media report (R89, R155, R180 to R182, R280, R660). -/

namespace Sys2Proof.Machine

open Sys2Proof

variable {s t : State}

/-! ### What writing to the sill logs leaves -/

/-- A pool without its logs. -/
def Pool.noLogs (x : Pool) : Pool := { x with logs := [] }

/-- `t` has the registers of `s`, and pool `p` of `s` but for its logs. -/
def LogsOnly (p : Nat) (s t : State) : Prop := (t.pool? p).map Pool.noLogs = (s.pool? p).map Pool.noLogs ∧ t.regs = s.regs

namespace LogsOnly

variable {p : Nat}

theorem refl (s : State) : LogsOnly p s s := ⟨rfl, rfl⟩

theorem trans {u : State} (h : LogsOnly p s t) (k : LogsOnly p t u) : LogsOnly p s u := ⟨k.1.trans h.1, k.2.trans h.2⟩

/-- What changes neither the pools nor the registers. -/
theorem of_eq (hp : t.se.pools = s.se.pools) (hr : t.regs = s.regs) : LogsOnly p s t := by
  refine ⟨?_, hr⟩
  rw [State.pool?, hp]
  rfl

theorem each {α : Type} (h : LogsOnly p s t) (xs : List α) (f : α → State → State) (hf : ∀ a x, LogsOnly p x (f a x)) :
    LogsOnly p s (t.each xs f) :=
  each_stable (LogsOnly p s) xs f (fun a x hx => hx.trans (hf a x)) h

theorem setLogs (s : State) (f : Pool → Tab SillLog) : LogsOnly p s (s.modPool p (fun y => { y with logs := f y })) := by
  refine ⟨?_, rfl⟩
  rw [pool?_modPool_same, Option.map_map]
  rfl

theorem driveOut (s : State) (n kind a b : Nat) (bytes : List Byte) : LogsOnly p s (s.driveOut n kind a b bytes) := of_eq rfl rfl

theorem wake (s : State) (slots : List Nat) (cls : Nat) : LogsOnly p s (s.wake slots cls) := by
  refine (refl s).each _ _ fun n x => ?_
  split
  · split
    · exact of_eq rfl rfl
    · split <;> exact of_eq rfl rfl
  · exact refl x

theorem appendLog (s : State) (n lgen tag gen : Nat) (rs : List SillRec) : LogsOnly p s (s.appendLog p n lgen tag gen rs) := by
  unfold State.appendLog
  split
  · refine (refl s).each _ _ fun r x => ?_
    split
    · exact (((setLogs x _).each _ _ fun _ y => driveOut y _ _ _ _ _)).trans (driveOut _ _ _ _ _ _)
    · exact refl x
  · exact refl s

theorem writeCkpt (s : State) : LogsOnly p s (s.writeCkpt p) := by
  unfold State.writeCkpt
  split
  · exact (wake s _ 1).each _ _ fun _ x => appendLog x _ _ _ _ _
  · exact refl s

/-- A pool's part that is no log is kept. -/
theorem pool (h : LogsOnly p s t) {x : Pool} (hx : s.pool? p = some x) : ∃ y, t.pool? p = some y ∧ Pool.noLogs y = Pool.noLogs x := by
  have hmap := h.1
  rw [hx] at hmap
  exact Option.map_eq_some_iff.mp hmap

end LogsOnly

/-! ### Labels (R280) -/

theorem driveGood_drive {n : Nat} {d : Drive} (hd : s.drive? n = some d) :
    (s.driveGood n).drive? n = some { d with timeouts := 0, hwErrors := 0 } := by
  rw [State.driveGood, drive?_modDrive_same, hd]
  rfl

/-- The state in which the back copy of a label is about to go out. -/
def State.backNext (s : State) (n i : Nat) : State :=
  (s.modDrive n (fun d => { d with labelBack := true })).modDrive n (fun d => { d with labelRear := i })

theorem labelDone_front {n : Nat} {d : Drive} {kind : LabelKind} (hd : s.drive? n = some d) (hk : d.labelWant = some kind)
    (hb : d.labelBack = false) (hr : d.labelRear < 4096) : s.labelDone n true = (s.backNext n (d.labelRear + 1)).driveOut n 3 1 d.labelRear
      ((s.backNext n (d.labelRear + 1)).labelBytes n d kind true) := by
  have hfull : ¬ 4096 ≤ d.labelRear := by omega
  unfold State.labelDone
  simp only [hd, hk, hb, Bool.not_true, Bool.false_eq_true, if_false, Bool.not_false, if_true]
  unfold State.issueLabel
  simp only [if_true, ge_iff_le, hfull, decide_false, Bool.false_and, Bool.false_eq_true, if_false]
  rfl

/-- The state in which both copies of a label stand. -/
def State.labelStands (s : State) (n seq : Nat) (kind : LabelKind) : State :=
  s.modDrive n (fun d => { d with labelWant := none, labelBack := false, labelSeq := d.labelSeq + 1,
                                  descSeq := seq, info := { d.info with label := some kind } })

theorem labelDone_back {n : Nat} {d : Drive} {kind : LabelKind} (hd : s.drive? n = some d) (hk : d.labelWant = some kind)
    (hb : d.labelBack = true) : ∃ seq, s.labelDone n true = (s.labelStands n seq kind).labelHook := by
  unfold State.labelDone
  simp only [hd, hk, hb, Bool.not_true, Bool.false_eq_true, if_false]
  exact ⟨_, rfl⟩

theorem labelDone_failed {n : Nat} {d : Drive} {kind : LabelKind} (hd : s.drive? n = some d) (hk : d.labelWant = some kind) :
    s.labelDone n false = s.labelFailed n := by
  unfold State.labelDone
  simp only [hd, hk, Bool.not_false, if_true]

theorem backNext_drive {n i : Nat} {d : Drive} (hd : s.drive? n = some d) :
    (s.backNext n i).drive? n = some { d with labelBack := true, labelRear := i } := by
  rw [State.backNext, drive?_modDrive_same, drive?_modDrive_same, hd]
  rfl

/-! ### Checkpoints (R155) -/

/-- The state in which a checkpoint has begun, before it is written. -/
def State.ckptBegun (s : State) (p reason : Nat) : State :=
  s.modPool p (fun x =>
    { x with ckpt := some { gen := (x.ckptGen + 1) % 2 ^ 64, deltaSeq := x.deltaCount,
                            released := ((s.stripesOf p).filter (fun e => e.2.state = .released)).map (·.1), reason := reason }
             ckptWanted := false })

theorem startCkpt_eq {p : Nat} {x : Pool} (hx : s.pool? p = some x) (hc : x.ckpt = none) (reason : Nat) :
    s.startCkpt p reason = if (s.ckptBegun p reason).silenced then s.ckptBegun p reason else (s.ckptBegun p reason).writeCkpt p := by
  unfold State.startCkpt
  rw [hx]
  dsimp only
  rw [if_neg (by rw [hc]; exact fun h => absurd h.1 (by decide))]
  rfl

theorem startCkpt_logsOnly {p : Nat} {x : Pool} (hx : s.pool? p = some x) (hc : x.ckpt = none) (reason : Nat) :
    LogsOnly p (s.ckptBegun p reason) (s.startCkpt p reason) := by
  rw [startCkpt_eq hx hc]
  split
  · exact LogsOnly.refl _
  · exact LogsOnly.writeCkpt _

/-- The state in which a checkpoint's deltas are dropped. -/
def State.ckptCounted (s : State) (p : Nat) (c : Ckpt) : State :=
  s.modPool p (fun x =>
    { x with ckptGen := c.gen, ckpt := none, deltaCount := x.deltaCount - c.deltaSeq, jBandsSince := 0,
             logs := x.logs.map (fun (e : Nat × SillLog) => (e.1, if e.2.last = e.2.done then e.2 else { e.2 with keep := e.2.done, done := e.2.last })) })

/-- The state with the mark of a full delta log looked at again. -/
def State.deltaLooked (s : State) : State := { s with se := { s.se with deltaFull := s.se.deltaFull && s.deltaTotal ≥ deltaCapacity } }

theorem deltaLooked_pool? (s : State) (p : Nat) : s.deltaLooked.pool? p = s.pool? p := rfl

/-- The state in which a checkpoint is complete, before what it covers is reclaimed. -/
def State.ckptTaken (s : State) (p : Nat) (c : Ckpt) : State :=
  match (s.ckptCounted p c).deltaLooked.pool? p with
  | some x => (s.ckptCounted p c).deltaLooked.journal p (.checkpoint c.gen x.jseq)
  | none => (s.ckptCounted p c).deltaLooked

theorem checkpointWritten_plain {p : Nat} {x : Pool} {k : Ckpt} (hx : s.pool? p = some x) (hk : x.ckpt = some k) (hr : k.reason = ckPlain) :
    s.checkpointWritten p = (s.ckptTaken p k).reclaimDrained p k.released := by
  have hbind : (s.pool? p).bind (·.ckpt) = some k := by rw [hx]; exact hk
  unfold State.checkpointWritten
  rw [hbind]
  dsimp only
  rw [hr, if_neg (by decide), if_neg (by decide), if_neg (by decide), if_neg (by decide), if_neg (by decide)]
  rfl

theorem ckptTaken_pool {p : Nat} {x : Pool} (k : Ckpt) (hx : s.pool? p = some x) : ∃ y, (s.ckptTaken p k).pool? p = some y ∧
    y.ckptGen = k.gen ∧ y.ckpt = none ∧ y.deltaCount = x.deltaCount - k.deltaSeq ∧ y.gather = x.gather ++ [.checkpoint k.gen x.jseq] := by
  unfold State.ckptTaken
  rw [deltaLooked_pool?, State.ckptCounted, pool?_modPool_same, hx]
  simp only [Option.map_some]
  rw [State.journal, pool?_modPool_same, deltaLooked_pool?, pool?_modPool_same, hx]
  exact ⟨_, rfl, rfl, rfl, rfl, rfl⟩

/-! ### The journal (R180 to R183) -/

/-- The state in which gathered records are taken into a block. -/
def State.blockTaken (s : State) (p : Nat) (x : Pool) : State :=
  s.modPool p (fun y => { y with jBlock := x.gather.take 63, gather := x.gather.drop 63, jWritten := [] })

/-- The state in which the records of a block have their numbers. -/
def State.blockNumbered (s : State) (p : Nat) (x : Pool) : State :=
  ((s.blockTaken p x).wake ((s.blockTaken p x).readableJournal p) 1).modPool p (fun y => { y with jseq := x.jseq + (x.gather.take 63).length })

theorem sendBlock_eq {p : Nat} {x : Pool} (hx : s.pool? p = some x) (hg : x.gather ≠ []) (hb : x.jBlock = []) (hs : s.silenced = false)
    (ht : s.logTight p x = false) : LogsOnly p (s.blockNumbered p x) (s.sendBlock p) := by
  have hgo : (x.gather.take 63).isEmpty = false := by
    cases hl : x.gather with
    | nil => exact absurd hl hg
    | cons r rs => rfl
  unfold State.sendBlock
  rw [hx]
  dsimp only
  rw [ht]
  simp only [Bool.false_eq_true, if_false]
  rw [if_neg (by rw [hgo, hb, hs]; decide)]
  exact (LogsOnly.refl _).each _ _ fun e x => LogsOnly.appendLog x _ _ _ _ _

theorem blockNumbered_pool {p : Nat} {x : Pool} (hx : s.pool? p = some x) : ∃ y, (s.blockNumbered p x).pool? p = some y ∧
    y.jBlock = x.gather.take 63 ∧ y.gather = x.gather.drop 63 ∧ y.jWritten = [] ∧ y.jseq = x.jseq + (x.gather.take 63).length := by
  have htaken : (s.blockTaken p x).pool? p =
      some { x with jBlock := x.gather.take 63, gather := x.gather.drop 63, jWritten := [] } := by
    rw [State.blockTaken, pool?_modPool_same, hx]
    rfl
  obtain ⟨y, hy, hsame⟩ := (LogsOnly.wake (p := p) (s.blockTaken p x) ((s.blockTaken p x).readableJournal p) 1).pool htaken
  have hblock : y.jBlock = x.gather.take 63 := congrArg Pool.jBlock hsame
  have hgather : y.gather = x.gather.drop 63 := congrArg Pool.gather hsame
  have hwritten : y.jWritten = [] := congrArg Pool.jWritten hsame
  refine ⟨{ y with jseq := x.jseq + (x.gather.take 63).length }, ?_, hblock, hgather, hwritten, rfl⟩
  rw [State.blockNumbered, pool?_modPool_same, hy]
  rfl

/-- While a log lacks room, records that open bands wait. -/
theorem sendBlock_tight {p : Nat} {x : Pool} (hx : s.pool? p = some x) (hall : x.gather.all JRec.opensBand = true)
    (ht : s.logTight p x = true) : s.sendBlock p = s := by
  have hnone : x.gather.filter (fun r => !JRec.opensBand r) = [] :=
    List.filter_eq_nil_iff.mpr fun r hr => by rw [List.all_eq_true.mp hall r hr]; decide
  unfold State.sendBlock
  rw [hx]
  dsimp only
  rw [ht, if_pos rfl, hnone]
  exact if_pos (.inl rfl)

/-- Settles O44: each report by the branch that the pool, the drive and the label choose. -/
theorem mediaReportsAreTaken : Obligations.MediaReportsAreTaken := by
  intro s p n x d hup hx hd
  refine ⟨fun b e hm hsub hband => ?_, fun kind hk => ⟨fun hb hr => ?_, fun hb => ?_, ?_⟩, fun b tries htries => ⟨?_, fun hlt => ?_, fun hge hz => ?_, fun hpos => ?_⟩,
    fun hpup hc => ?_, fun k hk hr => ?_, fun hg hb hs ht => ?_, fun hg hall ht => ?_, fun i y q b hy hq hb hfill hpast => ?_,
    fun hb hj hw => ?_, fun hb => ?_⟩
  · have hbind : (s.memberPool n).bind s.pool? = some x := by rw [hm]; exact hx
    have heq : s.retireCopied n b = (s.setBand e b (s.band n b x.params.bandMiB).1 (s.band n b x.params.bandMiB).2).retireSettle n := by
      unfold State.retireCopied
      rw [hbind, hsub]
      exact if_pos hband
    simp only [Ends, Runs, exec_retireCopyComplete, execRetireCopyComplete, whenUp_up hup, heq]
  · have heq := labelDone_front (driveGood_drive hd) hk hb hr
    refine ⟨(s.driveGood n).backNext n (d.labelRear + 1), ((s.driveGood n).backNext n (d.labelRear + 1)).labelBytes n
      { d with timeouts := 0, hwErrors := 0 } kind true, ?_, backNext_drive (driveGood_drive hd), rfl, rfl⟩
    simp only [Ends, Runs, exec_labelWriteDone, execLabelWriteDone, whenUp_up hup, Bool.not_true, Bool.and_false, Bool.false_eq_true,
      if_false, if_true, heq]
  · obtain ⟨seq, heq⟩ := labelDone_back (driveGood_drive hd) hk hb
    have hdrive : ((s.driveGood n).labelStands n seq kind).drive? n = some { d with
        timeouts := 0, hwErrors := 0, labelWant := none, labelBack := false, labelSeq := d.labelSeq + 1, descSeq := seq,
        info := { d.info with label := some kind } } := by
      rw [State.labelStands, drive?_modDrive_same, driveGood_drive hd]
      rfl
    refine ⟨(s.driveGood n).labelStands n seq kind, _, ?_, hdrive, rfl, rfl, rfl, rfl, rfl, rfl, rfl⟩
    simp only [Ends, Runs, exec_labelWriteDone, execLabelWriteDone, whenUp_up hup, Bool.not_true, Bool.and_false, Bool.false_eq_true,
      if_false, if_true, heq]
  · simp only [Ends, Runs, exec_labelWriteDone, execLabelWriteDone, whenUp_up hup, hd, hk, Option.isSome_some, Bool.not_false,
      Bool.and_self, Bool.false_eq_true, if_false, if_true, labelDone_failed hd hk]
  · have heq : s.reclaimDone n b true = s.memberReclaimed n b false := by
      rw [State.reclaimDone, htries, hd]
      rfl
    simp only [Ends, Runs, exec_reclaimActionDone, execReclaimActionDone, whenUp_up hup, heq]
  · have heq : s.reclaimDone n b false = { s with se := { s.se with reclaims := Tab.set s.se.reclaims (bandKey n b) (tries + 1) } } := by
      rw [State.reclaimDone, htries, hd]
      exact (if_neg (by decide)).trans (if_neg (by omega))
    simp only [Ends, Runs, exec_reclaimActionDone, execReclaimActionDone, whenUp_up hup, heq]
  · have heq : s.reclaimDone n b false = s.memberReclaimed n b true := by
      rw [State.reclaimDone, htries, hd]
      exact (if_neg (by decide)).trans ((if_pos (by omega)).trans (if_pos hz))
    simp only [Ends, Runs, exec_reclaimActionDone, execReclaimActionDone, whenUp_up hup, heq]
  · have heq : s.reclaimRetry n b = s.driveOut n 5 b 0 := by
      rw [State.reclaimRetry, htries]
      exact if_pos hpos
    simp only [Ends, Runs, exec_reclaimRetry, execReclaimRetry, whenUp_up hup, heq]
  · obtain ⟨y, hy, hsame⟩ := (startCkpt_logsOnly hx hc ckPlain).pool ((pool?_modPool_same s p _).trans (congrArg _ hx))
    have hckpt := congrArg Pool.ckpt hsame
    have hcount := congrArg Pool.deltaCount hsame
    refine ⟨s.startCkpt p ckPlain, y, _, ?_, hy, hckpt, rfl, rfl, rfl, hcount⟩
    simp only [Ends, Runs, exec_checkpointTimer, execCheckpointTimer, whenUp_up hup, hpup, if_true]
  · obtain ⟨y, hy, hgen, hnone, hcount, hgather⟩ := ckptTaken_pool k hx
    refine ⟨s.ckptTaken p k, y, ?_, hy, hgen, hnone, hcount, hgather⟩
    simp only [Ends, Runs, exec_checkpointComplete, execCheckpointComplete, whenUp_up hup, checkpointWritten_plain hx hk hr]
  · have hlogs := sendBlock_eq hx hg hb hs ht
    obtain ⟨y, hy, hblock, hgather, hwritten, hseq⟩ := blockNumbered_pool hx
    obtain ⟨z, hz, hsame⟩ := hlogs.pool hy
    have hregs : (s.blockNumbered p x).regs = s.regs := (LogsOnly.wake (p := p) (s.blockTaken p x) _ 1).2
    refine ⟨s.sendBlock p, z, ?_, hz, (congrArg Pool.jBlock hsame).trans hblock, (congrArg Pool.gather hsame).trans hgather,
      (congrArg Pool.jWritten hsame).trans hwritten, (congrArg Pool.jseq hsame).trans hseq, hlogs.2.trans hregs⟩
    simp only [Ends, Runs, exec_journalGatherExpiry, execJournalGatherExpiry, whenUp_up hup]
  · simp only [Ends, Runs, exec_journalGatherExpiry, execJournalGatherExpiry, whenUp_up hup, sendBlock_tight hx hall ht]
  · have heq : s.fillTimer i =
        (s.modSet i (fun z => { z with fill := s.committed i y q b })).journal y.pool (.fill i b (s.committed i y q b)) := by
      rw [State.fillTimer, hy, hq]
      dsimp only
      rw [hb]
      exact if_pos ⟨hfill, hpast⟩
    simp only [Ends, Runs, exec_journalFillTimer, execJournalFillTimer, whenUp_up hup, heq]
  · have hx' : (s.driveGood n).pool? p = some x := hx
    have hne : x.jBlock.isEmpty = false := by simpa using hb
    have heq : s.sillWritten p n = (s.driveGood n).blockWritten p n := by
      unfold State.sillWritten
      dsimp only
      rw [hx']
      exact if_pos (by rw [hne, hj, hw]; rfl)
    simp only [Ends, Runs, exec_sillRecordWritten, execSillRecordWritten, whenUp_up hup, heq]
  · have hx' : (s.driveGood n).pool? p = some x := hx
    have heq : s.sillWritten p n = (s.driveGood n).protWritten p n := by
      unfold State.sillWritten
      dsimp only
      rw [hx']
      exact if_neg (by rw [hb]; exact Bool.false_ne_true)
    simp only [Ends, Runs, exec_sillRecordWritten, execSillRecordWritten, whenUp_up hup, heq]

end Sys2Proof.Machine
end

section
/-! A held READ that goes on (R193, R199, R204). -/

namespace Sys2Proof.Machine

open Sys2Proof

variable {s t : State}

theorem read?_cmd {id : Nat} {r : ReadCmd} (h : s.read? id = some r) : ∃ c, s.cmd? id = some c ∧ c.body = .read r := by
  unfold State.read? at h
  split at h
  next c hc =>
    refine ⟨c, hc, ?_⟩
    split at h
    next r' hr => rw [hr, Option.some.inj h]
    · exact absurd h (by simp)
  · exact absurd h (by simp)

/-! ### A chunk that has been read -/

/-- The chunk reads of a READ with the bytes of one position. -/
def chunksWith (cs : List ChunkRead) (q : Nat) (bs : List Byte) : List ChunkRead :=
  cs.map (fun e => if e.pos = q && !e.lost then { e with got := some (padTo e.len bs) } else e)

/-- The read that is out for a position, when it is the only one there. -/
theorem outstanding_single {cs : List ChunkRead} {q : Nat} {k : ChunkRead} (h : cs.filter (fun c => c.pos = q) = [k]) (hl : k.lost = false)
    (hg : k.got = none) (ha : k.asleep = false) :
    cs.find? (fun k => k.pos = q && !k.lost && k.got.isNone && !k.asleep) = some k ∧ k.pos = q ∧ k ∈ cs := by
  have hk : k ∈ cs.filter (fun c => c.pos = q) := h ▸ List.mem_singleton_self k
  obtain ⟨hin, hpos⟩ := List.mem_filter.mp hk
  have hpos := of_decide_eq_true hpos
  refine ⟨?_, hpos, hin⟩
  cases hfind : cs.find? (fun k => k.pos = q && !k.lost && k.got.isNone && !k.asleep) with
  | none =>
    have hno := List.find?_eq_none.mp hfind k hin
    simp [hpos, hl, hg, ha] at hno
  | some j =>
    have hj := List.find?_some hfind
    simp only [Bool.and_eq_true, decide_eq_true_eq] at hj
    have hmem : j ∈ cs.filter (fun c => c.pos = q) :=
      List.mem_filter.mpr ⟨List.mem_of_find?_eq_some hfind, decide_eq_true hj.1.1.1⟩
    rw [h] at hmem
    rw [List.mem_singleton.mp hmem]

theorem chunksWith_same {cs : List ChunkRead} {q : Nat} {k : ChunkRead} (h : cs.filter (fun c => c.pos = q) = [k]) (hl : k.lost = false)
    (bs : List Byte) : ∀ c ∈ chunksWith cs q bs, c.pos = q → c = { k with got := some (padTo k.len bs) } := by
  intro c hc hpos
  obtain ⟨e, he, rfl⟩ := List.mem_map.mp hc
  have hq : e.pos = q := by
    revert hpos
    split <;> exact id
  have hk : e = k := by
    have hmem : e ∈ cs.filter (fun c => c.pos = q) := List.mem_filter.mpr ⟨he, decide_eq_true hq⟩
    rw [h] at hmem
    exact List.mem_singleton.mp hmem
  rw [if_pos (by rw [hq, hk, hl]; simp), hk]

theorem chunksWith_other (cs : List ChunkRead) (q : Nat) (bs : List Byte) : ∀ c ∈ chunksWith cs q bs, c.pos ≠ q → c ∈ cs := by
  intro c hc hpos
  obtain ⟨e, he, rfl⟩ := List.mem_map.mp hc
  split at hpos
  next hcond =>
    simp only [Bool.and_eq_true, decide_eq_true_eq] at hcond
    exact absurd hcond.1 hpos
  next hcond => rwa [if_neg hcond]

theorem readDone_data {id q : Nat} {r : ReadCmd} {k : ChunkRead} (hr : s.read? id = some r) (hid : id < 2 ^ 40)
    (hk : r.chunks.filter (fun c => c.pos = q) = [k]) (hl : k.lost = false) (hg : k.got = none) (ha : k.asleep = false) (bs : List Byte) :
    s.readDone id q (.data bs) none = ((s.setRead id { r with chunks := chunksWith r.chunks q bs }).readReady id).driveGood k.slot := by
  obtain ⟨c, hc, hb⟩ := read?_cmd hr
  obtain ⟨hfind, -, -⟩ := outstanding_single hk hl hg ha
  have hslot : s.readSlot id q = some k.slot := by
    rw [State.readSlot, if_neg (by unfold passIds; omega), hr, Option.bind_some, ← List.head?_filter, hk]
    rfl
  have hdone : s.chunkReadDone id q (.data bs) = (s.setRead id { r with chunks := chunksWith r.chunks q bs }).readReady id := by
    unfold State.chunkReadDone
    rw [hc]
    dsimp only
    rw [hb]
    dsimp only
    rw [hfind]
    rfl
  unfold State.readDone
  rw [hslot, if_neg (by unfold passIds; omega), hdone]
  rfl

/-! ### The hash of what is returned -/

/-- The state with a hash job taken. -/
def State.hashTaken (s : State) (job : Nat) : State := { s with se := { s.se with hashJobs := Tab.erase s.se.hashJobs job } }

theorem hashDone_read {job id cls : Nat} {d : BitVec 256}
    (h : Tab.get? s.se.hashJobs job = some { user := .read id, cls := cls, digest := d }) :
    s.hashDone job = (s.hashTaken job).readHashed id d := by
  rw [State.hashDone, h]
  rfl

theorem readHashed_good {id : Nat} {r : ReadCmd} (hr : s.read? id = some r) : s.readHashed id r.hash = s.returnRead id stSuccess := by
  obtain ⟨c, hc, hb⟩ := read?_cmd hr
  unfold State.readHashed
  rw [hc]
  dsimp only
  rw [hb]
  exact if_pos rfl

theorem readHashed_bad {id : Nat} {r : ReadCmd} {d : BitVec 256} (hr : s.read? id = some r) (hd : d ≠ r.hash) (hp : r.phase = 2) :
    s.readHashed id d = s.mismatchRead id := by
  obtain ⟨c, hc, hb⟩ := read?_cmd hr
  unfold State.readHashed
  rw [hc]
  dsimp only
  rw [hb]
  exact (if_neg hd).trans (if_neg (by rw [hp]; decide))

/-- Settles O40: the reads of a READ are one per position, and each row ends or goes on by the state of the READ. -/
theorem readsGoOn : Obligations.ReadsGoOn := by
  intro s id r hup hr
  refine ⟨fun q k bs hid hk hl hg ha => ?_, fun job cls hjob hbusy => ?_, fun job cls d hjob hbusy hd hp => ?_, fun hsleep hdef => ?_, fun hdef => ?_⟩
  · refine ⟨{ r with chunks := chunksWith r.chunks q bs }, ?_, List.length_map _, rfl, chunksWith_same hk hl bs, chunksWith_other r.chunks q bs⟩
    simp only [Ends, Runs, exec_chunkReadDone, execChunkReadDone, whenUp_up hup, readDone_data hr hid hk hl hg ha]
  · have hr' : (s.hashTaken job).read? id = some r := hr
    have heq := (hashDone_read hjob).trans (readHashed_good hr')
    simp only [Ends, Runs, exec_hashJobComplete, execHashJobComplete, whenUp_up hup, hbusy, Bool.false_eq_true, if_false, heq]
    rfl
  · have hr' : (s.hashTaken job).read? id = some r := hr
    have heq := (hashDone_read hjob).trans (readHashed_bad hr' hd hp)
    simp only [Ends, Runs, exec_hashJobComplete, execHashJobComplete, whenUp_up hup, hbusy, Bool.false_eq_true, if_false, heq]
    rfl
  · have heq : s.wakeTimeout id = s.complete id stWakeTimeout := by
      rw [State.wakeTimeout, hr]
      exact if_pos (by rw [hsleep, hdef]; rfl)
    simp only [Ends, Runs, exec_wakeTimeout, execWakeTimeout, whenUp_up hup, heq]
  · have heq : s.deferExpiry id = (s.setRead id { r with deferred := false }).wake ((r.chunks.filter (·.asleep)).map (·.slot)) 2 := by
      rw [State.deferExpiry, hr]
      exact if_pos hdef
    simp only [Ends, Runs, exec_deferLimitExpiry, execDeferLimitExpiry, whenUp_up hup, heq]

end Sys2Proof.Machine
end

section
/-! APPENDs that are placed (R129, R131, R133, R355). -/

namespace Sys2Proof.Machine

open Sys2Proof

variable {s t : State}

theorem append?_cmd {id : Nat} {a : AppendCmd} (h : s.append? id = some a) : ∃ c, s.cmd? id = some c ∧ c.body = .append a := by
  unfold State.append? at h
  split at h
  next c hc =>
    refine ⟨c, hc, ?_⟩
    split at h
    next a' ha => rw [ha, Option.some.inj h]
    · exact absurd h (by simp)
  · exact absurd h (by simp)

theorem append?_of_cmd {id : Nat} {c : Cmd} {a : AppendCmd} (hc : s.cmd? id = some c) (hb : c.body = .append a) : s.append? id = some a := by
  rw [State.append?, hc]
  dsimp only
  rw [hb]

theorem cmd?_setBody_same (s : State) (id : Nat) (b : CmdBody) : (s.setBody id b).cmd? id = (s.cmd? id).map (fun c => { c with body := b }) :=
  (Tab.get?_modify s.qm.cmds id id (fun c => { c with body := b })).trans (if_pos rfl)

theorem sendM_parts (s : State) (type : Nat) (args : List Nat) (bytes : List Byte) :
    (s.sendM type args bytes).se = s.se ∧ (s.sendM type args bytes).qm = s.qm := by
  unfold State.sendM
  split <;> exact ⟨rfl, rfl⟩

theorem each_sendM_parts {α : Type} (xs : List α) (f : α → State → State) (hf : ∀ a x, (f a x).se = x.se ∧ (f a x).qm = x.qm) :
    (s.each xs f).se = s.se ∧ (s.each xs f).qm = s.qm :=
  each_stable (fun x : State => x.se = s.se ∧ x.qm = s.qm) xs f
    (fun a x hx => ⟨(hf a x).1.trans hx.1, (hf a x).2.trans hx.2⟩) ⟨rfl, rfl⟩

theorem stripe?_of_se_eq (h : t.se = s.se) (p n : Nat) : t.stripe? p n = s.stripe? p n := by
  rw [State.stripe?, h, State.stripe?]

theorem stripe?_modEntry (s : State) (p n slot : Nat) (f : DirEnt → DirEnt) :
    (s.modEntry p n slot f).stripe? p n = (s.stripe? p n).map (fun t => { t with dir := t.dir.modify slot f }) :=
  stripe?_modStripe_same s p n _

/-! ### Payload (R131) -/

/-- The state with payload at its place in the window, counted in its entry. -/
def State.payloadPut (s : State) (a : AppendCmd) (n slot off : Nat) (bs : List Byte) : State :=
  State.modEntry (s.modStripe a.pool n (fun t => { t with data := memWrite t.data (a.off * 4096 + off) bs })) a.pool n slot
    (fun e => { e with arrived := min (a.got + bs.length) a.len })

/-- The command once payload has come. -/
def AppendCmd.grown (a : AppendCmd) (k : Nat) : AppendCmd := { a with got := a.got + k, whole := decide (a.got + k ≥ a.len) }

/-- The state with payload mirrored, and counted in its command. -/
def State.payloadCounted (s : State) (id : Nat) (a : AppendCmd) (n slot off : Nat) (bs : List Byte) : State :=
  State.setBody ((s.payloadPut a n slot off bs).each (List.range (ceilDiv bs.length 4096)) (fun i s =>
    s.sendM 0x10 [a.pool, n, a.off, off + 4096 * i] ((bs.drop (4096 * i)).take 4096))) id (.append (AppendCmd.grown a bs.length))

theorem payloadIn_eq {id n slot off : Nat} {a : AppendCmd} (ha : s.append? id = some a) (hp : a.placed = some (n, slot)) (hw : a.whole = false)
    (hoff : off < a.len) (bytes : List Byte) : s.payloadIn id off bytes =
      let u := s.payloadCounted id a n slot off (bytes.take (a.len - off))
      if (AppendCmd.grown a (bytes.take (a.len - off)).length).whole then
        match u.stripe? a.pool n with
        | some t => u.hashSubmit (.append id) 1 (Config.sha3 (memRead t.data (a.off * 4096) a.len))
        | none => u
      else u := by
  obtain ⟨c, hc, hb⟩ := append?_cmd ha
  unfold State.payloadIn
  rw [hc]
  dsimp only
  rw [hb]
  dsimp only
  rw [hp]
  dsimp only
  rw [if_neg (by rw [hw]; exact not_or.mpr ⟨Bool.false_ne_true, Nat.not_le.mpr hoff⟩)]
  unfold State.payloadCounted State.payloadPut AppendCmd.grown
  rw [hp] <;> rfl

theorem payloadCounted_parts {id n slot off : Nat} {a : AppendCmd} {t : Stripe} (ha : s.append? id = some a)
    (ht : s.stripe? a.pool n = some t) (bs : List Byte) : (∃ x : Stripe, (s.payloadCounted id a n slot off bs).stripe? a.pool n = some x ∧
        x.data = memWrite t.data (a.off * 4096 + off) bs) ∧
      (s.payloadCounted id a n slot off bs).append? id = some (AppendCmd.grown a bs.length) ∧
      (s.payloadCounted id a n slot off bs).se.nextHash = s.se.nextHash := by
  obtain ⟨c, hc, -⟩ := append?_cmd ha
  obtain ⟨hse, hqm⟩ := each_sendM_parts (s := s.payloadPut a n slot off bs) (List.range (ceilDiv bs.length 4096)) (fun i s =>
    s.sendM 0x10 [a.pool, n, a.off, off + 4096 * i] ((bs.drop (4096 * i)).take 4096)) (fun _ x => sendM_parts x _ _ _)
  have hput : (s.payloadPut a n slot off bs).stripe? a.pool n = some { t with
      data := memWrite t.data (a.off * 4096 + off) bs
      dir := t.dir.modify slot (fun e => { e with arrived := min (a.got + bs.length) a.len }) } := by
    rw [State.payloadPut, stripe?_modEntry, stripe?_modStripe_same, ht]
    rfl
  have hstripe : (s.payloadCounted id a n slot off bs).stripe? a.pool n = (s.payloadPut a n slot off bs).stripe? a.pool n :=
    stripe?_of_se_eq hse _ _
  refine ⟨⟨_, hstripe.trans hput, rfl⟩, ?_, ?_⟩
  · refine append?_of_cmd (c := { c with body := .append (AppendCmd.grown a bs.length) }) ?_ rfl
    rw [State.payloadCounted, cmd?_setBody_same, State.cmd?, hqm, show Tab.get? (s.payloadPut a n slot off bs).qm.cmds id = some c from hc]
    rfl
  · have hnext := congrArg (·.nextHash) hse
    exact hnext

/-! ### The hash of a payload (R133) -/

/-- The state with the hash of a payload in its entry. -/
def State.hashPut (s : State) (a : AppendCmd) (id n slot : Nat) (d : BitVec 256) : State :=
  s.modEntry a.pool n slot (fun e => if e.cmd = some id then { e with hash := some d } else e)

theorem dir_modify {l : List DirEnt} {k : Nat} {e : DirEnt} (h : l[k]? = some e) (f : DirEnt → DirEnt) : (l.modify k f)[k]? = some (f e) := by
  rw [List.getElem?_modify, h]
  simp

theorem hashPut_stripe {a : AppendCmd} {id n slot : Nat} {t : Stripe} {e : DirEnt} (ht : s.stripe? a.pool n = some t)
    (he : t.dir[slot]? = some e) (d : BitVec 256) : ∃ x, (s.hashPut a id n slot d).stripe? a.pool n = some x ∧
      x.dir[slot]? = some (if e.cmd = some id then { e with hash := some d } else e) := by
  refine ⟨{ t with dir := t.dir.modify slot (fun e => if e.cmd = some id then { e with hash := some d } else e) }, ?_, dir_modify he _⟩
  rw [State.hashPut, stripe?_modEntry, ht]
  rfl

/-- The state with a directory entry mirrored, and its frame waited for. -/
def State.entrySent (s : State) (id : Nat) (args : List Nat) (bytes : List Byte) : State :=
  if s.mirrors then
    { s.sendM 0x11 args bytes with pl := { (s.sendM 0x11 args bytes).pl with
        appendMseq := Tab.set (s.sendM 0x11 args bytes).pl.appendMseq id (s.sendM 0x11 args bytes).pl.mseqSent } }
  else s.sendM 0x11 args bytes

theorem entrySent_se (s : State) (id : Nat) (args : List Nat) (bytes : List Byte) : (s.entrySent id args bytes).se = s.se := by
  have h := (sendM_parts s 0x11 args bytes).1
  unfold State.entrySent
  split <;> exact h

theorem appendHashed_eq {a : AppendCmd} {id n slot : Nat} {t : Stripe} {e : DirEnt} (ha : s.append? id = some a)
    (hp : a.placed = some (n, slot)) (ht : s.stripe? a.pool n = some t) (he : t.dir[slot]? = some e) (d : BitVec 256) :
    ∃ args bytes, s.appendHashed id d = ((s.hashPut a id n slot d).entrySent id args bytes).tryAck id := by
  obtain ⟨x, hx, hdir⟩ := hashPut_stripe (id := id) ht he d
  have hbind : ((s.hashPut a id n slot d).stripe? a.pool n).bind (fun t => t.dir[slot]?) =
      some (if e.cmd = some id then { e with hash := some d } else e) := by
    rw [hx]
    exact hdir
  unfold State.appendHashed
  rw [ha]
  dsimp only
  rw [hp]
  dsimp only
  rw [← State.hashPut, hbind]
  exact ⟨_, _, rfl⟩

/-! ### The acknowledgement (R129) -/

theorem tryAck_eq {a : AppendCmd} {id n slot : Nat} {t : Stripe} {e : DirEnt} (ha : s.append? id = some a)
    (hp : a.placed = some (n, slot)) (ht : s.stripe? a.pool n = some t) (he : t.dir[slot]? = some e) : s.tryAck id =
      if !a.whole || e.hash.isNone then s
      else if t.state = .written ∨ t.state = .released ∨ t.state = .broken then s.ackAppend id true
      else if a.durable then s
      else if s.silenced then s
      else if s.pl.peer = .paired then
        match Tab.get? s.pl.appendMseq id with
        | some q => if q ≤ s.pl.mseqConfirmed then s.ackAppend id false else s
        | none => s
      else if s.se.covered then s.ackAppend id false
      else s := by
  obtain ⟨c, hc, hb⟩ := append?_cmd ha
  unfold State.tryAck
  rw [hc]
  dsimp only
  rw [hb]
  dsimp only
  rw [hp]
  dsimp only
  rw [ht]
  dsimp only
  rw [he] <;> rfl

/-- The state in which an APPEND is acknowledged, before its completion. -/
def State.acked (s : State) (a : AppendCmd) (id n slot : Nat) : State :=
  let t := (s.modEntry a.pool n slot (fun e => if e.cmd = some id then { e with ackTime := s.devNs, timeUnset := !s.timeSet } else e)).modEntry
    a.pool n slot (fun e => { e with cmd := none })
  { t with pl := { t.pl with appendMseq := Tab.erase t.pl.appendMseq id } }

theorem ackAppend_eq {a : AppendCmd} {id n slot : Nat} (ha : s.append? id = some a) (hp : a.placed = some (n, slot)) (hpar : a.parent = none)
    (durable : Bool) : s.ackAppend id durable =
      (s.acked a id n slot).complete id stSuccess (locatorBytes a.pool n a.off a.len) 0 (if durable then flDriveDurable else 0) := by
  obtain ⟨c, hc, hb⟩ := append?_cmd ha
  have hc' : State.cmd? (s.modEntry a.pool n slot (fun e =>
      if e.cmd = some id then { e with ackTime := s.devNs, timeUnset := !s.timeSet } else e)) id = some c := hc
  unfold State.ackAppend
  rw [hc]
  dsimp only
  rw [hb]
  dsimp only
  rw [hp]
  dsimp only
  unfold State.endAppend
  rw [hc']
  dsimp only
  rw [hb]
  dsimp only
  rw [hp]
  dsimp only
  rw [hpar, if_pos rfl]
  simp only [and_true]
  rfl

theorem acked_stripe {a : AppendCmd} {id n slot : Nat} {t : Stripe} {e : DirEnt} (ht : s.stripe? a.pool n = some t)
    (he : t.dir[slot]? = some e) : ∃ x, (s.acked a id n slot).stripe? a.pool n = some x ∧
      (e.cmd = some id → x.dir[slot]? = some { e with ackTime := s.devNs, timeUnset := !s.timeSet, cmd := none }) := by
  have hstripe : (s.acked a id n slot).stripe? a.pool n = some { t with
      dir := (t.dir.modify slot (fun e => if e.cmd = some id then { e with ackTime := s.devNs, timeUnset := !s.timeSet } else e)).modify slot
        (fun e => { e with cmd := none }) } := by
    have hsame : (s.acked a id n slot).stripe? a.pool n = State.stripe? ((s.modEntry a.pool n slot (fun e =>
      if e.cmd = some id then { e with ackTime := s.devNs, timeUnset := !s.timeSet } else e)).modEntry
        a.pool n slot (fun e => { e with cmd := none })) a.pool n := rfl
    rw [hsame, stripe?_modEntry, stripe?_modEntry, ht]
    rfl
  refine ⟨_, hstripe, fun hcmd => ?_⟩
  dsimp only
  rw [dir_modify (dir_modify he _), if_pos hcmd]

/-- Settles O37: payload, hash and acknowledgement of a placed APPEND, each by the state its entry is in. -/
theorem appendsAreAcknowledged : Obligations.AppendsAreAcknowledged := by
  intro s id n slot a t e hup ha hp ht he hbusy
  have htry := tryAck_eq ha hp ht he
  have hready (done : Bool) (hdone : done = (a.whole && e.hash.isSome)) (hyes : done = true) : ¬ (!a.whole || e.hash.isNone) = true := by
    rw [hdone] at hyes
    revert hyes
    cases a.whole <;> cases e.hash <;> simp
  have hrun (u : State) (h : s.tryAck id = u) : Ends (.appendTransferDone id) s u := by
    simp only [Ends, Runs, exec_appendTransferDone, execAppendTransferDone, whenUp_up hup, h]
  refine ⟨?_, fun off bytes hw hoff => ?_, fun job d cls hjob => ?_, fun done hdone => ⟨fun hno => ?_, fun hyes hpar durable hcase => ?_, fun hyes hopen hdur => ?_⟩,
    fun hpar hw => ?_, fun i c r hc hb => ?_⟩
  · simp only [Ends, Runs, exec_appendAdmit, execAppendAdmit, whenUp_up hup]
  · have heq := payloadIn_eq ha hp hw hoff bytes
    obtain ⟨⟨x, hx, hdata⟩, happ, hnext⟩ := payloadCounted_parts (slot := slot) (off := off) ha ht (bytes.take (a.len - off))
    have hread : memRead x.data (a.off * 4096 + off) (bytes.take (a.len - off)).length = bytes.take (a.len - off) := by
      rw [hdata, memRead_memWrite_same]
    have hout : ∀ i, i < a.off * 4096 + off ∨ a.off * 4096 + off + (bytes.take (a.len - off)).length ≤ i → memGet x.data i = memGet t.data i :=
      fun i hi => by rw [hdata, memGet_memWrite_outside _ _ _ _ hi]
    by_cases hwhole : (AppendCmd.grown a (bytes.take (a.len - off)).length).whole = true
    · have hsub := heq.trans (if_pos hwhole)
      rw [hx] at hsub
      dsimp only at hsub
      refine ⟨(s.payloadCounted id a n slot off (bytes.take (a.len - off))).hashSubmit (.append id) 1
        (Config.sha3 (memRead x.data (a.off * 4096) a.len)), x, _, ?_, hx, happ, hread, hout, rfl, rfl, fun _ => ?_⟩
      · simp only [Ends, Runs, exec_payloadArrival, execPayloadArrival, whenUp_up hup, hsub]
      · rw [← hnext]
        exact Tab.get?_set_same _ _ _
    · have hsub := heq.trans (if_neg hwhole)
      refine ⟨_, x, _, ?_, hx, happ, hread, hout, rfl, rfl, fun h => absurd h hwhole⟩
      simp only [Ends, Runs, exec_payloadArrival, execPayloadArrival, whenUp_up hup, hsub]
  · have ha' : (s.hashTaken job).append? id = some a := ha
    obtain ⟨args, bytes, heq⟩ := appendHashed_eq ha' hp (show (s.hashTaken job).stripe? a.pool n = some t from ht) he d
    obtain ⟨x, hx, hdir⟩ := hashPut_stripe (s := s.hashTaken job) (id := id) ht he d
    have hdone : s.hashDone job = (s.hashTaken job).appendHashed id d := by
      rw [State.hashDone, hjob]
      rfl
    have hse := entrySent_se ((s.hashTaken job).hashPut a id n slot d) id args bytes
    refine ⟨((s.hashTaken job).hashPut a id n slot d).entrySent id args bytes, x, ?_, (stripe?_of_se_eq hse _ _).trans hx,
      fun hcmd => hdir.trans (by rw [if_pos hcmd]), ?_⟩
    · simp only [Ends, Runs, exec_hashJobComplete, execHashJobComplete, whenUp_up hup, hbusy, Bool.false_eq_true, if_false, hdone, heq]
    · rw [hse]
      exact Tab.get?_erase_same _ _
  · refine hrun s (htry.trans (if_pos ?_))
    rw [hdone] at hno
    revert hno
    cases a.whole <;> cases e.hash <;> simp
  · rw [if_neg (hready done hdone hyes)] at htry
    obtain ⟨x, hx, hdir⟩ := acked_stripe (a := a) (id := id) ht he
    refine ⟨s.acked a id n slot, x, hrun _ ?_, hx, hdir⟩
    rw [← ackAppend_eq ha hp hpar]
    rcases hcase with ⟨rfl, hst⟩ | ⟨rfl, hst, hnd, hpeer, q, hq, hle⟩ | ⟨rfl, hst, hnd, hpeer, hcov⟩
    · exact htry.trans (if_pos (.inl hst))
    · have hsil : s.silenced = false := by rw [State.silenced, hpeer]
      rw [htry, if_neg (by rw [hst]; decide), if_neg (by rw [hnd]; decide), if_neg (by rw [hsil]; decide), if_pos hpeer, hq]
      exact if_pos hle
    · have hsil : s.silenced = false := by rw [State.silenced, hpeer]
      rw [htry, if_neg (by rw [hst]; decide), if_neg (by rw [hnd]; decide), if_neg (by rw [hsil]; decide), if_neg (by rw [hpeer]; decide)]
      exact if_pos hcov
  · refine hrun s ?_
    rw [htry, if_neg (hready done hdone hyes), if_neg (by rw [hopen]; decide), if_pos hdur]
  · obtain ⟨c, hc, hb⟩ := append?_cmd ha
    simp only [Ends, Runs, exec_hostAccessError, execHostAccessError, whenUp_up hup, hc, hb, hpar, hw, Option.isNone_none, Bool.not_false,
      Bool.and_self, if_true]
  · simp only [Ends, Runs, exec_hostAccessError, execHostAccessError, whenUp_up hup, hc, hb]

end Sys2Proof.Machine
end

section
/-! Bytes at a fixed place of a byte string, and the header blocks of a sill log: what a header says lies in its first 64 bytes. -/

namespace Sys2Proof.Machine

open Sys2Proof

theorem padTo_of_le {n : Nat} {bs : List Byte} (h : n ≤ bs.length) : padTo n bs = bs.take n :=
  List.take_append_of_le_length h

theorem slice_of_le {bs : List Byte} {off n : Nat} (h : off + n ≤ bs.length) : slice bs off n = (bs.drop off).take n :=
  padTo_of_le (by rw [List.length_drop]; omega)

theorem slice_append_left {pre : List Byte} {off n : Nat} (h : off + n ≤ pre.length) (rest : List Byte) :
    slice (pre ++ rest) off n = slice pre off n := by
  rw [slice_of_le h, slice_of_le (by rw [List.length_append]; omega), List.drop_append_of_le_length (by omega),
    List.take_append_of_le_length (by rw [List.length_drop]; omega)]

theorem leAt_append_left {pre : List Byte} {off n : Nat} (h : off + n ≤ pre.length) (rest : List Byte) :
    leAt (pre ++ rest) off n = leAt pre off n := congrArg leVal (slice_append_left h rest)

@[simp] theorem leBytes_length (n v : Nat) : (leBytes n v).length = n := by
  induction n generalizing v with
  | zero => rfl
  | succ n ih => rw [leBytes, List.length_cons, ih]

theorem leVal_leBytes (n v : Nat) : leVal (leBytes n v) = v % 256 ^ n := by
  induction n generalizing v with
  | zero => rw [Nat.pow_zero, Nat.mod_one]; rfl
  | succ n ih => rw [leBytes, leVal, ih, BitVec.toNat_ofNat, Nat.pow_succ' (n := n), Nat.mod_mul]

theorem leAt_append_leBytes (pre rest : List Byte) (n v : Nat) :
    leAt (pre ++ (leBytes n v ++ rest)) pre.length n = v % 256 ^ n := by
  rw [leAt, slice_of_le (by simp), List.drop_left, List.take_left' (leBytes_length n v), leVal_leBytes]

/-- Whether a block is a valid header depends on its first 64 bytes and on its length. -/
theorem blockHeads_append {pre rest : List Byte} (hpre : pre.length = 64) (hrest : rest.length = 4032) (uuid : Nat) :
    blockHeads uuid (pre ++ rest) = blockHeads uuid (pre ++ zeros 4032) := by
  have hzeros : (zeros 4032).length = 4032 := List.length_replicate
  have htake : ∀ r : List Byte, (pre ++ r).take 60 = pre.take 60 := fun r => List.take_append_of_le_length (by omega)
  have hslice : ∀ r : List Byte, slice (pre ++ r) 0 4 = slice pre 0 4 := slice_append_left (by omega)
  have hle : ∀ {off n : Nat}, off + n ≤ 64 → ∀ r : List Byte, leAt (pre ++ r) off n = leAt pre off n :=
    fun h => leAt_append_left (by omega)
  simp only [blockHeads, List.length_append, hpre, hrest, hzeros, htake, hslice, hle (show 4 + 2 ≤ 64 by decide),
    hle (show 6 + 1 ≤ 64 by decide), hle (show 8 + 16 ≤ 64 by decide), hle (show 60 + 4 ≤ 64 by decide)]

end Sys2Proof.Machine
end
section
/-! A retained window found with a clean journal, where the new generation's sill log shows the commit mark of the pool's scarf: the
commit is settled before the layer ends (R269). -/

namespace Sys2Proof.Machine

open Sys2Proof

/-! ### The log of a committed generation -/

/-- The first 64 bytes of a header block of pool 7's log, of a record of checkpoint 1 (R291). -/
def logHead (kind seq blocks aux : Nat) : List Byte :=
  withCrc (ascii "FZSL" ++ leBytes 2 1 ++ leBytes 1 kind ++ zeros 1 ++ leBytes 16 7 ++ leBytes 8 seq ++ zeros 8 ++ leBytes 8 1 ++
    leBytes 8 blocks ++ leBytes 4 aux)

/-- A block that holds one journal record, CLEAN. -/
def cleanBlock : List Byte := padTo 4096 (logHead 1 1 0 1 ++ journalRecord false 1 1 (.clean 0 0))

/-- BEGIN of a checkpoint with one section, of type 1 and 57 bytes. -/
def beginBlock : List Byte := padTo 4096 (logHead 2 2 0 1 ++ leBytes 4 1 ++ zeros 4 ++ leBytes 8 0 ++ leBytes 8 57)

/-- DATA of the checkpoint, with one body block. -/
def dataBlock : List Byte := padTo 4096 (logHead 3 3 1 0)

/-- The checkpoint's body: a section whose commit mark is set. -/
def markBlock : List Byte := padTo 4096 (zeros 56 ++ leBytes 1 1)

/-- END of the checkpoint, with the hash `v` of its section. -/
def endBlock (v : Nat) : List Byte := logHead 4 4 0 1 ++ (leBytes 32 v ++ zeros 4000)

def committedLog (v : Nat) : List (List Byte) := [cleanBlock, beginBlock, dataBlock, markBlock, endBlock v]

/-- The records of that log. -/
def committedRecords (v : Nat) : List LogRecord :=
  [⟨0, 1, 1, 0, 1, 1, cleanBlock, []⟩, ⟨1, 2, 2, 0, 1, 1, beginBlock, []⟩, ⟨2, 3, 3, 0, 1, 0, dataBlock, [markBlock]⟩,
    ⟨4, 4, 4, 0, 1, 1, endBlock v, []⟩]

theorem logHead_end_length : (logHead 4 4 0 1).length = 64 := by decide +kernel

theorem endBlock_heads (v : Nat) : blockHeads 7 (endBlock v) = true := by
  rw [endBlock, blockHeads_append logHead_end_length (by rw [List.length_append, leBytes_length, zeros, List.length_replicate])]
  decide +kernel

theorem leAt_endBlock {off n : Nat} (h : off + n ≤ 64) (v : Nat) : leAt (endBlock v) off n = leAt (logHead 4 4 0 1) off n :=
  leAt_append_left (by rw [logHead_end_length]; exact h) _

theorem endBlock_fields (v : Nat) : leAt (endBlock v) 6 1 = 4 ∧ leAt (endBlock v) 24 8 = 4 ∧ leAt (endBlock v) 32 8 = 0 ∧
    leAt (endBlock v) 40 8 = 1 ∧ leAt (endBlock v) 48 8 = 0 ∧ leAt (endBlock v) 56 4 = 1 := by
  simp only [leAt_endBlock (show 6 + 1 ≤ 64 by decide), leAt_endBlock (show 24 + 8 ≤ 64 by decide), leAt_endBlock (show 32 + 8 ≤ 64 by decide),
    leAt_endBlock (show 40 + 8 ≤ 64 by decide), leAt_endBlock (show 48 + 8 ≤ 64 by decide), leAt_endBlock (show 56 + 4 ≤ 64 by decide)]
  decide +kernel

theorem endBlock_hash (v : BitVec 256) : leAt (endBlock v.toNat) 64 32 = v.toNat := by
  have h := leAt_append_leBytes (logHead 4 4 0 1) (zeros 4000) 32 v.toNat
  rw [logHead_end_length] at h
  rw [endBlock, h, Nat.mod_eq_of_lt]
  exact v.isLt

theorem blocks_head : [cleanBlock, beginBlock, dataBlock, markBlock].map (blockHeads 7) = [true, true, true, false] := by decide +kernel

theorem blocks_fields : [cleanBlock, beginBlock, dataBlock].map (fun b =>
      [leAt b 6 1, leAt b 24 8, leAt b 32 8, leAt b 40 8, leAt b 48 8, leAt b 56 4]) =
    [[1, 1, 0, 1, 0, 1], [2, 2, 0, 1, 0, 1], [3, 3, 0, 1, 1, 0]] := by decide +kernel

theorem logRecords_committedLog (v : Nat) : logRecords 7 (committedLog v) = committedRecords v := by
  have hheads := blocks_head
  have hfields := blocks_fields
  obtain ⟨hkind, hseq, htime, hgen, hbody, haux⟩ := endBlock_fields v
  simp only [List.map_cons, List.map_nil, List.cons.injEq, and_true] at hheads hfields
  simp [logRecords, committedLog, committedRecords, List.zipIdx_cons, hheads, hfields, endBlock_heads, hkind, hseq, htime, hgen, hbody, haux,
    sortBy, insertBy, List.range_succ]

/-- The bytes the log's one section has, and the hash its END record must hold. -/
def markSection : List Byte := slice markBlock 0 57

def markHash : BitVec 256 := Config.sha3 markSection

theorem beginBlock_table : (leAt beginBlock 64 4, leAt beginBlock 72 8, leAt beginBlock 80 8) = (1, 0, 57) := by decide +kernel

theorem markSection_mark : leAt markSection 56 1 = 1 := by decide +kernel

theorem completeCkpt_committedRecords : completeCkpt (committedRecords markHash.toNat) 1 = some (4, 0, [(1, markSection)]) := by
  have htable := beginBlock_table
  have hhash := endBlock_hash markHash
  simp only [Prod.mk.injEq] at htable
  obtain ⟨hty, hoff, hlen⟩ := htable
  simp [completeCkpt, committedRecords, sortBy, insertBy, List.range_succ, List.zipIdx_cons, hty, hoff, hlen, hhash, ceilDiv]
  exact ⟨rfl, rfl⟩

theorem latestCkpt_committedRecords : latestCkpt [committedRecords markHash.toNat] = some (1, 0, [(1, markSection)]) := by
  have hgens : ckptGens (committedRecords markHash.toNat) = [1] := rfl
  simp [latestCkpt, hgens, completeCkpt_committedRecords, pickBest]

/-! ### What recovery reads of it -/

/-- Two data chunks and one parity of 256 KiB, under a layout generation. -/
def twoPlusOne (gen : Nat) : Params := { k := 2, m := 1, chunk := 0, bandMiB := 256, d := 3, single := false, gen := gen }

/-- A COPIED scarf from generation 1, whose commit mark the device has not seen. -/
def copiedScarf : Scarf :=
  { state := .copied, old := twoPlusOne 1, oldEntries := 0, oldSill := [], oldJournal := [], oldSillBands := 1, oldMembers := [],
    newMembers := [], taken := [], returnList := [], recopy := [], opened := [], commitMark := false }

/-- Pool 1, ASSEMBLING, of that scarf. -/
def copiedPool : Pool :=
  { Pool.created 0 7 (zeros 32) (twoPlusOne 2) Policy.default [] [] 1 0 0 with state := .assembling, scarf := some copiedScarf }

/-- An unpaired device that runs, with a retained window. -/
def retainedCopied : State :=
  { State.reset with
    boot := { BootUnit.reset with fwReady := true }
    pw := { PwUnit.reset with retained := true }
    se := { SeUnit.reset with pools := [(1, copiedPool)] } }

/-- The logs of both generations, the old one's empty. -/
def committedInfo : RecoveryInfo := { RecoveryInfo.blank with sill := [(0, 1, []), (0, 2, committedLog markHash.toNat)] }

theorem committedInfo_logs : RecoveryInfo.logsOf committedInfo copiedPool 2 = [committedRecords markHash.toNat] :=
  congrArg (fun rs => [rs]) (logRecords_committedLog markHash.toNat)

theorem committedInfo_newGen : RecoveryInfo.newGen committedInfo = some 2 := rfl

theorem committedInfo_committed : RecoveryInfo.committed committedInfo copiedPool = some 2 := by
  simp [RecoveryInfo.committed, committedInfo_newGen, committedInfo_logs, latestCkpt_committedRecords, markSection_mark]

theorem committedInfo_latest : RecoveryInfo.latest committedInfo copiedPool = some (1, 0, [(1, markSection)]) := by
  rw [RecoveryInfo.latest, committedInfo_committed, Option.getD_some, committedInfo_logs, latestCkpt_committedRecords]

theorem committedInfo_blocks :
    committedInfo.sill.flatMap (fun e => logRecords copiedPool.uuid e.2.2) = committedRecords markHash.toNat := by
  have hlog : logRecords copiedPool.uuid (committedLog markHash.toNat) = committedRecords markHash.toNat := logRecords_committedLog _
  have hnone : logRecords copiedPool.uuid [] = [] := rfl
  simp [committedInfo, hlog, hnone]

theorem cleanBlock_record : parseJournal (slice cleanBlock 64 64) = some (1, .clean 0 0) := by decide +kernel

theorem committedInfo_journal : RecoveryInfo.journal committedInfo copiedPool = .clean := by
  have hrecords : RecoveryInfo.records committedInfo copiedPool = some [(1, .clean 0 0)] := by
    rw [RecoveryInfo.records, committedInfo_blocks]
    simp [committedRecords, List.range_succ, cleanBlock_record, sortBy, insertBy]
  rw [RecoveryInfo.journal, hrecords]
  rfl

theorem committedInfo_prot (side : Nat) : RecoveryInfo.prot committedInfo copiedPool side = none := by
  rw [RecoveryInfo.prot, committedInfo_blocks, committedInfo_latest]
  rfl

/-! ### The recovery -/

theorem retainedCopied_premises : retainedCopied.up = true ∧ retainedCopied.pool? 1 = some copiedPool ∧ retainedCopied.mayAssemble = true ∧
    retainedCopied.paired = false ∧ retainedCopied.retainedPool 1 = true := by decide +kernel

/-- That device once the commit is settled, before its layer ends. -/
def settledCopied : State :=
  ((retainedCopied.placeMembers 1 []).modScarf 1 (fun c => { c with state := .committing })).commitPoint 1

theorem settleCommit_retainedCopied : (retainedCopied.placeMembers 1 []).settleCommit 1 committedInfo = settledCopied := by
  have hpool : (retainedCopied.placeMembers 1 []).pool? 1 = some copiedPool := by decide +kernel
  have hgoes : (copiedScarf.forward && !copiedScarf.commitMark &&
      RecoveryInfo.committed committedInfo copiedPool = some copiedPool.params.gen) = true := by
    rw [committedInfo_committed]; decide
  rw [State.settleCommit, hpool]
  exact if_pos hgoes

theorem recoverPool_retainedCopied : retainedCopied.recoverPool 1 committedInfo = settledCopied.endLayer 1 0 := by
  obtain ⟨-, hpool, hmay, hpaired, hretained⟩ := retainedCopied_premises
  have hdesc : committedInfo.desc = none := rfl
  have hstate : copiedPool.state = .assembling ∧ copiedPool.recovery = .none ∧ copiedPool.ckpt = none := by decide
  obtain ⟨hassembling, hrecovery, hckpt⟩ := hstate
  simp only [State.recoverPool, hdesc, hpool, hmay, hpaired, hassembling, hrecovery, hckpt, committedInfo_prot, State.takeProt, hretained,
    settleCommit_retainedCopied, committedInfo_journal]
  rfl

/-- The commit mark of pool 1's scarf, if it has one. -/
def State.scarfMark (s : State) : Option Bool := ((s.pool? 1).bind (·.scarf)).map (·.commitMark)

theorem settledCopied_scarfMark : (settledCopied.endLayer 1 0).finish.scarfMark ≠ some false := by decide +kernel

theorem unsettledCopied_scarfMark : ((retainedCopied.placeMembers 1 []).endLayer 1 0).finish.scarfMark = some false := by decide +kernel

/-- Refutes O46: the recovery from a retained window with a clean journal settles a scarf whose commit mark the new generation's sill log
shows (R269), which its first clause leaves out. -/
theorem not_poolsAreRecoveredAndCopied : ¬ Obligations.PoolsAreRecoveredAndCopied := by
  intro h
  obtain ⟨hup, hpool, hmay, hpaired, hretained⟩ := retainedCopied_premises
  obtain ⟨hassembling, -⟩ := h.1 retainedCopied 1 copiedPool committedInfo hup hpool
  obtain ⟨hclean, -⟩ := hassembling rfl rfl rfl hmay hpaired rfl (committedInfo_prot _)
  have hends : Runs (.poolRecovery 1 committedInfo) retainedCopied ((retainedCopied.placeMembers 1 []).endLayer 1 0).finish :=
    hclean hretained committedInfo_journal
  have hruns : exec (.poolRecovery 1 committedInfo) retainedCopied = .next (retainedCopied.recoverPool 1 committedInfo).finish :=
    congrArg Host.Outcome.next (if_pos hup)
  rw [Runs, hruns, recoverPool_retainedCopied, Host.Outcome.next.injEq] at hends
  exact settledCopied_scarfMark ((congrArg State.scarfMark hends).trans unsettledCopied_scarfMark)

end Sys2Proof.Machine
end
